-- ==== Sys2Proof/Word.lean ====
section
/-! DEFINITION. The words of the HX-20 and the plainest helpers over them: byte and register widths, counters that saturate, and the sparse table `Tab` in which every indexed piece of state is held. -/

namespace Sys2Proof

abbrev Byte := BitVec 8
abbrev W16 := BitVec 16
abbrev W32 := BitVec 32
abbrev W64 := BitVec 64

/-- A sparse table: entries by ascending index, none equal to what an unlisted index reads as. -/
abbrev Tab (α : Type) := List (Nat × α)

end Sys2Proof
end

