-- ==== Sys2Proof/Syntax.lean ====
section
/-! DEFINITION. The commands of the block: one constructor of `Instr` for each row of spec/opcode_table.json, with the operands the row's rule names. The structures before it are the messages, packets and measurements those operands carry. -/

namespace Sys2Proof

/-! ### Who sends, and the header of an Oxsum message (05 R180, R191, R195) -/

/-- The path of an Oxsum command. `fn` is a PCI function: 0 the PF, t + 1 the VF of tenant t. -/
inductive Path where
  | pcie (fn : Nat)
  | sideband (port fn : Nat)
  | mctp
  deriving DecidableEq, Repr, Inhabited

/-- What of a command's 16-byte header its execution needs (05 R180). `rsvd` is true when a reserved field
or STATUS is nonzero (R182); `length` is LENGTH. -/
structure Req where
  path   : Path
  seq    : W16
  tenant : Byte
  length : Nat
  rsvd   : Bool := false
  noIrq  : Bool := false
  /-- The firmware hits an internal error in the command's first step (R200, INTERNAL). -/
  fwErr  : Bool := false
  deriving DecidableEq, Repr, Inhabited

/-- A command as it waits in a ring or arrives on the sideband or over MCTP. -/
structure CmdHdr where
  opcode : W16
  req    : Req
  deriving DecidableEq, Repr, Inhabited

/-! ### Board -/

/-- Strap bumps and TEST_EN as they stand at PR release (01 R25 to R32, 23 R925). Beryl straps are listed by
the Garnet port they sit on; Onyx entries are (stack, place in stack, staircase position, mirror via active). -/
structure Straps where
  side    : Bool := false
  testEn  : Bool := false
  beryl   : List (Bool × Bool) := []
  onyxStk : List Bool := []
  onyx    : List (Nat × Bool) := []
  deriving DecidableEq, Repr, Inhabited

/-- Causes of a DR (03 R112). -/
inductive DrCause where
  | fault | cmd | pwrOk | refclk | wdog | tap
  deriving DecidableEq, Repr, Inhabited

/-- PCIe capabilities, and the kinds of BAR, that R164 and R165 name. -/
inductive Cap where
  | pcie | pm | msix | aer | ari | sriov | ats | pri | pasid | dsn | doe | acs | resizableBar | msi | ioBar
  deriving DecidableEq, Repr, Inhabited

/-- PCIe configuration fields that the manual names (05 R163 to R176, 08 R314, R339, R341, 09 R353). `bar k` is the k-th dword of the two
64-bit BARs; `hasCap` asks whether a capability is present. -/
inductive CfgField where
  | vendorId | deviceId | classCode | bar (k : Nat) | hasCap (c : Cap)
  | memSpaceEnable | busMasterEnable | vfEnable | firstVfOffset | vfStride | totalVfs
  | maxPayloadSupported | maxPayload | maxReadRequest | completionTimeout | ctoRangeA | ctoRangesBCD | ctoDisableSupported
  | aspmL0s | aspmL1 | l1Substates | linkWidth | linkGts
  | msixEnable | msixEntries | msixTableBar | msixTableOffset | msixPbaOffset
  | aerCorrectable | aerUncorrectable | atomicOpEnable
  | atsStu | atsQueueDepth | atsPageAligned | atsGlobalInvalidate | pasidWidth | pasidExecute | pasidPrivileged
  | priEnable | pageAllocation | serialNumber | doeDiscovery | doeSpdm | other
  deriving DecidableEq, Repr, Inhabited

/-! ### Host Facet (04) -/

/-- A Facet flit as received (04 R128 to R130). -/
structure FacetFlit where
  ch     : Nat
  null   : Bool
  last   : Bool
  seq    : Nat
  ack    : Nat
  nak    : Bool
  crdCh  : Nat
  crdCnt : Nat
  crcOk  : Bool := true
  trackErrs : List (Nat × Nat) := []
  /-- A memory message with an opcode outside the table that ends in this flit: tag, tenant, and whether it is posted (R136). -/
  unsup  : Option (Nat × Nat × Bool) := none
  deriving DecidableEq, Repr, Inhabited

/-- Skew the receiver measures in UI (04 R141): of lanes in their cluster, by cluster and lane, and of clusters in the port. -/
structure FacetSkew where
  lanes    : List (Nat × Nat × Int) := []
  clusters : List (Nat × Int) := []
  deriving DecidableEq, Repr, Inhabited

/-- The outcome of the phase sweep of one lane (04 R142). -/
structure LaneSweep where
  cluster : Nat
  lane    : Nat
  steps   : Nat
  errors  : Nat
  deriving DecidableEq, Repr, Inhabited

/-- The telemetry identifiers (21 R853). -/
structure Telem where
  layer    : W16
  operator : W16
  range    : W32
  deriving DecidableEq, Repr, Inhabited

/-- A memory-channel message of a compute die (04, memory message header). `len` is in bytes. -/
structure MemMsg where
  fabric   : Bool
  relaxed  : Bool := false
  aop      : Nat := 0
  tag      : Nat
  tenant   : Nat
  pasid    : Nat := 0
  len      : Nat
  addr     : W64
  data     : List W64 := []
  telem    : Option Telem := none
  /-- The priority hint, ATTR bit 3. -/
  hint     : Bool := false
  deriving DecidableEq, Repr, Inhabited

/-! ### Queues (07) -/

/-- Bytes 16 to 63 of a descriptor, by operation (07 R268, 10 R425). -/
inductive DescBody where
  | dma (src dst : W64) (len : Nat) (views : Byte)
  | remote (remote loc : W64) (len : Nat) (aop : Nat) (operand compare : W64)
  | coll (src dst : W64) (count group fmt rop deadline quorum : Nat) (cflags : Byte) (seed bitmap : W64)
  | sem (sem operand compare : W64) (aop cond : Nat)
  | vault (epoch loc : W64) (offset len region : Nat)
  deriving DecidableEq, Repr, Inhabited

/-- A descriptor as fetched from its ring (07 R267). `rsvd` is true when a reserved byte or flag is nonzero. -/
structure Desc where
  op     : Nat
  irq    : Bool := false
  fence  : Bool := false
  relaxed : Bool := false
  telem  : Option Telem := none
  pasid  : Nat := 0
  rsvd   : Bool := false
  body   : DescBody
  deriving DecidableEq, Repr, Inhabited

/-- The payload of TEN_ASSIGN (06, tenant group). -/
structure Assign where
  pktFloor : Nat := 0
  pktCeil  : Nat := 0
  redFloor : Nat := 0
  redCeil  : Nat := 0
  pgbFloor : Nat := 0
  pgbCeil  : Nat := 0
  semBlocks : Nat := 0
  queues   : Nat := 0
  vaultGib : Nat := 0
  weight   : Nat := 0
  rateGbps : Nat := 0
  deriving DecidableEq, Repr, Inhabited

/-- The payload of Q_CREATE (06, queue group). -/
structure QArgs where
  queue   : Nat
  qtype   : Nat
  ring    : W64
  log2    : Nat
  vector  : Nat
  weight  : Nat
  rate    : Nat
  timeout : Nat
  deriving DecidableEq, Repr, Inhabited

/-! ### Translation (08) -/

/-- An ATS Translation Completion (08 R317): `fail` is Unsupported Request or Completer Abort. -/
structure AtsCpl where
  fail     : Bool
  r        : Bool
  w        : Bool
  sizeLog2 : Nat
  pa       : W64
  deriving DecidableEq, Repr, Inhabited

/-- Which register of a key range, or the default, a write names (08 R327). -/
inductive KeyReg where
  | base | lim | ctl | keydef
  deriving DecidableEq, Repr, Inhabited

/-! ### Fabric packets (11 R451) -/

/-- Packet types (11 R453). -/
inductive PType where
  | rd | wr | wrp | atom | atomp | rsp | rspd | coll | sem | subctl | steer | cnp | hello | tsync | unknown
  deriving DecidableEq, Repr, Inhabited

/-- The header of a fabric packet. `bad` is true when the packet has an unknown type or a nonzero field defined as
zero (R455); `passed` when it has passed its end-of-packet check (R478). -/
structure Pkt where
  alias_  : Bool := true
  ce      : Bool := false
  echo    : Bool := false
  relaxed : Bool := false
  dst     : Nat
  dstTen  : Nat := 0
  src     : Nat
  srcTen  : Nat := 0
  hops    : Nat := 0
  ksel    : Nat := 0
  redir   : Bool := false
  qglobal : Nat := 0
  serial  : W32 := 0
  addr    : W64 := 0
  /-- AUX: read length of an RD, atomic code, status of a response (11 R453). -/
  aux     : Nat := 0
  len     : Nat := 0
  data    : List W64 := []
  telem   : Option Telem := none
  bad     : Bool := false
  passed  : Bool := true
  port    : Nat := 0
  /-- The virtual channel it came in on (PFLAGS bits 2:0). -/
  vc      : Nat := 0
  deriving DecidableEq, Repr, Inhabited

/-- A HELLO payload (11 R449). -/
structure Hello where
  ident  : W64
  node   : Nat
  valid  : Bool
  port   : Nat
  trunk  : Option Nat
  gm     : Nat
  gmPri  : Nat
  gmHops : Nat
  deriving DecidableEq, Repr, Inhabited

/-- A collective message (10, Model; 11 R454). `elems` are the chunk's elements as carried: FMT codes in
CONTRIB and CARRY, binary32 or int32 words in PARTIAL. -/
structure CollMsg where
  tenant   : Nat
  group    : Nat
  inst     : Nat
  chunk    : Nat
  member   : Nat
  ghash    : W32
  shape    : W32
  elems    : List W32 := []
  last     : Bool := false
  admitted : List Nat := []
  passed   : Bool := true
  /-- The optical port it came in on, and SRC of its packet. -/
  port     : Nat := 0
  src      : Nat := 0
  srcTen   : Nat := 0
  /-- DST of its packet, where that names a node and not an alias. -/
  toNode   : Option Nat := none
  /-- CE, REDIR and the VC of its packet, and whether R455 finds it malformed. -/
  ce       : Bool := false
  redir    : Bool := false
  vc       : Nat := 0
  bad      : Bool := false
  /-- The key selector of its packet (19 R808) and, where that encrypts a payload, the bytes it carries in place of the fields of the payload, with
  the width of its elements. -/
  ksel     : Nat := 0
  cipher   : Option (Nat × List Byte) := none
  deriving DecidableEq, Repr, Inhabited

/-- What a FINAL carries on its last chunk (11 R454). -/
structure FinalInfo where
  status  : Nat
  present : List Nat
  missing : Nat
  late    : Nat
  carried : List Nat := []
  /-- The root refuses this one member (10 R409, R412, R441). -/
  refusal : Bool := false
  deriving DecidableEq, Repr, Inhabited

/-- The data a reduce engine folds in one chunk step (10 R433): from the member itself, from a child, or a carry. -/
inductive FoldSrc where
  | own
  | child (member : Nat)
  | carry (member : Nat)
  deriving DecidableEq, Repr, Inhabited

/-- A semaphore request at its home node (10 R425, 11 R453). -/
structure SemReq where
  op      : Nat
  aop     : Nat
  cond    : Nat
  operand : W64
  compare : W64
  deriving DecidableEq, Repr, Inhabited

/-! ### Optical link (12) -/

/-- Link-management items (12 R533). The allocator's and the key exchange's items have rows of their own. -/
inductive LItem where
  | endMark
  | retract (vc seq : Nat)
  | rekeyReady (par : Bool)
  | wal
  | keymsg
  | undefined
  deriving DecidableEq, Repr, Inhabited

/-- What a DATA flit carries of its VC's packets (12 R505): whether a packet continues, ends or starts in it, and the credits of the packets
that start in it (R532). On the Twin port, MTYPE and LEN of the messages that start in it (18 R753, R754). -/
structure FlitData where
  cont    : Bool := false
  ends    : Nat := 0
  starts  : Bool := false
  credits : Nat := 0
  msgs    : List (Nat × Nat) := []
  deriving DecidableEq, Repr, Inhabited

/-- A link flit as received, after FEC and the tag (12 R503, R504, R512). `corrected` lists the coded byte
positions FEC corrected. -/
structure LinkFlit where
  ftype  : Nat
  vc     : Nat := 0
  enc    : Bool := true
  kgen   : Bool := false
  nak    : Bool := false
  seq    : Nat
  ack    : Nat
  cvc    : Nat := 0
  ccum   : Nat := 0
  txc8   : Nat := 0
  fecOk  : Bool := true
  tagOk  : Bool := true
  corrected : List Nat := []
  data   : FlitData := {}
  items  : List LItem := []
  deriving DecidableEq, Repr, Inhabited

/-- The content of a training word TS1, TS2 or TS3, and on how many wavelengths it arrived alike (12 R519, R520). -/
structure TrainWord where
  copies : Nat
  ident  : W64 := 0
  port   : Nat := 0
  round  : Nat := 0
  rxgood : BitVec 18 := 0
  count  : Nat := 0
  width  : Nat := 16
  map    : List (Nat × Nat) := []
  deriving DecidableEq, Repr, Inhabited

/-! ### Optics (13, 14, 15) -/

/-- One filter output of a ring (13 R555, R557): X1 and P0. -/
structure FilterOut where
  x1 : Int
  p0 : Nat
  deriving DecidableEq, Repr, Inhabited

/-- One heater sense scan of a group (13 R570, R571): millivolts of the idle slot, the heaters at their driver's current limit, and the readback
powers on the code scale. -/
structure SenseScan where
  idleMv   : Nat
  limited  : BitVec 18
  readback : List Nat := []
  deriving DecidableEq, Repr, Inhabited

/-- A sample a Ruby takes of a laser (14 R583, R587): millivolts, drive current in 0.1 mA and monitor power in µW. `vddMv` is VDD_LAS. -/
structure LasSample where
  mv      : Nat
  vddMv   : Nat := 2200
  current : Nat
  mpd     : Nat
  deriving DecidableEq, Repr, Inhabited

/-- What a SCAN or PEAK sweep finds (15 R624, R627): the code to take, and X1 and P0 predicted at the steepest point of the record's flank. -/
structure ScanRes where
  code : Nat
  x1   : Int
  p0   : Nat
  deriving DecidableEq, Repr, Inhabited

/-- The statistics of the LEVELS step and of a light receive polish (15 R628), in units of 1/64 LSB: the four
conditional means and the two standard deviations, and the lustre value of their q. -/
structure LevelStats where
  m11 : Int
  m10 : Int
  m01 : Int
  m00 : Int
  s1  : Nat
  s0  : Nat
  deriving DecidableEq, Repr, Inhabited

/-! ### Twin (18) -/

/-- The body of PAIR (18 R753). -/
structure PairMsg where
  ident  : W64
  pkgid  : Nat
  side   : Bool
  oxMaj  : Byte
  fwVer  : W32
  served : BitVec 16
  semuse : List Nat
  fits   : Bool := true
  deriving DecidableEq, Repr, Inhabited

/-- A queue as its standby knows it (18 R762): configuration, HEAD, TAIL, started and completed descriptors, and the records of the
latter as two words. `insts` are the group and instance of started collectives. -/
structure QSnap where
  args    : QArgs
  head    : W32 := 0
  tail    : W32 := 0
  started : List Nat := []
  done    : List (Nat × W64 × W64) := []
  insts   : List (Nat × Nat × Nat) := []
  deriving DecidableEq, Repr, Inhabited

/-- A collective group as its standby knows it. -/
structure GSnap where
  g       : Nat
  total   : Nat
  members : List Nat
  counter : Nat := 0
  finalised : Nat := 0
  deriving DecidableEq, Repr, Inhabited

/-- The mirrored state of a tenant (18, mirrored state), or the part of it that a piece of a snapshot carries: regions are (number,
BASE, SIZE, PASID), streams (number, BASE, SPAN, PAGE_LOG2, DEPTH), replay records (path kind, words). -/
structure Snap where
  assign  : Option Assign := none
  blocks  : List Nat := []
  window  : W64 × W64 × Nat × Nat := (0, 0, 0, 0)
  queues  : List QSnap := []
  groups  : List GSnap := []
  sems    : List (Nat × W64) := []
  regions : List (Nat × W64 × Nat × Nat) := []
  streams : List (Nat × W64 × Nat × Nat × Nat) := []
  marks   : List (Nat × Nat × Nat) := []
  rsps    : List (Nat × List W64) := []
  deriving DecidableEq, Repr, Inhabited

/-- A seal record as VSEAL carries it (17 R722, R733): TAG, SEALTIME, the regions with their sizes, and the epochs E builds on, newest first. -/
structure SealMsg where
  tag     : W64
  time    : W64
  regions : List (Nat × W64) := []
  base    : List W64 := []
  deriving DecidableEq, Repr, Inhabited

/-- A journal entry (18 R762). -/
structure JEntry where
  kind   : Nat
  tenant : Nat
  ref    : W32
  value  : W64
  cont   : List W64 := []
  deriving DecidableEq, Repr, Inhabited

/-! ### Security (19) -/

/-- A KEYMSG HELLO (19 R797). -/
structure KeyHello where
  nonce : BitVec 256
  /-- The ephemeral public key, x then y. -/
  eph   : BitVec 768
  ident : W64
  port  : Nat
  mode  : Nat
  fschk : W32
  deriving DecidableEq, Repr, Inhabited

/-- SPDM requests by what the responder does with them (19 R813). -/
inductive SpdmReq where
  | getVersion | getCapabilities | negotiateAlgorithms | getDigests | getCertificate (slot : Nat) | challenge
  | getMeasurements (index : Nat) | keyExchange (mauth : Bool) | finish (sigOk : Bool) | endSession | heartbeat | keyUpdate
  | unsupported
  deriving DecidableEq, Repr, Inhabited

/-- A key-management request inside an SPDM session (19 R814). `coKey` is true when the session's requester
authenticated with the CO key. -/
structure VopReq where
  transport : Nat
  session   : Nat
  tenant    : Nat := 0
  sel       : Nat := 0
  idx       : Nat := 0
  deriving DecidableEq, Repr, Inhabited

/-- A coherence-channel word: an ordering flag or a semaphore of a tenant (09 R378, R379). -/
structure CohWord where
  sem    : Bool
  tenant : Nat
  index  : Nat
  deriving DecidableEq, Repr, Inhabited

/-- MCTP messages by what the endpoint does with them (05 R195). -/
inductive MctpMsg where
  | setEid (eid : Byte) | getEid | getVersion | getTypes | getUuid
  | spdm (r : SpdmReq)
  /-- A vendor-defined message: the vendor ID it carries, and the Oxsum command after it. -/
  | oxsum (vendor : W16) (h : CmdHdr)
  | unsupported (mtype : Nat)
  deriving DecidableEq, Repr, Inhabited

/-- The commands of the block (spec/opcode_table.json, one constructor for each row). -/
inductive Instr where
  /-- AO_RAILS_UP (R51). -/
  | aoRailsUp
  /-- PR_RELEASE (R52). -/
  | prRelease (st : Straps)
  /-- PWR_OK_RISE (R75). -/
  | pwrOkRise
  /-- PWR_OK_FALL (R74): how long PWR_OK has been low, in ns (R66). -/
  | pwrOkFall (ns : Nat)
  /-- RAIL_FAIL (R73). -/
  | railFail (rail : Nat)
  /-- POWERLOSS_HOLDUP_END (R74). -/
  | powerlossHoldupEnd
  /-- PWR_OK_LATE (R76). -/
  | pwrOkLate
  /-- PWR_REQ_RETRY (R76). -/
  | pwrReqRetry
  /-- PLL_LOCK (R63). -/
  | pllLock
  /-- REFCLK_WINDOW_CHECK (R77). -/
  | refclkWindowCheck (count : Nat)
  /-- REFCLK_PPM_CHECK (R78). -/
  | refclkPpmCheck (ppm : Int)
  /-- XTAL_FAIL (R79). -/
  | xtalFail
  /-- RC_TRIM (R65). -/
  | rcTrim
  /-- STOP_REQ_EVENT (R876): a pulse of `ns` nanoseconds (R66). -/
  | stopReqEvent (ns : Nat)
  /-- THERM_IN_ONSET (R671): a pulse of `ns` nanoseconds (R66). -/
  | thermInOnset (ns : Nat)
  /-- THERM_IN_RELEASE (R669). -/
  | thermInRelease
  /-- FAULT_ACK_EDGE (R836): a pulse of `ns` nanoseconds (R66). -/
  | faultAckEdge (ns : Nat)
  /-- TIME_PPS_EDGE (R492): a pulse of `ns` nanoseconds (R66). -/
  | timePpsEdge (ns : Nat)
  /-- TWIN_ALIVE_EDGE (R766): a pulse of `ns` nanoseconds (R66). -/
  | twinAliveEdge (ns : Nat)
  /-- TWIN_ALIVE_TIMEOUT (R766). -/
  | twinAliveTimeout
  /-- ASYNC_STUCK_TIMEOUT (R69). -/
  | asyncStuckTimeout (i : Nat)
  /-- ASYNC_UNMASK (R70). -/
  | asyncUnmask (i : Nat)
  /-- ASYNC_RATE_FAULT (R71). -/
  | asyncRateFault (i : Nat)
  /-- TWIN_ALIVE_OUT_TOGGLE (R68). -/
  | twinAliveOutToggle
  /-- DOMAIN_STEP_DONE (R679). -/
  | domainStepDone
  /-- IDENTITY_COLLECT (R33). -/
  | identityCollect (reads : List (List W64))
  /-- SLOT_LOAD (R91). -/
  | slotLoad (readable : Bool)
  /-- SLOT_VERIFY (R92). -/
  | slotVerify
  /-- SELFTEST_PREOP (R815). -/
  | selftestPreop (passed : W32)
  /-- BOOT_WATCHDOG (R96). -/
  | bootWatchdog
  /-- HOST_READY_ENTRY (R101). -/
  | hostReadyEntry
  /-- BRINGUP_ITEM_START (R102). -/
  | bringupItemStart (item : Nat)
  /-- FABRIC_READY_ENTRY (R450). -/
  | fabricReadyEntry
  /-- PERST_ASSERT (R111). -/
  | perstAssert
  /-- PERST_DEASSERT (R110). -/
  | perstDeassert
  /-- PCIE_FLR_PF (R112). -/
  | pcieFlrPf
  /-- PCIE_FLR_VF (R207). -/
  | pcieFlrVf (t : Nat)
  /-- FLR_READS_DRAINED (R207). -/
  | flrReadsDrained (fn : Nat)
  /-- DEVICE_RESET (R112). -/
  | deviceReset (cause : DrCause)
  /-- TR_QUIESCE_DONE (R115). -/
  | trQuiesceDone (t : Nat)
  /-- TR_SCRUB_DONE (R115). -/
  | trScrubDone (t : Nat)
  /-- PCIE_CONFIG_ACCESS (R105). -/
  | pcieConfigAccess (fn : Nat) (write : Bool) (field : CfgField) (val : Nat)
  /-- PCIE_LINK_TRAIN (R167). -/
  | pcieLinkTrain (gts width : Nat)
  /-- PCIE_AER_ERROR (R170): `bit` is the error's place in its AER status register. -/
  | pcieAerError (correctable : Bool) (bit : Nat)
  /-- PCIE_READ_COMPLETION (R204). -/
  | pcieReadCompletion (fn tag : Nat) (ok : Bool) (data : List W64)
  /-- PCIE_COMPLETION_TIMEOUT (R169). -/
  | pcieCompletionTimeout (fn tag : Nat)
  /-- BME_CLEAR (R203). -/
  | bmeClear (fn : Nat)
  /-- BME_SET (R275). -/
  | bmeSet (fn : Nat)
  /-- PRI_ENABLE_WRITE (R341). -/
  | priEnableWrite (fn : Nat)
  /-- FACET_FLIT_RX (R130). -/
  | facetFlitRx (p : Nat) (f : FacetFlit)
  /-- FACET_ACK_TIMEOUT (R130). -/
  | facetAckTimeout (p : Nat)
  /-- FACET_HR (R153). -/
  | facetHr (p : Nat)
  /-- FACET_HR_HOLD_EXPIRY (R154). -/
  | facetHrHoldExpiry (p : Nat)
  /-- FACET_K_LOCK (R140). -/
  | facetKLock (p : Nat)
  /-- FACET_LANES_IDENTIFIED (R141). -/
  | facetLanesIdentified (p desig : Nat) (reversed : Bool) (misid : List (Nat × Nat)) (skew : FacetSkew)
  /-- FACET_CENTRE_DONE (R142). -/
  | facetCentreDone (p : Nat) (sweeps : List LaneSweep) (badKT : List Nat)
  /-- FACET_LANE_RES (R143). -/
  | facetLaneRes (p copies : Nat) (maps : List (Nat × BitVec 34))
  /-- FACET_NEG (R145). -/
  | facetNeg (p copies rev : Nat) (feat : W32)
  /-- FACET_CRD (R140). -/
  | facetCrd (p copies mem coh irq dbg : Nat)
  /-- FACET_READY (R140). -/
  | facetReady (p copies : Nat)
  /-- FACET_TRAIN_TIMEOUT (R140). -/
  | facetTrainTimeout (p : Nat)
  /-- FACET_LANE_WINDOW (R148). -/
  | facetLaneWindow (p : Nat) (errs : List (Nat × Nat × Nat))
  /-- FACET_REPAIR_REQ (R149). -/
  | facetRepairReq (p c lane spare : Nat)
  /-- FACET_REPAIR_AT (R149). -/
  | facetRepairAt (p c n : Nat)
  /-- FACET_REPAIR_CYCLE_N (R149). -/
  | facetRepairCycleN (p c : Nat)
  /-- FACET_REPAIR_TAKE (R149). -/
  | facetRepairTake (p c : Nat)
  /-- FACET_REPAIR_RELEASE (R149). -/
  | facetRepairRelease (p c : Nat)
  /-- FACET_MASK_REQ (R150). -/
  | facetMaskReq (p c : Nat)
  /-- FACET_MASK_AT (R150). -/
  | facetMaskAt (p c m : Nat)
  /-- FACET_MASK_CYCLE (R150). -/
  | facetMaskCycle (p c : Nat)
  /-- INNER_CLUSTER_FAIL (R156). -/
  | innerClusterFail (n c : Nat) (toDie : Bool)
  /-- FACET_MSG_RD (R355). -/
  | facetMsgRd (p : Nat) (m : MemMsg)
  /-- FACET_MSG_WR (R355). -/
  | facetMsgWr (p : Nat) (m : MemMsg)
  /-- FACET_MSG_WRP (R355). -/
  | facetMsgWrp (p : Nat) (m : MemMsg)
  /-- FACET_MSG_ATOM (R350). -/
  | facetMsgAtom (p : Nat) (m : MemMsg)
  /-- FACET_MSG_ATOMP (R145). -/
  | facetMsgAtomp (p : Nat) (m : MemMsg)
  /-- FACET_MSG_CPL (R135). -/
  | facetMsgCpl (p tag tenant status : Nat)
  /-- FACET_MSG_CPLD (R135). -/
  | facetMsgCpld (p tag tenant status : Nat) (data : List W64)
  /-- FACET_COH_GET (R380). -/
  | facetCohGet (p : Nat) (w : CohWord)
  /-- FACET_COH_INVACK (R381). -/
  | facetCohInvack (p : Nat) (w : CohWord)
  /-- FACET_COH_DROP (R379). -/
  | facetCohDrop (p : Nat) (w : CohWord)
  /-- COH_INVACK_TIMEOUT (R392). -/
  | cohInvackTimeout (p : Nat) (w : CohWord)
  /-- FACET_TIMESTAMP_RX (R866). -/
  | facetTimestampRx (p : Nat) (ftime : W64) (valid : Bool)
  /-- SIDEBAND_COMMAND (R138, R191). -/
  | sidebandCommand (p : Nat) (h : CmdHdr)
  /-- MBX_CMD_DOORBELL (R183). -/
  | mbxCmdDoorbell (fn : Nat) (tail : W16) (msgs : List CmdHdr)
  /-- MBX_RSP_HEAD_WRITE (R186). -/
  | mbxRspHeadWrite (fn : Nat) (idx : W16)
  /-- MBX_NTC_HEAD_WRITE (R188). -/
  | mbxNtcHeadWrite (fn : Nat) (idx : W16)
  /-- MBX_CTL_WRITE (R178). -/
  | mbxCtlWrite (fn irq ntc : Nat)
  /-- MCTP_MESSAGE (R195): the 7-bit SMBus address it is sent to, and whether its Packet Error Check is there and right. -/
  | mctpMessage (addr : Nat) (pec : Bool) (m : MctpMsg)
  /-- CONIK_STEP_SELECT (R198). -/
  | conikStepSelect (fwWork : Bool)
  /-- OXSUM_UNKNOWN_OPCODE (R220). -/
  | oxsumUnknownOpcode (r : Req) (opcode : W16)
  /-- DEV_VERSION (R222). -/
  | devVersion (r : Req)
  /-- DEV_OPCODES (R223). -/
  | devOpcodes (r : Req) (group : Nat)
  /-- DEV_STATUS (R197). -/
  | devStatus (r : Req)
  /-- DEV_IDENTITY (R33). -/
  | devIdentity (r : Req)
  /-- DEV_RESET (R226). -/
  | devReset (r : Req) (mode : Nat)
  /-- DEV_RESET_APPLY (R226). -/
  | devResetApply
  /-- FLASH_WRITE (R227). -/
  | flashWrite (r : Req) (slot : Nat) (final : Bool) (offset : Nat) (data : List Byte)
  /-- FLASH_ERASE_DONE (R227). -/
  | flashEraseDone
  /-- FLASH_FINAL_CHECK (R92, R228). -/
  | flashFinalCheck
  /-- FLASH_READ (R225). -/
  | flashRead (r : Req) (slot offset dlen : Nat)
  /-- FW_ACTIVATE (R230). -/
  | fwActivate (r : Req) (slot : Nat)
  /-- FW_CONFIRM (R231). -/
  | fwConfirm (r : Req)
  /-- HPORT_RESET (R232). -/
  | hportReset (r : Req) (port : Nat)
  /-- TEN_ASSIGN (R254). -/
  | tenAssign (r : Req) (a : Assign)
  /-- TEN_RELEASE (R233). -/
  | tenRelease (r : Req)
  /-- TEN_BIND (R138). -/
  | tenBind (r : Req) (ports : BitVec 8)
  /-- TEN_QUERY (R253). -/
  | tenQuery (r : Req)
  /-- TEN_RESET (R233). -/
  | tenReset (r : Req)
  /-- TEN_EXPORT (R304). -/
  | tenExport (r : Req) (base size : W64) (pasid : Nat) (xflags : W32)
  /-- Q_CREATE (R261). -/
  | qCreate (r : Req) (q : QArgs)
  /-- Q_DESTROY (R273). -/
  | qDestroy (r : Req) (q : Nat)
  /-- Q_START (R238). -/
  | qStart (r : Req) (q : Nat)
  /-- Q_STOP (R274). -/
  | qStop (r : Req) (q smode : Nat)
  /-- Q_ABORT (R294). -/
  | qAbort (r : Req) (q desc : Nat)
  /-- Q_QUERY (R273). -/
  | qQuery (r : Req) (q : Nat)
  /-- XLT_FLUSH (R337). -/
  | xltFlush (r : Req) (pasid : Nat) (fflags : W32)
  /-- STREAM_DECLARE (R362). -/
  | streamDeclare (r : Req) (stream : Nat) (base span : W64) (pageLog2 depth : Nat)
  /-- STREAM_WITHDRAW (R377). -/
  | streamWithdraw (r : Req) (stream : Nat)
  /-- FAB_STATUS (R450). -/
  | fabStatus (r : Req)
  /-- FAB_SET_PKGID (R444). -/
  | fabSetPkgid (r : Req) (pkgid : Nat)
  /-- FAB_TIME_SET (R491). -/
  | fabTimeSet (r : Req) (ftime : W64) (tflags : W32)
  /-- FAB_ROUTE_WRITE (R460). -/
  | fabRouteWrite (r : Req) (first : Nat) (entries : List W32)
  /-- FAB_TRUNK (R465). -/
  | fabTrunk (r : Req) (trunk : Nat) (ports : BitVec 64)
  /-- LINK_RESET (R541). -/
  | linkReset (r : Req) (port : Nat)
  /-- COL_GROUP_SET (R405). -/
  | colGroupSet (r : Req) (group total first : Nat) (members : List Nat)
  /-- COL_GROUP_DROP (R408). -/
  | colGroupDrop (r : Req) (group : Nat)
  /-- COL_STATUS (R424). -/
  | colStatus (r : Req) (group : Nat)
  /-- SEM_READ (R242). -/
  | semRead (r : Req) (index : Nat)
  /-- SEM_WRITE (R242). -/
  | semWrite (r : Req) (index : Nat) (value : W64)
  /-- VLT_SHADOW_ADD (R711). -/
  | vltShadowAdd (r : Req) (region : Nat) (base size : W64) (pasid : Nat)
  /-- VLT_SHADOW_REMOVE (R748). -/
  | vltShadowRemove (r : Req) (region : Nat)
  /-- VLT_SEAL (R721). -/
  | vltSeal (r : Req) (tag : W64)
  /-- VLT_RESTORE (R730). -/
  | vltRestore (r : Req) (epoch : W64) (source : Nat)
  /-- VLT_QUERY (R734). -/
  | vltQuery (r : Req)
  /-- VLT_EPOCH_DROP (R725). -/
  | vltEpochDrop (r : Req) (epoch : W64)
  /-- VLT_RAW_ERASE (R739). -/
  | vltRawErase (r : Req) (die block : Nat)
  /-- VLT_RAW_PROGRAM (R738). -/
  | vltRawProgram (r : Req) (die plane block page : Nat) (pattern : W32)
  /-- VLT_RAW_READ (R739). -/
  | vltRawRead (r : Req) (die plane block page offset dlen : Nat)
  /-- TWN_ENABLE (R755). -/
  | twnEnable (r : Req) (on : Bool)
  /-- TWN_STATUS (R755). -/
  | twnStatus (r : Req)
  /-- TWN_REJOIN (R774). -/
  | twnRejoin (r : Req)
  /-- TWN_TAKEOVER (R776). -/
  | twnTakeover (r : Req)
  /-- SEC_STATUS (R785). -/
  | secStatus (r : Req)
  /-- SEC_SELFTEST (R817). -/
  | secSelftest (r : Req)
  /-- SEC_ZEROISE (R819). -/
  | secZeroise (r : Req) (confirm : W32)
  /-- SEC_REKEY (R794). -/
  | secRekey (r : Req) (port : Nat)
  /-- SEC_AUTH_BEGIN (R788). -/
  | secAuthBegin (r : Req) (role : Nat)
  /-- SEC_AUTH_FINISH (R788). -/
  | secAuthFinish (r : Req) (role : Nat) (sig : BitVec 768)
  /-- DBG_STOP (R876). -/
  | dbgStop (r : Req) (scope : Nat) (ftime : W64)
  /-- DBG_RESUME (R883). -/
  | dbgResume (r : Req)
  /-- DBG_WAITFOR (R868). -/
  | dbgWaitfor (r : Req) (first : Nat)
  /-- DBG_QSNAP (R867). -/
  | dbgQsnap (r : Req) (q : Nat)
  /-- DBG_TENSOR_DUMP (R871). -/
  | dbgTensorDump (r : Req) (layer operator : W16) (stp : W32) (dest maxlen : W64)
  /-- CNT_READ (R859). -/
  | cntRead (r : Req) (set first num : Nat)
  /-- TLM_EXPORT (R860). -/
  | tlmExport (r : Req) (dest : W64) (period : Nat)
  /-- OPT_POLISH (R640). -/
  | optPolish (r : Req) (port lambda : Nat)
  /-- OPT_LUSTRE (R643). -/
  | optLustre (r : Req) (port : Nat)
  /-- WAL_MAP (R595). -/
  | walMap (r : Req) (port : Nat)
  /-- WAL_MOVE (R612). -/
  | walMove (r : Req) (port lane lambda : Nat)
  /-- LAS_SWAP (R592). -/
  | lasSwap (r : Req) (ruby pos : Nat)
  /-- LAS_STATUS (R221). -/
  | lasStatus (r : Req) (ruby : Nat)
  /-- PWR_SET (R687). -/
  | pwrSet (r : Req) (state : Nat)
  /-- PWR_DARK_PORTS (R683). -/
  | pwrDarkPorts (r : Req) (mask : BitVec 64)
  /-- THM_READ (R656). -/
  | thmRead (r : Req)
  /-- THM_LIMITS (R661). -/
  | thmLimits (r : Req) (sensor : Nat) (warn rise : Int)
  /-- TEN_DBTAIL_WRITE (R262). -/
  | tenDbtailWrite (t q : Nat) (n : W32)
  /-- DESC_START (R276). -/
  | descStart (t q : Nat) (d : Desc)
  /-- OP_COPY (R268). -/
  | opCopy (gq idx : Nat)
  /-- OP_FILL (R268). -/
  | opFill (gq idx : Nat)
  /-- OP_GET (R347). -/
  | opGet (gq idx : Nat)
  /-- OP_PUT (R348). -/
  | opPut (gq idx : Nat)
  /-- OP_ATOMIC (R353). -/
  | opAtomic (gq idx : Nat)
  /-- OP_ALLREDUCE (R414). -/
  | opAllreduce (gq idx : Nat)
  /-- OP_REDUCE_SCATTER (R410). -/
  | opReduceScatter (gq idx : Nat)
  /-- OP_BARRIER (R410). -/
  | opBarrier (gq idx : Nat)
  /-- OP_SEM_ATOMIC (R426). -/
  | opSemAtomic (gq idx : Nat)
  /-- OP_SEM_WAIT (R429). -/
  | opSemWait (gq idx : Nat)
  /-- OP_SEM_READ (R426). -/
  | opSemRead (gq idx : Nat)
  /-- OP_FLUSH (R713). -/
  | opFlush (gq idx : Nat)
  /-- OP_EPOCH_READ (R732). -/
  | opEpochRead (gq idx : Nat)
  /-- SEGMENT_ISSUE (R281). -/
  | segmentIssue (egress : Nat)
  /-- TXN_TIMEOUT (R289, R290). -/
  | txnTimeout (gq idx : Nat) (serial : Option W32)
  /-- BUFFER_UNIT_FREE (R258). -/
  | bufferUnitFree (pool t : Nat)
  /-- SERIAL_QUARANTINE_END (R286). -/
  | serialQuarantineEnd (gq : Nat) (serial : W32)
  /-- ATS_TRANSLATION_COMPLETION (R317). -/
  | atsTranslationCompletion (fn tag : Nat) (c : AtsCpl)
  /-- PRETRANSLATE_ISSUE (R328). -/
  | pretranslateIssue (t q idx : Nat) (d : Desc)
  /-- ATS_INVALIDATE_REQUEST (R332). -/
  | atsInvalidateRequest (fn itag : Nat) (pasid : Option Nat) (global : Bool) (base : W64) (len : Nat)
  /-- INVALIDATION_COMPLETE (R334). -/
  | invalidationComplete
  /-- PRG_RESPONSE (R341). -/
  | prgResponse (fn prgi code : Nat)
  /-- PRI_TIMEOUT (R342). -/
  | priTimeout (fn prgi : Nat)
  /-- XLT_KEYRANGE_WRITE (R327). -/
  | xltKeyrangeWrite (t : Nat) (which : KeyReg) (k : Nat) (val : W32)
  /-- XLT_HMAP_WRITE (R313). -/
  | xltHmapWrite (which k : Nat) (val : W32)
  /-- TARGET_WRITE_ACK (R348). -/
  | targetWriteAck (path : Nat)
  /-- OWNER_WRITE_ACK (R375). -/
  | ownerWriteAck (src gq : Nat) (serial : W32)
  /-- SUBCTL_SUBSCRIBE (R364). -/
  | subctlSubscribe (k : Pkt) (stream : Nat) (span : W64)
  /-- SUBCTL_GRANT (R365). -/
  | subctlGrant (k : Pkt) (stream : Nat) (expiry : W64)
  /-- SUBCTL_REFUSE (R364). -/
  | subctlRefuse (k : Pkt) (stream reason : Nat)
  /-- SUBCTL_RENEW (R365). -/
  | subctlRenew (k : Pkt) (stream : Nat) (expiry : W64)
  /-- SUBCTL_INVAL (R374). -/
  | subctlInval (k : Pkt) (stream : Nat) (span : W64)
  /-- SUBCTL_INVACK (R375). -/
  | subctlInvack (k : Pkt) (stream : Nat)
  /-- SUBCTL_BREAK (R388). -/
  | subctlBreak (k : Pkt) (stream : Nat)
  /-- SUBCTL_UNSUB (R377). -/
  | subctlUnsub (k : Pkt) (stream : Nat)
  /-- LEASE_RENEW_TIMER (R365). -/
  | leaseRenewTimer
  /-- LEASE_EXPIRY (R386). -/
  | leaseExpiry (t s : Nat)
  /-- SUBSCRIBE_RETRY (R364). -/
  | subscribeRetry
  /-- PREFETCH_ISSUE (R368, R369). -/
  | prefetchIssue (t s : Nat)
  /-- LINE_FILL_DONE (R359). -/
  | lineFillDone (t s line : Nat)
  /-- TAKEOVER_WRITE_HOLD_END (R391). -/
  | takeoverWriteHoldEnd (t : Nat)
  /-- COLL_CONTRIB (R417). -/
  | collContrib (m : CollMsg)
  /-- COLL_PARTIAL (R414). -/
  | collPartial (m : CollMsg)
  /-- COLL_CLOSE (R418). -/
  | collClose (m : CollMsg)
  /-- COLL_CLOSE_ACK (R420). -/
  | collCloseAck (m : CollMsg)
  /-- COLL_FINAL (R422). -/
  | collFinal (m : CollMsg) (f : FinalInfo)
  /-- COLL_LEAVE (R439). -/
  | collLeave (m : CollMsg) (status : Nat)
  /-- COLL_CARRY (R424). -/
  | collCarry (m : CollMsg)
  /-- COLL_DEADLINE (R416). -/
  | collDeadline (t g k : Nat)
  /-- COLL_GRACE_TIMEOUT (R418). -/
  | collGraceTimeout (t g k : Nat)
  /-- COLL_DROP_TIMEOUT (R408). -/
  | collDropTimeout (t g : Nat)
  /-- REDUCE_FOLD_STEP (R433). -/
  | reduceFoldStep (e : Nat)
  /-- SEM_WAIT_RESEND (R429). -/
  | semWaitResend
  /-- HELLO_SEND (R448). -/
  | helloSend
  /-- NEIGHBOUR_TIMEOUT (R448). -/
  | neighbourTimeout (p : Nat)
  /-- PACKET_FORWARD (R473). -/
  | packetForward (t : PType) (k : Pkt)
  /-- PKT_RD (R347). -/
  | pktRd (k : Pkt)
  /-- PKT_WR (R348). -/
  | pktWr (k : Pkt)
  /-- PKT_WRP (R348). -/
  | pktWrp (k : Pkt)
  /-- PKT_ATOM (R353). -/
  | pktAtom (k : Pkt)
  /-- PKT_ATOMP (R353). -/
  | pktAtomp (k : Pkt)
  /-- PKT_RSP (R292). -/
  | pktRsp (k : Pkt) (status : Nat)
  /-- PKT_SEM (R427). -/
  | pktSem (k : Pkt) (r : SemReq)
  /-- PKT_STEER (R458). -/
  | pktSteer (k : Pkt) (tenant : Nat) (side : Bool)
  /-- PKT_CNP (R487). -/
  | pktCnp (k : Pkt) (gq : Nat)
  /-- PKT_HELLO (R449). -/
  | pktHello (p : Nat) (h : Hello)
  /-- PKT_TSYNC (R493). -/
  | pktTsync (p : Nat) (t1 : W64) (reply : Option (W64 × W64))
  /-- ESCAPE_TIMEOUT (R470). -/
  | escapeTimeout (n : Nat)
  /-- CONGESTION_RECOVERY (R487). -/
  | congestionRecovery
  /-- TSYNC_EXCHANGE (R493). -/
  | tsyncExchange
  /-- TIME_LOCK_LOSS (R495). -/
  | timeLockLoss
  /-- LINK_FLIT_RX (R526). -/
  | linkFlitRx (p : Nat) (f : LinkFlit)
  /-- LINK_ACK_TIMEOUT (R529). -/
  | linkAckTimeout (p : Nat)
  /-- RETRY_BUDGET_EXPIRY (R530). -/
  | retryBudgetExpiry (p : Nat)
  /-- SKIP_SLOT_RX (R515). -/
  | skipSlotRx (p : Nat) (lanes : List (Nat × Nat))
  /-- LINK_LIGHT_LOCK (R522). -/
  | linkLightLock (p locked copies : Nat) (w : TrainWord)
  /-- IDENT_CHECK_DONE (R521). -/
  | identCheckDone (p : Nat) (checks : List (Nat × Nat × Bool))
  /-- TS1_RX (R522). -/
  | ts1Rx (p : Nat) (w : TrainWord)
  /-- TS2_RX (R522). -/
  | ts2Rx (p : Nat) (w : TrainWord)
  /-- TS3_RX (R522). -/
  | ts3Rx (p : Nat) (w : TrainWord)
  /-- LINK_STATE_TIMEOUT (R522). -/
  | linkStateTimeout (p : Nat)
  /-- LINK_FAILED_RETRY (R522). -/
  | linkFailedRetry (p : Nat)
  /-- LINK_RESET_EVENT (R542). -/
  | linkResetEvent (p : Nat)
  /-- LMGT_RETRACT (R534). -/
  | lmgtRetract (p vc seq : Nat)
  /-- LMGT_REKEY_READY (R536). -/
  | lmgtRekeyReady (p : Nat) (par : Bool)
  /-- REKEY_THRESHOLD (R537). -/
  | rekeyThreshold (p : Nat)
  /-- REKEY_OVERDUE (R539). -/
  | rekeyOverdue (p : Nat)
  /-- RING_ENABLE (R552). -/
  | ringEnable (b r : Nat)
  /-- RING_SEEK_DONE (R553). -/
  | ringSeekDone (b r found code : Nat)
  /-- RING_FILTER_OUTPUT (R558). -/
  | ringFilterOutput (b r : Nat) (o : FilterOut)
  /-- RING_TRACK_TIMEOUT (R552). -/
  | ringTrackTimeout (b r : Nat)
  /-- RING_LIGHT_CHANGE (R561). -/
  | ringLightChange (b r : Nat) (tap : Nat)
  /-- BRL_SYNC_GO (R559). -/
  | brlSyncGo (b : Nat)
  /-- BRL_LCFG_WRITE (R559). -/
  | brlLcfgWrite (b : Nat) (val : W32)
  /-- HEATER_SCAN_DONE (R571). -/
  | heaterScanDone (b g : Nat) (s : SenseScan)
  /-- HEATER_RAMP_STEP (R569). -/
  | heaterRampStep (b r : Nat)
  /-- RX_CORRECTION_APPLY (R567). -/
  | rxCorrectionApply (p k : Nat)
  /-- LASER_RAMP_END (R582). -/
  | laserRampEnd (j mpd : Nat)
  /-- LASER_MONITOR_SAMPLE (R583). -/
  | laserMonitorSample (j : Nat) (m : LasSample)
  /-- LASER_RETRY_TIMER (R584). -/
  | laserRetryTimer (j : Nat)
  /-- LASER_POWER_LOOP (R586). -/
  | laserPowerLoop (j : Nat) (m : LasSample)
  /-- LASER_POSITION_LIT (R589). -/
  | laserPositionLit (n k : Nat)
  /-- LASER_SWAP_ADVANCE (R592). -/
  | laserSwapAdvance (n k : Nat)
  /-- LASER_DISABLE_WIRE (R20). -/
  | laserDisableWire (n : Nat)
  /-- RUBY_LINK_SILENT (R622). -/
  | rubyLinkSilent (n : Nat)
  /-- MOVE_START (R616). -/
  | moveStart (p : Nat)
  /-- WAL_NEXT (R600). -/
  | walNext (p dest : Nat)
  /-- WAL_MOVE_AT (R603). -/
  | walMoveAt (p lane from_ dest slot : Nat)
  /-- MOVE_SLOT_N (R603). -/
  | moveSlotN (p : Nat)
  /-- MOVE_ALIGN_DONE (R603). -/
  | moveAlignDone (p slot : Nat)
  /-- WAL_READY (R603). -/
  | walReady (p lane dest slot : Nat)
  /-- MOVE_RELEASE_SLOT (R603). -/
  | moveReleaseSlot (p : Nat)
  /-- WAL_DONE (R603). -/
  | walDone (p lane from_ slot : Nat)
  /-- WAL_REQ (R610). -/
  | walReq (p lane from_ dest : Nat)
  /-- WAL_REQ_NOW (R608). -/
  | walReqNow (p lane from_ : Nat)
  /-- WAL_NAK (R636). -/
  | walNak (p lane from_ reason : Nat)
  /-- WAL_CANCEL (R605). -/
  | walCancel (p lane : Nat)
  /-- WAL_RXUSE (R602). -/
  | walRxuse (p : Nat) (bitmap : BitVec 18)
  /-- MOVE_ABANDON (R605). -/
  | moveAbandon (p : Nat)
  /-- POLISH_START (R637). -/
  | polishStart (b : Nat)
  /-- POLISH_SCAN_DONE (R624). -/
  | polishScanDone (ch : Nat) (r : ScanRes)
  /-- POLISH_RELOCK_DONE (R624). -/
  | polishRelockDone (ch : Nat)
  /-- POLISH_DRVCOMP_DONE (R624). -/
  | polishDrvcompDone (ch : Nat)
  /-- POLISH_OFFSET_DONE (R627). -/
  | polishOffsetDone (ch : Nat) (ofs : List Int)
  /-- POLISH_LEVELS_DONE (R628). -/
  | polishLevelsDone (ch : Nat) (m : LevelStats)
  /-- LIGHT_POLISH_DONE (R629). -/
  | lightPolishDone (ch : Nat) (m : LevelStats)
  /-- LUSTRE_SAMPLE (R642). -/
  | lustreSample (ch : Nat) (m : LevelStats)
  /-- CAL_RECORD_WRITE (R648). -/
  | calRecordWrite (ch : Nat)
  /-- RESERVATION_TIMEOUT (R636). -/
  | reservationTimeout (p : Nat)
  /-- THERMAL_ROUND (R668). -/
  | thermalRound (temps : List (Option Int)) (power : List Nat)
  /-- LIMIT_COMPARATOR (R670). -/
  | limitComparator (n : Nat) (temp : Int)
  /-- TRIP_COMPARATOR (R675). -/
  | tripComparator (n : Nat) (temp : Int)
  /-- IDLE_ENTRY (R680). -/
  | idleEntry
  /-- IDLE_WAKE (R682). -/
  | idleWake
  /-- AO_WAKE (R692). -/
  | aoWake (req : Option Req)
  /-- COLD_WARM_TIMEOUT (R697). -/
  | coldWarmTimeout (b : Nat)
  /-- VLT_MOUNT (R741). -/
  | vltMount (ok : Bool)
  /-- VLT_CAPTURE_START (R717). -/
  | vltCaptureStart (t region granule : Nat)
  /-- VLT_CAPTURE_DONE (R716). -/
  | vltCaptureDone (t region granule : Nat)
  /-- VLT_SEAL_RECORD (R722). -/
  | vltSealRecord (t : Nat)
  /-- VLT_PROGRAM_DONE (R705). -/
  | vltProgramDone (die block page : Nat) (ok : Bool)
  /-- VLT_ERASE_DONE (R705). -/
  | vltEraseDone (die block : Nat) (ok : Bool)
  /-- VLT_PAGE_READ_DONE (R709). -/
  | vltPageReadDone (die block page : Nat) (reads : List (List Nat))
  /-- VLT_SCRUB_TICK (R708). -/
  | vltScrubTick
  /-- VLT_RECLAIM (R740). -/
  | vltReclaim (die block : Nat)
  /-- VLT_RESTORE_DONE (R731). -/
  | vltRestoreDone (t : Nat) (ok : Bool)
  /-- VLT_DIE_LOST (R745). -/
  | vltDieLost (die : Nat)
  /-- VLT_RESYNC (R727). -/
  | vltResync (t : Nat)
  /-- VLT_HEAL (R745). -/
  | vltHeal (t : Nat)
  /-- TWN_VPUT (R726). -/
  | twnVput (t region granule piece : Nat) (epoch : W64) (data : List W64)
  /-- TWN_VACK (R722). -/
  | twnVack (t region granule : Nat) (epoch : W64) (ok : Bool)
  /-- TWN_VSEAL (R722). -/
  | twnVseal (t : Nat) (epoch : W64) (x : SealMsg)
  /-- TWN_VSEALACK (R722). -/
  | twnVsealack (t : Nat) (epoch : W64) (ok : Bool)
  /-- TWN_VDROP (R805). -/
  | twnVdrop (t : Nat) (epoch : W64)
  /-- TWN_VREAD (R709). -/
  | twnVread (t region granule : Nat) (epoch : W64)
  /-- TWN_VDATA (R709). -/
  | twnVdata (t region granule piece : Nat) (epoch : W64) (data : List W64)
  /-- TWN_PAIR (R756). -/
  | twnPair (m : PairMsg)
  /-- TWN_BEAT (R768). -/
  | twnBeat (tstate jseq : Nat)
  /-- TWN_BEAT_SEND (R768). -/
  | twnBeatSend
  /-- TWN_DOWN (R766). -/
  | twnDown (cause : Nat)
  /-- TWN_JRNL (R762). -/
  | twnJrnl (jseq : Nat) (entries : List JEntry)
  /-- TWN_JACK (R763). -/
  | twnJack (jseq : Nat)
  /-- TWN_SNAP (R758). -/
  | twnSnap (t off : Nat) (last : Bool) (a : Snap)
  /-- TWN_FAILURE_TIMER (R766). -/
  | twnFailureTimer
  /-- TWN_HELLO_HOLD (R767). -/
  | twnHelloHold
  /-- TWN_PORT_LOST (R768). -/
  | twnPortLost
  /-- TWN_PORT_ACTIVE (R755). -/
  | twnPortActive
  /-- TWN_PAIRING_TIMEOUT (R757). -/
  | twnPairingTimeout
  /-- KEYMSG_HELLO (R798). -/
  | keymsgHello (p : Nat) (h : KeyHello)
  /-- KEYMSG_CERT (R798). -/
  | keymsgCert (p frag nfrag : Nat) (data : List Byte)
  /-- KEYMSG_VERIFY (R798). -/
  | keymsgVerify (p : Nat) (sig : BitVec 768)
  /-- KEYMSG_FINISH (R799). -/
  | keymsgFinish (p : Nat) (mac : BitVec 384)
  /-- KEYMSG_REKEY (R800). -/
  | keymsgRekey (p : Nat) (nonce : BitVec 256) (eph : BitVec 768)
  /-- KEYMSG_REKEY_ACK (R800). -/
  | keymsgRekeyAck (p : Nat) (nonce : BitVec 256) (eph : BitVec 768)
  /-- KEYMSG_PVK (R804). -/
  | keymsgPvk (state : Nat) (wrapped : BitVec 320)
  /-- KEYMSG_ABORT (R801). -/
  | keymsgAbort (p reason : Nat)
  /-- SPDM_REQUEST (R813). -/
  | spdmRequest (transport : Nat) (session : Option Nat) (q : SpdmReq)
  /-- KEY_LOAD (R814). -/
  | keyLoad (v : VopReq) (key1 key2 : BitVec 256)
  /-- KEY_CLEAR (R814). -/
  | keyClear (v : VopReq)
  /-- FS_LOAD (R814). -/
  | fsLoad (v : VopReq) (fs : BitVec 256)
  /-- ROOT_ADD (R814). -/
  | rootAdd (v : VopReq) (hash : BitVec 384)
  /-- ROOT_CLEAR (R814). -/
  | rootClear (v : VopReq)
  /-- COKEY_SET (R814). -/
  | cokeySet (v : VopReq) (key : BitVec 768)
  /-- MESH_CHECK (R783). -/
  | meshCheck (breached : List Nat)
  /-- DRBG_RESEED (R787). -/
  | drbgReseed (healthOk : Bool)
  /-- AUTH_NONCE_EXPIRY (R789). -/
  | authNonceExpiry (path : Path)
  /-- AUTH_LOCKOUT_END (R791). -/
  | authLockoutEnd (path : Path)
  /-- ENTROPY_SAMPLE_FAIL (R818). -/
  | entropySampleFail
  /-- FAULT_RAISE (R830). -/
  | faultRaise (src unit : Nat) (dom : Option Nat)
  /-- INCLUSION_DEFERRED_WRITE (R850). -/
  | inclusionDeferredWrite
  /-- FLT_ACK_ALL (R836). -/
  | fltAckAll
  /-- TEN_FSTAT_CLR (R837). -/
  | tenFstatClr (t : Nat)
  /-- FLT_SEV_WRITE (R827). -/
  | fltSevWrite (w : Nat) (val : W32)
  /-- FLT_CFG_WRITE (R828). -/
  | fltCfgWrite (val : W32)
  /-- FLT_INCLCLR (R846). -/
  | fltInclclr
  /-- FLT_STAT_SEV_REJ_CLR (R827). -/
  | fltStatSevRejClr
  /-- TLM_FRAME (R860). -/
  | tlmFrame
  /-- TS_SEND (R866). -/
  | tsSend
  /-- DUMP_TIMEOUT (R875). -/
  | dumpTimeout (t : Nat)
  /-- DUMP_DONE (R874). -/
  | dumpDone (t : Nat)
  /-- STOP_CUT (R877). -/
  | stopCut
  /-- STOP_RECORD_DONE (R882). -/
  | stopRecordDone
  /-- MAXSTOP_EXPIRY (R884). -/
  | maxstopExpiry
  /-- TAP_INSTRUCTION_LOAD (R924). -/
  | tapInstructionLoad (instr : Nat)
  /-- TRST_ASSERT (R924). -/
  | trstAssert
  /-- FAB_TIME_LO_READ (R502). -/
  | fabTimeLoRead
  /-- DBG_STOPVAL_LO_READ (R890). -/
  | dbgStopvalLoRead (cyc : Bool)
  /-- JAD_AINDROP_CLR (R67). -/
  | jadAindropClr (i : Nat)
  /-- JAD_BOOTSTAT_STOP_IGN_CLR (R122). -/
  | jadBootstatStopIgnClr
  /-- JAD_RSTCAUSE_CLR (R112). -/
  | jadRstcauseClr (mask : BitVec 8)
  /-- JAD_TESTSTAT_BSCAN_CLR (R924). -/
  | jadTeststatBscanClr
  /-- FCT_RETRY_CLR (R154). -/
  | fctRetryClr (p : Nat)
  /-- FCT_PERR_CLR (R148). -/
  | fctPerrClr (p c : Nat)
  /-- MBX_BMSTAT_CLR (R204). -/
  | mbxBmstatClr (fn : Nat)
  /-- TEN_QCNT_CLR (R265). -/
  | tenQcntClr (t q : Nat)
  /-- TEN_QLATE_CLR (R288). -/
  | tenQlateClr (t q : Nat)
  /-- TEN_STREAM_CNT_CLR (R393). -/
  | tenStreamCntClr (t s which : Nat)
  /-- XLT_INVCNT_CLR (R346). -/
  | xltInvcntClr
  /-- XLT_PRECNT_CLR (R331). -/
  | xltPrecntClr
  /-- XLT_PRICNT_CLR (R341). -/
  | xltPricntClr (fn : Nat)
  /-- COL_CNT_CLR (R442). -/
  | colCntClr
  /-- FAB_CNT_CLR (R502). -/
  | fabCntClr (which : Nat)
  /-- LNK_RETRY_CLR (R546). -/
  | lnkRetryClr (p : Nat)
  /-- LNK_ERR_CLR (R546). -/
  | lnkErrClr (p : Nat)
  /-- LNK_FECCOR_CLR (R546). -/
  | lnkFeccorClr (p : Nat)
  /-- WAL_CNT_CLR (R623). -/
  | walCntClr (p : Nat)
  /-- CAL_CNT_CLR (R655). -/
  | calCntClr
  /-- CAL_CNT2_CLR (R655). -/
  | calCnt2Clr
  /-- VLT_CNT_CLR (R750). -/
  | vltCntClr
  /-- TWN_CNT_CLR (R780). -/
  | twnCntClr
  /-- SEC_CNT_CLR (R825). -/
  | secCntClr
  /-- DBG_TRSTAT_CLR (R864). -/
  | dbgTrstatClr
  /-- DBG_TLMSTAT_CLR (R861). -/
  | dbgTlmstatClr
  /-- REGISTER_WRITE (R14): a word of BAR0, or of BAR2 (the MSI-X table, R172), at `off`. -/
  | registerWrite (fn : Nat) (bar2 : Bool) (off : Nat) (val : W32)
  /-- ALWAYS_ON_RAILS_FALL (R75). -/
  | alwaysOnRailsFall
  /-- XTAL_VALID (R65). -/
  | xtalValid
  /-- RUBY_LINK_RETURN (R622). -/
  | rubyLinkReturn (n : Nat)
  /-- FLASH_PROGRAM_DONE (R227). -/
  | flashProgramDone
  /-- SELFTEST_DONE (R817). -/
  | selftestDone (passed : W32)
  deriving DecidableEq, Repr

end Sys2Proof
end

