-- ==== Sys2Proof/Decode.lean ====
section
/-! DEFINITION. The table's rows give no bits: a command arrives as an operation, not as a word, so no word spells one. -/

namespace Sys2Proof

/-- The command a word spells by the bits of spec/opcode_table.json: no row of it gives bits. -/
def decodeTableWord (_nbits _w : Nat) : Option Instr := none

end Sys2Proof
end

