-- ==== Sys2Proof/Machine/Tab.lean ====
section
/-! DEFINITION. Sparse tables: every indexed piece of state (die slots, ports, rings, flash bytes, semaphores) is a list
of (index, value) pairs in one canonical form: indices strictly rising, no entry equal to the table's default. -/

namespace Sys2Proof.Machine

/-- The value at index `k` of a table whose unlisted entries read as `d`. -/
def Tab.look {α : Type} (d : α) (k : Nat) : Tab α → α
  | [] => d
  | (a, v) :: r => if a = k then v else Tab.look d k r

/-- The table without index `k`. -/
def Tab.drop {α : Type} (k : Nat) (t : Tab α) : Tab α := t.filter fun e => decide (e.1 ≠ k)

/-- The table with `v` at index `k`; putting the default removes the entry. -/
def Tab.put {α : Type} [DecidableEq α] (d : α) (k : Nat) (v : α) : Tab α → Tab α
  | [] => if v = d then [] else [(k, v)]
  | (a, w) :: r =>
    if k < a then (if v = d then Tab.drop k ((a, w) :: r) else (k, v) :: (a, w) :: r)
    else if k = a then (if v = d then Tab.drop k r else (k, v) :: r)
    else (a, w) :: Tab.put d k v r

/-- The table with `f` applied to entry `k`. -/
def Tab.upd {α : Type} [DecidableEq α] (d : α) (k : Nat) (f : α → α) (t : Tab α) : Tab α :=
  Tab.put d k (f (Tab.look d k t)) t

/-- The table with `f` applied to every listed entry. -/
def Tab.mapv {α : Type} [DecidableEq α] (d : α) (f : Nat → α → α) (t : Tab α) : Tab α :=
  t.filterMap fun e => let v := f e.1 e.2; if v = d then none else some (e.1, v)

/-- The table with `f` applied to each index of a list in turn. -/
def Tab.updAll {α : Type} [DecidableEq α] (d : α) (ks : List Nat) (f : Nat → α → α) (t : Tab α) : Tab α :=
  ks.foldl (fun t k => Tab.upd d k (f k) t) t

/-- Indices strictly rising from `lo` on, and no entry equal to the default. -/
def Tab.wfFrom {α : Type} [DecidableEq α] (d : α) : Nat → Tab α → Bool
  | _, [] => true
  | lo, (a, v) :: r => decide (lo ≤ a) && decide (v ≠ d) && Tab.wfFrom d (a + 1) r

/-- The canonical form of a table. -/
def Tab.wf {α : Type} [DecidableEq α] (d : α) (t : Tab α) : Bool := Tab.wfFrom d 0 t

/-- The listed entries, as a plain list. -/
def Tab.entries {α : Type} (t : Tab α) : List (Nat × α) := t

/-- The memory of bytes: the boot flash (03 R84, R85). An unlisted address reads as erased (log 4). -/
abbrev Memory := List Host.Cell

/-- What an unlisted flash address reads as: erased NOR flash. DESIGN CHOICE (log 4), unsafe. -/
def Memory.erased : Byte := 0xFF

/-- The canonical form of the flash. -/
def Memory.wf (m : Memory) : Bool := Tab.wf Memory.erased m

/-- One byte of the flash. -/
def Memory.readByte (m : Memory) (a : Nat) : Byte := Tab.look Memory.erased a m

/-- One byte written. -/
def Memory.writeByte (m : Memory) (a : Nat) (v : Byte) : Memory := Tab.put Memory.erased a v m

/-- `n` bytes from `a` up. -/
def Memory.read (m : Memory) (a n : Nat) : List Byte := (List.range n).map fun i => Memory.readByte m (a + i)

/-- Bytes written from `a` up. -/
def Memory.write (m : Memory) (a : Nat) : List Byte → Memory
  | [] => m
  | v :: r => Memory.write (Memory.writeByte m a v) (a + 1) r

/-- Every byte of the range reads as erased afterwards. -/
def Memory.erase (m : Memory) (a n : Nat) : Memory := m.filter fun c => decide (c.1 < a) || decide (a + n ≤ c.1)

/-- The little-endian number in a list of bytes. -/
def leNat : List Byte → Nat
  | [] => 0
  | b :: r => b.toNat + 256 * leNat r

/-- `n` bytes of a number, least significant first. -/
def leBytes : Nat → Nat → List Byte
  | 0, _ => []
  | n + 1, v => BitVec.ofNat 8 v :: leBytes n (v / 256)

/-- Removes an element and all its copies. -/
def without {α : Type} [DecidableEq α] (x : α) (l : List α) : List α := l.filter fun y => decide (y ≠ x)

/-- Inserts a number in a rising list without repeats. -/
def insertNat (x : Nat) : List Nat → List Nat
  | [] => [x]
  | y :: r => if x < y then x :: y :: r else if x = y then y :: r else y :: insertNat x r

/-- A counter that stops at its largest value. -/
def satAdd (max n : Nat) : Nat := if n < max then n + 1 else max

/-- A Bool as a number. -/
def bNat (b : Bool) : Nat := if b then 1 else 0

end Sys2Proof.Machine
end

