-- ==== Sys2Proof/Machine/Crc.lean ====
section
/-! DEFINITION. Check words: CRC-32C (03 R86, 10 Model, 20 R844) and the CRC-8 of identity words (01 R34). -/

namespace Sys2Proof.Machine

/-- One bit of CRC-32C, reflected, polynomial 0x1EDC6F41. -/
def crc32cBit (c : W32) : W32 := if c.getLsbD 0 then (c >>> 1) ^^^ 0x82F63B78#32 else c >>> 1

/-- One byte of CRC-32C. -/
def crc32cByte (c : W32) (b : Byte) : W32 :=
  crc32cBit (crc32cBit (crc32cBit (crc32cBit (crc32cBit (crc32cBit (crc32cBit (crc32cBit (c ^^^ b.setWidth 32))))))))

/-- CRC-32C of a byte string. -/
def crc32c (l : List Byte) : W32 := ~~~ (l.foldl crc32cByte 0xFFFFFFFF#32)

/-- One bit of CRC-8, polynomial 0x07, most significant bit first. -/
def crc8Bit (c : Byte) : Byte := if c.getLsbD 7 then (c <<< 1) ^^^ 0x07#8 else c <<< 1

/-- One byte of CRC-8. -/
def crc8Byte (c b : Byte) : Byte := crc8Bit (crc8Bit (crc8Bit (crc8Bit (crc8Bit (crc8Bit (crc8Bit (crc8Bit (c ^^^ b))))))))

/-- CRC-8 of a byte string. -/
def crc8 (l : List Byte) : Byte := l.foldl crc8Byte 0

end Sys2Proof.Machine
end

