-- ==== Sys2Proof/Machine/StateBoard.lean ====
section
/-! DEFINITION. Board state: Jade's always-on domain, die identity, power domains, boot, boot flash, thermal hub and the fault aggregator (01, 02, 03, 16, 20, 23). Every default is the reset value of the spec's register table, or the value the log names (log 3, log 4). -/

namespace Sys2Proof.Machine

/-- Boot stages (03, stage table). -/
inductive Stage where
  | pr | rails | clocks | identify | load | init | hostReady | fabricReady | dormant | recovery | halted
  deriving DecidableEq, Repr, Inhabited

/-- What a bring-up item of 03 R102 has come to. -/
inductive ItemSt where
  | notStarted | running | up | down
  deriving DecidableEq, Repr, Inhabited

/-- JAD_DIEID and JAD_DIESTAT of one die slot (01 R47). -/
structure Die where
  id       : W64 := 0
  valid    : Bool := false
  chkOk    : Bool := false
  held     : Bool := false
  ori      : Bool := false
  pos      : BitVec 2 := 0
  stk      : Bool := false
  mismatch : Bool := false
  conflict : Bool := false
  refused  : Bool := false
  deriving DecidableEq, Repr, Inhabited

/-- One asynchronous input (02, input table): debounced level, stuck and masked marks, drop count, the time of its last
accepted event and the times of the events ignored in the last millisecond. -/
structure Ain where
  level   : Bool := false
  stuck   : Bool := false
  masked  : Bool := false
  drop    : Nat := 0
  last    : Option Nat := none
  ignored : List Nat := []
  /-- Local time until which the last pulse keeps the input active, and whether its rate fault stands (02 R71). -/
  until_  : Nat := 0
  rated   : Bool := false
  deriving DecidableEq, Repr, Inhabited

/-- A copy of the boot directory (03 R86): its fields, and whether MAGIC and CRC are correct. -/
structure BootDir where
  ok     : Bool := false
  seq    : Nat := 0
  active : Bool := false
  trial  : Bool := false
  deriving DecidableEq, Repr, Inhabited

/-- Jade's domain 0: what survives a DR (03 R112). -/
structure Jad where
  /-- Always-on rails within tolerance (02 R51). -/
  aoUp       : Bool := false
  /-- Jade has left PR (02 R52). -/
  released   : Bool := false
  straps     : Straps := {}
  pwrOk      : Bool := false
  pwrReq     : Bool := false
  /-- Failed power requests (02 R76). -/
  reqFails   : Nat := 0
  /-- PERST_N high (03 R109). -/
  perstHigh  : Bool := false
  /-- Local time of the last fall of PERST_N (16 R692). -/
  perstFell  : Nat := 0
  /-- The 2 ms hold-up of 02 R74, 16 R675 or 20 R841 runs. -/
  losing     : Bool := false
  /-- PWR_OK has been lost since it was last answered by a restart (02 R75). -/
  lost       : Bool := false
  laserDis   : BitVec 2 := 0
  aBad       : Bool := false
  bBad       : Bool := false
  drCount    : Nat := 0
  wdogA      : Nat := 0
  wdogB      : Nat := 0
  /-- JAD_RSTCAUSE bits 7:0. -/
  rstCause   : BitVec 8 := 1
  xtalOk     : Bool := false
  rcTrimmed  : Bool := false
  rcRunning  : Bool := false
  refPpm     : Int := 0
  /-- Held in DR for REFCLK (02 R77), and the windows in a row with REFCLK in its band. -/
  refHold    : Bool := false
  refGood    : Nat := 0
  ain        : Tab Ain := []
  /-- Held by an EXTEST-class TAP instruction (23 R924); JAD_TESTSTAT.BSCAN_DR. -/
  bscanHold  : Bool := false
  bscanDr    : Bool := false
  /-- TAP instruction in force: 0 BYPASS, 1 IDCODE, 2 SAMPLE, 3 EXTEST, 4 CLAMP, 5 HIGHZ, 6 EXTEST_PULSE, 7 EXTEST_TRAIN (23 R920). -/
  tap        : Nat := 1
  /-- S5 latch (20 R841). -/
  latched    : Bool := false
  /-- The last mesh check found a breach (19 R783). -/
  breach     : Bool := false
  /-- SMB_ALERT_N driven low (20 R839). -/
  smbAlert   : Bool := false
  /-- MCTP endpoint ID (05 R195). -/
  eid        : Byte := 0
  deriving DecidableEq, Repr, Inhabited

/-- What a DR resets of boot and clocks (02 R83, 03 R123, 01 R47). -/
structure Boot where
  stage      : Stage := .pr
  slot       : Bool := false
  stopIgn    : Bool := false
  /-- Local time the boot is counted from, and JAD_BOOTTIME. -/
  start      : Nat := 0
  bootTime   : W32 := 0
  fwVer      : BitVec 24 := 0
  oxMaj      : Byte := 0
  refclkOk   : Bool := false
  jpll       : Bool := false
  gpll       : Bool := false
  bpll       : BitVec 4 := 0
  dies       : Tab Die := []
  combo      : Nat := 0
  comboOk    : Bool := false
  collected  : Bool := false
  /-- The slot last read by the boot ROM waits for its check (03 R91). -/
  loaded     : Bool := false
  execAt     : Nat := 0
  /-- What the boot ROM has read of the slot: the header, the digest of each component, and the components of known types as they lie in
  Conik's SRAM, by type (03 R91, R94). -/
  hdr        : List Byte := []
  digs       : List (BitVec 384) := []
  sram       : List (Nat × List Byte) := []
  /-- Local time HOST_READY was reached (03 R103). -/
  readyAt    : Nat := 0
  items      : Tab ItemSt := []
  /-- Conik held in reset; PCIe link held down (03 R121, R110). -/
  conikHeld  : Bool := true
  deriving DecidableEq, Repr, Inhabited

/-- The fuses the boot ROM reads beside the boot flash (03 R92, 19 R795). -/
structure Flash where
  /-- Revoked image-signing keys (fuses 13:10) and minimum SVN (fuses 29:14) (19 R795). -/
  revoked  : BitVec 4 := 0
  minSvn   : Nat := 0
  /-- ZGEN, the generation of the key-store encryption key (19). -/
  zgen     : Nat := 0
  /-- Slots (bit 0 A, bit 1 B) that a FLASH_WRITE sequence has begun to fill and no FINAL write has passed since (06 R251). -/
  unfinished : BitVec 2 := 0
  deriving DecidableEq, Repr, Inhabited

/-- Power state machine and domains (02 R58 to R62, 16 R679 to R694). Domain states: 0 OFF, 1 RETAIN, 2 CLOCK-GATED, 3 ON. -/
structure Pwr where
  state    : Nat := 0
  target   : Nat := 0
  busy     : Bool := false
  dom      : Tab Nat := []
  heldOff  : Tab Bool := []
  /-- Steps the sequencer still has to make: domain and its new state. -/
  seq      : List (Nat × Nat) := []
  /-- Local time the step in progress began (16 R679). -/
  stepAt   : Nat := 0
  /-- Local time since which nothing that R680 names has been pending. -/
  quietAt  : Option Nat := none
  cfg      : W32 := 0x0A01
  budget   : W32 := 0x0B40
  dark     : BitVec 64 := 0
  darkSaved : BitVec 64 := 0
  diePwr   : Tab Nat := []
  grant    : Int := 0
  /-- A wake request held while Always-on only is being entered, with the command that asks for it (02 R80). -/
  wakeHeld : Option (Option Req) := none
  deriving DecidableEq, Repr, Inhabited

/-- One temperature sensor (16 R656 to R663, R695). Temperatures in 1/16 °C. -/
structure Sensor where
  temp    : Int := 0
  valid   : Bool := false
  invalid : Bool := false
  limit   : Bool := false
  trip    : Bool := false
  warnHit : Bool := false
  riseHit : Bool := false
  /-- THM_WARN has been raised and not re-armed (R662). -/
  warned  : Bool := false
  off     : Nat := 0
  hist    : List Int := []
  warn    : Option Int := none
  rise    : Option Int := none
  deriving DecidableEq, Repr, Inhabited

/-- The thermal hub (16). -/
structure Thm where
  cfg      : W32 := 0x1C
  sens     : Tab Sensor := []
  qtemp    : Tab Int := []
  g        : Nat := 0
  b        : Nat := 0
  calm     : Nat := 0
  low      : Nat := 0
  /-- Rounds until THM_THROT.RISE falls. -/
  riseLeft : Nat := 0
  level    : Nat := 0
  /-- Dies blind (by die slot), tiles being warmed (R697), tiles cold in service. -/
  blind    : List Nat := []
  warming  : Tab Bool := []
  /-- Local time at which a tile's warming began. -/
  warmAt   : Tab Nat := []
  cold     : Tab Bool := []
  deriving DecidableEq, Repr, Inhabited

/-- A record of the device log (20 R832). `view` is false once a DR, FR or TR has reset the tenant's view of it. -/
structure Rec where
  slot    : Nat
  time    : Nat
  src     : Nat
  cls     : Nat
  prog    : Nat
  acked   : Bool := false
  esc     : Bool := false
  cleared : Bool := false
  dom     : Option Nat
  unit    : Nat
  count   : Nat := 0
  view    : Bool := true
  deriving DecidableEq, Repr, Inhabited

/-- The fields of an inclusion (20 R844). -/
structure Incl where
  seq    : Nat
  src    : Nat
  unit   : Nat
  stage  : Nat
  ftime  : Nat
  detail : Nat
  fwVer  : BitVec 24
  deriving DecidableEq, Repr, Inhabited

/-- A fault on its way to the aggregator (20, Model): source, unit, domain, and DETAIL for an inclusion. -/
structure Post where
  src    : Nat
  unit   : Nat
  dom    : Option Nat := none
  detail : Nat := 0
  deriving DecidableEq, Repr, Inhabited

/-- The fault aggregator (20). The log is kept oldest first. -/
structure Flt where
  pinThr  : Nat := 2
  lock    : Bool := false
  sevRej  : Bool := false
  /-- Programmed classes: entry is class + 1, 0 for the class of the source table. -/
  sev     : Tab Nat := []
  log     : List Rec := []
  lost    : Nat := 0
  /-- The inclusions in Jade's store, by place, as their 32 bytes (R844). -/
  incl    : Tab (List Byte) := []
  /-- Highest SEQ ever stored (R844). -/
  inclSeq : Nat := 0
  /-- Inclusions waiting for domain 3 (R850). -/
  waiting : List Incl := []
  /-- Faults that have fired and reach the aggregator next, in order. -/
  due     : List Post := []
  deriving DecidableEq, Repr, Inhabited

end Sys2Proof.Machine
end

