-- ==== Sys2Proof/Machine/Out.lean ====
section
/-! DEFINITION. What the device sends: the messages, bus writes and signals that leave the block, logged in `Dev.out` newest first (log 5). Statuses are the codes of 05 R200. -/

namespace Sys2Proof.Machine

/-- The status codes of 05 R200. -/
inductive Status where
  | ok | accepted | notReady | busy | unsupported | badLength | badField | badTenant | badState | accessDenied
  | tenantFenced | recoveryRefused | conflict | noResource | alreadyComplete | aborted | targetUnavailable | pathFailure
  | timeout | masterDisabled | mediumError | notErased | authFailed | integrity | internal
  deriving DecidableEq, Repr, Inhabited

/-- The code of a status (05 R200). -/
def Status.code : Status → Nat
  | .ok => 0 | .accepted => 1 | .notReady => 2 | .busy => 3
  | .unsupported => 0x10 | .badLength => 0x11 | .badField => 0x12 | .badTenant => 0x13 | .badState => 0x14
  | .accessDenied => 0x20 | .tenantFenced => 0x21 | .recoveryRefused => 0x22 | .conflict => 0x23
  | .noResource => 0x30 | .alreadyComplete => 0x31 | .aborted => 0x32
  | .targetUnavailable => 0x40 | .pathFailure => 0x41 | .timeout => 0x42 | .masterDisabled => 0x43
  | .mediumError => 0x50 | .notErased => 0x51 | .authFailed => 0x52 | .integrity => 0x53 | .internal => 0xFF

/-- The Facet completion status of a status (05 R200; 1 where the table gives none, log 20). -/
def Status.facet : Status → Nat
  | .ok => 0 | .accessDenied => 5 | .targetUnavailable => 2 | .pathFailure => 3 | .timeout => 4 | .masterDisabled => 6 | _ => 1

/-- The status a fabric RSP's code names; codes outside the table count as INTERNAL (05 R202, log 20). -/
def Status.ofCode (n : Nat) : Status :=
  if n = 0 then .ok else if n = 0x10 then .unsupported else if n = 0x20 then .accessDenied else if n = 0x14 then .badState
  else if n = 0x12 then .badField else if n = 0x30 then .noResource else if n = 0x32 then .aborted
  else if n = 0x40 then .targetUnavailable else if n = 0x41 then .pathFailure else if n = 0x42 then .timeout
  else if n = 0x43 then .masterDisabled else if n = 0x50 then .mediumError else if n = 0x53 then .integrity else .internal

/-- A response or a notice (05 R180): the payload as the values of its fields in layout order. -/
structure Reply where
  opcode   : Nat
  seq      : W16 := 0
  tenant   : Nat := 0xFF
  notice   : Bool := false
  replayed : Bool := false
  status   : Status := .ok
  data     : List Nat := []
  deriving DecidableEq, Repr, Inhabited

/-- A completion record (07 R270). -/
structure CRec where
  index   : Nat
  status  : Status
  phase   : Bool
  partial_ : Bool
  result  : Nat
  irq     : Bool := false
  deriving DecidableEq, Repr, Inhabited

/-- What a packet carries beyond its header (11 R453). -/
inductive Body where
  | none
  | coll (cmsg : Nat) (m : CollMsg) (f : Option FinalInfo)
  | sem (r : SemReq)
  | sub (kind reason stream : Nat) (val : W64)
  | steer (tenant : Nat) (side : Bool)
  | cnp (gq : Nat)
  | hello (h : Hello)
  /-- T1, and from the parent T2 and T3 (11 R493). -/
  | tsync (t1 : Nat) (reply : Option (Nat × Nat))
  deriving DecidableEq, Repr, Inhabited

/-- A Twin message (18 R753): the fields of its header, and its body. -/
structure TwinMsg where
  mtype  : Nat
  tenant : Nat := 0xFF
  seq    : Nat := 0
  aux    : Nat := 0
  body   : List Byte := []
  deriving DecidableEq, Repr, Inhabited

/-- What the device sends. -/
inductive Out where
  /-- A descriptor fetched from its slot in the ring (07 R260, R273). -/
  | descFetch (gq idx : Nat) (addr : W64)
  /-- A completion record written to a queue's ring (07 R271). -/
  | record (gq : Nat) (r : CRec)
  /-- An MSI-X write (05 R178), with the address and data of the vector's table entry (R172). -/
  | msix (fn vec : Nat) (addr : W64) (data : W32)
  /-- A read or write request on PCIe with AT Translated (08 R312). -/
  | pcieRead (fn tag : Nat) (pa : W64) (len : Nat)
  | pcieWrite (fn : Nat) (pa : W64) (len : Nat) (data : List W64)
  | pcieAtomic (fn tag : Nat) (pa : W64) (aop : Nat) (operand compare : W64)
  | pcieConfig (fn : Nat) (crs : Bool) (val : Nat)
  | pcieUr (fn : Nat)
  /-- An AER error message (05 R170). -/
  | pcieError (correctable : Bool) (bit : Nat)
  /-- ATS and PRI messages (08 R315, R334, R339). -/
  | atsRequest (fn tag : Nat) (pasid : Option Nat) (iova : W64)
  | invCompletion (fn itag : Nat)
  | pageRequest (fn prgi : Nat) (pasid : Option Nat) (page : W64) (write : Bool)
  /-- Messages on a Host Facet port's channels (04). -/
  | facetMem (p opc tag tenant status : Nat) (addr : W64) (len : Nat) (data : List W64)
  | facetCoh (p kind : Nat) (w : CohWord) (value : W64)
  | facetIrq (p tenant vec : Nat)
  | facetReply (p fn : Nat) (r : Reply)
  | facetLink (p kind c a b : Nat)
  | facetTime (p : Nat) (ftime : W64) (flags : Nat)
  /-- A training message (04 R139): type and fields. -/
  | facetTrain (p kind : Nat) (args : List Nat)
  /-- The header of a flit as it leaves (04, Facet flit), and a flit sent again (R130). -/
  | facetFlit (p : Nat) (f : FacetFlit)
  | facetResend (p seq : Nat)
  /-- A message over MCTP (05 R195). -/
  | mctp (kind : Nat) (r : Reply)
  | mctpError
  /-- A packet that leaves on an optical port, or 0xFF for one that this device sends to itself, whose arrival is its own command (11 R451). -/
  | packet (port : Nat) (t : PType) (p : Pkt) (b : Body)
  /-- Link layer (12). -/
  | linkResend (port seq : Nat)
  | linkNak (port ack : Nat)
  | train (port kind : Nat) (w : TrainWord)
  /-- A WAL item: subtype, then LANE, FROM, TO, SLOT, or the bitmap of RXUSE (14 R601); REKEY_READY is subtype 0x102 (12 R533). -/
  | lmgt (port kind : Nat) (args : List Nat)
  | retract (port vc seq : Nat)
  /-- A KEYMSG (19 R797): type, FRAG, NFRAG and DATA. -/
  | keymsg (port kind frag nfrag : Nat) (data : List Byte)
  | spdm (kind status : Nat) (data : List Nat)
  /-- Twin messages (18 R753), and a tenant's snapshot, logged as one piece (log 34). -/
  | twin (m : TwinMsg)
  | snap (tenant : Nat) (s : Snap)
  /-- A telemetry frame written to host memory: its 4,096 bytes (21 R860). -/
  | telemetry (addr : W64) (frame : List Byte)
  | dump (tenant : Nat) (addr : W64) (len : Nat)
  deriving DecidableEq, Repr, Inhabited

/-- A packet, message or completion that arrived while the device was stopped (21 R878, R879). -/
inductive Late where
  | request (t : PType) (k : Pkt) (r : SemReq)
  | response (k : Pkt) (status : Nat)
  | transit (t : PType) (k : Pkt)
  | coll (kind : Nat) (m : CollMsg) (f : FinalInfo)
  | sub (kind : Nat) (k : Pkt) (stream : Nat) (val : W64)
  | steer (k : Pkt) (tenant : Nat) (side : Bool)
  | cnp (k : Pkt) (gq : Nat)
  | die (kind p : Nat) (m : MemMsg)
  | coh (kind p : Nat) (w : CohWord)
  | dieCpl (p tag tenant status : Nat) (data : List W64)
  | hostCpl (fn tag : Nat) (ok : Bool) (data : List W64)
  | hostTimeout (fn tag : Nat)
  | ats (fn tag : Nat) (c : AtsCpl)
  | prg (fn prgi code : Nat)
  | flush (path : Nat)
  deriving DecidableEq, Repr, Inhabited

end Sys2Proof.Machine
end

