-- ==== Sys2Proof/Machine/StateHost.lean ====
section
/-! DEFINITION. Host-side state: Host and Inner Facet ports, PCI functions and mailboxes, Oxsum commands in progress, tenants, queues, translation (04 to 08). Defaults are reset values. -/

namespace Sys2Proof.Machine

/-! ### Host Facet (04) -/

/-- States of a Host Facet port (04 R140, FCT_PSTAT.STATE). -/
inductive PState where
  | down | clock | ident | centre | repair | negotiate | active | failed
  deriving DecidableEq, Repr, Inhabited

/-- One direction of FCT_LREP (04): the lane each spare carries, and whether the spare is bad. -/
structure Lrep where
  s0    : Option Nat := none
  s0Bad : Bool := false
  s1    : Option Nat := none
  s1Bad : Bool := false
  deriving DecidableEq, Repr, Inhabited

/-- A repair or mask in progress on a cluster (04 R149, R150, R159). `rx`: this end receives the lane. `cyc` is N or M
once agreed; `dual` once the lane is driven twice; `taken` once the receiver has moved. -/
structure Change where
  mask  : Bool
  rx    : Bool
  lane  : Nat := 0
  spare : Nat := 0
  cyc   : Option Nat := none
  dual  : Bool := false
  taken : Bool := false
  deriving DecidableEq, Repr, Inhabited

/-- One cluster of a port. -/
structure Clus where
  rx       : Lrep := {}
  tx       : Lrep := {}
  masked   : Bool := false
  errs     : Nat := 0
  lastLane : Nat := 0
  change   : Option Change := none
  /-- Lanes declared failing, and a repair the far end asked for, while a change is in progress (04 R159). -/
  waiting  : List Nat := []
  asked    : Option (Nat × Nat) := none
  /-- Failing lanes this end found in its sweep, S0 and S1 at 32 and 33 (04 R142, R143, R158). -/
  failRx   : BitVec 34 := 0
  deriving DecidableEq, Repr, Inhabited

/-- A message waiting for flits: its channel, its flits and what it is. -/
structure FMsg where
  ch    : Nat
  flits : Nat
  msg   : Out
  /-- Some of its flits have left. -/
  part  : Bool := false
  deriving DecidableEq, Repr, Inhabited

/-- A flit not yet acknowledged (04 R129). -/
structure TxFlit where
  seq    : Nat
  resent : Nat := 0
  msg    : Option Out := none
  deriving DecidableEq, Repr, Inhabited

/-- A Host Facet port (04). -/
structure HPort where
  st       : PState := .down
  rev      : Nat := 0
  good     : Nat := 0
  tries    : Nat := 0
  cfg      : W32 := 0x308
  replays  : Nat := 0
  discard  : Nat := 0
  bind     : BitVec 16 := 0
  feat     : W32 := 0
  peerRev  : Nat := 0
  peerFeat : W32 := 0
  clus     : Tab Clus := []
  negSeen  : Bool := false
  crdSeen  : Bool := false
  /-- Local time of Facet cycle 0. -/
  cycle0   : Nat := 0
  txNext   : Nat := 0
  unacked  : List TxFlit := []
  rxNext   : Nat := 0
  /-- Channels with a partly received message. -/
  parts    : List Nat := []
  /-- Credits held per channel, and pool of the peer. -/
  cred     : Tab Nat := []
  /-- Flits received on the memory channel whose credits are withheld (04 R133). -/
  memHeld  : Nat := 0
  /-- Memory messages, by kind, that wait for packet buffer units (07 R257). -/
  memWait  : List (Nat × MemMsg) := []
  queue    : List FMsg := []
  /-- Flits sent since the last interrupt or debug flit, up to 7 (R135), and what the memory channel is ahead of its share of the other flits,
  in waiting flits. -/
  ctlGap   : Nat := 7
  share    : Int := 0
  /-- Credits per channel, an acknowledgement and a NAK that the next flit of this end carries (R130, R131, R133). -/
  owed     : Tab Nat := []
  ackOwed  : Bool := false
  nakOwed  : Bool := false
  /-- Local time of the last HR. -/
  hrAt     : Option Nat := none
  deriving DecidableEq, Repr, Inhabited

/-- One direction of an Inner Facet (04 R155, R156): the role (plus 1) that spare cluster 68 + k carries, the Facet cycle from which it does, and
the failed clusters. -/
structure InnerDir where
  spare    : Tab Nat := []
  since    : Tab Nat := []
  failed   : BitVec 72 := 0
  deriving DecidableEq, Repr, Inhabited

/-- An Inner Facet (04 R155 to R157): both directions as Garnet sees them, the optical ports lost, and whether the Beryl's microcode is loaded. -/
structure Inner where
  rx       : InnerDir := {}
  tx       : InnerDir := {}
  lost     : BitVec 16 := 0
  ucode    : Bool := false
  deriving DecidableEq, Repr, Inhabited

/-- Host Facet block: ports 0 to 7 are the Host Facet ports; at 8 + n stand the training and the lanes of the Inner Facet of tile n. -/
structure Fct where
  ports : Tab HPort := []
  inner : Tab Inner := []
  deriving DecidableEq, Repr, Inhabited

/-! ### Functions and mailboxes (05) -/

/-- A command that waits in a function's stream, with the generation numbers when it arrived (06 R248). -/
structure Wait where
  hdr  : CmdHdr
  gens : List (Nat × Nat) := []
  deriving DecidableEq, Repr, Inhabited

/-- What a read of host memory serves. -/
inductive RdFor where
  /-- A segment of an operation: queue, descriptor index, offset, length. -/
  | seg (gq idx off len : Nat)
  /-- A write of an operation to local memory. -/
  | put (gq idx off len : Nat)
  /-- A peer's request at a window. -/
  | peer (t : PType) (p : Pkt)
  /-- A compute die's WR: port, tag, tenant. -/
  | dieW (p tag tenant : Nat)
  /-- A compute die's RD or ATOM: port, tag, tenant. -/
  | die (p tag tenant : Nat)
  /-- Shadow streaming of a granule (17 R717). -/
  | capture (tenant region granule : Nat)
  /-- A restore's write of a granule (17 R730). -/
  | restore (tenant : Nat)
  /-- A completion record on its way to its ring (07 R271). -/
  | record (gq : Nat) (r : CRec)
  /-- The ring translation of Q_START (08 R344), and a descriptor on its way from its slot (08 R343). -/
  | ring (gq : Nat)
  | fetch (gq : Nat) (idx : W32) (x : Desc)
  /-- Bytes teed by a dump (21 R873), a telemetry frame (21 R861). -/
  | dump (tenant len : Nat)
  | frame (n : Nat)
  /-- A late contribution's source (10 R424). -/
  | carry (gq idx off len : Nat)
  /-- Nothing waits any more. -/
  | dropped
  deriving DecidableEq, Repr, Inhabited

/-- A piece of work on host memory in progress: what it serves, its requests still to end, and the data read so far by offset. -/
structure Job where
  id     : Nat
  for_   : RdFor
  left   : Nat
  data   : List (Nat × List W64) := []
  status : Status := .ok
  /-- Some request of it has ended OK. -/
  some_  : Bool := false
  deriving DecidableEq, Repr, Inhabited

/-- A read or atomic outstanding on PCIe (`port` none) or on a Host Facet port. -/
structure HRead where
  fn    : Nat
  port  : Option Nat
  tag   : Nat
  job   : Nat
  off   : Nat
  len   : Nat
  pa    : W64
  engine : Nat := 0
  pasid : Option Nat := none
  iova  : W64 := 0
  /-- Issued before Bus Master Enable was cleared (05 R204). -/
  stale : Bool := false
  /-- A read-modify-write of the atomic unit: code, OPERAND, COMPARE (09 R353). -/
  rmw   : Option (Nat × W64 × W64) := none
  /-- An atomic executed by its completer (09 R353). -/
  atom  : Option (Nat × W64 × W64) := none
  /-- Local time it was sent (05 R169). -/
  at_   : Nat := 0
  deriving DecidableEq, Repr, Inhabited

/-- A PCI function: 0 the PF, t + 1 the VF of tenant t (05). -/
structure Fn where
  mse      : Bool := false
  bme      : Bool := false
  vfEnable : Bool := false
  cto      : Nat := 0
  mrrs     : Nat := 2
  /-- Programmed Max Payload Size code, BARs (dwords 0 to 3), and the AER status registers (R166, R170, R171). -/
  mps      : Nat := 0
  bar      : Tab W32 := []
  aerCorr  : W32 := 0
  aerUncorr : W32 := 0
  msix     : Bool := false
  atomicEn : Bool := false
  priEn    : Bool := false
  pageAlloc : Nat := 0
  flr      : Bool := false
  bmOff    : Bool := false
  discarded : Nat := 0
  refused  : Nat := 0
  irqDest  : Nat := 0
  ntcDest  : Nat := 0
  cmdTail  : W16 := 0
  cmdHead  : W16 := 0
  rspTail  : W16 := 0
  rspHead  : W16 := 0
  ntcTail  : W16 := 0
  ntcHead  : W16 := 0
  ntcLost  : Nat := 0
  /-- Notices lost since the last overflow notice (05 R188). -/
  lostNow  : Nat := 0
  stream   : List Wait := []
  /-- Contents of the rings (R173): dwords of the command slots, responses and notices by slot. -/
  cmdRing  : Tab W32 := []
  rsp      : Tab (Option Reply) := []
  ntc      : Tab (Option Reply) := []
  /-- Responses that wait for a free slot, with NO_IRQ (R186), and notices held (R190). -/
  rspHeld  : List (Bool × Reply) := []
  held     : List Reply := []
  vecs     : List Nat := []
  /-- MSI-X table (R172): address and data words (4·vector + word), and vector control (reset 1, masked). -/
  vadr     : Tab W32 := []
  vctl     : Tab W32 := []
  kept     : List (Path × Reply) := []
  deriving DecidableEq, Repr, Inhabited

/-- Objects of 06 R225 and R248. -/
inductive Obj where
  | none | tenant (t : Nat) | queue (t q : Nat) | stream (t s : Nat) | port (p : Nat) | trunk (k : Nat)
  | group (t g : Nat) | region (t r : Nat) | block (die b : Nat) | laser (ruby pos : Nat) | flash
  deriving DecidableEq, Repr, Inhabited

/-- A command answered ACCEPTED whose final notice is still owed (05 R187, 06 R224). -/
structure Acc where
  opcode : Nat
  req    : Req
  objs   : List Obj
  arg    : Nat := 0
  deriving DecidableEq, Repr, Inhabited

/-- PCIe link (05 R167, R168). -/
structure Link5 where
  up       : Bool := false
  gts      : Nat := 0
  width    : Nat := 0
  attempts : Nat := 0
  held     : Bool := false
  deriving DecidableEq, Repr, Inhabited

/-- A FLASH_WRITE in progress (06 R227 to R229): its area, offset and data; `erase` while the area is being erased, `check` while Jade checks
the slot. -/
structure FlJob where
  slot  : Nat
  off   : Nat
  data  : List Byte
  erase : Bool
  final : Bool
  check : Bool := false
  deriving DecidableEq, Repr, Inhabited

/-- Management endpoint, Conik and commands in progress (05, 06). -/
structure Mbx where
  fns     : Tab Fn := []
  link    : Link5 := {}
  /-- OXSUM_MIN of MBX_VER (05). -/
  oxMin   : Nat := 0
  reads   : List HRead := []
  /-- Reads beyond the limit of 05 R166. -/
  readWait : List HRead := []
  jobs    : List Job := []
  nextJob : Nat := 0
  nextTag : Nat := 0
  lastP2  : Bool := false
  turn    : Nat := 0
  cur     : Option Wait := none
  acc     : List Acc := []
  gens    : List (Nat × Nat) := []
  /-- Next offset of the write sequence open on a slot (06 R227), and the write in progress. -/
  flSeq   : Tab (Option Nat) := []
  flJob   : Option FlJob := none
  /-- DEV_RESET scheduled (06 R226). -/
  resetAt : Option Nat := none
  mctpBusy : Bool := false
  deriving DecidableEq, Repr, Inhabited

/-! ### Tenants and queues (07) -/

/-- Queue states (07 R273). -/
inductive QSt where
  | absent | stopped | running | draining | aborting | mdStopped
  deriving DecidableEq, Repr, Inhabited

/-- A queue, by its device-global number 64t + q. Indices are free-running 32-bit counts. -/
structure Queue where
  st      : QSt := .absent
  qtype   : Nat := 0
  ring    : W64 := 0
  log2    : Nat := 0
  vector  : Nat := 0
  weight  : Nat := 0
  rate    : Nat := 0
  timeout : Nat := 0
  head    : W32 := 0
  tail    : W32 := 0
  next    : W32 := 0
  /-- Indices at or above HEAD whose record has been decided, and the records at or above HEAD that have been written (R278). -/
  recs    : List Nat := []
  written : List CRec := []
  held    : List CRec := []
  last    : Status := .ok
  timeouts : Nat := 0
  refused : Nat := 0
  late    : Nat := 0
  /-- Serial counter; `none` until the first transaction draws its start (R286, log 6). -/
  serial  : Option W32 := none
  retired : List (Nat × Nat) := []
  /-- Deficit of the round robin, by egress (R281). -/
  deficit : Tab Nat := []
  tokens  : Nat := 0
  tokenAt : Nat := 0
  /-- Ring fault in force (08 R343). -/
  ringFault : Bool := false
  /-- Descriptors fetched ahead (08 R328). -/
  fetched : List Nat := []
  visible : List (Nat × Nat) := []
  ends    : Tab Nat := []
  deriving DecidableEq, Repr, Inhabited

/-- An operation in progress (07 R276): a started descriptor. -/
structure Op where
  gq       : Nat
  idx      : Nat
  desc     : Desc
  startedAt : Nat
  /-- Next byte to issue, bytes confirmed, and bytes of the whole operation. -/
  next     : Nat := 0
  confirmed : Nat := 0
  total    : Nat := 0
  /-- Set once the operation has been split and its segments may be issued. -/
  open_    : Bool := false
  issued   : Bool := false
  result   : W64 := 0
  /-- Page requests it made, by page number (08 R341). -/
  faults   : Tab Nat := []
  /-- The status it ends with once every write is done. -/
  endSt    : Status := .ok
  dump     : Bool := false
  /-- Dump writes still to end (21 R873). -/
  tee      : Nat := 0
  /-- Packet buffer units its segments in flight hold. -/
  held    : Nat := 0
  /-- A write of it that failed had written some page (R270). -/
  touched : Bool := false
  arg      : Nat := 0
  deriving DecidableEq, Repr, Inhabited

/-- What a fabric transaction carries: a segment of an operation, a piece of a compute die's request (09 R355), a
prefetched line (09 R368), a semaphore operation, a demand read of a line. -/
inductive TxFor where
  | op (idx off len : Nat)
  | die (req piece : Nat)
  | line (t s line : Nat)
  | sem (idx : Nat)
  deriving DecidableEq, Repr, Inhabited

/-- A fabric transaction outstanding (07 R285). `dst` is the destination node; `write` and the range serve R279. -/
structure Txn where
  gq     : Nat
  serial : W32
  for_   : TxFor
  issued : Nat
  dst    : Nat
  write  : Bool
  lo     : Nat
  len    : Nat
  deriving DecidableEq, Repr, Inhabited

/-- A tenant (07; TEN_RSTSTAT 03; TEN_QFLAG 09). -/
structure Tenant where
  assign   : Option Assign := none
  rst      : Nat := 0
  rstCount : Nat := 0
  rstCause : Nat := 0
  /-- Local time the TR began. -/
  trAt     : Nat := 0
  pkt      : Nat := 0
  red      : Nat := 0
  pgb      : Nat := 0
  /-- Buffer requests waiting, and units granted to them since, by pool (07 R257, R258). -/
  waiting  : Tab Nat := []
  granted  : Tab Nat := []
  deficit  : Tab Nat := []
  tokens   : Nat := 0
  tokenAt  : Nat := 0
  /-- The TR runs as part of an FR of the PF (03 R119). -/
  frPf     : Bool := false
  /-- Exported window (08 R303). -/
  winBase  : W64 := 0
  winSize  : W64 := 0
  winPasid : Nat := 0
  winFlags : Nat := 0
  /-- Peer requests being served on the window, and those on the window it replaced. -/
  serving  : Nat := 0
  servingOld : Nat := 0
  keydef   : W32 := 0
  krBase   : Tab W32 := []
  krLim    : Tab W32 := []
  krCtl    : Tab W32 := []
  /-- Served by this device (18 R760); TEN_QFLAG words (09). -/
  served   : Bool := true
  qflag    : Tab W64 := []
  deriving DecidableEq, Repr, Inhabited

/-- Tenants, queues, operations and transactions. `pool` counts free grant units of the packet buffer. -/
structure TenQ where
  ten  : Tab Tenant := []
  q    : Tab Queue := []
  ops  : List Op := []
  txns : List Txn := []
  /-- Round-robin turn of freed units, by pool (07 R258). -/
  turn : Tab Nat := []
  deriving DecidableEq, Repr, Inhabited

/-! ### Translation (08) -/

/-- A cached translation (08 R319, R324). `owner` is a function number. -/
structure Xent where
  owner : Nat
  pasid : Option Nat
  base  : W64
  log2  : Nat
  pa    : W64
  r     : Bool
  w     : Bool
  sel   : Nat
  deriving DecidableEq, Repr, Inhabited

/-- An access to host memory within one 4 KiB page: for whom, where, its job and its place in it. -/
structure Access where
  fn     : Nat
  pasid  : Option Nat
  iova   : W64
  len    : Nat
  write  : Bool
  atom   : Option (Nat × W64 × W64) := none
  data   : List W64 := []
  job    : Nat
  off    : Nat := 0
  /-- The message a write is logged as (none: a plain write). -/
  msg    : Option Out := none
  /-- The operation it belongs to, and whether it may take a page fault (08 R338). -/
  op     : Option (Nat × Nat) := none
  mayFault : Bool := false
  engine : Nat := 0
  deriving DecidableEq, Repr, Inhabited

/-- An ATS Translation Request outstanding (08 R316), with the access that waits on it (none: a pre-translation). -/
structure AtsReq where
  fn    : Nat
  tag   : Nat
  pasid : Option Nat
  iova  : W64
  stale : Bool := false
  /-- Issued before Bus Master Enable was cleared (05 R204), and the local time it was sent (05 R169). -/
  off   : Bool := false
  at_   : Nat := 0
  acc   : Option Access := none
  gq    : Nat := 0
  idx   : Nat := 0
  deriving DecidableEq, Repr, Inhabited

/-- A Page Request outstanding, or waiting for a slot (08 R339, R340). -/
structure PageReq where
  fn    : Nat
  prgi  : Nat
  acc   : Access
  at_   : Nat
  sent  : Bool
  deriving DecidableEq, Repr, Inhabited

/-- An invalidation being served: PASID `none` covers entries without PASID; `global` every PASID (08 R332). -/
structure Inval where
  fn     : Nat
  itag   : Nat
  pasid  : Option Nat
  global : Bool
  base   : W64
  len    : Nat
  /-- Tags of the covered reads that were outstanding when it arrived (08 R333). -/
  tags   : List Nat := []
  deriving DecidableEq, Repr, Inhabited

/-- Translation state (08). -/
structure Xlt where
  cfg      : W32 := 0x6408
  stopped  : BitVec 17 := 0
  tlb      : List Xent := []
  micro    : Tab (List Xent) := []
  pre      : List (Nat × Nat × Xent) := []
  ats      : List AtsReq := []
  atsWait  : List AtsReq := []
  pages    : List PageReq := []
  nextPrgi : Nat := 0
  invals   : List Inval := []
  received : Nat := 0
  flushes  : Nat := 0
  preUsed  : Nat := 0
  preDisc  : Nat := 0
  denied   : Tab Nat := []
  hmapBase : Tab W32 := []
  hmapLim  : Tab W32 := []
  hmapCtl  : Tab W32 := []
  /-- Words the atomic unit holds, and the accesses that wait for them (09 R354). -/
  rmw      : List W64 := []
  rmwWait  : List (Access × W64 × Nat) := []
  deriving DecidableEq, Repr, Inhabited

end Sys2Proof.Machine
end

