-- ==== Sys2Proof/Machine/StateDebug.lean ====
section
/-! DEFINITION. Debug, counters and hang analysis, and the repair fuses (21, 23). Defaults are reset values. -/

namespace Sys2Proof.Machine

/-- DBG_STOPSTAT.STATE. -/
inductive StopSt where
  | running | scheduled | stopped | resuming
  deriving DecidableEq, Repr, Inhabited

/-- One DBG_CUT entry (21 R882). -/
structure Cut where
  valid  : Bool := false
  txSeq  : Nat := 0
  txAck  : Nat := 0
  rxSeq  : Nat := 0
  rxPart : Nat := 0
  deriving DecidableEq, Repr, Inhabited

/-- A trace entry (21 R862). -/
structure TEnt where
  ftime  : Nat
  event  : Nat
  tenant : Nat
  locked : Bool
  unit   : Nat := 0
  qglobal : Nat := 0xFFFF
  status : Nat := 0
  ident  : Option Telem := none
  arg    : Nat := 0
  deriving DecidableEq, Repr, Inhabited

/-- An edge of the wait-for graph (21 R868). -/
structure Edge where
  qglobal : Nat
  reason  : Nat
  tkind   : Nat
  target  : Nat
  layer   : Nat
  operator : Nat
  micros  : Nat
  deriving DecidableEq, Repr, Inhabited

/-- An armed or firing dump trigger (21 R871 to R875). -/
structure Dump where
  layer    : W16
  operator : W16
  stp      : W32
  dest     : W64
  maxlen   : Nat
  /-- Local time of the command's first step (R875). -/
  at_      : Nat := 0
  firing   : Option (Nat × Nat) := none
  /-- The firing operation's status, once it has ended. -/
  status   : Option Status := none
  bytes    : Nat := 0
  failed   : Bool := false
  deriving DecidableEq, Repr, Inhabited


/-- Debug state. Counter sets: `units` 16u + k, `devOps` SET 0x0001, `ops` 64t + i, `qacct` 1024t + 16q + k. Account 1 (IDLE)
is what the others leave of the cycles counted since `base` (R856, R857). -/
structure Dbg where
  cfg     : W32 := 0x03E83200
  st      : StopSt := .running
  cause   : Nat := 0
  record  : Bool := false
  locked  : Bool := false
  resumeCause : Nat := 0
  ignored : Nat := 0
  stopFt  : Nat := 0
  stopCyc : Nat := 0
  /-- Local time of the cut, from which the timers of R880 hold. -/
  cutAt   : Nat := 0
  /-- The HI word of STOPFT and of STOPCYC that the last read of LO latched. -/
  ftHi    : W32 := 0
  cycHi   : W32 := 0
  /-- Core cycles since PR or DR, and those counted by the accounts (not while stopped). -/
  cycles  : Nat := 0
  counted : Nat := 0
  cut     : Tab Cut := []
  trcfg   : W32 := 0x21FFF
  trmask  : W32 := 0x1FFFF
  trpage  : Nat := 0
  trace   : List TEnt := []
  lost    : Nat := 0
  frames  : Nat := 0
  skipped : Nat := 0
  /-- Telemetry export: DEST, PERIOD_US and the next frame number. -/
  tlm     : Option (W64 × Nat × Nat) := none
  /-- Local times of the last frame, or of its TLM_EXPORT, and of the last time stamps sent (R860, R866). -/
  tlmAt   : Nat := 0
  tsAt    : Nat := 0
  units   : Tab Nat := []
  devOps  : Tab Nat := []
  ops     : Tab Nat := []
  qacct   : Tab Nat := []
  qbase   : Tab Nat := []
  /-- The account each queue stands in, the index of its head operation, and the fabric time it entered the account (R867). -/
  qsince  : Tab (Nat × Nat × Nat) := []
  /-- RANGE of each queue's previous started descriptor (event RANGE). -/
  lastRange : Tab (Option W32) := []
  /-- Captures of DBG_WAITFOR: view t, or 16 for the PF. -/
  graphs  : Tab (Option (List Edge)) := []
  dumps   : Tab (Option Dump) := []
  /-- Packets, messages and completions that arrived while stopped, in order (R878, R879). -/
  ingress : List Late := []
  /-- Tenant resets held while stopped (R885). -/
  heldTr  : List (Nat × Nat) := []
  deriving DecidableEq, Repr, Inhabited

/-- A repair fuse entry (23 R917). -/
structure Repair where
  toDie   : Bool
  cluster : Nat
  lane    : Nat
  target  : Nat
  deriving DecidableEq, Repr, Inhabited

/-- The repair fuses: bridges 0 to 3 are B0 to B3, 4 and 5 the Onyx stacks. -/
structure Fuses where
  /-- Device Serial Number of the PF (05 R164). -/
  dsn    : W64 := 0
  repair : Tab (List Repair) := []
  deriving DecidableEq, Repr, Inhabited

end Sys2Proof.Machine
end

