-- ==== Sys2Proof/Machine/StateFabric.lean ====
section
/-! DEFINITION. Remote memory, collectives, semaphores, switch, fabric time and optical links (09 to 12). Defaults are reset values. -/

namespace Sys2Proof.Machine

/-! ### Remote memory (09) -/

/-- Page buffer line states (09 R358). -/
inductive LineSt where
  | fetching | doomed | ready | used
  deriving DecidableEq, Repr, Inhabited

/-- A line of the page buffer: its tenant and stream, its number (fabric address over 4 KiB), and the pieces of
compute-die reads that wait for it (request, piece, address, length). -/
structure Line where
  t      : Nat
  s      : Nat
  line   : Nat
  st     : LineSt
  used   : Nat := 0
  waiters : List (Nat × Nat × Nat × Nat) := []
  data   : List W64 := []
  deriving DecidableEq, Repr, Inhabited

/-- Stream states (TEN_SSTAT.STATE). -/
inductive StreamSt where
  | absent | subscribing | granted | refused | withdrawing
  deriving DecidableEq, Repr, Inhabited

/-- A declared stream (09 R362 to R368). `lease` is the fabric time it expires. -/
structure Stream where
  st     : StreamSt := .absent
  base   : W64 := 0
  span   : Nat := 0
  log2   : Nat := 0
  depth  : Nat := 0
  lease  : Option Nat := none
  page   : Nat := 0
  reason : Nat := 0
  hit    : Nat := 0
  miss   : Nat := 0
  disc   : Nat := 0
  deriving DecidableEq, Repr, Inhabited

/-- A subscription held as owner (09 R364, R365): subscriber's node, tenant and stream; the owner's tenant and range. -/
structure Sub where
  node   : Nat
  ten    : Nat
  stream : Nat
  t      : Nat
  lo     : Nat
  len    : Nat
  expiry : Nat
  deriving DecidableEq, Repr, Inhabited

/-- A peer's write whose acknowledgement waits (09 R348, R375): for its read-back (`path`), and for subscribers. -/
structure PendW where
  pkt     : Pkt
  path    : Nat
  flushed : Bool := false
  subs    : List (Nat × Nat × Nat) := []
  expiry  : Nat := 0
  posted  : Bool := false
  deriving DecidableEq, Repr, Inhabited

/-- A directory entry (09 R380, R381): holders, the value held back, and the holders still to acknowledge it. -/
structure DirEnt where
  word    : CohWord
  holders : List Nat := []
  newVal  : Option W64 := none
  acks    : List Nat := []
  deriving DecidableEq, Repr, Inhabited

/-- A compute die's request that was forwarded (09 R355). -/
structure DieReq where
  id     : Nat
  p      : Nat
  tag    : Nat
  tenant : Nat
  posted : Bool
  read   : Bool
  pieces : Nat
  done   : List (Nat × Nat) := []
  data   : List (Nat × List W64) := []
  /-- Packet buffer units it holds (07 R257). -/
  units  : Nat := 0
  deriving DecidableEq, Repr, Inhabited

/-- Remote-memory state. -/
structure Rm where
  cfg     : Tab W32 := []
  lines   : List Line := []
  streams : Tab Stream := []
  subs    : List Sub := []
  pend    : List PendW := []
  dir     : List DirEnt := []
  /-- Local time until which writes to a taken-over window wait, and the writes waiting (09 R391). -/
  hold    : Tab Nat := []
  held    : List (PType × Pkt) := []
  die     : List DieReq := []
  /-- Pieces that R280 still holds back: request, piece, packet type and packet. -/
  dieWait : List (Nat × Nat × PType × Pkt) := []
  nextDie : Nat := 0
  deriving DecidableEq, Repr, Inhabited

/-! ### Collectives and semaphores (10) -/

/-- A collective group of a tenant (10 R404 to R408, R423, R424). -/
structure Group where
  total     : Nat := 0
  members   : List Nat := []
  complete  : Bool := false
  counter   : Nat := 0
  finalised : Nat := 0
  present   : Nat := 0
  missing   : Nat := 0
  /-- LATE as the root last reported it, and late contributions counted here (R424). -/
  late      : Nat := 0
  lateHere  : Nat := 0
  dropping  : Bool := false
  deriving DecidableEq, Repr, Inhabited

/-- Input waiting for a reduce engine: source member, chunk, elements, and whether it has passed its check. -/
structure FoldIn where
  src    : Nat
  chunk  : Nat
  /-- `raw` elements are still in FMT. -/
  elems  : List W32
  raw    : Bool := false
  carry  : Bool := false
  passed : Bool := true
  port   : Nat := 0
  deriving DecidableEq, Repr, Inhabited

/-- A chunk in reduction scratch: its accumulated value, the sources folded, and the value before each tentative fold, with its source and port (10 R435). -/
structure Chunk where
  acc    : Option (List W32) := none
  folded : List Nat := []
  carries : List Nat := []
  saved  : List (Nat × Nat × Option (List W32)) := []
  sent   : Bool := false
  deriving DecidableEq, Repr, Inhabited

/-- An open instance of a group (10). `own` is the local descriptor: queue and index. -/
structure Inst where
  t        : Nat
  g        : Nat
  k        : Nat
  own      : Option (Nat × Nat) := none
  desc     : Option DescBody := none
  kind     : Nat := 0x20
  shape    : Option W32 := none
  started  : Nat := 0
  admitted : List Nat := []
  missing  : List Nat := []
  chunks   : Tab Chunk := []
  queue    : List FoldIn := []
  closed   : Bool := false
  /-- When CLOSE was sent on, and whether this engine has sent its own CLOSE_ACK (R418). -/
  closeAt  : Option Nat := none
  ackSent  : Bool := false
  acks     : List (Nat × List Nat) := []
  left     : List Nat := []
  leftSt   : Status := .ok
  result   : List (Nat × List W32) := []
  late     : Bool := false
  /-- What the FINAL said, once it has come. -/
  final    : Option FinalInfo := none
  deriving DecidableEq, Repr, Inhabited

/-- A carry held for the next instance (10 R424). -/
structure Carry where
  t      : Nat
  g      : Nat
  member : Nat
  shape  : W32
  chunks : List (Nat × List W32)
  /-- Its instance, and set once it is to be discarded. -/
  inst   : Nat := 0
  dead   : Bool := false
  deriving DecidableEq, Repr, Inhabited

/-- A SEM_WAIT held at its home node (10 R429): the local queue and descriptor, or the packet to answer. -/
structure Waiter where
  index   : Nat
  tenant  : Nat
  cond    : Nat
  operand : W64
  compare : W64
  own     : Option (Nat × Nat)
  pkt     : Pkt
  deriving DecidableEq, Repr, Inhabited

/-- Collectives and semaphores. -/
structure Col where
  cfg     : W32 := 0x114
  groups  : Tab Group := []
  inst    : List Inst := []
  carries : List Carry := []
  closes  : Nat := 0
  quorumFail : Nat := 0
  restores : Nat := 0
  sem     : Tab W64 := []
  /-- Owner of each block: tenant + 1, 0 for none. -/
  owner   : Tab Nat := []
  waiters : List Waiter := []
  /-- Local waits a full table refused: queue, descriptor and node (10 R429). -/
  resend  : List (Nat × Nat) := []
  deriving DecidableEq, Repr, Inhabited

/-! ### Switch and fabric time (11) -/

/-- A neighbour (11 R448, FAB_NBR). -/
structure Nbr where
  valid   : Bool := false
  node    : Nat := 0
  port    : Nat := 0
  dup     : Bool := false
  partner : Bool := false
  ident   : W64 := 0
  last    : Nat := 0
  gm      : Nat := 0
  gmPri   : Nat := 0
  gmHops  : Nat := 0
  deriving DecidableEq, Repr, Inhabited

/-- An undo record of a packet in cut-through (11 R481). -/
structure Undo where
  inPort  : Nat
  /-- VC and link sequence at which it started coming in, where the link layer has them. -/
  inVc    : Nat := 0
  inSeq   : Option Nat := none
  outPort : Nat
  outSeq  : Nat
  vc      : Nat
  units   : Nat
  pkt     : PType × Pkt
  body    : Body := .none
  deriving DecidableEq, Repr, Inhabited

/-- A packet at the head of an ingress queue that no egress has taken (11 R470, R473). -/
structure WPkt where
  t      : PType
  pkt    : Pkt
  body   : Body := .none
  since  : Nat
  escape : Bool := false
  /-- A port's own HELLO or TSYNC waits for that port (11 R448, R493). -/
  via    : Option Nat := none
  deriving DecidableEq, Repr, Inhabited

/-- A limited pair of queue and destination (11 R487); the limit in MB/s, and when it was last marked, cut and raised. -/
structure Pair where
  gq    : Nat
  dst   : Nat
  limit : Nat
  mark  : Nat
  cut   : Nat
  rise  : Nat
  deriving DecidableEq, Repr, Inhabited

/-- The switch and fabric time. -/
structure Fab where
  cfg     : W32 := 0x32101021
  pkgid   : Option Nat := none
  node    : Option Nat := none
  time    : Nat := 0
  /-- Nanoseconds still to be slewed, and the local time until which fabric time holds (11 R494). -/
  slew    : Int := 0
  holdTo  : Option Nat := none
  latched : W32 := 0
  ppsEn   : Bool := false
  timeSet : Bool := false
  parent  : Option Nat := none
  gm      : Nat := 0
  gmPri   : Nat := 0
  gmHops  : Nat := 0
  locked  : Bool := false
  good    : Nat := 0
  lastEx  : Nat := 0
  t1      : Option Nat := none
  offset  : Int := 0
  retractTx : Nat := 0
  retractRx : Nat := 0
  stale   : Nat := 0
  noroute : Nat := 0
  malformed : Nat := 0
  unserved : Nat := 0
  nbr     : Tab Nbr := []
  trunks  : Tab (BitVec 64) := []
  routes  : Tab W32 := []
  side    : Tab Bool := []
  steerAt : Tab Nat := []
  cnpAt   : Tab Nat := []
  /-- What this device sent in the last 10 µs: time, queue and destination, bytes (11 R487). -/
  sent    : List (Nat × Nat × Nat) := []
  pairs   : List Pair := []
  undo    : List Undo := []
  wait    : List WPkt := []
  transit : Nat := 0
  /-- Egress service (11 R477): the VC whose turn it is, and the deficits of tenants within a VC. -/
  rr      : Nat := 0
  deficit : Tab Nat := []
  deriving DecidableEq, Repr, Inhabited

/-! ### Optical links (12) -/

/-- Link training states (12 R522, LNK_STAT.STATE). -/
inductive LSt where
  | down | light | ident | report | ready | keying | active | failed
  deriving DecidableEq, Repr, Inhabited

/-- A link flit sent and not acknowledged (12 R524), with the packet whose first flit it is (`first`), or whose last (`whole`), and when it
was last sent. -/
structure LTx where
  seq   : Nat
  vc    : Nat
  first : Option (PType × Pkt × Body) := none
  whole : Option (PType × Pkt × Body) := none
  last  : Bool := false
  sentAt : Nat := 0
  /-- The link-management item of an LMGT flit. -/
  item  : Option Out := none
  deriving DecidableEq, Repr, Inhabited

/-- An optical port 0 to 63, or the Twin port, 64 (12, 18 R751). -/
structure LPort where
  st      : LSt := .down
  /-- Local time it entered this state (12 R522). -/
  stAt    : Nat := 0
  /-- Local time it last left ACTIVE (18 R766). -/
  leftAt  : Nat := 0
  txw8    : Bool := false
  rxw8    : Bool := false
  tries   : Nat := 0
  kgenTx  : Bool := false
  kgenRx  : Bool := false
  everUp  : Bool := false
  peerPort : Nat := 0
  round   : Nat := 0
  cfg     : W32 := 0x2415
  replays : Nat := 0
  downs   : Nat := 0
  lastAtt : Nat := 0
  uncorr  : Nat := 0
  authfail : Nat := 0
  rxGood  : BitVec 18 := 0
  txGood  : BitVec 18 := 0
  peerId  : W64 := 0
  feccor  : Nat := 0
  /-- Training: countdown sent, the far end's TS3 seen. -/
  count   : Nat := 7
  farTs3  : Bool := false
  /-- Encryption in each direction; local time of transmit flit slot 0; receive count and receive LSLOT (12 R508, R516). -/
  encTx   : Bool := false
  encRx   : Bool := false
  slot0   : Nat := 0
  /-- Local time of the first flit under the present transmit key, which TXC counts from (12 R508). -/
  keyAt   : Nat := 0
  rxc     : Nat := 0
  lslotRx : Nat := 0
  rekeying : Bool := false
  nextKey : Bool := false
  txNext  : Nat := 0
  unacked : List LTx := []
  rxNext  : Nat := 0
  nak     : Bool := false
  /-- Partly received packets: VC and the SEQ of the first flit (12 R526). -/
  parts   : List (Nat × Nat) := []
  /-- Packets accepted whole before a replay, so that their bytes are dropped (12 R528). -/
  accepted : List Nat := []
  /-- Retry episode: start, first SEQ, replays (12 R530); last NAK acted on. -/
  episode : Option (Nat × Nat × Nat) := none
  nakAt   : Option (Nat × Nat) := none
  cons    : Tab Nat := []
  ccum    : Tab Nat := []
  released : Tab Nat := []
  /-- Credits that packets received have used, and the first flits of packets that were discarded and keep theirs (12 R527, R532). -/
  rxCons  : Tab Nat := []
  kept    : List Nat := []
  queued  : Tab Nat := []
  /-- Link-management items that wait for room in the retry buffer. -/
  lmq     : List Out := []
  skipMiss : Nat := 0
  authAt  : List Nat := []
  /-- Held in DOWN while darkened (16 R684). -/
  dark    : Bool := false
  deriving DecidableEq, Repr, Inhabited

/-- All link layers. -/
structure Lnk where
  ports : Tab LPort := []
  deriving DecidableEq, Repr, Inhabited

end Sys2Proof.Machine
end

