-- ==== Sys2Proof/Machine/StateOptics.lean ====
section
/-! DEFINITION. Rings, receivers, lasers, wavelength maps and calibration (13 to 15). Defaults are reset values. -/

namespace Sys2Proof.Machine

/-! ### Rings (13) -/

/-- Ring states (13 R552, BRL_RSTAT.STATE). -/
inductive RSt where
  | off | seek | track | locked | hold | failed
  deriving DecidableEq, Repr, Inhabited

/-- A ring with its heater, loop and driver (13 R552 to R563). Codes are in DAC steps; `ffRem` in 1/256 code. -/
structure Ring where
  st       : RSt := .off
  valid    : Bool := false
  invalid  : Nat := 0
  cause    : Nat := 0
  unlocks  : Nat := 0
  code     : Nat := 0
  readback : Nat := 0
  rbValid  : Bool := false
  err      : Int := 0
  p0       : Nat := 0
  setpt    : Int := 0
  nbrs     : List (Nat × Int) := []
  ePrev    : Int := 0
  ffRem    : Int := 0
  good     : Nat := 0
  bad      : Nat := 0
  rail     : Nat := 0
  weak     : Nat := 0
  /-- Valid outputs in a row while LOCKED, to 8 (15 R630). -/
  run      : Nat := 0
  tries    : Nat := 0
  lit      : Bool := false
  calHold  : Bool := false
  darkHold : Bool := false
  since    : Nat := 0
  /-- Target of a commanded ramp (R569). -/
  target   : Option Nat := none
  swing    : Nat := 10
  pre      : Nat := 0
  drvcomp  : Int := 0
  /-- Dither slot (R556). -/
  slot     : Nat := 0
  /-- The driver carries a lane with DRVCOMP applied. -/
  driving  : Bool := false
  /-- DRVCOMP is in its code: from the start of a move whose change must be ramped (14 R620), else with the lane. -/
  comped   : Bool := false
  deriving DecidableEq, Repr, Inhabited

/-- Receive correction fields of a channel (13 R566, BRL_RXC0, BRL_RXC1). -/
structure Rxc where
  ofs    : List Int := [0, 0, 0, 0]
  gain   : Nat := 0x80
  post   : Nat := 0
  thr    : Nat := 0x20
  intLen : Nat := 6
  deriving DecidableEq, Repr, Inhabited

/-- A scan as judged (13 R570, R571): what the idle slot reads, and the heaters near zero, in tolerance and at their current limit. -/
structure ScanView where
  open_    : Bool
  intact   : Bool
  nearZero : BitVec 18
  inTol    : BitVec 18
  limited  : BitVec 18
  deriving DecidableEq, Repr, Inhabited

/-- A heater sense group (13 R571 to R573): BRL_SENSE, and the previous scan with the rings LOCKED in it. -/
structure Sense where
  open_   : Bool := false
  fallback : Bool := false
  groupFail : Bool := false
  run     : Nat := 0
  prev    : Option (ScanView × BitVec 18) := none
  deriving DecidableEq, Repr, Inhabited

/-- A Beryl's loop settings. -/
structure Brl where
  lcfg   : W32 := 0x40408041
  lcfg2  : W32 := 0x20191008
  deriving DecidableEq, Repr, Inhabited

/-- Rings by 576b + r; channels by 18·port + k; groups by 32b + g. -/
structure Opt where
  brl    : Tab Brl := []
  rings  : Tab Ring := []
  rxc    : Tab Rxc := []
  shadow : Tab (Option Rxc) := []
  sense  : Tab Sense := []
  deriving DecidableEq, Repr, Inhabited

/-! ### Lasers (14) -/

/-- Laser states (RBY_LAS.LSTATE). -/
inductive LasSt where
  | off | hold | ramp | lit | wait | failed
  deriving DecidableEq, Repr, Inhabited

/-- One laser (14 R578 to R589). Currents in 0.1 mA, powers in µW. -/
structure Laser where
  st      : LasSt := .off
  fcause  : Nat := 0
  retries : Nat := 0
  current : Nat := 0
  mpd     : Nat := 0
  ibol    : Nat := 0
  /-- From the calibration record: power target and start current. -/
  target  : Nat := 0
  startI  : Nat := 900
  /-- What the laser is started for: hold bias (R585) or light. -/
  toHold  : Bool := false
  fromHold : Bool := false
  shortRun : Nat := 0
  openRun : Nat := 0
  lowRun  : Nat := 0
  lastDec : Nat := 0
  ageWarned : Bool := false
  eolRaised : Bool := false
  maxSince : Option Nat := none
  /-- Lit when its bank entered RETAIN: it ramps again on exit (R615). -/
  resume  : Bool := false
  /-- Local time of the start of the ramp, and of the next attempt. -/
  rampAt  : Nat := 0
  retryAt : Nat := 0
  /-- Local time its last ramp ended (R589). -/
  litAt   : Nat := 0
  deriving DecidableEq, Repr, Inhabited

/-- A planned swap (14 R592): the step it has reached, the laser coming in, the command that waits. -/
structure Swap where
  step   : Nat
  inc    : Nat
  req    : Option Nat := none
  deriving DecidableEq, Repr, Inhabited

/-- A wavelength position of a Ruby. -/
structure Pos where
  lit    : Bool := false
  lost   : Bool := false
  swap   : Option Swap := none
  deriving DecidableEq, Repr, Inhabited

/-- A Ruby. Lasers by 36n + j and positions by 18n + k stand beside it. -/
structure Ruby where
  cfg    : W32 := 0x967D
  linkOk : Bool := false
  spareOn : Bool := false
  deriving DecidableEq, Repr, Inhabited

/-- Why a lane moves (14 R616). -/
inductive MoveKind where
  | brk | vacate | req | cmd | swap
  deriving DecidableEq, Repr, Inhabited

/-- A move waiting, or in progress (14 R603): slot N, slot M, READY seen. -/
structure Move where
  kind  : MoveKind
  lane  : Nat
  from_ : Nat
  dest  : Nat
  slotN : Option Nat := none
  slotM : Option Nat := none
  ready : Bool := false
  dual  : Bool := false
  startAt : Nat := 0
  deriving DecidableEq, Repr, Inhabited

/-- The allocator's state of a port (14 R595 to R616). Map entries: 0 to 15 a lane, 0xFE free, 0xFF failed. -/
structure WPort where
  tx       : List Nat := [0, 1, 2, 3, 4, 5, 6, 7, 8, 9, 10, 11, 12, 13, 14, 15, 0xFE, 0xFE]
  rx       : List Nat := [0, 1, 2, 3, 4, 5, 6, 7, 8, 9, 10, 11, 12, 13, 14, 15, 0xFE, 0xFE]
  txNext   : Option Nat := some 16
  nextAcked : Bool := false
  rxNext   : Option Nat := some 16
  move     : Option Move := none
  waiting  : List Move := []
  /-- The far end's MOVE_AT in progress: lane, from, to, slot, aligned. -/
  rxMove   : Option (Nat × Nat × Nat × Nat) := none
  reserved : Option Nat := none
  noSpare  : Bool := false
  rxuse    : BitVec 18 := 0
  rxuseSent : BitVec 18 := 0
  moves    : Nat := 0
  breaks   : Nat := 0
  cancels  : Nat := 0
  deriving DecidableEq, Repr, Inhabited

/-- Lasers and wavelength allocation. -/
structure Las where
  ruby  : Tab Ruby := []
  las   : Tab Laser := []
  pos   : Tab Pos := []
  walCfg : W32 := 0x64
  ports : Tab WPort := []
  deriving DecidableEq, Repr, Inhabited

/-! ### Calibration (15) -/

/-- Body of a ring record (15 R645). -/
structure RingRec where
  code  : Nat := 0
  temp  : Int := 0
  tc    : Int := 0
  setpt : Int := 0
  p0    : Nat := 0
  drvcomp : Int := 0
  swing : Nat := 10
  pre   : Nat := 0
  full  : Bool := false
  flank : Bool := false
  nbrs  : List (Nat × Int) := []
  deriving DecidableEq, Repr, Inhabited

/-- Body of a receive-channel record. -/
structure RxRec where
  rxc    : Rxc := {}
  lustre : Nat := 0
  temp   : Int := 0
  deriving DecidableEq, Repr, Inhabited

/-- Body of a laser record. -/
structure LasRec where
  iStart  : Nat := 900
  ptarget : Nat := 0
  ibol    : Nat := 0
  deriving DecidableEq, Repr, Inhabited

/-- The two copies of a record, as the bytes stored; none where nothing has been written (15 R645 to R648). -/
structure Copies where
  a : List Byte := []
  b : List Byte := []
  deriving DecidableEq, Repr, Inhabited

/-- The calibration area of Jade's non-volatile store (15 R645). -/
structure CalNv where
  ring : Tab Copies := []
  rx   : Tab Copies := []
  las  : Tab Copies := []
  deriving DecidableEq, Repr, Inhabited

/-- Steps of a polish (15 R624, R627). -/
inductive PolStep where
  | reserve | scan | relock | drvcomp | offset | levels | apply | light
  deriving DecidableEq, Repr, Inhabited

/-- A polish in progress on a channel. -/
structure Polish where
  full   : Bool
  step   : PolStep
  resv   : Bool := false
  cmd    : Bool := false
  newCode : Nat := 0
  ofs    : List Int := [0, 0, 0, 0]
  /-- Codes after the valid outputs LOCKED of DRVCOMP: the first 8 idle, then 8 under the pattern (R624). -/
  outs   : List Nat := []
  /-- Local time of its start (R635). -/
  since  : Nat := 0
  deriving DecidableEq, Repr, Inhabited

/-- A calibration channel; its number is that of its ring, 576b + r (15, Model). -/
structure Chan where
  due      : Bool := false
  cmd      : Bool := false
  fullPend : Bool := false
  temp     : Option Int := none
  lightRun : Nat := 0
  lustre   : Nat := 0
  /-- Lustre at its last full polish (R642). -/
  polished : Nat := 0
  live     : Bool := false
  fec      : Nat := 0
  fecHot   : Bool := false
  polish   : Option Polish := none
  /-- Local time of the last record write, and a write held back (R648). -/
  wroteAt  : Option Nat := none
  wpend    : Bool := false
  /-- The held write of a receive channel is to carry its ring's record too. -/
  wring    : Bool := false
  /-- What the next write of the ring record carries (R648). -/
  newRec   : RingRec := {}
  deriving DecidableEq, Repr, Inhabited

/-- Calibration. `cmd` holds for each tile the OPT_POLISH in progress: channels still to end, and whether all were full. -/
structure Cal where
  cfg    : W32 := 0xA506CC50
  full   : Nat := 0
  light  : Nat := 0
  ended  : Nat := 0
  loaded : Nat := 0
  bad    : Nat := 0
  chans  : Tab Chan := []
  held   : Tab (Option Nat) := []
  cmd    : Tab (Option (List Nat × Bool)) := []
  /-- Local time of the DONE that started each port's far-end reservation (R636). -/
  rsvAt  : Tab Nat := []
  deriving DecidableEq, Repr, Inhabited

end Sys2Proof.Machine
end

