-- ==== Sys2Proof/Machine/StateVault.lean ====
section
/-! DEFINITION. The Vault, Twin operation and the security module (17 to 19). Defaults are reset values; what Onyx and Jade's non-volatile store hold starts empty (log 4). -/

namespace Sys2Proof.Machine

/-! ### The Vault (17) -/

/-- VLT_STAT.STATE. -/
inductive VSt where
  | notMounted | mounting | ready | closing | closed | failed
  deriving DecidableEq, Repr, Inhabited

/-- States of a block (17 R702 to R706). -/
inductive BlkSt where
  | free | mapped | retired | factory | test | erasing
  deriving DecidableEq, Repr, Inhabited

/-- A block of an Onyx die, by 4096·die + block (17 R700, R705, R708). Pages at or above `written` are marked erased (R737); the pages
below it are programmed, in ascending order. `born` is the local time of the first program after the erase. -/
structure Blk where
  st      : BlkSt := .free
  written : Nat := 0
  erases  : Nat := 0
  reads   : Nat := 0
  born    : Nat := 0
  /-- What raw programs have written, by page. -/
  pattern : Tab (Option W32) := []
  refresh : Bool := false
  deriving DecidableEq, Repr, Inhabited

/-- A stored version of a granule (17, Model), and the four stripes of a band it occupies (17 R703). -/
structure Ver where
  t       : Nat
  region  : Nat
  granule : Nat
  epoch   : Nat
  mirrored : Bool := false
  damaged : Bool := false
  band    : Nat := 0
  slot    : Nat := 0
  /-- The ciphertext, as words (17 R736). -/
  data    : List W64 := []
  deriving DecidableEq, Repr, Inhabited

/-- A record of the metadata log (17 R707; VGEN, 19 R805). -/
inductive LogRec where
  | ver (t region granule epoch band slot : Nat)
  | seal (t epoch : Nat) (tag : W64) (time : Nat) (regions : List (Nat × Nat)) (chain : List Nat)
  | drop (t epoch : Nat)
  | region (t region base size : Nat)
  | retired (block : Nat)
  | erases (block n : Nat)
  | vgen (t n : Nat)
  deriving DecidableEq, Repr, Inhabited

/-- A sealed epoch (17 R722, R733). `chain` lists it and the epochs it builds on, newest first; regions are those at the seal point
(number, size), `time` is the fabric time of the seal point. -/
structure Seal where
  t       : Nat
  epoch   : Nat
  tag     : W64
  time    : Nat
  chain   : List Nat
  regions : List (Nat × Nat) := []
  granules : Nat := 0
  mirrored : Bool := false
  deriving DecidableEq, Repr, Inhabited

/-- A shadow region (17 R711). -/
structure Region where
  base  : W64
  size  : Nat
  pasid : Nat
  deriving DecidableEq, Repr, Inhabited

/-- A marked granule (17 R713 to R718): the epoch it belongs to, the FLUSH operations it serves, and how far its capture is. -/
structure Mark where
  region  : Nat
  granule : Nat
  epoch   : Nat
  flush   : List (Nat × Nat) := []
  /-- The HX-20 marked it itself (17 R714). -/
  auto    : Bool := false
  /-- Local time its host read started (17 R716). -/
  at_     : Nat := 0
  /-- Its host read has started, with the packet buffer units it holds. -/
  reading : Bool := false
  held    : Nat := 0
  read    : Bool := false
  mirrorWait : Bool := false
  /-- The bytes read by the capture. -/
  data    : List W64 := []
  deriving DecidableEq, Repr, Inhabited

/-- A seal in progress (17 R720 to R722). -/
structure Sealing where
  epoch   : Nat
  tag     : W64
  time    : Nat
  regions : List (Nat × Nat) := []
  recorded : Bool := false
  deriving DecidableEq, Repr, Inhabited

/-- A tenant's Vault state: regions, marks in the order they were made, and the seal or restore in progress. -/
structure VTen where
  regions : Tab (Option Region) := []
  marks   : List Mark := []
  sealing : Option Sealing := none
  restoring : Option Nat := none
  /-- The status with which a write of the restore has failed. -/
  restoreBad : Option Status := none
  stalled : Bool := false
  mirrored : Bool := false
  /-- The partner has no room for it (17 R744). -/
  mirrorOff : Bool := false
  deriving DecidableEq, Repr, Inhabited

/-- What the Onyx dies hold: it survives every reset (17 R712, 03 R112). Bands list their blocks. `issued` is the highest epoch issued
to a tenant, `chain` what its open epoch builds on, newest first; `vgen` is VGEN_t (19 R805); `dropRec` holds drops the partner has
not been told of; `log` is the metadata log, each record with the sequence number of its page (17 R707). -/
structure Onyx where
  blks   : Tab Blk := []
  bands  : Tab (List Nat) := []
  nextBand : Nat := 0
  vers   : List Ver := []
  seals  : List Seal := []
  issued : Tab Nat := []
  chain  : Tab (List Nat) := []
  vgen   : Tab Nat := []
  dropRec : List (Nat × Nat) := []
  log    : List (Nat × LogRec) := []
  logSeq : Nat := 0
  deriving DecidableEq, Repr, Inhabited

/-- A piece of 4 KiB of a version that arrives from the partner (18 R753). -/
structure Piece where
  t       : Nat
  region  : Nat
  granule : Nat
  epoch   : Nat
  piece   : Nat
  data    : List W64
  deriving DecidableEq, Repr, Inhabited

/-- A write of an operation that waits for its granules' MARK to be acknowledged (18 R763). -/
structure HeldPut where
  gq    : Nat
  idx   : Nat
  iova  : W64
  off   : Nat
  len   : Nat
  data  : List W64
  fault : Bool
  deriving DecidableEq, Repr, Inhabited

/-- The Vault controller. -/
structure Vlt where
  cfg    : W32 := 0x01070800
  st     : VSt := .notMounted
  out    : BitVec 8 := 0
  corr   : Nat := 0
  uncorr : Nat := 0
  refresh : Nat := 0
  ten    : Tab VTen := []
  /-- Power loss signalled: no program or erase starts (R742). -/
  closing : Bool := false
  /-- The open band and the version slots used in it. -/
  band   : Option (Nat × Nat) := none
  /-- Next page the scrub reads: block and page. -/
  scrub  : Nat × Nat := (0, 0)
  wearRaised : Bool := false
  capRaised : Bool := false
  /-- Writes of operations and of peers held for a MARK. -/
  heldPut : List HeldPut := []
  heldPeer : List (PType × Pkt) := []
  /-- A compute die's: kind, port and message. -/
  heldDie : List (Nat × Nat × MemMsg) := []
  /-- Programs of raw commands in progress: block, page, pattern. -/
  raw    : List (Nat × Nat × W32) := []
  /-- Versions asked of the partner for a heal and for a restore (tenant, region, granule, epoch), and the pieces received of them and of the
  versions it mirrors here. -/
  vget   : List (Nat × Nat × Nat × Nat) := []
  vrest  : List (Nat × Nat × Nat × Nat) := []
  vdata  : List Piece := []
  pieces : List Piece := []
  /-- Whole versions of the partner that wait to be programmed: true for one to acknowledge; and whether the last program was such a one (17 R717). -/
  mirq   : List (Bool × Ver) := []
  lastMirror : Bool := false
  /-- The tenants whose captures compete, and the captures each has started since they do (17 R717). -/
  rivals : List Nat := []
  share  : Tab Nat := []
  /-- Local time the scrub's present pass began (17 R708). -/
  scrubAt : Nat := 0
  deriving DecidableEq, Repr, Inhabited

/-! ### Twin (18) -/

/-- Pair states (18 R755). -/
inductive TSt where
  | off | pairing | syncing | paired | cleave | solo | refused
  deriving DecidableEq, Repr, Inhabited

/-- A guarded effect that waits for a JACK (18 R763). -/
inductive Guard where
  | record (gq : Nat) (r : CRec)
  | sem (index : Nat) (val : W64)
  | reply (noIrq : Nat) (path : Path) (r : Reply)
  | mark (t region granule : Nat)
  deriving DecidableEq, Repr, Inhabited

/-- What the standby holds of a partner's tenant (18, mirrored state). -/
structure Mirror where
  t       : Nat
  snap    : Snap := {}
  synced  : Bool := false
  deriving DecidableEq, Repr, Inhabited

/-- Twin operation. -/
structure Twn where
  cfg     : W32 := 1
  st      : TSt := .off
  enabled : Bool := false
  partnerSide : Bool := false
  /-- TWIN_ALIVE_IN toggles; local time of its last edge. -/
  aliveIn : Bool := false
  lastEdge : Option Nat := none
  /-- Local time the partner was last found not alive (18 R766). -/
  aliveLost : Nat := 0
  aliveOut : Bool := false
  /-- TWIN_ALIVE_OUT held static low (R765). -/
  outHeld : Bool := false
  downSent : Bool := false
  /-- The cause of the DOWN that waits for the JACK of the last guarded effect: 3 Always-on only, 4 TWN_ENABLE (R755, R765). -/
  leaving : Option Nat := none
  /-- Local time the wait of R767 began. -/
  holdAt  : Option Nat := none
  /-- The last BEAT: local time, TSTATE and JSEQ. -/
  beat    : Option (Nat × Nat × Nat) := none
  partnerServed : BitVec 16 := 0
  partnerSem : List Nat := []
  mirrors : List Mirror := []
  /-- JSEQ of the snapshot sent of each tenant served here (log 34). -/
  snapSent : Tab Nat := []
  /-- Journal: next JSEQ to send, highest acknowledged, highest applied of the partner's. -/
  jnext   : Nat := 1
  jacked  : Nat := 0
  japplied : Nat := 0
  guards  : List (Nat × Guard) := []
  /-- Entries not yet sent because 65,536 are unacknowledged (R764). -/
  jwait   : List (JEntry × Option Guard) := []
  /-- SEQ of the next Twin message. -/
  mseq    : Nat := 0
  stale   : Nat := 0
  failedNode : Option Nat := none
  sbind   : Tab W32 := []
  deriving DecidableEq, Repr, Inhabited

/-- TWN_CNT fields that survive a DR (reset PR only). -/
structure TwnPr where
  takeovers : Nat := 0
  cleaves   : Nat := 0
  deriving DecidableEq, Repr, Inhabited

/-! ### Security (19) -/

/-- Module modes (19 R785). -/
inductive SMode where
  | approved | nonApproved | error
  deriving DecidableEq, Repr, Inhabited

/-- Authentication state of a path (19 R788 to R791). -/
structure AuthP where
  role   : Nat := 0
  nonce  : Option (BitVec 384 × Nat × Nat) := none
  fails  : Nat := 0
  lockAt : Option Nat := none
  deriving DecidableEq, Repr, Inhabited

/-- Key exchange of a port (19 R797 to R801). Secrets are erased by zero or by nothing. -/
structure KeyX where
  own      : KeyHello := { nonce := 0, eph := 0, ident := 0, port := 0, mode := 0, fschk := 0 }
  /-- The ephemeral private key, until the shared secret is computed. -/
  priv     : BitVec 384 := 0
  sent     : Bool := false
  far      : Option KeyHello := none
  /-- Fragments received of the far end's chain, of how many. -/
  certs    : Tab (Option (List Byte)) := []
  nfrag    : Nat := 0
  /-- The far end's DeviceID key, once its chain is accepted. -/
  farKey   : Option (BitVec 768) := none
  verifyOk : Bool := false
  finishOk : Bool := false
  verifySent : Bool := false
  aborted  : Bool := false
  /-- K_dk and TH of each direction, the generation, and key material (32 bytes of key, 4 of SALT). -/
  kdkTx    : List Byte := []
  kdkRx    : List Byte := []
  thTx     : List Byte := []
  thRx     : List Byte := []
  genTx    : Nat := 0
  genRx    : Nat := 0
  keyTx    : List Byte := []
  keyRx    : List Byte := []
  nextRx   : List Byte := []
  nextTx   : List Byte := []
  installed : Bool := false
  /-- NONCE and ephemeral private key of the REKEY sent. -/
  rekeyTx  : Option (BitVec 256 × BitVec 384) := none
  deriving DecidableEq, Repr, Inhabited

/-- An SPDM session (19 R813). -/
structure Spdm where
  transport : Nat
  id        : Nat
  mauth     : Bool
  open_     : Bool := false
  deriving DecidableEq, Repr, Inhabited

/-- A public value in Jade's non-volatile store, with its HMAC (19 R792). -/
structure Stored (w : Nat) where
  val : BitVec w
  mac : List Byte
  deriving DecidableEq, Repr, Inhabited

/-- What Jade's non-volatile store holds for the module (19 R792, R795): FS and PVK, which are there wrapped under HUK_eff, added roots 1 to 4,
and the CO key. -/
structure SecNv where
  fs    : Option (BitVec 256) := none
  pvk   : Option (BitVec 256) := none
  roots : Tab (Option (Stored 384)) := []
  coKey : Option (Stored 768) := none
  deriving DecidableEq, Repr, Inhabited

/-- The security module's volatile state. Payload key slots are numbered 64·t + s. -/
structure Sec where
  mode   : SMode := .approved
  up     : Bool := false
  passed : W32 := 0
  authFail : Nat := 0
  peerAuth : Nat := 0
  auth   : List (Path × AuthP) := []
  slots  : Tab (Option (BitVec 256 × BitVec 256)) := []
  keyx   : Tab KeyX := []
  spdm   : List Spdm := []
  nextSession : Nat := 0
  drbgHalt : Bool := false
  reseedAt : Nat := 0
  /-- DRBG generate requests since it was seeded (19 R787). -/
  gens   : Nat := 0
  /-- The nonce of the transport key (19 R782). -/
  busNonce : BitVec 256 := 0
  /-- Tiles whose link cipher engine has failed (R818). -/
  tileOut : BitVec 4 := 0
  /-- SEC_SELFTEST runs. -/
  selftest : Bool := false
  deriving DecidableEq, Repr, Inhabited

end Sys2Proof.Machine
end

