-- ==== Sys2Proof/Machine/State.lean ====
section
/-! DEFINITION. The state of the block: everything the spec gives the device (`Dev`), and the queue of waiting commands. -/

namespace Sys2Proof.Machine

/-- The device. The last three fields are the model's own: what it has sent (log 5), the counter of free values (log 6)
and local time in ns (log 2). -/
structure Dev where
  jad   : Jad := {}
  boot  : Boot := {}
  flash : Flash := {}
  fuses : Fuses := {}
  pwr   : Pwr := {}
  thm   : Thm := {}
  flt   : Flt := {}
  fct   : Fct := {}
  mbx   : Mbx := {}
  tq    : TenQ := {}
  xlt   : Xlt := {}
  rm    : Rm := {}
  col   : Col := {}
  fab   : Fab := {}
  lnk   : Lnk := {}
  opt   : Opt := {}
  las   : Las := {}
  cal   : Cal := {}
  calNv : CalNv := {}
  vlt   : Vlt := {}
  onyx  : Onyx := {}
  twn   : Twn := {}
  twnPr : TwnPr := {}
  sec   : Sec := {}
  secNv : SecNv := {}
  dbg   : Dbg := {}
  out   : List Out := []
  free  : Nat := 0
  now   : Nat := 0
  deriving DecidableEq, Repr, Inhabited

/-- The machine: the device, the bytes of the boot flash (03 R84 to R90), and the commands that wait, first in, first out. -/
structure State where
  dev     : Dev := {}
  mem     : Memory := []
  pending : List Instr := []
  deriving DecidableEq, Repr

/-- Reasons a step stops with a fault. -/
inductive Fault where
  /-- An operand names a unit the device does not have: a port, tenant, tile, ring, laser or input beyond the spec's count.
  Raised by `State.runIf`; safe: the spec gives no such command a meaning. -/
  | noSuchUnit
  deriving DecidableEq, Repr

/-- Reasons a command is refused. -/
inductive Refusal where
  /-- The command has no meaning yet. Raised by an arm of `exec`; safe. -/
  | notModelled (mnemonic : String)
  deriving DecidableEq, Repr

/-- What a command answers. -/
abbrev R := Host.Outcome State Fault Refusal

/-- The machine at power-on reset, before the always-on rails are up: every register at the value of its reset column, and
where the spec gives none the value of log 3, 4 or 7. -/
def State.reset : State := {}

/-- The state with its device replaced. -/
def State.withDev (s : State) (d : Dev) : State := { s with dev := d }

/-- A command's effect: the device changes, the queue does not. -/
def State.run (s : State) (f : Dev → Dev) : R := .next (s.withDev (f s.dev))

/-- The effect of a command that works on the boot flash too. -/
def State.runMem (s : State) (f : Dev → Memory → Dev × Memory) : R :=
  .next { s with dev := (f s.dev s.mem).1, mem := (f s.dev s.mem).2 }

/-- A command whose operands name a unit: it stops where the device has none such. -/
def State.runIf (s : State) (ok : Bool) (f : Dev → Dev) : R := if ok then s.run f else .fault .noSuchUnit

/-- A packet, message or completion that arrives while the device is stopped waits, behind those that wait already (21 R878, R879). -/
def State.intake (s : State) (ok : Bool) (i : Late) (f : Dev → Dev) : R :=
  s.runIf ok fun d =>
    if d.dbg.st = .stopped || !d.dbg.ingress.isEmpty then { d with dbg.ingress := d.dbg.ingress ++ [i] } else f d

end Sys2Proof.Machine
end

