-- ==== Sys2Proof/Machine/Operands.lean ====
section
/-! DEFINITION. The number formats of the reduce engines, bit by bit (10 R394 to R403). A finite binary32 magnitude is handled as a whole number of units of 2^-149, so sums are exact before they are rounded. -/

namespace Sys2Proof.Machine

/-! ### binary32 -/

/-- Kinds of binary32 value: NaN, infinity, or a finite magnitude in units of 2^-149. -/
inductive F32 where
  | nan
  | inf (neg : Bool)
  | fin (neg : Bool) (units : Nat)
  deriving DecidableEq, Repr, Inhabited

/-- Unpacks a binary32 word. -/
def F32.ofBits (w : W32) : F32 :=
  let neg := w.getLsbD 31
  let e := w.toNat / 2 ^ 23 % 256
  let f := w.toNat % 2 ^ 23
  if e = 255 then (if f = 0 then .inf neg else .nan)
  else if e = 0 then .fin neg f
  else .fin neg ((2 ^ 23 + f) * 2 ^ (e - 1))

/-- The code of a magnitude num ÷ den units, rounded to nearest, ties to even, in a format of `fb` fraction bits whose unit it is:
subnormals, normals and the carry into the exponent share one numbering. -/
def roundCode (fb num den : Nat) : Nat :=
  let n := num / den
  let k := if n < 2 ^ (fb + 1) then 0 else Nat.log2 n - fb
  let d := den * 2 ^ k
  let m := num / d
  let r := num % d
  let up := decide (d < 2 * r) || (decide (2 * r = d) && decide (m % 2 = 1))
  k * 2 ^ fb + m + bNat up

/-- Packs a sign and a magnitude of num ÷ den units as binary32; overflow gives infinity. -/
def packF32 (neg : Bool) (num den : Nat) : W32 :=
  let c := min 0x7F800000 (roundCode 23 num den)
  BitVec.ofNat 32 (bNat neg * 2 ^ 31 + c)

/-- The NaN the engines write (10 R396). -/
def nanF32 : W32 := 0x7FC00000

/-- Infinity as binary32. -/
def infF32 (neg : Bool) : W32 := BitVec.ofNat 32 (bNat neg * 2 ^ 31 + 0x7F800000)

/-- A value packed as binary32. -/
def F32.pack : F32 → W32
  | .nan => nanF32
  | .inf n => infF32 n
  | .fin n u => packF32 n u 1

/-- A finite value as a whole number of units. -/
def signedUnits (neg : Bool) (u : Nat) : Int := if neg then -(u : Int) else u

/-- Sum of two binary32 words (10 R395, R396). -/
def addF32 (a b : W32) : W32 :=
  match F32.ofBits a, F32.ofBits b with
  | .nan, _ => nanF32
  | _, .nan => nanF32
  | .inf x, .inf y => if x = y then infF32 x else nanF32
  | .inf x, _ => infF32 x
  | _, .inf y => infF32 y
  | .fin x u, .fin y v =>
    let s := signedUnits x u + signedUnits y v
    if s = 0 then packF32 (x && y) 0 1 else packF32 (decide (s < 0)) s.natAbs 1

/-- Order of two values that are not NaN, with -0 below +0 (10 R396). -/
def lessF32 (a b : F32) : Bool :=
  match a, b with
  | .inf x, .inf y => x && !y
  | .inf x, _ => x
  | _, .inf y => !y
  | .fin x u, .fin y v => decide (signedUnits x u < signedUnits y v) || (decide (u = 0) && decide (v = 0) && x && !y)
  | _, _ => false

/-- Larger of two binary32 words; NaN with a NaN (10 R396). -/
def maxF32 (a b : W32) : W32 :=
  match F32.ofBits a, F32.ofBits b with
  | .nan, _ => nanF32
  | _, .nan => nanF32
  | x, y => if lessF32 x y then b else a

/-- Smaller of two binary32 words. -/
def minF32 (a b : W32) : W32 :=
  match F32.ofBits a, F32.ofBits b with
  | .nan, _ => nanF32
  | _, .nan => nanF32
  | x, y => if lessF32 y x then b else a

/-- A binary32 sum divided by n, rounded to nearest even (10 R403). -/
def divF32 (a : W32) (n : Nat) : W32 :=
  match F32.ofBits a with
  | .nan => nanF32
  | .inf x => infF32 x
  | .fin x u => packF32 x u n

/-! ### The narrow formats (10 R394) -/

/-- A float format: exponent bits, fraction bits, bias. -/
structure Fmt where
  eb   : Nat
  fb   : Nat
  bias : Nat
  deriving DecidableEq, Repr, Inhabited

/-- The formats by FMT; int32 has no such layout. -/
def fmtOf : Nat → Fmt
  | 0 => ⟨8, 23, 127⟩
  | 1 => ⟨5, 10, 15⟩
  | 2 => ⟨8, 7, 127⟩
  | 3 => ⟨4, 3, 7⟩
  | _ => ⟨5, 2, 15⟩

/-- Bytes of an element (10 R394). -/
def fmtBytes : Nat → Nat
  | 1 | 2 => 2
  | 3 | 4 => 1
  | _ => 4

/-- Units of 2^-149 in the smallest subnormal, as a power of two. -/
def Fmt.shift (f : Fmt) : Nat := 150 - f.bias - f.fb

/-- The code of NaN in each format (10 R396). -/
def nanCode : Nat → Nat
  | 0 => 0x7FC00000 | 1 => 0x7E00 | 2 => 0x7FC0 | 3 => 0x7F | _ => 0x7E

/-- An element code converted exactly to binary32 (10 R395). -/
def toF32 (fmt : Nat) (c : W32) : W32 :=
  if fmt = 0 || fmt = 5 then c
  else
    let f := fmtOf fmt
    let neg := decide (c.toNat / 2 ^ (f.eb + f.fb) % 2 = 1)
    let e := c.toNat / 2 ^ f.fb % 2 ^ f.eb
    let m := c.toNat % 2 ^ f.fb
    if fmt = 3 && e = 15 && m = 7 then nanF32
    else if fmt ≠ 3 && e = 2 ^ f.eb - 1 then (if m = 0 then infF32 neg else nanF32)
    else packF32 neg ((if e = 0 then m else (2 ^ f.fb + m) * 2 ^ (e - 1)) * 2 ^ f.shift) 1

/-- The largest code a magnitude may have, and what an overflowing one becomes (10 R398). -/
def overflowCode (fmt : Nat) : Nat :=
  let f := fmtOf fmt
  if fmt = 3 then 0x7E else (2 ^ f.eb - 1) * 2 ^ f.fb

/-- A magnitude code with its sign, after the overflow rule. -/
def withSign (fmt : Nat) (neg : Bool) (c : Nat) : W32 :=
  let f := fmtOf fmt
  BitVec.ofNat 32 (bNat neg * 2 ^ (f.eb + f.fb) + min c (overflowCode fmt))

/-- The stochastic code of a magnitude (10 R399, R400): `u` units, 32 random bits `r`. The significand is that of binary32; of its
low bits that do not fit, at most 32 count. -/
def stochasticCode (fmt u r : Nat) : Nat :=
  let f := fmtOf fmt
  let lsb := if u < 2 ^ 24 then 0 else Nat.log2 u - 23
  let n := u / 2 ^ f.shift
  let k := if n < 2 ^ (f.fb + 1) then 0 else Nat.log2 n - f.fb
  let ulp := f.shift + k
  let code := k * 2 ^ f.fb + u / 2 ^ ulp
  if ulp ≤ lsb then code
  else
    let m := min 32 (ulp - lsb)
    let d := u / 2 ^ lsb % 2 ^ m
    code + bNat (decide (2 ^ m ≤ d + r / 2 ^ (32 - m)))

/-- A binary32 result converted to FMT (10 R398): to nearest even, or stochastically with the bits given. -/
def ofF32 (fmt : Nat) (a : W32) (rnd : Option Nat) : W32 :=
  if fmt = 5 then a
  else if fmt = 0 then (match F32.ofBits a with | .nan => nanF32 | _ => a)
  else
    match F32.ofBits a with
    | .nan => BitVec.ofNat 32 (nanCode fmt)
    | .inf n => withSign fmt n (overflowCode fmt)
    | .fin n u =>
      match rnd with
      | none => withSign fmt n (roundCode (fmtOf fmt).fb u (2 ^ (fmtOf fmt).shift))
      | some r => withSign fmt n (stochasticCode fmt u r)

/-- The 32 random bits of element e of instance k (10 R399). -/
def srBits (seed : W64) (k e : Nat) : Nat :=
  let z := seed + (BitVec.ofNat 64 (k % 2 ^ 32) * 0x100000000#64 + BitVec.ofNat 64 e) * 0x9E3779B97F4A7C15#64
  let z := (z ^^^ (z >>> 30)) * 0xBF58476D1CE4E5B9#64
  let z := (z ^^^ (z >>> 27)) * 0x94D049BB133111EB#64
  let z := z ^^^ (z >>> 31)
  (z >>> 32).toNat

/-! ### Folding one element (10 R396, R397) -/

/-- Folds two elements in the accumulation format: ROP 0 and 3 sum, 1 max, 2 min; int32 wraps and compares signed. -/
def foldElem (fmt rop : Nat) (a b : W32) : W32 :=
  if fmt = 5 then
    (if rop = 1 then (if BitVec.slt a b then b else a) else if rop = 2 then (if BitVec.slt b a then b else a) else a + b)
  else if rop = 1 then maxF32 a b else if rop = 2 then minF32 a b else addF32 a b

/-- Folds two chunks element by element. -/
def foldElems (fmt rop : Nat) (a b : List W32) : List W32 := List.zipWith (foldElem fmt rop) a b

/-- The final conversion of a chunk at the root (10 R398, R399, R403): scaled by n when asked, then to FMT. `e0` is the number
of its first element. -/
def finishElems (fmt rop : Nat) (scale : Option Nat) (seed : W64) (k e0 : Nat) (l : List W32) : List W32 :=
  l.zipIdx.map fun (x, i) =>
    let y := match scale with | some n => if fmt = 5 then x else divF32 x n | none => x
    if fmt = 5 then y else ofF32 fmt y (if rop = 3 then some (srBits seed k (e0 + i)) else none)

end Sys2Proof.Machine
end

