-- ==== Sys2Proof/Config.lean ====
section
/-! DEFINITION. What the spec leaves open: values drawn at random or left unstated, and the cryptographic functions, as constants without a body (log 6). -/

namespace Sys2Proof.Config

/-- The n-th value the spec leaves open, as `w` bits: DRBG output, and results it does not state (log 6). -/
opaque freeBits (w n : Nat) : BitVec w

/-- Values the manual names and does not state: Eloanu's PCI vendor ID (05 R163, R195), the device's serial number (05 R164) and endpoint UUID,
and the MCTP versions it answers with (05 R195) (log 6). -/
opaque vendorId : BitVec 16
opaque serialNumber : BitVec 64
opaque mctpUuid : BitVec 128
opaque mctpVersion : BitVec 32

/-- SHA-384 of a byte string (03 R91, 19). -/
opaque sha384 (m : List Byte) : BitVec 384

/-- ECDSA P-384 verification of the image signature under fused key `key` (03 R92). -/
opaque imageSig (key : Nat) (msg sig : List Byte) : Bool

/-- Elliptic-curve functions on P-384 (19 R786): the public point of a private key, as x then y; the x-coordinate of a shared point; verification of
a signature over a SHA-384 digest; and the DIK's signature of a digest with its per-signature secret. -/
opaque ecPublic (priv : BitVec 384) : BitVec 768
opaque ecShared (priv : BitVec 384) (pub : BitVec 768) : BitVec 384
opaque ecVerify (pub : BitVec 768) (digest : BitVec 384) (sig : BitVec 768) : Bool
opaque dikSign (digest k : BitVec 384) : BitVec 768

/-- A DER chain of a device CA certificate and a DeviceID certificate (19 R798): where it verifies, the SHA-384 of the CA's issuer key, the subject
serial number's characters, and the DeviceID key. -/
opaque chainRead (der : List Byte) : Option (BitVec 384 × List Byte × BitVec 768)

/-- This device's own chain (19 R797). -/
opaque chain : List Byte

/-- What production fuses (19 R795): the HUK, two root hashes and the Debug public key; and values derived from fuses whose derivation is not
stated: the transport key of a nonce (R782) and the key of the stored HMACs (R792). -/
opaque huk : BitVec 256
opaque rootHash (second : Bool) : BitVec 384
opaque debugKey : BitVec 768
opaque transportKey (nonce : BitVec 256) : BitVec 256
opaque storeKey : BitVec 256

/-- The boot ROM, as measurement 1 takes it (19 R813). -/
opaque bootRom : List Byte

end Sys2Proof.Config
end

