-- ==== Sys2Proof/Machine/Crypto.lean ====
section
/-! DEFINITION. The algorithms of the security module (19 R786) as their standards define them: AES-256 (FIPS 197), GCM (SP 800-38D), XTS (SP 800-38E),
key wrap (SP 800-38F); HMAC and the KDF of R796 over SHA-384, which is a constant without a body (log 6). -/

namespace Sys2Proof.Machine

/-! ### Byte strings -/

/-- A number as `n` bytes, most significant first. -/
def beBytes : Nat → Nat → List Byte
  | 0, _ => []
  | n + 1, v => BitVec.ofNat 8 (v / 256 ^ n) :: beBytes n v

/-- A byte string as a number, most significant byte first. -/
def beNat (l : List Byte) : Nat := l.foldl (fun a b => 256 * a + b.toNat) 0

/-- Exclusive or of two byte strings, as long as the shorter. -/
def xorBytes (a b : List Byte) : List Byte := List.zipWith (· ^^^ ·) a b

/-- ASCII bytes of a label. -/
def ascii (s : String) : List Byte := s.toList.map fun c => BitVec.ofNat 8 c.toNat

/-! ### GF(2^8) -/

/-- Multiplication by x under a field polynomial (its low byte). -/
def gfTwice (poly a : Byte) : Byte := if a.getLsbD 7 then (a <<< 1) ^^^ poly else a <<< 1

/-- Product in GF(2^8): the bits of `b`, most significant first. -/
def gfMul (poly a b : Byte) : Byte :=
  [7, 6, 5, 4, 3, 2, 1, 0].foldl (fun r i => gfTwice poly r ^^^ (if b.getLsbD i then a else 0)) 0

/-- a^n. -/
def gfPow (poly a : Byte) : Nat → Byte
  | 0 => 1
  | n + 1 => gfMul poly a (gfPow poly a n)

/-! ### AES-256 -/

/-- The field polynomial of AES, x^8 + x^4 + x^3 + x + 1. -/
def aesPoly : Byte := 0x1B

/-- S-box: the inverse in the field, then the affine map. -/
def subByte (a : Byte) : Byte :=
  let b := gfPow aesPoly a 254
  b ^^^ b.rotateLeft 1 ^^^ b.rotateLeft 2 ^^^ b.rotateLeft 3 ^^^ b.rotateLeft 4 ^^^ 0x63

/-- The inverse S-box. -/
def unsubByte (a : Byte) : Byte := gfPow aesPoly (a.rotateLeft 1 ^^^ a.rotateLeft 3 ^^^ a.rotateLeft 6 ^^^ 0x05) 254

/-- Word `i` of the key schedule from the words before it, newest first. -/
def keyWord (i : Nat) (ws : List (List Byte)) : List Byte :=
  let w := ws.headD []
  let g := if i % 8 = 0 then xorBytes ((w.drop 1 ++ w.take 1).map subByte) [gfPow aesPoly 2 (i / 8 - 1), 0, 0, 0]
    else if i % 8 = 4 then w.map subByte else w
  xorBytes (ws.getD 7 []) g

/-- The 60 words of the key schedule of a 256-bit key, newest first. -/
def keySchedule (key : List Byte) : List (List Byte) :=
  (List.range 52).foldl (fun ws i => keyWord (i + 8) ws :: ws) (((List.range 8).map fun i => (key.drop (4 * i)).take 4).reverse)

/-- The sixteen bytes of each round key, round 0 first. -/
def roundKeys (key : List Byte) : List (List Byte) :=
  let ws := (keySchedule key).reverse
  (List.range 15).map fun r => ((ws.drop (4 * r)).take 4).flatten

/-- ShiftRows, and back: byte r of column c comes from column c + r, or c - r. -/
def shiftRows (s : List Byte) : List Byte := (List.range 16).map fun i => s.getD (4 * ((i / 4 + i % 4) % 4) + i % 4) 0
def unshiftRows (s : List Byte) : List Byte := (List.range 16).map fun i => s.getD (4 * ((i / 4 + 4 - i % 4) % 4) + i % 4) 0

/-- MixColumns with the coefficients of a column's first row. -/
def mixWith (m : List Byte) (s : List Byte) : List Byte :=
  (List.range 16).map fun i =>
    (List.range 4).foldl (fun a j => a ^^^ gfMul aesPoly (m.getD ((j + 4 - i % 4) % 4) 0) (s.getD (4 * (i / 4) + j) 0)) 0

/-- AES-256 of a block of 16 bytes. -/
def aesEnc (key block : List Byte) : List Byte :=
  let ks := roundKeys key
  let s := ((ks.drop 1).take 13).foldl (fun s k => xorBytes (mixWith [2, 3, 1, 1] (shiftRows (s.map subByte))) k) (xorBytes block (ks.headD []))
  xorBytes (shiftRows (s.map subByte)) (ks.getD 14 [])

/-- The inverse cipher. -/
def aesDec (key block : List Byte) : List Byte :=
  let ks := (roundKeys key).reverse
  let s := ((ks.drop 1).take 13).foldl (fun s k => mixWith [14, 11, 13, 9] (xorBytes ((unshiftRows s).map unsubByte) k)) (xorBytes block (ks.headD []))
  xorBytes ((unshiftRows s).map unsubByte) (ks.getD 14 [])

/-! ### GCM -/

/-- Product in GF(2^128) as GCM numbers its bits. -/
def ghashMul (x y : BitVec 128) : BitVec 128 :=
  ((List.range 128).foldl (fun (zv : BitVec 128 × BitVec 128) i =>
    (if x.getLsbD (127 - i) then zv.1 ^^^ zv.2 else zv.1,
      if zv.2.getLsbD 0 then (zv.2 >>> 1) ^^^ (0xE1#128 <<< 120) else zv.2 >>> 1)) (0, y)).1

/-- Blocks of 16 bytes, the last filled with zeros. -/
def blocks16 : Nat → List Byte → List (List Byte)
  | 0, _ => []
  | n + 1, l => if l.isEmpty then [] else (l ++ List.replicate 16 0).take 16 :: blocks16 n (l.drop 16)

/-- GHASH over a string of blocks. -/
def ghash (h : BitVec 128) (bs : List (List Byte)) : BitVec 128 := bs.foldl (fun y b => ghashMul (y ^^^ BitVec.ofNat 128 (beNat b)) h) 0

/-- The key stream of counter mode from a 96-bit IV, its first counter being 2. -/
def gcmStream (key iv : List Byte) (n : Nat) : List Byte := (List.range n).flatMap fun i => aesEnc key (iv ++ beBytes 4 (i + 2))

/-- The 128-bit GCM tag of a ciphertext. -/
def gcmTag (key iv aad ct : List Byte) : List Byte :=
  let h := BitVec.ofNat 128 (beNat (aesEnc key (List.replicate 16 0)))
  let s := ghash h (blocks16 aad.length aad ++ blocks16 ct.length ct ++ [beBytes 8 (8 * aad.length) ++ beBytes 8 (8 * ct.length)])
  xorBytes (beBytes 16 s.toNat) (aesEnc key (iv ++ beBytes 4 1))

/-- AES-256-GCM: ciphertext and tag. Decryption is the same key stream again. -/
def gcmEnc (key iv aad pt : List Byte) : List Byte × List Byte :=
  let ct := xorBytes pt (gcmStream key iv ((pt.length + 15) / 16))
  (ct, gcmTag key iv aad ct)

/-- The plaintext where the first `n` bytes of the tag match. -/
def gcmDec (key iv aad ct tag : List Byte) (n : Nat) : Option (List Byte) :=
  if (gcmTag key iv aad ct).take n = tag.take n then some (xorBytes ct (gcmStream key iv ((ct.length + 15) / 16))) else none

/-! ### XTS -/

/-- The tweak of the next block: times α, least significant byte first. -/
def nextTweak (t : List Byte) : List Byte :=
  let v := BitVec.ofNat 128 (leNat t)
  leBytes 16 ((v <<< 1) ^^^ (if v.getLsbD 127 then 0x87#128 else 0)).toNat

/-- The tweak of block `j` of a data unit. -/
def tweakAt (key2 : List Byte) (tweak : Nat) (j : Nat) : List Byte := Nat.repeat nextTweak j (aesEnc key2 (leBytes 16 tweak))

/-- A block cipher under a tweak. -/
def xex (f : List Byte → List Byte) (t b : List Byte) : List Byte := xorBytes (f (xorBytes b t)) t

/-- XTS over a data unit of at least 16 bytes; `f` is the cipher under Key1. The last two blocks exchange their tweaks in decryption where the
unit ends in a part of a block. -/
def xtsWith (f : List Byte → List Byte) (key2 : List Byte) (tweak : Nat) (dec : Bool) (data : List Byte) : List Byte :=
  let full := data.length / 16
  let rest := data.length % 16
  let blk := fun i => (data.drop (16 * i)).take 16
  let at_ := tweakAt key2 tweak
  if rest = 0 then (List.range full).flatMap fun i => xex f (at_ i) (blk i)
  else
    let head := (List.range (full - 1)).flatMap fun i => xex f (at_ i) (blk i)
    let c := xex f (at_ (if dec then full else full - 1)) (blk (full - 1))
    head ++ xex f (at_ (if dec then full - 1 else full)) (blk full ++ c.drop rest) ++ c.take rest

/-- XTS-AES-256 under a 512-bit key, Key1 first. -/
def xtsEnc (key : List Byte) (tweak : Nat) (data : List Byte) : List Byte := xtsWith (aesEnc (key.take 32)) (key.drop 32) tweak false data
def xtsDec (key : List Byte) (tweak : Nat) (data : List Byte) : List Byte := xtsWith (aesDec (key.take 32)) (key.drop 32) tweak true data

/-! ### Key wrap -/

/-- AES-256 key wrap of a string of 8-byte semiblocks. -/
def keyWrap (key data : List Byte) : List Byte :=
  let n := data.length / 8
  let r0 := (List.range n).map fun i => (data.drop (8 * i)).take 8
  let (a, r) := (List.range (6 * n)).foldl (fun (x : List Byte × List (List Byte)) s =>
    let b := aesEnc key (x.1 ++ x.2.getD (s % n) [])
    (xorBytes (b.take 8) (beBytes 8 (s + 1)), x.2.set (s % n) (b.drop 8))) (List.replicate 8 0xA6, r0)
  a ++ r.flatten

/-- Unwrapping, where the check value is right. -/
def keyUnwrap (key wrapped : List Byte) : Option (List Byte) :=
  let n := wrapped.length / 8 - 1
  let r0 := (List.range n).map fun i => (wrapped.drop (8 * (i + 1))).take 8
  let (a, r) := ((List.range (6 * n)).reverse).foldl (fun (x : List Byte × List (List Byte)) s =>
    let b := aesDec key (xorBytes x.1 (beBytes 8 (s + 1)) ++ x.2.getD (s % n) [])
    (b.take 8, x.2.set (s % n) (b.drop 8))) (wrapped.take 8, r0)
  if a = List.replicate 8 0xA6 then some r.flatten else none

/-! ### HMAC and KDF -/

/-- SHA-384 as bytes. -/
def sha384Bytes (m : List Byte) : List Byte := beBytes 48 (Config.sha384 m).toNat

/-- HMAC-SHA-384 (FIPS 198-1), whose block is 128 bytes. -/
def hmac384 (key m : List Byte) : List Byte :=
  let k := (if 128 < key.length then sha384Bytes key else key) ++ List.replicate 128 0
  let pad := fun (x : Byte) => (k.take 128).map (· ^^^ x)
  sha384Bytes (pad 0x5C ++ sha384Bytes (pad 0x36 ++ m))

/-- KDF(K, label, context, L) of R796, with L in bits. -/
def kdf384 (key : List Byte) (label : String) (context : List Byte) (bits : Nat) : List Byte :=
  ((List.range ((bits + 383) / 384)).flatMap fun i => hmac384 key (beBytes 4 (i + 1) ++ ascii label ++ [0] ++ context ++ beBytes 4 bits)).take (bits / 8)

end Sys2Proof.Machine
end

