-- ==== Sys2Proof/Machine/Keys.lean ====
section
/-! DEFINITION. The keys of the security module (19 R782, R792, R795 to R807): what each is derived from, the bytes of a KEYMSG, and what is signed. -/

namespace Sys2Proof.Machine

/-! ### Keys kept in Jade (R782, R792, R795) -/

/-- HUK_eff (R795). -/
def hukEff (zgen : Nat) : List Byte := kdf384 (beBytes 32 Config.huk.toNat) "HX20 HUKE" (beBytes 1 zgen) 256

/-- FS and PVK as the non-volatile store holds them: wrapped under HUK_eff (R795). -/
def storedKey (zgen : Nat) (k : BitVec 256) : List Byte := keyWrap (hukEff zgen) (beBytes 32 k.toNat)

/-- A key as it crosses between Jade and Garnet (R782). -/
def keyOnBus (nonce : BitVec 256) (key : List Byte) : List Byte := keyWrap (beBytes 32 (Config.transportKey nonce).toNat) key

/-- The HMAC with which the CO key and an added root are stored (R792). -/
def storeMac (v : List Byte) : List Byte := hmac384 (beBytes 32 Config.storeKey.toNat) v

/-- A stored public value is used only while its HMAC is right (R792). -/
def Stored.ok (x : Stored w) : Bool := decide (x.mac = storeMac (beBytes (w / 8) x.val.toNat))

/-- A public value as it is stored. -/
def Stored.make (v : BitVec w) : Stored w := { val := v, mac := storeMac (beBytes (w / 8) v.toNat) }

/-- The root hashes in use: the two fused, and the added ones whose HMAC is right (R792, R795). -/
def SecNv.rootHashes (x : SecNv) : List (BitVec 384) :=
  [Config.rootHash false, Config.rootHash true] ++ x.roots.filterMap fun r => (r.2.filter Stored.ok).map (·.val)

/-- The public key a role's signature is verified under (R788, R792). -/
def SecNv.roleKey (x : SecNv) (role : Nat) : Option (BitVec 768) := if role = 1 then (x.coKey.filter Stored.ok).map (·.val) else some Config.debugKey

/-- What a role's signature is over (R788). -/
def authDigest (nonce : BitVec 384) (role : Nat) (dsn : W64) : BitVec 384 :=
  Config.sha384 (beBytes 48 nonce.toNat ++ leBytes 1 role ++ leBytes 8 dsn.toNat ++ ascii "HX20AUTH")

/-! ### Link keys (R797 to R800) -/

/-- FSCHK: the first four bytes of SHA-384(SHA-384(FS)), or zero (R797). -/
def fsCheck (fs : Option (BitVec 256)) : W32 :=
  match fs with
  | none => 0
  | some k => BitVec.ofNat 32 (leNat ((sha384Bytes (sha384Bytes (beBytes 32 k.toNat))).take 4))

/-- The 144 bytes of a HELLO's DATA (R797). -/
def helloData (h : KeyHello) : List Byte :=
  beBytes 32 h.nonce.toNat ++ beBytes 96 h.eph.toNat ++ leBytes 8 h.ident.toNat ++ leBytes 1 h.port ++ leBytes 1 h.mode ++ leBytes 4 h.fschk.toNat ++ leBytes 2 0

/-- A HELLO as read from its DATA. -/
def readHelloData (b : List Byte) : KeyHello :=
  let at_ : Nat → Nat → List Byte := fun i n => (b.drop i).take n
  { nonce := BitVec.ofNat 256 (beNat (at_ 0 32)), eph := BitVec.ofNat 768 (beNat (at_ 32 96)), ident := BitVec.ofNat 64 (leNat (at_ 128 8))
    port := leNat (at_ 136 1), mode := leNat (at_ 137 1), fschk := BitVec.ofNat 32 (leNat (at_ 138 4)) }

/-- The DATA of REKEY and REKEY_ACK (R797). -/
def rekeyData (nonce : BitVec 256) (eph : BitVec 768) : List Byte := beBytes 32 nonce.toNat ++ beBytes 96 eph.toNat

/-- A KEYMSG body (19, Link keys): KMT, FRAG, NFRAG, PAD, DATA. -/
def keymsgBody (kmt frag nfrag : Nat) (data : List Byte) : List Byte := leBytes 1 kmt ++ leBytes 1 frag ++ leBytes 1 nfrag ++ [0] ++ data

/-- IDENT ‖ PORT of an end, as its HELLO carries them (R798, R799). -/
def endBytes (h : KeyHello) : List Byte := leBytes 8 h.ident.toNat ++ leBytes 1 h.port

/-- The order of two HELLOs: ascending (IDENT, PORT, NONCE) (R798). -/
def helloFirst (a b : KeyHello) : Bool :=
  decide (a.ident.toNat < b.ident.toNat) || (decide (a.ident = b.ident) && (decide (a.port < b.port) || (decide (a.port = b.port) && decide (a.nonce.toNat ≤ b.nonce.toNat))))

/-- TH of two HELLOs (R798). -/
def helloHash (a b : KeyHello) : List Byte := if helloFirst a b then sha384Bytes (helloData a ++ helloData b) else sha384Bytes (helloData b ++ helloData a)

/-- S (R799): of FS, or the fixed value of known-key mode. -/
def keySalt (known : Bool) (fs : Option (BitVec 256)) : List Byte :=
  if known then sha384Bytes (ascii "HX20 KNOWN KEY") else match fs with | some k => sha384Bytes (beBytes 32 k.toNat) | none => List.replicate 48 0

/-- Z (R799): the x-coordinate of the shared point, or zeros in known-key mode. -/
def keyShared (known : Bool) (priv : BitVec 384) (far : BitVec 768) : List Byte :=
  if known then List.replicate 48 0 else beBytes 48 (Config.ecShared priv far).toNat

/-- K_fin (R799). -/
def keyFin (kdk th : List Byte) : List Byte := kdf384 kdk "HX20 FIN" th 256

/-- FINISH of an end (R798). -/
def finishMac (kdk th : List Byte) (h : KeyHello) : BitVec 384 := BitVec.ofNat 384 (beNat (hmac384 (keyFin kdk th) (th ++ endBytes h)))

/-- What VERIFY of an end signs (R798). -/
def verifyDigest (th : List Byte) (h : KeyHello) : BitVec 384 := Config.sha384 (th ++ endBytes h)

/-- The key material of the direction from `x` to `y`, generation `g`: 32 bytes of key and 4 of SALT (R799). -/
def linkKey (kdk th : List Byte) (x y : KeyHello) (g : Nat) : List Byte := kdf384 kdk "HX20 LINK" (endBytes x ++ endBytes y ++ th ++ beBytes 1 (g % 256)) 288

/-- The key that wraps a PVK on the Twin port (R803). -/
def pvkKey (kdk th : List Byte) : List Byte := kdf384 kdk "HX20 PVK" th 256

/-- The hexadecimal digits of IDENT, sixteen, in lower case (R798; log 170). -/
def identHex (ident : W64) : List Byte := (beBytes 16 0).zipIdx.map fun x =>
  let n := ident.toNat / 16 ^ (15 - x.2) % 16
  BitVec.ofNat 8 (if n < 10 then 48 + n else 87 + n)

/-- An ASCII letter in lower case. -/
def lower (b : Byte) : Byte := if 65 ≤ b.toNat && b.toNat ≤ 90 then b + 32 else b

/-- The chain a far end has sent is accepted (R798): it verifies, the hash of its issuer's key is a root's, and its serial number is IDENT. It
gives the DeviceID key. -/
def SecNv.chainKey (x : SecNv) (der : List Byte) (ident : W64) : Option (BitVec 768) :=
  match Config.chainRead der with
  | some (issuer, serial, key) => if x.rootHashes.contains issuer && decide (serial.map lower = identHex ident) then some key else none
  | none => none

/-- The fragments of the chain: at most 224 bytes each (R797). -/
def fragments : Nat → List Byte → List (List Byte)
  | 0, _ => []
  | n + 1, l => if l.isEmpty then [] else l.take 224 :: fragments n (l.drop 224)

/-- The fragments a far end has sent, once all are there: at most 10, and at most 2,048 bytes (R797). -/
def KeyX.chain (x : KeyX) : Option (List Byte) :=
  let all := (List.range x.nfrag).map fun i => Tab.look none i x.certs
  if decide (x.nfrag ≠ 0) && all.all (·.isSome) then some ((all.filterMap id).flatten) else none

/-! ### Vault and payload keys (R805, R807) -/

/-- The Vault key of a tenant (R805). -/
def vaultKey (pvk : BitVec 256) (t vgen : Nat) : List Byte := kdf384 (beBytes 32 pvk.toNat) "HX20 VAULT" (beBytes 1 t ++ beBytes 4 vgen) 512

/-- The log key (R805). -/
def vlogKey (pvk : BitVec 256) : List Byte := kdf384 (beBytes 32 pvk.toNat) "HX20 VLOG" [] 512

/-- Key1 equals Key2, so the derivation is made again (R805). -/
def keyHalves (k : List Byte) : Bool := decide (k.take 32 = k.drop 32)

/-- The key of payload slot (t, s) (R807): Key1, then Key2. -/
def Sec.slotKey (x : Sec) (t s : Nat) : Option (List Byte) :=
  if s = 0 then none else (Tab.look none (64 * t + s) x.slots).map fun k => beBytes 32 k.1.toNat ++ beBytes 32 k.2.toNat

end Sys2Proof.Machine
end

