-- ==== Sys2Proof/Machine/Oxsum.lean ====
section
/-! DEFINITION. The bytes of an Oxsum message: the 16-byte header (05 R180) and the payloads of responses and notices (06 R213 and its tables; 21 R867, R868). -/

namespace Sys2Proof.Machine

/-- Zeros. -/
def zeros (n : Nat) : List Byte := List.replicate n 0

/-- The bytes of 64-bit words. -/
def wordBytes (ws : List W64) : List Byte := ws.flatMap fun w => leBytes 8 w.toNat

/-- The 64-bit words of a byte string, the last filled with zeros. -/
def bytesWords : Nat → List Byte → List W64
  | 0, _ => []
  | n + 1, l => BitVec.ofNat 64 (leNat (l.take 8)) :: bytesWords n (l.drop 8)

/-! ### Payloads (06 R213) -/

/-- The payload of a response or notice by opcode: each field as its size and the PAD after it, then the group that repeats. -/
def layout (op : Nat) : List (Nat × Nat) × List (Nat × Nat) :=
  match op with
  | 0x0100 => ([(1, 0), (1, 2), (4, 0), (1, 3)], [])
  | 0x0101 => ([(32, 0)], [])
  | 0x0102 => ([(1, 0), (1, 0), (1, 0), (1, 0), (1, 3), (1, 0), (1, 2), (4, 0), (4, 0)], [])
  | 0x0103 => ([(4, 0)], [(8, 0), (4, 0)])
  | 0x0111 => ([], [(1, 0)])
  | 0x01F0 => ([(2, 2)], [])
  | 0x0203 => ([(4, 0), (4, 0), (4, 0), (4, 0), (4, 0), (4, 0), (2, 0), (1, 1), (4, 0), (2, 2), (4, 0), (4, 0), (4, 0), (4, 0), (4, 0), (1, 0), (1, 2)], [])
  | 0x02F0 => ([(1, 0), (1, 2)], [])
  | 0x0300 => ([(2, 2)], [])
  | 0x0305 => ([(1, 1), (2, 0), (4, 0), (4, 0), (4, 0)], [])
  | 0x0500 => ([(2, 0), (2, 0), (1, 3), (8, 0), (8, 0)], [])
  | 0x05F0 => ([(1, 0), (1, 2)], [])
  | 0x0602 => ([(8, 0), (2, 0), (2, 0), (4, 0)], [])
  | 0x0610 => ([(8, 0)], [])
  | 0x0702 => ([(8, 0), (8, 0)], [])
  | 0x0703 => ([(8, 0)], [])
  | 0x0704 => ([(4, 0), (4, 0), (4, 4), (8, 0)], [])
  | 0x0712 => ([], [(1, 0)])
  | 0x07F0 => ([(4, 0), (1, 3)], [])
  | 0x0801 => ([(1, 0), (1, 2), (4, 0)], [])
  | 0x08F0 => ([(1, 3)], [])
  | 0x0900 => ([(1, 0), (1, 2), (4, 0)], [])
  | 0x0910 => ([(48, 0)], [])
  | 0x0A02 => ([(2, 0), (2, 0)], [(2, 0), (1, 0), (1, 0), (4, 0), (2, 0), (2, 0), (4, 0)])
  | 0x0A03 => ([(1, 0), (1, 0), (1, 1), (4, 0), (4, 0), (2, 0), (2, 0), (8, 0), (8, 0), (8, 0), (8, 0), (2, 2), (2, 2), (4, 4), (8, 0), (8, 0), (2, 6),
      (8, 0), (8, 24)], [(1, 0)])
  | 0x0A04 => ([(8, 0)], [])
  | 0x0A10 => ([], [(8, 0)])
  | 0x0B01 => ([], [(2, 0)])
  | 0x0B02 => ([(1, 0), (1, 0), (1, 0), (1, 0), (1, 0), (1, 0), (1, 0), (1, 0), (1, 0), (1, 0), (1, 0), (1, 0), (1, 0), (1, 0), (1, 0), (1, 0), (1, 0),
      (1, 2)], [])
  | 0x0B05 => ([], [(1, 1), (2, 0)])
  | 0x0C02 => ([(2, 2)], [(2, 0)])
  | _ => ([], [])

/-- The bytes of values laid out by fields and a repeating group; `i` counts the values of the group. -/
def layBytes (rep : List (Nat × Nat)) : List (Nat × Nat) → Nat → List Nat → List Byte
  | _, _, [] => []
  | (w, p) :: pre, i, x :: xs => leBytes w x ++ zeros p ++ layBytes rep pre i xs
  | [], i, x :: xs =>
    match rep[i % rep.length]? with
    | some (w, p) => leBytes w x ++ zeros p ++ layBytes rep [] (i + 1) xs
    | none => []

/-- The payload of a reply. -/
def Reply.payload (r : Reply) : List Byte := layBytes (layout r.opcode).2 (layout r.opcode).1 0 r.data

/-- The values of a payload by its layout: a value that the bytes do not reach is left out. -/
def takeLay (rep : List (Nat × Nat)) : Nat → List (Nat × Nat) → Nat → List Byte → List Nat
  | 0, _, _, _ => []
  | n + 1, (w, p) :: pre, i, b => if b.length < w then [] else leNat (b.take w) :: takeLay rep n pre i (b.drop (w + p))
  | n + 1, [], i, b =>
    match rep[i % rep.length]? with
    | some (w, p) => if b.length < w || b.isEmpty then [] else leNat (b.take w) :: takeLay rep n [] (i + 1) (b.drop (w + p))
    | none => []

/-- The payload of a command whose acceptance is journaled (18 R762, CFG; 06 R213 and its tables). -/
def cmdLayout (op : Nat) : List (Nat × Nat) × List (Nat × Nat) :=
  match op with
  | 0x0200 => ([(4, 0), (4, 0), (4, 0), (4, 0), (4, 0), (4, 0), (2, 0), (1, 1), (4, 0), (2, 2), (4, 0)], [])
  | 0x0210 => ([(8, 0), (8, 0), (4, 0), (4, 0)], [])
  | 0x0300 => ([(1, 0), (1, 2), (8, 0), (1, 1), (2, 0), (2, 2), (4, 0), (4, 0)], [])
  | 0x0410 => ([(1, 3), (8, 0), (8, 0), (1, 0), (1, 2)], [])
  | 0x0600 => ([(2, 0), (2, 0), (2, 0), (2, 0)], [(2, 0)])
  | 0x0601 => ([(2, 2)], [])
  | 0x0700 => ([(1, 3), (8, 0), (8, 0), (4, 0)], [])
  | 0x0301 | 0x0411 | 0x0701 => ([(1, 3)], [])
  | _ => ([], [])

/-- LENGTH of a reply (05 R180). -/
def Reply.bytes (r : Reply) : Nat := r.payload.length

/-! ### The header (05 R180) -/

/-- A header: OPCODE, SEQ, LENGTH, TENANT, FLAGS, STATUS, and six zero bytes. -/
def header (opcode : Nat) (seq : W16) (length tenant flags status : Nat) : List Byte :=
  leBytes 2 opcode ++ leBytes 2 seq.toNat ++ leBytes 2 length ++ leBytes 1 tenant ++ leBytes 1 flags ++ leBytes 2 status ++ zeros 6

/-- A response (RESP) or notice (NOTICE) as it lies in its slot or leaves on its path. -/
def Reply.message (r : Reply) : List Byte :=
  header r.opcode r.seq r.bytes r.tenant ((if r.notice then 2 else 1) + 4 * bNat r.replayed) r.status.code ++ r.payload

/-- A command's header. -/
def cmdBytes (h : CmdHdr) : List Byte := header h.opcode.toNat h.req.seq h.req.length h.req.tenant.toNat (8 * bNat h.req.noIrq) 0

/-- A little-endian field of a message. -/
def field (b : List Byte) (off n : Nat) : Nat := leNat ((b.drop off).take n)

/-- A command as its header reads (05 R180, R182): a bit of FLAGS other than NO_IRQ, STATUS, or one of the last six bytes that is not zero counts
as a nonzero reserved field. -/
def readCmd (p : Path) (b : List Byte) : CmdHdr :=
  { opcode := BitVec.ofNat 16 (field b 0 2),
    req := { path := p, seq := BitVec.ofNat 16 (field b 2 2), tenant := BitVec.ofNat 8 (field b 6 1), length := field b 4 2,
             noIrq := decide (field b 7 1 / 8 % 2 = 1),
             rsvd := decide (field b 7 1 / 16 ≠ 0) || decide (field b 7 1 % 8 ≠ 0) || decide (field b 8 8 ≠ 0) } }

/-- A response or notice as it is read from its bytes. -/
def readReply (b : List Byte) : Reply × Nat :=
  let op := field b 0 2
  ({ opcode := op, seq := BitVec.ofNat 16 (field b 2 2), tenant := field b 6 1, notice := decide (field b 7 1 / 2 % 2 = 1),
     replayed := decide (field b 7 1 / 4 % 2 = 1), data := takeLay (layout op).2 b.length (layout op).1 0 (b.drop 16) }, field b 8 2)

/-- Baseline transmission units of a message over MCTP (05 R195). -/
def Reply.units (r : Reply) : Nat := (r.message.length + 63) / 64

end Sys2Proof.Machine
end

