-- ==== Sys2Proof/Machine/Descr.lean ====
section
/-! DEFINITION. The bytes of descriptors and completion records, and their places in a queue's ring (07 R260, R267, R268, R270; 10 R425). -/

namespace Sys2Proof.Machine

/-! ### The ring (07 R260) -/

/-- The descriptor slot of an index. -/
def Queue.slotAddr (q : Queue) (i : Nat) : W64 := q.ring + BitVec.ofNat 64 (64 * (i % 2 ^ q.log2))

/-- The completion slot of an index. -/
def recAddr (q : Queue) (i : Nat) : W64 := q.ring + BitVec.ofNat 64 (64 * 2 ^ q.log2 + 16 * (i % 2 ^ q.log2))

/-- Bytes of a ring. -/
def Queue.ringBytes (q : Queue) : Nat := 80 * 2 ^ q.log2

/-! ### Descriptors (07 R267, R268; 10 R425) -/

/-- Bytes 16 to 63 of a descriptor. -/
def bodyBytes : DescBody → List Byte
  | .dma s t n v => leBytes 8 s.toNat ++ leBytes 8 t.toNat ++ leBytes 8 n ++ leBytes 1 v.toNat ++ zeros 23
  | .remote r l n a o c => leBytes 8 r.toNat ++ leBytes 8 l.toNat ++ leBytes 4 n ++ leBytes 1 a ++ zeros 3 ++ leBytes 8 o.toNat ++ leBytes 8 c.toNat ++ zeros 8
  | .coll s t n g f r dl q fl sd bm =>
    leBytes 8 s.toNat ++ leBytes 8 t.toNat ++ leBytes 4 n ++ leBytes 2 g ++ leBytes 1 f ++ leBytes 1 r ++ leBytes 4 dl ++ leBytes 2 q
      ++ leBytes 1 fl.toNat ++ zeros 1 ++ leBytes 8 sd.toNat ++ leBytes 8 bm.toNat
  | .sem s o c a k => leBytes 8 s.toNat ++ leBytes 8 o.toNat ++ leBytes 8 c.toNat ++ leBytes 1 a ++ leBytes 1 k ++ zeros 22
  | .vault e l o n r => leBytes 8 e.toNat ++ leBytes 8 l.toNat ++ leBytes 8 o ++ leBytes 8 n ++ leBytes 1 r ++ zeros 15

/-- A descriptor's 64 bytes. -/
def descImage (x : Desc) : List Byte :=
  let t := match x.telem with | some t => t | none => { layer := 0, operator := 0, range := 0 }
  leBytes 1 x.op ++ leBytes 1 (bNat x.irq + 2 * bNat x.fence + 4 * bNat x.relaxed + 8 * bNat x.telem.isSome) ++ zeros 2 ++ leBytes 4 x.pasid
    ++ leBytes 2 t.layer.toNat ++ leBytes 2 t.operator.toNat ++ leBytes 4 t.range.toNat ++ bodyBytes x.body

/-- Bytes that must be zero are not. -/
def reservedSet (b : List Byte) (rs : List (Nat × Nat)) : Bool := rs.any fun r => decide (field b r.1 r.2 ≠ 0)

/-- Bytes 16 to 63 as the queue type and OP lay them out, and the reserved ranges among them. An OP of another type is read as its queue type's first
layout; it completes BAD_FIELD whatever it holds (07 R269). -/
def readBody (qtype op : Nat) (b : List Byte) : DescBody × List (Nat × Nat) :=
  let w : Nat → W64 := fun o => BitVec.ofNat 64 (field b o 8)
  let y : Nat → Byte := fun o => BitVec.ofNat 8 (field b o 1)
  if qtype = 1 then
    if 0x30 ≤ op then (.sem (w 16) (w 24) (w 32) (field b 40 1) (field b 41 1), [(42, 22)])
    else (.coll (w 16) (w 24) (field b 32 4) (field b 36 2) (field b 38 1) (field b 39 1) (field b 40 4) (field b 44 2) (y 46) (w 48) (w 56), [(47, 1)])
  else if qtype = 2 then (.remote (w 16) (w 24) (field b 32 4) (field b 36 1) (w 40) (w 48), [(37, 3), (56, 8)])
  else if qtype = 3 then (.vault (w 16) (w 24) (field b 32 8) (field b 40 8) (field b 48 1), [(49, 15)])
  else (.dma (w 16) (w 24) (field b 32 8) (y 40), [(41, 23)])

/-- A descriptor as its 64 bytes read in a queue of a type. -/
def readDesc (qtype : Nat) (b : List Byte) : Desc :=
  let fl := field b 1 1
  let (body, rs) := readBody qtype (field b 0 1) b
  { op := field b 0 1, irq := decide (fl % 2 = 1), fence := decide (fl / 2 % 2 = 1), relaxed := decide (fl / 4 % 2 = 1),
    telem := if fl / 8 % 2 = 1 then
        some { layer := BitVec.ofNat 16 (field b 8 2), operator := BitVec.ofNat 16 (field b 10 2), range := BitVec.ofNat 32 (field b 12 4) } else none,
    pasid := field b 4 4 % 2 ^ 20,
    rsvd := decide (16 ≤ fl) || decide (2 ^ 20 ≤ field b 4 4) || reservedSet b ((2, 2) :: rs), body }

/-- A completion record's 16 bytes (07 R270). -/
def CRec.bytes (r : CRec) : List Byte :=
  leBytes 4 r.index ++ leBytes 2 r.status.code ++ leBytes 1 (bNat r.phase + 2 * bNat r.partial_) ++ zeros 1 ++ leBytes 8 r.result

end Sys2Proof.Machine
end

