-- ==== Sys2Proof/Machine/Flags.lean ====
section
/-! DEFINITION. Fault sources and their classes (20 R826, R827), and the codes of states and causes that registers and messages carry. -/

namespace Sys2Proof.Machine

/-! ### Source numbers (20, source table) -/

def Src.railFail : Nat := 0x000
def Src.refclkLost : Nat := 0x001
def Src.refclkPpm : Nat := 0x002
def Src.xtalFail : Nat := 0x003
def Src.pwrOkLate4 : Nat := 0x004
def Src.pwrOkLate5 : Nat := 0x005
def Src.stopStuck : Nat := 0x006
def Src.thermInStuck : Nat := 0x007
def Src.ackStuck : Nat := 0x008
def Src.ppsFault : Nat := 0x009
def Src.twinAliveLost : Nat := 0x00A
def Src.dieHeld : Nat := 0x00B
def Src.dieFatal : Nat := 0x00C
def Src.sideConflict : Nat := 0x00D
def Src.bootSlot : Nat := 0x00E
def Src.bootImage : Nat := 0x00F
def Src.bootLoop : Nat := 0x010
def Src.facetTrain : Nat := 0x020
def Src.facetReplay : Nat := 0x021
def Src.facetLane2 : Nat := 0x022
def Src.facetMask : Nat := 0x023
def Src.facetInner : Nat := 0x024
def Src.facetCoh : Nat := 0x025
def Src.facetLane1 : Nat := 0x026
def Src.facetProto : Nat := 0x027
def Src.facetSbRefused : Nat := 0x028
def Src.facetDown3 : Nat := 0x029
def Src.facetDown4 : Nat := 0x02A
def Src.pcieSpeed : Nat := 0x030
def Src.pcieWidth : Nat := 0x031
def Src.pcieUncorr : Nat := 0x032
def Src.pcieCorr : Nat := 0x033
def Src.mbxProto : Nat := 0x034
def Src.fwInternal : Nat := 0x035
def Src.queueDbProto : Nat := 0x040
def Src.xltPinFault : Nat := 0x041
def Src.xltPriTimeout : Nat := 0x042
def Src.xltRingFault : Nat := 0x043
def Src.xltPriStopped : Nat := 0x044
def Src.xltAtsError : Nat := 0x045
def Src.fabNoroute : Nat := 0x050
def Src.fabTrunkMember : Nat := 0x051
def Src.fabPkgMismatch : Nat := 0x052
def Src.fabLoop : Nat := 0x053
def Src.fabDupId : Nat := 0x054
def Src.fabTimeLost : Nat := 0x055
def Src.lnkAlign : Nat := 0x060
def Src.lnkProto : Nat := 0x061
def Src.lnkMap : Nat := 0x062
def Src.lnkNarrow : Nat := 0x063
def Src.lnkTrain : Nat := 0x064
def Src.lnkDown : Nat := 0x065
def Src.lnkRekey : Nat := 0x066
def Src.lnkAuth : Nat := 0x067
def Src.ringSeek : Nat := 0x070
def Src.ringRange : Nat := 0x071
def Src.htrOpen : Nat := 0x072
def Src.htrShort : Nat := 0x073
def Src.htrGroup : Nat := 0x074
def Src.htrSenseOpen : Nat := 0x075
def Src.senseBias : Nat := 0x076
def Src.lasShort : Nat := 0x080
def Src.lasOpen : Nat := 0x081
def Src.lasDark : Nat := 0x082
def Src.lasEol : Nat := 0x083
def Src.lasPosLost : Nat := 0x084
def Src.walNospare : Nat := 0x085
def Src.rbyLink : Nat := 0x086
def Src.walCancel : Nat := 0x087
def Src.lasAgeing : Nat := 0x088
def Src.calFullPend : Nat := 0x090
def Src.calLustre : Nat := 0x091
def Src.calRecord : Nat := 0x092
def Src.thmWarn : Nat := 0x0A0
def Src.thmExt : Nat := 0x0A1
def Src.thmLimit : Nat := 0x0A2
def Src.thmRise : Nat := 0x0A3
def Src.thmSensor : Nat := 0x0A4
def Src.thmBlind : Nat := 0x0A5
def Src.thmCold : Nat := 0x0A6
def Src.thmTrip : Nat := 0x0A7
def Src.vltBlock : Nat := 0x0B0
def Src.vltProgRefused : Nat := 0x0B1
def Src.vltUncorr : Nat := 0x0B2
def Src.vltCapture : Nat := 0x0B3
def Src.vltWear : Nat := 0x0B4
def Src.vltCapacity : Nat := 0x0B5
def Src.vltMirror : Nat := 0x0B6
def Src.vltDieLost : Nat := 0x0B7
def Src.vltMount : Nat := 0x0B8
def Src.twnTakeover : Nat := 0x0C0
def Src.twnCleave : Nat := 0x0C1
def Src.twnRefused : Nat := 0x0C2
def Src.twnProto : Nat := 0x0C3
def Src.twnPartnerLost : Nat := 0x0C4
def Src.twnUnsynced : Nat := 0x0C5
def Src.secZeroised : Nat := 0x0D0
def Src.secAuthFail : Nat := 0x0D1
def Src.secCastTile : Nat := 0x0D2
def Src.secPeerAuth : Nat := 0x0D3
def Src.secPvkConflict : Nat := 0x0D4
def Src.secKeystore : Nat := 0x0D5
def Src.secEntropy : Nat := 0x0D6
def Src.secCast : Nat := 0x0D7
def Src.secBreach : Nat := 0x0D8

/-- The ID ranges of the source table: first ID, last ID, class at reset (20 R826). -/
def srcTable : List (Nat × Nat × Nat) :=
  [(0x000, 0x001, 4), (0x002, 0x003, 2), (0x004, 0x004, 4), (0x005, 0x005, 5), (0x006, 0x00A, 2), (0x00B, 0x00B, 2),
   (0x00C, 0x00C, 5), (0x00D, 0x00D, 2), (0x00E, 0x00E, 1), (0x00F, 0x00F, 2), (0x010, 0x010, 5), (0x020, 0x025, 2),
   (0x026, 0x028, 1), (0x029, 0x029, 3), (0x02A, 0x02A, 4), (0x030, 0x032, 2), (0x033, 0x034, 1), (0x035, 0x035, 2),
   (0x040, 0x042, 1), (0x043, 0x045, 2), (0x050, 0x051, 1), (0x052, 0x055, 2), (0x060, 0x061, 1), (0x062, 0x067, 2),
   (0x070, 0x075, 2), (0x076, 0x076, 1), (0x080, 0x086, 2), (0x087, 0x087, 1), (0x088, 0x088, 0), (0x090, 0x092, 1),
   (0x0A0, 0x0A0, 0), (0x0A1, 0x0A1, 1), (0x0A2, 0x0A6, 2), (0x0A7, 0x0A7, 5), (0x0B0, 0x0B0, 1), (0x0B1, 0x0B8, 2),
   (0x0C0, 0x0C5, 2), (0x0D0, 0x0D0, 0), (0x0D1, 0x0D1, 1), (0x0D2, 0x0D5, 2), (0x0D6, 0x0D6, 4), (0x0D7, 0x0D7, 2),
   (0x0D8, 0x0D8, 5)]

/-- The class of a source at reset; `none` for an unused ID. -/
def resetClass (src : Nat) : Option Nat :=
  (srcTable.find? fun r => decide (r.1 ≤ src) && decide (src ≤ r.2.1)).map (·.2.2)

/-- Fixed sources: always S5 (20 R827). -/
def srcFixed (src : Nat) : Bool := decide (resetClass src = some 5)

/-- Sources of scope H and F, which alone accept S3 (20 R827). -/
def srcTenantScope (src : Nat) : Bool :=
  (decide (0x020 ≤ src) && decide (src ≤ 0x02A) && decide (src ≠ Src.facetInner)) || decide (src = Src.mbxProto)
    || (decide (0x040 ≤ src) && decide (src ≤ 0x045)) || decide (src = Src.vltCapture)

/-- Sources of scope H (20, source table). -/
def srcPortScope (src : Nat) : Bool := decide (0x020 ≤ src) && decide (src ≤ 0x02A) && decide (src ≠ Src.facetInner)

/-- Whether a source accepts a class (20 R827). -/
def srcAccepts (src cls : Nat) : Bool :=
  (resetClass src).isSome && !srcFixed src && (decide (cls ≤ 2) || decide (cls = 4) || (decide (cls = 3) && srcTenantScope src))

/-- Die slot of a sensor (R656). -/
def sensorSlot (s : Nat) : Nat :=
  if s < 2 then 1 else if s < 18 then 0 else if s < 34 then 2 + (s - 18) / 4 else if s < 42 then 6 + (s - 34) / 2
  else if s < 50 then 10 + (s - 42) / 4 else 12 + (s - 50)

/-- Sources of class P0 (00, priority classes; log 176): thermal trip, laser faults, and what latches. -/
def srcP0 (src : Nat) : Bool := srcFixed src || [Src.lasShort, Src.lasOpen, Src.lasDark].contains src

/-- The die slot a fault comes from, where its source and unit name one other than Garnet and Jade (20, scopes; log 176). -/
def faultSlot (src unit : Nat) : Option Nat :=
  if Src.ringSeek ≤ src && src ≤ Src.senseBias then some (2 + unit / 32)
  else if (Src.lasShort ≤ src && src ≤ Src.lasPosLost) || src = Src.lasAgeing then some (10 + unit / 36)
  else if [Src.thmWarn, Src.thmLimit, Src.thmRise, Src.thmSensor].contains src then some (sensorSlot unit)
  else if [Src.rbyLink, Src.thmBlind, Src.thmCold, Src.calRecord].contains src then some unit
  else if ((Src.lnkAlign ≤ src && src ≤ Src.lnkAuth) || [Src.walNospare, Src.walCancel, Src.calFullPend, Src.calLustre, Src.secPeerAuth].contains src) && unit < 64 then
    some (2 + unit / 16)
  else none

/-- The class a source holds (FLT_SEV). -/
def Flt.classOf (f : Flt) (src : Nat) : Nat :=
  match Tab.look 0 src f.sev with
  | 0 => (resetClass src).getD 0
  | c + 1 => c

/-! ### Codes -/

/-- Stage codes (03, stage table). -/
def Stage.code : Stage → Nat
  | .pr => 0 | .rails => 1 | .clocks => 2 | .identify => 3 | .load => 4 | .init => 5 | .hostReady => 6 | .fabricReady => 7
  | .dormant => 8 | .recovery => 0xE | .halted => 0xF

/-- TSTATE (18 R755). -/
def TSt.code : TSt → Nat
  | .off => 0 | .pairing => 1 | .syncing => 2 | .paired => 3 | .cleave => 4 | .solo => 5 | .refused => 6

/-- QSTATE (07 R273). -/
def QSt.code : QSt → Nat
  | .absent => 0 | .stopped => 1 | .running => 2 | .draining => 3 | .aborting => 4 | .mdStopped => 5

/-- RBY_LAS.LSTATE codes follow the order of the states (14). -/
def LasSt.code : LasSt → Nat
  | .off => 0 | .hold => 1 | .ramp => 2 | .lit => 3 | .wait => 4 | .failed => 5

end Sys2Proof.Machine
end

