-- ==== Sys2Proof/Machine/Ops.lean ====
section
/-! DEFINITION. The operations every family shares: reading and updating the units of the device, sending, faults on their way
to the aggregator, traces and counters, the channels of a Host Facet port, vectors, notices and responses, and the Twin journal. -/

namespace Sys2Proof.Machine

/-! ### Units -/

def Dev.fn (d : Dev) (f : Nat) : Fn := Tab.look {} f d.mbx.fns
def Dev.setFn (d : Dev) (f : Nat) (g : Fn → Fn) : Dev := { d with mbx.fns := Tab.upd {} f g d.mbx.fns }
def Dev.ten (d : Dev) (t : Nat) : Tenant := Tab.look {} t d.tq.ten
def Dev.setTen (d : Dev) (t : Nat) (g : Tenant → Tenant) : Dev := { d with tq.ten := Tab.upd {} t g d.tq.ten }
def Dev.queue (d : Dev) (gq : Nat) : Queue := Tab.look {} gq d.tq.q
def Dev.setQueue (d : Dev) (gq : Nat) (g : Queue → Queue) : Dev := { d with tq.q := Tab.upd {} gq g d.tq.q }
def Dev.hport (d : Dev) (p : Nat) : HPort := Tab.look {} p d.fct.ports
def Dev.setHport (d : Dev) (p : Nat) (g : HPort → HPort) : Dev := { d with fct.ports := Tab.upd {} p g d.fct.ports }
def Dev.clus (d : Dev) (p c : Nat) : Clus := Tab.look {} c (d.hport p).clus
def Dev.setClus (d : Dev) (p c : Nat) (f : Clus → Clus) : Dev := d.setHport p fun h => { h with clus := Tab.upd {} c f h.clus }
def Dev.lport (d : Dev) (p : Nat) : LPort := Tab.look {} p d.lnk.ports
def Dev.setLport (d : Dev) (p : Nat) (g : LPort → LPort) : Dev := { d with lnk.ports := Tab.upd {} p g d.lnk.ports }

/-- The state of a power domain: 0 OFF, 1 RETAIN, 2 CLOCK-GATED, 3 ON (02 R58). -/
def Dev.domain (d : Dev) (n : Nat) : Nat := Tab.look 0 n d.pwr.dom

/-- Domains clock-gated in Idle (02 R58). -/
def idleGated : List Nat := [2, 3] ++ (List.range 22).map (5 + ·) ++ [52]

/-- Sets domains that are not held off to a state at once. -/
def Dev.gate (d : Dev) (ns : List Nat) (v : Nat) : Dev :=
  { d with pwr.dom := ns.foldl (fun l n => if Tab.look false n d.pwr.heldOff then l else Tab.put 0 n v l) d.pwr.dom }

/-- The device is Active again after Idle (16 R682). -/
def Dev.wake (d : Dev) : Dev :=
  if d.pwr.state = 1 then { d.gate idleGated 3 with pwr.state := 0, pwr.target := 0, pwr.quietAt := none } else d

/-- HOST_READY has been reached (03, stage table). -/
def Dev.up (d : Dev) : Bool := decide (d.boot.stage = .hostReady) || decide (d.boot.stage = .fabricReady)

/-- The device is stopped (21 R877). -/
def Dev.stopped (d : Dev) : Bool := decide (d.dbg.st = .stopped)

/-- The tenant is in TR (07 R265: Fence or later). -/
def Dev.fenced (d : Dev) (t : Nat) : Bool := decide ((d.ten t).rst ≠ 0)

/-- Fabric time is locked, or mastered by this device (21 R862, 11 R450). -/
def Dev.timeLocked (d : Dev) : Bool := d.fab.locked || (d.fab.timeSet && d.fab.parent.isNone)

/-- What leaves on pins that stay driven while PWR_OK is low: the SMBus (02 R50). -/
def Out.alwaysOn : Out → Bool
  | .mctp .. | .mctpError => true
  | _ => false

/-- A message leaves the device (log 5); while PWR_OK is low every other output is high-impedance and nothing leaves on it (02 R50). -/
def Dev.emit (d : Dev) (o : Out) : Dev := { d with out := if d.jad.pwrOk || o.alwaysOn then o :: d.out else d.out }

/-- Messages leave in the order listed. -/
def Dev.emits (d : Dev) (os : List Out) : Dev := os.foldl Dev.emit d

/-- A fault fires; it reaches the aggregator when the step ends (20, Model). -/
def Dev.post (d : Dev) (src unit : Nat) (dom : Option Nat := none) (detail : Nat := 0) : Dev :=
  { d with flt.due := d.flt.due ++ [{ src, unit, dom, detail }] }

/-- A fault fires when a condition holds. -/
def Dev.postIf (d : Dev) (c : Bool) (src unit : Nat) (dom : Option Nat := none) : Dev :=
  if c then d.post src unit dom else d

/-- A value the spec leaves open (log 6): the draw and the device with the counter advanced. -/
def Dev.draw (d : Dev) (w : Nat) : BitVec w × Dev := (Config.freeBits w d.free, { d with free := d.free + 1 })

/-- A DRBG output (19 R787): a free value, and one generate request. -/
def Dev.rand (d : Dev) (w : Nat) : BitVec w × Dev := ((d.draw w).1, { (d.draw w).2 with sec.gens := d.sec.gens + 1 })

/-! ### Requests to the endpoint (03 R105, R110; 05 R176, R207) -/

/-- PERST_N is high and the PCIe link is up (03 R110). -/
def Dev.linkUp (d : Dev) : Bool := d.jad.perstHigh && d.mbx.link.up

/-- A function is there: the PF from HOST_READY and in RECOVERY, a VF from HOST_READY while VF Enable is 1 (03 R100, R105, R106). -/
def Dev.fnPresent (d : Dev) (f : Nat) : Bool :=
  if f = 0 then d.up || decide (d.boot.stage = .recovery) else d.up && (d.fn 0).vfEnable

/-- A function completes memory requests: it is present, its Memory Space Enable is 1 and it is not in FLR (05 R176, R207). -/
def Dev.memReq (d : Dev) (f : Nat) : Bool := d.fnPresent f && (d.fn f).mse && !(d.fn f).flr

/-- A command that is a memory request to a function: with the link down none arrives; one the function does not complete is an Unsupported
Request (03 R105, 05 R176). -/
def Dev.mmio (d : Dev) (f : Nat) (g : Dev → Dev) : Dev :=
  if d.linkUp then (if d.memReq f then g d else d.emit (.pcieUr f)) else d

/-- A memory request to a page of tenant `t`, which its VF and the PF reach. -/
def Dev.mmioTen (d : Dev) (t : Nat) (g : Dev → Dev) : Dev := d.mmio (if d.memReq (t + 1) then t + 1 else 0) g

/-- A command that is a configuration write of a function: Configuration Request Retry Status before HOST_READY (03 R105), Unsupported
Request where the function is absent; in FLR the fields read as reset and take no write (05 R207). -/
def Dev.configReq (d : Dev) (f : Nat) (g : Dev → Dev) : Dev :=
  if d.linkUp then
    if d.fnPresent f then (if (d.fn f).flr then d else g d)
    else if d.boot.stage = .load || d.boot.stage = .init then d.emit (.pcieConfig f true 0)
    else d.emit (.pcieUr f)
  else d

/-! ### Trace and counters (21) -/

/-- Bit number of an event in DBG_TRCFG.EVENTS (21 R862). -/
def TEnt.bit (e : TEnt) : Nat := e.event - 1

/-- Whether an event is recorded now (21 R862, R865). -/
def Dev.traces (d : Dev) (e : TEnt) : Bool :=
  d.dbg.trcfg.getLsbD 16 && d.dbg.trcfg.getLsbD e.bit && d.dbg.trmask.getLsbD (if e.tenant < 16 then e.tenant else 16)
    && (!d.stopped || [7, 8, 9, 13].contains e.event)

/-- An event is recorded (21 R862 to R865): the oldest entry goes from a full buffer when WRAP is 1, else LOST counts. -/
def Dev.record (d : Dev) (e : TEnt) : Dev :=
  if d.traces e then
    if d.dbg.trace.length < 32768 then { d with dbg.trace := d.dbg.trace ++ [e] }
    else if d.dbg.trcfg.getLsbD 17 then { d with dbg.trace := d.dbg.trace.drop 1 ++ [e] }
    else { d with dbg.lost := satAdd 0x7FFF d.dbg.lost }
  else d

/-- A trace entry of the present moment. -/
def Dev.trace (d : Dev) (event tenant unit qglobal status : Nat) (ident : Option Telem) (arg : Nat) : Dev :=
  d.record { ftime := d.fab.time, event, tenant, locked := d.timeLocked, unit, qglobal, status, ident, arg }

/-- Counter `i` of tenant `t`'s set 0x0010 and of the device's set 0x0001 rises by `n` (21 R858); held while stopped (R855).
A tenant number above 15 is the PF. -/
def Dev.count (d : Dev) (t i n : Nat) : Dev :=
  if d.stopped then d
  else
    { d with
      dbg.devOps := Tab.upd 0 i (· + n) d.dbg.devOps
      dbg.ops := if t < 16 then Tab.upd 0 (64 * t + i) (· + n) d.dbg.ops else d.dbg.ops }

/-! ### Channels of a Host Facet port (04 R128 to R135) -/

/-- Flits of a memory message: header, telemetry extension and data in 248-byte payloads. -/
def memFlits (ext : Bool) (data : Nat) : Nat := (16 + (if ext then 8 else 0) + data + 247) / 248

/-- Flits of a debug message: 8-byte header and body. -/
def debugFlits (body : Nat) : Nat := (8 + body + 247) / 248

/-- A message of the channel can be sent from: one waits and a credit is held. -/
def HPort.ready (h : HPort) (ch : Nat) : Bool := h.queue.any (fun m => decide (m.ch = ch)) && decide (0 < Tab.look 0 ch h.cred)

/-- Flits that wait on a channel. -/
def HPort.waiting (h : HPort) (ch : Nat) : Nat := ((h.queue.filter fun m => decide (m.ch = ch)).map (·.flits)).foldl (· + ·) 0

/-- Memory goes before coherence while it is not ahead of its share, which is in proportion to the flits waiting (04 R135). -/
def HPort.memFirst (h : HPort) : Bool := decide (0 ≤ 2 * h.share + (h.waiting 0 : Int) - (h.waiting 1 : Int))

/-- The channel of the next flit (04 R132, R135): interrupt and debug first, but at most one such flit in eight while memory
or coherence flits can go. -/
def HPort.pick (h : HPort) : Option Nat :=
  let ctl := if h.ready 2 then some 2 else if h.ready 3 then some 3 else none
  let bulk := if h.ready 0 && (!h.ready 1 || h.memFirst) then some 0 else if h.ready 1 then some 1 else none
  match ctl, bulk with
  | some c, some b => if 7 ≤ h.ctlGap then some c else some b
  | some c, none => some c
  | none, b => b

/-- Where memory stands against its share after a flit of a channel. -/
def HPort.shareAfter (h : HPort) (ch : Nat) : Int :=
  if h.ready 0 && h.ready 1 then (if ch = 0 then h.share - (h.waiting 1 : Int) else if ch = 1 then h.share + (h.waiting 0 : Int) else h.share) else h.share

/-- One flit of the channel's first message leaves; the message is complete with its last flit. -/
def takeFlit (ch : Nat) : List FMsg → List FMsg × Option Out
  | [] => ([], none)
  | m :: r =>
    if m.ch = ch then (if m.flits ≤ 1 then (r, some m.msg) else ({ m with flits := m.flits - 1, part := true } :: r, none))
    else let (r', o) := takeFlit ch r; (m :: r', o)

/-- The header of the next flit (04, Facet flit): it acknowledges the last flit received intact and in order, and returns credits of one channel. -/
def HPort.header (h : HPort) (ch : Nat) (null last : Bool) : FacetFlit :=
  let c := ((List.range 4).find? fun c => decide (0 < Tab.look 0 c h.owed)).getD 0
  { ch, null, last, seq := h.txNext, ack := (h.rxNext + 1023) % 1024, nak := h.nakOwed, crdCh := c, crdCnt := min 31 (Tab.look 0 c h.owed) }

/-- A flit takes its sequence number and its place in the replay buffer, a NULL flit like any other (04 R129, R131). -/
def HPort.launch (h : HPort) (f : FacetFlit) (msg : Option Out) : HPort :=
  { h with
    owed := Tab.upd 0 f.crdCh (· - f.crdCnt) h.owed, ackOwed := false, nakOwed := false
    txNext := (h.txNext + 1) % 1024
    unacked := h.unacked ++ [{ seq := h.txNext, msg }] }

/-- Sends one flit of a channel (04 R129, R132). -/
def HPort.send (p : Nat) (h : HPort) (ch : Nat) : HPort × List Out :=
  let (q, o) := takeFlit ch h.queue
  let f := h.header ch false o.isSome
  ({ h.launch f o with
      queue := q
      cred := Tab.upd 0 ch (· - 1) h.cred
      share := h.shareAfter ch
      ctlGap := if 2 ≤ ch then 0 else min 7 (h.ctlGap + 1) }, .facetFlit p f :: o.toList)

/-- A NULL flit carries credits, an acknowledgement or a NAK when no traffic can go (04 R131). -/
def HPort.sendNull (p : Nat) (h : HPort) : HPort × List Out :=
  let f := h.header 0 true false
  (h.launch f none, [.facetFlit p f])

/-- Sends flits while the port is ACTIVE, credits last and fewer than 256 flits are unacknowledged. -/
def HPort.drain (p : Nat) : Nat → HPort → List Out → HPort × List Out
  | 0, h, os => (h, os)
  | n + 1, h, os =>
    if decide (h.st = .active) && decide (h.unacked.length < 256) then
      match h.pick with
      | some ch => let (h', o) := h.send p ch; HPort.drain p n h' (os ++ o)
      | none => if h.ackOwed || h.nakOwed || !h.owed.isEmpty then (let (h', o) := h.sendNull p; HPort.drain p n h' (os ++ o)) else (h, os)
    else (h, os)

/-- Port `p` sends what it can. -/
def Dev.drainPort (d : Dev) (p : Nat) : Dev :=
  let h := d.hport p
  let (h', os) := h.drain p ((h.queue.map (·.flits)).foldl (· + ·) 0 + (h.owed.map (·.2)).foldl (· + ·) 1) []
  (d.setHport p fun _ => h').emits os

/-- `n` credits of a channel go back to the far end with the next flits (04 R133). -/
def Dev.returnCredit (d : Dev) (p ch n : Nat) : Dev :=
  if n = 0 then d else (d.setHport p fun h => { h with owed := Tab.upd 0 ch (· + n) h.owed }).drainPort p

/-- A message for port `p`: it waits for its flits (04 R132, R154). -/
def Dev.facet (d : Dev) (p ch flits : Nat) (m : Out) : Dev :=
  (d.setHport p fun h => { h with queue := h.queue ++ [{ ch, flits, msg := m }] }).drainPort p

/-- A completion sent to a compute die (04, memory message header): CPL, or CPLD with data. -/
def Dev.facetCpl (d : Dev) (p tag tenant status : Nat) (data : List W64) : Dev :=
  d.facet p 0 (memFlits false (8 * data.length))
    (.facetMem p (if data.isEmpty then 8 else 9) tag tenant status 0 (8 * data.length) data)

/-! ### Vectors, notices and responses (05) -/

/-- The function may use sideband messages on the port (05 R190, 04 R138). -/
def Dev.sbAllowed (d : Dev) (f p : Nat) : Bool :=
  let h := d.hport p
  if f = 0 then h.cfg.getLsbD 10 else h.bind.getLsbD (f - 1)

/-- Tenant field of a function's messages. -/
def fnTenant (f : Nat) : Nat := if f = 0 then 0xFF else f - 1

/-- The address an entry of a function's MSI-X table holds (05 R172). -/
def Fn.msixAddr (g : Fn) (vec : Nat) : W64 := Tab.look 0 (4 * vec + 1) g.vadr ++ Tab.look 0 (4 * vec) g.vadr

/-- A vector can leave now (05 R177 to R179, R203). -/
def Dev.vecReady (d : Dev) (f vec : Nat) : Bool :=
  let g := d.fn f
  if g.irqDest = 0 then g.bme && g.msix && !(Tab.look 1 vec g.vctl).getLsbD 0
  else decide ((d.hport (g.irqDest - 1)).st = .active) && (decide (f = 0) || (d.hport (g.irqDest - 1)).bind.getLsbD (f - 1))

/-- Signals a vector, or holds it pending (05 R178, R179; merged while pending, 07 R272). -/
def Dev.signal (d : Dev) (f vec : Nat) : Dev :=
  if d.vecReady f vec then
    let k := (d.fn f).irqDest
    if k = 0 then d.emit (.msix f vec ((d.fn f).msixAddr vec) (Tab.look 0 (4 * vec + 2) (d.fn f).vadr)) else d.facet (k - 1) 2 1 (.facetIrq (k - 1) (fnTenant f) vec)
  else d.setFn f fun g => { g with vecs := insertNat vec g.vecs }

/-- Sends the pending vectors that can leave now. -/
def Dev.flushVecs (d : Dev) (f : Nat) : Dev :=
  (d.fn f).vecs.foldl (fun d v => d.signal f v) (d.setFn f fun g => { g with vecs := [] })

/-- A reply as a debug message on a port (05 R189, R191). -/
def Dev.facetReply (d : Dev) (p f : Nat) (r : Reply) : Dev := d.facet p 3 (debugFlits (16 + r.bytes)) (.facetReply p f r)

/-- The notice-overflow notice (06, device group). -/
def overflowNotice (f lost : Nat) : Reply := { opcode := 0x01F0, tenant := fnTenant f, notice := true, data := [lost] }

/-- Writes a notice to the notice ring (05 R188). -/
def Dev.ringNotice (d : Dev) (f : Nat) (r : Reply) : Dev :=
  if 64 ≤ ((d.fn f).ntcTail - (d.fn f).ntcHead).toNat then
    d.setFn f fun g => { g with ntcLost := satAdd 0xFFFF g.ntcLost, lostNow := g.lostNow + 1 }
  else (d.setFn f fun g => { g with ntc := Tab.put none (g.ntcTail.toNat % 64) (some r) g.ntc, ntcTail := g.ntcTail + 1 }).signal f 1

/-- A port can take the function's notices now (05 R190). -/
def Dev.sbReady (d : Dev) (f p : Nat) : Bool := decide ((d.hport p).st = .active) && d.sbAllowed f p

/-- Sends the notices held for a function whose port permits them, the overflow notice first (05 R190), or to the ring
after NTC_DEST has changed to 0. -/
def Dev.flushHeld (d : Dev) (f : Nat) : Dev :=
  let g := d.fn f
  if g.held.isEmpty && g.lostNow = 0 then d
  else if g.ntcDest = 0 then
    let room := decide (((d.fn f).ntcTail - (d.fn f).ntcHead).toNat < 64) && decide (0 < g.lostNow)
    let d := d.setFn f fun g => { g with held := [], lostNow := if room then 0 else g.lostNow }
    let d := if room then d.ringNotice f (overflowNotice f g.lostNow) else d
    g.held.foldl (fun d r => d.ringNotice f r) d
  else if d.sbReady f (g.ntcDest - 1) then
    let d := d.setFn f fun g => { g with held := [], lostNow := 0 }
    let d := if g.lostNow = 0 then d else d.facetReply (g.ntcDest - 1) f (overflowNotice f g.lostNow)
    g.held.foldl (fun d r => d.facetReply (g.ntcDest - 1) f r) d
  else d

/-- A notice of a function goes to its ring or port, or is held (05 R188 to R190). -/
def Dev.notice (d : Dev) (f : Nat) (r : Reply) : Dev :=
  let g := d.fn f
  if g.ntcDest = 0 then d.ringNotice f r
  else if d.sbReady f (g.ntcDest - 1) && g.held.isEmpty then d.facetReply (g.ntcDest - 1) f r
  else if g.held.length < 64 then d.setFn f fun g => { g with held := g.held ++ [r] }
  else d.setFn f fun g => { g with ntcLost := satAdd 0xFFFF g.ntcLost, lostNow := g.lostNow + 1 }

/-- The function a path serves; MCTP acts for the PF. -/
def pathFn : Path → Nat
  | .pcie f => f
  | .sideband _ f => f
  | .mctp => 0

/-- The response ring of a function holds 16 unconsumed responses (05 R186). -/
def Dev.rspFull (d : Dev) (f : Nat) : Bool := decide (16 ≤ ((d.fn f).rspTail - (d.fn f).rspHead).toNat)

/-- Writes a response to its slot, advances the tail and signals vector 0 unless NO_IRQ was set (05 R185). -/
def Dev.putRsp (d : Dev) (f : Nat) (noIrq : Bool) (r : Reply) : Dev :=
  let d := d.setFn f fun g => { g with rsp := Tab.put none (g.rspTail.toNat % 16) (some r) g.rsp, rspTail := g.rspTail + 1 }
  if noIrq then d else d.signal f 0

/-- A response for a ring: it is written, or waits while 16 are unconsumed or others wait before it; none is ever overwritten (05 R186). -/
def Dev.ringRsp (d : Dev) (f : Nat) (noIrq : Bool) (r : Reply) : Dev :=
  if d.rspFull f || !(d.fn f).rspHeld.isEmpty then d.setFn f fun g => { g with rspHeld := g.rspHeld ++ [(noIrq, r)] } else d.putRsp f noIrq r

/-- The responses that waited for a slot are written, as far as the ring has room. -/
def Dev.flushRsp (d : Dev) (f : Nat) : Dev :=
  (d.fn f).rspHeld.foldl (fun d x => d.ringRsp f x.1 x.2) (d.setFn f fun g => { g with rspHeld := [] })

/-- Sends a response or a final notice on the path of its command (05 R185, R187, R191). -/
def Dev.send (d : Dev) (path : Path) (noIrq : Bool) (r : Reply) : Dev :=
  if r.notice then
    match path with
    | .mctp => { d.emit (.mctp 1 r) with mbx.mctpBusy := false }
    | p => d.notice (pathFn p) r
  else
    match path with
    | .pcie f => d.ringRsp f noIrq r
    | .sideband p f => d.facetReply p f r
    | .mctp => d.emit (.mctp 0 r)

/-- Keeps the response for resends: the last 16 of each path (05 R193). -/
def keepReply (path : Path) (r : Reply) (ks : List (Path × Reply)) : List (Path × Reply) :=
  let same := ks.filter fun k => decide (k.1 = path)
  let drop := if 16 ≤ same.length then same.take 1 else []
  (ks.filter fun k => !(drop.contains k)) ++ [(path, r)]

/-! ### The Twin journal (18 R762 to R764) -/

/-- This device guards effects of tenant `t`: the pair is SYNCING or PAIRED and it serves `t`. -/
def Dev.guards (d : Dev) (t : Nat) : Bool :=
  decide (t < 16) && (decide (d.twn.st = .syncing) || decide (d.twn.st = .paired)) && (d.ten t).served && (d.ten t).assign.isSome

/-- A Twin message leaves, with the next SEQ (18 R753). -/
def Dev.twin (d : Dev) (mtype tenant aux : Nat) (body : List Byte := []) : Dev :=
  { d.emit (.twin { mtype, tenant, seq := d.twn.mseq, aux, body }) with twn.mseq := (d.twn.mseq + 1) % 2 ^ 32 }

/-- The bytes of a journal entry (18 R762): KIND, TENANT, CONT, PAD, REF, VALUE, then the continuation in slots of 16 bytes. -/
def entryBytes (e : JEntry) : List Byte :=
  let slots := (e.cont.length + 1) / 2
  leBytes 1 e.kind ++ leBytes 1 e.tenant ++ leBytes 1 slots ++ [0] ++ leBytes 4 e.ref.toNat ++ leBytes 8 e.value.toNat
    ++ wordBytes e.cont ++ zeros (16 * slots - 8 * e.cont.length)

/-- An entry takes the next JSEQ and is sent, or waits while 65,536 are unacknowledged. -/
def Dev.jsend (d : Dev) (e : JEntry) (g : Option Guard) : Dev :=
  if d.twn.jnext - 1 - d.twn.jacked < 65536 && d.twn.jwait.isEmpty then
    { d.twin 0x10 e.tenant d.twn.jnext (entryBytes e) with
      twn.jnext := d.twn.jnext + 1
      twn.guards := match g with | some x => d.twn.guards ++ [(d.twn.jnext, x)] | none => d.twn.guards }
  else { d with twn.jwait := d.twn.jwait ++ [(e, g)] }

/-- An entry from numbers. -/
def entry (kind t ref value : Nat) (cont : List W64) : JEntry :=
  { kind, tenant := t, ref := BitVec.ofNat 32 ref, value := BitVec.ofNat 64 value, cont }

/-- Journals a change of a tenant's mirrored state, where the pair does so: KIND, TENANT, REF, VALUE and the words of the continuation. -/
def Dev.journal (d : Dev) (kind t ref value : Nat) (cont : List W64 := []) : Dev :=
  if d.guards t then d.jsend (Sys2Proof.Machine.entry kind t ref value cont) none else d

/-- Journals an accepted command: its opcode and its payload, from the values of its fields (18 R762, CFG). -/
def Dev.journalCfg (d : Dev) (t op : Nat) (vals : List Nat) : Dev :=
  let b := layBytes (cmdLayout op).2 (cmdLayout op).1 0 vals
  d.journal 0x09 t op 0 (bytesWords ((b.length + 7) / 8) b)

/-- A guarded effect: held until the JACK that covers its entry. -/
def Dev.hold (d : Dev) (t kind ref value : Nat) (g : Guard) (cont : List W64 := []) : Dev := d.jsend (Sys2Proof.Machine.entry kind t ref value cont) (some g)

/-- A response as the journal carries it (18 R762): its header and up to 48 bytes of its payload. -/
def replyWords (r : Reply) : List W64 := let b := r.message.take 64; bytesWords ((b.length + 7) / 8) b

/-- Path kind of a replay record in the journal (18 R762). -/
def pathKind : Path → Nat
  | .pcie _ => 0
  | .sideband .. => 1
  | .mctp => 2

/-- Answers a command: the response is kept for resends, and for a tenant of a Twin pair it waits for its JACK (05 R193, 18
R763); INTERNAL raises FW_INTERNAL (05 R200). -/
def Dev.respond (d : Dev) (path : Path) (noIrq : Bool) (r : Reply) : Dev :=
  let d := d.postIf (decide (r.status = .internal) && !r.replayed) Src.fwInternal 0
  let keep := !r.notice && !r.replayed
  let d := if keep then d.setFn (pathFn path) fun g => { g with kept := keepReply path r g.kept } else d
  let t := pathFn path - 1
  if decide (pathFn path ≠ 0) && d.guards t then
    d.hold t 0x07 (pathKind path) 0 (.reply (bNat noIrq) path r) (replyWords r)
  else d.send path noIrq r

end Sys2Proof.Machine
end

