-- ==== Sys2Proof/Machine/OpsHost.lean ====
section
/-! DEFINITION. Accesses to host memory (08): translation and its caches, ATS and page requests, the host memory path, atomics (09 R350 to R354), and jobs made of several accesses. -/

namespace Sys2Proof.Machine

/-- The new value of an atomic (09 R350); codes above 9 leave the word. -/
def atomNew (aop : Nat) (old operand compare : W64) : W64 :=
  match aop with
  | 0 => old + operand
  | 1 => old &&& operand
  | 2 => old ||| operand
  | 3 => old ^^^ operand
  | 4 => operand
  | 5 => if old = compare then operand else old
  | 6 => if BitVec.slt old operand then operand else old
  | 7 => if BitVec.slt operand old then operand else old
  | 8 => if BitVec.ult old operand then operand else old
  | 9 => if BitVec.ult operand old then operand else old
  | _ => old

/-- Lists of at most `n` words (Host Facet writes carry up to 256 bytes). -/
def wordChunks (n : Nat) : Nat → List W64 → List (List W64)
  | 0, _ => []
  | _ + 1, [] => []
  | k + 1, l => l.take n :: wordChunks n k (l.drop n)

/-! ### Selectors and the host map -/

/-- The lowest entry of a table of BASE, LIM, CTL registers whose VALID is 1 and whose range contains `u` (08 R310, R324). -/
def rangeHit (base lim ctl : Tab W32) (u : Nat) (n : Nat) : Option W32 :=
  ((List.range n).find? fun k => (Tab.look 0 k ctl).getLsbD 8 && decide ((Tab.look 0 k base).toNat ≤ u)
      && decide (u ≤ (Tab.look 0 k lim).toNat)).map fun k => Tab.look 0 k ctl

/-- The key selector of an IOVA of a function (08 R324). -/
def Dev.selOf (d : Dev) (f : Nat) (iova : Nat) : Nat :=
  if f = 0 then 0
  else
    let t := d.ten (f - 1)
    match (if iova < 2 ^ 53 then rangeHit t.krBase t.krLim t.krCtl (iova / 2 ^ 21) 8 else none) with
    | some c => c.toNat % 64
    | none => t.keydef.toNat % 64

/-- The Host Facet port of a host physical address, by the host map; `none` is the PCIe path (08 R310, R312). -/
def Dev.hmap (d : Dev) (pa : Nat) : Option Nat :=
  (rangeHit d.xlt.hmapBase d.xlt.hmapLim d.xlt.hmapCtl (pa / 2 ^ 30 % 2 ^ 32) 16).map fun c => c.toNat % 8

/-- The path number of an address: 0 to 7 a Host Facet port, 8 PCIe. -/
def Dev.pathOf (d : Dev) (pa : Nat) : Nat := (d.hmap pa).getD 8

/-- The access's tenant may use the port (08 R311). -/
def Dev.pathOpen (d : Dev) (f p : Nat) : Bool :=
  decide ((d.hport p).st = .active) && (decide (f = 0) || (d.hport p).bind.getLsbD (f - 1))

/-! ### The caches (08 R319 to R325) -/

/-- An entry covers an address of a function and PASID (08 R319). -/
def Xent.covers (e : Xent) (f : Nat) (pasid : Option Nat) (a : Nat) : Bool :=
  decide (e.owner = f) && decide (e.pasid = pasid) && decide (e.base.toNat ≤ a) && decide (a < e.base.toNat + 2 ^ e.log2)

/-- The entry moves to the front: least recently used is last (08 R322). -/
def touch (cap : Nat) (e : Xent) (l : List Xent) : List Xent := (e :: without e l).take cap

/-- Looks an address up in the engine's micro-TLB and the shared TLB (08 R319); a shared hit is copied to the micro-TLB. -/
def Dev.lookup (d : Dev) (engine f : Nat) (pasid : Option Nat) (a : Nat) : Option Xent × Dev :=
  let m := Tab.look [] engine d.xlt.micro
  match (if engine < 16 then m.find? fun e => e.covers f pasid a else none) with
  | some e => (some e, { d with xlt.micro := Tab.put [] engine (touch 64 e m) d.xlt.micro })
  | none =>
    match d.xlt.tlb.find? fun e => e.covers f pasid a with
    | some e => (some e, { d with xlt.tlb := touch 16384 e d.xlt.tlb,
                                  xlt.micro := if engine < 16 then Tab.put [] engine (touch 64 e m) d.xlt.micro else d.xlt.micro })
    | none => (none, d)

/-- The size a returned page is cached at (08 R320). -/
def heldSize (log2 : Nat) : Nat := if 30 ≤ log2 then 30 else if 21 ≤ log2 then 21 else if 16 ≤ log2 then 16 else 12

/-- The page of a size that contains an address. -/
def pageBase (log2 a : Nat) : Nat := a / 2 ^ log2 * 2 ^ log2

/-- The entry a Translation Completion gives for an address (08 R320, R324, R325). -/
def Dev.entryOf (d : Dev) (f : Nat) (pasid : Option Nat) (iova : Nat) (c : AtsCpl) : Xent :=
  let page := pageBase c.sizeLog2 iova
  let h := heldSize c.sizeLog2
  let sel := d.selOf f iova
  let mixed := decide (21 < h) && (List.range (2 ^ (h - 21))).any fun i =>
    decide (d.selOf f (pageBase h iova + i * 2 ^ 21) ≠ sel)
  let size := if mixed then 21 else h
  let base := pageBase size iova
  { owner := f, pasid, base := BitVec.ofNat 64 base, log2 := size, pa := c.pa + BitVec.ofNat 64 (base - page), r := c.r, w := c.w, sel }

/-- Permission an access needs (08 R318). -/
def Xent.permits (e : Xent) (a : Access) : Bool := if a.atom.isSome then e.r && e.w else if a.write then e.w else e.r

/-- Memory credits of a message's flits are returned once the packet buffer has accepted it (R133). -/
def Dev.memCredit (d : Dev) (p : Nat) (m : MemMsg) : Dev :=
  let n := min (d.hport p).memHeld (memFlits m.telem.isSome (8 * m.data.length))
  (d.setHport p fun h => { h with memHeld := h.memHeld - n }).returnCredit p 0 n

/-! ### Jobs -/

/-- Outstanding reads of a function: PCIe reads and Translation Requests (05 R166, 08 R316). -/
def Dev.readsOf (d : Dev) (f : Nat) : Nat :=
  (d.mbx.reads.filter fun r => decide (r.fn = f) && r.port.isNone).length + (d.xlt.ats.filter fun a => decide (a.fn = f)).length

/-- One request of a job has ended: its data are kept and, at the last, the job is finished and returned. -/
def Dev.endPiece (d : Dev) (job off : Nat) (st : Status) (data : List W64) : Dev × Option Job :=
  match d.mbx.jobs.find? fun j => decide (j.id = job) with
  | none => (d, none)
  | some j =>
    let j' := { j with left := j.left - 1, data := j.data ++ [(off, data)], status := if j.status = .ok then st else j.status,
                       some_ := j.some_ || decide (st = .ok) }
    if j'.left = 0 then ({ d with mbx.jobs := without j d.mbx.jobs }, some j')
    else ({ d with mbx.jobs := d.mbx.jobs.map fun x => if x.id = job then j' else x }, none)

/-- Inserts a piece in order of offset. -/
def insertPiece (x : Nat × List W64) : List (Nat × List W64) → List (Nat × List W64)
  | [] => [x]
  | y :: r => if x.1 ≤ y.1 then x :: y :: r else y :: insertPiece x r

/-- The data of a finished job in order of offset. -/
def Job.words (j : Job) : List W64 := ((j.data.foldr insertPiece []).map (·.2)).flatten

/-- `n` more requests serve the job. -/
def Dev.addPieces (d : Dev) (job n : Nat) : Dev :=
  { d with mbx.jobs := d.mbx.jobs.map fun j => if j.id = job then { j with left := j.left + n } else j }

/-- Sends a read or atomic on its path. -/
def Dev.sendRead (d : Dev) (r : HRead) : Dev :=
  let d := { d with mbx.reads := d.mbx.reads ++ [{ r with at_ := d.now }] }
  match r.port, r.atom with
  | some p, none => d.facet p 0 1 (.facetMem p 1 r.tag (fnTenant r.fn) 0 r.pa r.len [])
  | some p, some (aop, x, y) => d.facet p 0 1 (.facetMem p 4 r.tag (fnTenant r.fn) aop r.pa 8 [x, y])
  | none, none => d.emit (.pcieRead r.fn r.tag r.pa r.len)
  | none, some (aop, x, y) => d.emit (.pcieAtomic r.fn r.tag r.pa aop x y)

/-- Sends a read, or keeps it until the function has fewer than 256 outstanding (05 R166). -/
def Dev.queueRead (d : Dev) (r : HRead) : Dev :=
  let d := { d with mbx.nextTag := d.mbx.nextTag + 1 }
  let r := { r with tag := d.mbx.nextTag }
  if r.port.isNone && decide (256 ≤ d.readsOf r.fn) then { d with mbx.readWait := d.mbx.readWait ++ [r] } else d.sendRead r

/-- Sends the waiting reads that fit again, in order. -/
def Dev.retryReads (d : Dev) : Dev :=
  d.mbx.readWait.foldl (fun d r =>
    if d.readsOf r.fn < 256 then ({ d with mbx.readWait := without r d.mbx.readWait }).sendRead r else d) d

/-- The request an access becomes, but for its path and place. -/
def Access.read (a : Access) : HRead :=
  { fn := a.fn, port := none, tag := 0, job := a.job, off := a.off, len := a.len, pa := 0, engine := a.engine, pasid := a.pasid, iova := a.iova }

/-- Bytes of a write request on PCIe: the programmed Max Payload Size, at most the 512 bytes supported (05 R166). -/
def Fn.payload (g : Fn) : Nat := min 512 (128 * 2 ^ g.mps)

/-- The write requests of an access on PCIe (05 R166). -/
def Dev.sendWrite (d : Dev) (a : Access) (pa : W64) : Dev :=
  let size := (d.fn a.fn).payload
  (List.range ((a.len + size - 1) / size)).foldl (fun d i =>
    d.emit (.pcieWrite a.fn (pa + BitVec.ofNat 64 (i * size)) (min size (a.len - i * size)) ((a.data.drop (i * size / 8)).take (size / 8)))) d

/-- The requests of a read: up to 256 bytes each on a Host Facet port, the function's Max Read Request Size on PCIe (05 R166). -/
def Dev.sendReads (d : Dev) (a : Access) (pa : W64) (port : Option Nat) : Dev :=
  let size := match port with | some _ => 256 | none => min 4096 (128 * 2 ^ (d.fn a.fn).mrrs)
  let n := (a.len + size - 1) / size
  let r : Nat → HRead := fun i =>
    { a.read with port, off := a.off + i * size, len := min size (a.len - i * size), pa := pa + BitVec.ofNat 64 (i * size),
                  iova := a.iova + BitVec.ofNat 64 (i * size) }
  (List.range n).foldl (fun d i => d.queueRead (r i)) (d.addPieces a.job (n - 1))

/-- The word an access touches is held by the atomic unit (09 R354). -/
def Dev.rmwBusy (d : Dev) (pa len : Nat) : Bool :=
  d.xlt.rmw.any fun w => decide (w.toNat < pa + len) && decide (pa < w.toNat + 8)

/-- A translated access takes its path (08 R310 to R312, R326, 09 R353). `some st`: its requests have all ended. -/
def Dev.perform (d : Dev) (a : Access) (pa : W64) (sel : Nat) : Dev × Option Status :=
  if decide (sel ≠ 0) && (Tab.look none (64 * (a.fn - 1) + sel) d.sec.slots).isNone then (d, some .accessDenied)
  else if a.len = 0 then (d, some .ok)
  else if d.rmwBusy pa.toNat a.len then ({ d with xlt.rmwWait := d.xlt.rmwWait ++ [(a, pa, sel)] }, none)
  else
    match d.hmap pa.toNat with
    | some p =>
      if d.pathOpen a.fn p then
        match a.atom with
        | some x => (d.queueRead { a.read with port := some p, len := 8, pa, atom := some x }, none)
        | none =>
          if a.write then
            match a.msg with
            | some m => (d.facet p 0 1 m, some .ok)
            | none =>
              let ws := wordChunks 32 (a.data.length + 1) a.data
              (ws.zipIdx.foldl (fun d (w, i) => d.facet p 0 (memFlits false (8 * w.length))
                (.facetMem p 3 0 (fnTenant a.fn) 0 (pa + BitVec.ofNat 64 (256 * i)) (8 * w.length) w)) d, some .ok)
          else (d.sendReads a pa (some p), none)
      else (d, some .pathFailure)
    | none =>
      if !(d.fn a.fn).bme then (d, some .masterDisabled)
      else
        match a.atom with
        | some (aop, x, y) =>
          let native := [0, 4, 5].contains aop && (d.fn a.fn).atomicEn
          if native then (d.queueRead { a.read with len := 8, pa, atom := some (aop, x, y) }, none)
          else (({ d with xlt.rmw := pa :: d.xlt.rmw }).queueRead { a.read with len := 8, pa, rmw := some (aop, x, y) }, none)
        | none =>
          if a.write then ((match a.msg with | some m => d.emit m | none => d.sendWrite a pa), some .ok)
          else (d.sendReads a pa none, none)

/-! ### Translation requests and page faults (08 R315 to R342) -/

/-- Sends a Translation Request, or keeps it until the function has fewer than 64 outstanding (08 R316); demand goes first. -/
def Dev.askAts (d : Dev) (q : AtsReq) : Dev :=
  let mine := d.xlt.ats.filter fun a => decide (a.fn = q.fn)
  let pre := (mine.filter fun a => a.acc.isNone).length
  if mine.length < 64 && decide (d.readsOf q.fn < 256) && (q.acc.isSome || decide (pre < 16)) then
    let d := { d with mbx.nextTag := d.mbx.nextTag + 1 }
    let q := { q with tag := d.mbx.nextTag, at_ := d.now }
    ({ d with xlt.ats := d.xlt.ats ++ [q] }).emit (.atsRequest q.fn q.tag q.pasid (BitVec.ofNat 64 (pageBase 12 q.iova.toNat)))
  else { d with xlt.atsWait := if q.acc.isSome then (d.xlt.atsWait.filter fun a => a.acc.isSome) ++ [q]
                    ++ d.xlt.atsWait.filter fun a => a.acc.isNone else d.xlt.atsWait ++ [q] }

/-- Sends waiting Translation Requests that fit again. -/
def Dev.retryAts (d : Dev) : Dev :=
  let w := d.xlt.atsWait
  w.foldl Dev.askAts { d with xlt.atsWait := [] }

/-- Page Requests of a function that have been sent (08 R339). -/
def Dev.pagesOf (d : Dev) (f : Nat) : Nat := (d.xlt.pages.filter fun p => decide (p.fn = f) && p.sent).length

/-- Fault slots of an engine in use (08 R340). -/
def Dev.slotsOf (d : Dev) (e : Nat) : Nat := (d.xlt.pages.filter fun p => decide (p.acc.engine = e) && p.sent).length

/-- The device with its page requests replaced. -/
def Dev.setPages (d : Dev) (ps : List PageReq) : Dev := { d with xlt.pages := ps }

/-- Sends the page requests that fit (08 R339, R340). -/
def Dev.sendPages (d : Dev) : Dev :=
  d.xlt.pages.foldl (fun d p =>
    if !p.sent && decide (d.pagesOf p.fn < min 512 (d.fn p.fn).pageAlloc) && decide (d.slotsOf p.acc.engine < 16) then
      (d.setPages (d.xlt.pages.map fun x => if x = p then ({ p with sent := true, at_ := d.now } : PageReq) else x)).emit
        (.pageRequest p.fn p.prgi p.acc.pasid (BitVec.ofNat 64 (pageBase 12 p.acc.iova.toNat)) p.acc.write)
    else d) d

/-- The unit field of a tenant fault: the queue, or 0xFF (20, scope table). -/
def accUnit (a : Access) : Nat := match a.op with | some (gq, _) => gq % 64 | none => 0xFF

/-- The domain of a function's faults. -/
def fnDom (f : Nat) : Option Nat := if f = 0 then none else some (f - 1)

/-- PRI serves the function's faults: enabled and not stopped (08 R341). -/
def Dev.priOn (d : Dev) (f : Nat) : Bool := (d.fn f).priEn && !d.xlt.stopped.getLsbD f

/-- A translation that is not present (08 R338): a page request where the access may fault, else ACCESS_DENIED. `ring` marks a
ring or completion-area access, whose fault is XLT_RING_FAULT (08 R343); three page requests are the most of one operation (R341). -/
def Dev.notPresent (d : Dev) (a : Access) (ring : Bool) : Dev × Option Status :=
  let faults := ((d.tq.ops.find? fun o => decide (a.op = some (o.gq, o.idx))).map fun o => Tab.look 0 (a.iova.toNat / 4096) o.faults).getD 0
  if a.mayFault && d.priOn a.fn && decide (3 ≤ faults) then
    ({ d with xlt.denied := Tab.upd 0 a.fn (satAdd 0x7FFF) d.xlt.denied }, some .accessDenied)
  else if a.mayFault && d.priOn a.fn then
    let d := { d with xlt.nextPrgi := (d.xlt.nextPrgi + 1) % 512 }
    ((d.setPages (d.xlt.pages ++ [{ fn := a.fn, prgi := d.xlt.nextPrgi, acc := a, at_ := d.now, sent := false }])).sendPages, none)
  else (d.post (if ring then Src.xltRingFault else Src.xltPinFault) (accUnit a) (fnDom a.fn), some .accessDenied)

/-- The access belongs to a job that serves a ring (08 R343). -/
def Dev.isRing (d : Dev) (job : Nat) : Bool :=
  d.mbx.jobs.any fun j => decide (j.id = job) && match j.for_ with | .record .. => true | .ring _ => true | .fetch .. => true | _ => false

/-- Issues an access: a cached translation is used at once, else a Translation Request goes out (08 R315). -/
def Dev.issue (d : Dev) (a : Access) : Dev × Option Status :=
  match d.lookup a.engine a.fn a.pasid a.iova.toNat with
  | (some e, d) =>
    if e.permits a then d.perform a (e.pa + (a.iova - e.base)) e.sel else d.notPresent a (d.isRing a.job)
  | (none, d) =>
    if !(d.fn a.fn).bme then (d, some .masterDisabled)
    else (d.askAts { fn := a.fn, tag := 0, pasid := a.pasid, iova := a.iova, acc := some a }, none)

/-- The 4 KiB pieces of a range: offset and length. -/
def pieces (iova len : Nat) : List (Nat × Nat) :=
  let first := min len (4096 - iova % 4096)
  (0, first) :: (List.range ((len - first + 4095) / 4096)).map fun i => (first + 4096 * i, min 4096 (len - first - 4096 * i))

/-- A range of host memory to be read or written for `for_`. -/
structure JobReq where
  for_  : RdFor
  fn    : Nat
  pasid : Option Nat := none
  iova  : W64
  len   : Nat
  write : Bool := false
  atom  : Option (Nat × W64 × W64) := none
  data  : List W64 := []
  msg   : Option Out := none
  op    : Option (Nat × Nat) := none
  mayFault : Bool := false
  engine : Nat := 0
  /-- Translates the range without reading or writing it. -/
  probe : Bool := false

/-- Starts a job; the finished job is answered when all of it ended at once (a posted write, or a failure). -/
def Dev.startJob (d : Dev) (q : JobReq) : Dev × Option Job :=
  let id := d.mbx.nextJob
  let ps := pieces q.iova.toNat q.len
  let d := { d with mbx.nextJob := id + 1, mbx.jobs := d.mbx.jobs ++ [{ id, for_ := q.for_, left := ps.length }] }
  ps.foldl (fun (d, fin) (off, len) =>
    let a : Access := { fn := q.fn, pasid := q.pasid, iova := q.iova + BitVec.ofNat 64 off, len := if q.probe then 0 else len, write := q.write, atom := q.atom,
                        data := (q.data.drop (off / 8)).take ((len + 7) / 8), job := id, off, msg := q.msg, op := q.op,
                        mayFault := q.mayFault, engine := q.engine }
    match d.issue a with
    | (d, some st) => let (d, j) := d.endPiece id off st []; (d, j.or fin)
    | (d, none) => (d, fin)) (d, none)

/-- The operation an access belongs to has been decided: it has no effect any more (07 R271). -/
def Dev.stray (d : Dev) (a : Access) : Bool :=
  match a.op with
  | some (gq, idx) => !d.tq.ops.any fun o => decide (o.gq = gq) && decide (o.idx = idx)
  | none => false

/-- The operation a job belongs to. -/
def RdFor.op : RdFor → Option (Nat × Nat)
  | .seg gq idx .. => some (gq, idx)
  | .put gq idx .. => some (gq, idx)
  | _ => none

/-- The access that a read not yet sent stands for. -/
def Dev.accessOf (d : Dev) (r : HRead) : Access :=
  let op := (d.mbx.jobs.find? fun j => decide (j.id = r.job)).bind fun j => j.for_.op
  { fn := r.fn, pasid := r.pasid, iova := r.iova, len := r.len, write := false, atom := r.rmw.or r.atom, job := r.job, off := r.off, engine := r.engine,
    op, mayFault := match op.bind fun x => d.tq.ops.find? fun o => decide (x = (o.gq, o.idx)) with | some o => decide (o.desc.op ≤ 0x02) | none => false }

/-- Accesses that have been translated and not sent are translated anew when what covers them has been dropped, so that no new request uses it
(08 R333, R337): those whose function, PASID, IOVA and length a test names. -/
def Dev.retranslate (d : Dev) (hit : Nat → Option Nat → Nat → Nat → Bool) : Dev × List Job :=
  let r : HRead → Bool := fun x => hit x.fn x.pasid x.iova.toNat (max 1 x.len)
  let w : Access × W64 × Nat → Bool := fun x => hit x.1.fn x.1.pasid x.1.iova.toNat (max 1 x.1.len)
  let reads := d.mbx.readWait.filter r
  let again := reads.map d.accessOf ++ (d.xlt.rmwWait.filter w).map (·.1)
  let d := { d with
    mbx.readWait := d.mbx.readWait.filter fun x => !r x
    xlt.rmwWait := d.xlt.rmwWait.filter fun x => !w x
    xlt.rmw := d.xlt.rmw.filter fun pa => !reads.any fun x => x.rmw.isSome && decide (x.pa = pa) }
  again.foldl (fun (d, js) a =>
    match d.issue a with
    | (d, some st) => let (d, j) := d.endPiece a.job a.off st []; (d, js ++ j.toList)
    | (d, none) => (d, js)) (d, [])

/-- Accesses that waited for the atomic unit go on (09 R354); those of an operation that has been decided end. -/
def Dev.releaseRmw (d : Dev) (pa : W64) : Dev × List Job :=
  let w := d.xlt.rmwWait
  let d := { d with xlt.rmw := without pa d.xlt.rmw, xlt.rmwWait := [] }
  w.foldl (fun (d, js) (a, p, sel) =>
    match if d.stray a then (d, some .aborted) else d.perform a p sel with
    | (d, some st) => let (d, j) := d.endPiece a.job a.off st []; (d, js ++ j.toList)
    | (d, none) => (d, js)) (d, [])

/-- A read or atomic of the device has ended with data or a failure (05 R204, 09 R353): the jobs that are finished by it. -/
def Dev.readEnded (d : Dev) (r : HRead) (st : Status) (data : List W64) : Dev × List Job :=
  let d := ({ d with mbx.reads := without r d.mbx.reads })
  let (d, js) :=
    match r.rmw, st, data with
    | some (aop, x, y), .ok, old :: _ =>
      (d.emit (.pcieWrite r.fn r.pa 8 [atomNew aop old x y])).releaseRmw r.pa
    | some _, _, _ => d.releaseRmw r.pa
    | none, _, _ => (d, [])
  let (d, j) := d.endPiece r.job r.off st data
  (d.retryReads.retryAts, js ++ j.toList)

/-- Drops every cached translation and pre-translation that a test names (08 R327, R332, R337). -/
def Dev.dropXlt (d : Dev) (hit : Xent → Bool) : Dev :=
  let gone := d.xlt.pre.filter fun p => hit p.2.2
  { d with
    xlt.tlb := d.xlt.tlb.filter fun e => !hit e
    xlt.micro := d.xlt.micro.filterMap fun (k, l) =>
      let l' := l.filter fun e => !hit e
      if l' = [] then none else some (k, l')
    xlt.pre := d.xlt.pre.filter fun p => !hit p.2.2
    xlt.preDisc := min 0x7FFF (d.xlt.preDisc + gone.length) }

/-- Drops the pre-translations of a queue, or of one of its descriptors (08 R331). -/
def Dev.dropPre (d : Dev) (gq : Nat) (idx : Option Nat) : Dev :=
  let hit : Nat × Nat × Xent → Bool := fun p => decide (p.1 = gq) && (match idx with | some i => decide (p.2.1 = i) | none => true)
  let gone := d.xlt.pre.filter hit
  { d with xlt.pre := d.xlt.pre.filter fun p => !hit p, xlt.preDisc := min 0x7FFF (d.xlt.preDisc + gone.length) }

end Sys2Proof.Machine
end

