-- ==== Sys2Proof/Machine/Packet.lean ====
section
/-! DEFINITION. The bytes of a fabric packet (11 R449 to R455, R493) and its payload tweak (19 R809). -/

namespace Sys2Proof.Machine

/-! ### Parts of a packet -/

/-- The telemetry extension (11 R451; 04; 21 R853). -/
def telemBytes (t : Option Telem) : List Byte :=
  match t with
  | some x => leBytes 2 x.layer.toNat ++ leBytes 2 x.operator.toNat ++ leBytes 4 x.range.toNat
  | none => []

/-- PTYPE codes (R453); an unknown type has none. -/
def ptypeCode : PType → Nat
  | .rd => 0x01 | .wr => 0x02 | .wrp => 0x03 | .atom => 0x04 | .atomp => 0x05 | .rsp => 0x08 | .rspd => 0x09 | .coll => 0x10
  | .sem => 0x12 | .subctl => 0x20 | .steer => 0x21 | .cnp => 0x22 | .hello => 0x30 | .tsync => 0x31 | .unknown => 0xFF

/-- The type a PTYPE names. -/
def ptypeOf (n : Nat) : PType :=
  ([.rd, .wr, .wrp, .atom, .atomp, .rsp, .rspd, .coll, .sem, .subctl, .steer, .cnp, .hello, .tsync].find? fun t => decide (ptypeCode t = n)).getD .unknown

/-- A set of members as a bitmap for `total` members (10 R421). -/
def memberBits (total : Nat) (ms : List Nat) : List Byte :=
  (List.range ((total + 7) / 8)).map fun i => BitVec.ofNat 8 (((List.range 8).map fun b => if ms.contains (8 * i + b) then 2 ^ b else 0).sum)

/-- The payload of a collective message (R454): an admitted set, what a FINAL says, or elements of `w` bytes. -/
def collPayload (total w cmsg : Nat) (m : CollMsg) (f : Option FinalInfo) : List Byte :=
  if let some (_, b) := m.cipher then b
  else if m.chunk = 0xFFFFFFFE then memberBits total m.admitted
  else if cmsg = 5 && m.chunk = 0xFFFFFFFF then
    let x := f.getD { status := 0, present := [], missing := 0, late := 0 }
    leBytes 2 x.status ++ leBytes 2 0 ++ leBytes 2 x.present.length ++ leBytes 2 x.missing ++ leBytes 4 x.late ++ memberBits total x.present ++ memberBits total x.carried
  else m.elems.flatMap fun e => leBytes w e.toNat

/-- Bytes a collective message carries (R454). -/
def collLen (total fmt cmsg : Nat) (m : CollMsg) : Nat :=
  if let some (_, b) := m.cipher then b.length
  else if m.chunk = 0xFFFFFFFE then (total + 7) / 8
  else if cmsg = 5 && m.chunk = 0xFFFFFFFF then 12 + 2 * ((total + 7) / 8)
  else m.elems.length * (if cmsg = 2 then 4 else fmtBytes fmt)

/-- The members a bitmap names. -/
def readMembers (b : List Byte) : List Nat :=
  (List.range b.length).flatMap fun i => ((List.range 8).filter fun j => ((b.getD i 0).getLsbD j)).map fun j => 8 * i + j

/-- A collective message with the fields its payload `b` spells, and what a FINAL says (R454); elements have `w` bytes. -/
def readColl (total w cmsg : Nat) (m : CollMsg) (f : FinalInfo) (b : List Byte) : CollMsg × FinalInfo :=
  let at_ : Nat → Nat → Nat := fun i n => leNat ((b.drop i).take n)
  let half := (total + 7) / 8
  let m := { m with cipher := none }
  if m.chunk = 0xFFFFFFFE then ({ m with admitted := readMembers b }, f)
  else if cmsg = 5 && m.chunk = 0xFFFFFFFF then
    (m, { f with status := at_ 0 2, present := readMembers ((b.drop 12).take half), missing := at_ 6 2, late := at_ 8 4, carried := readMembers ((b.drop (12 + half)).take half) })
  else ({ m with elems := (List.range (b.length / w)).map fun i => BitVec.ofNat 32 (at_ (w * i) w) }, f)

/-- The 32 bytes of a HELLO (R449). -/
def helloBytes (h : Hello) : List Byte :=
  leBytes 8 h.ident.toNat ++ leBytes 2 (h.node % 4096 + if h.valid then 0x8000 else 0) ++ leBytes 1 h.port
    ++ leBytes 1 (match h.trunk with | some k => 8 + k | none => 0) ++ leBytes 2 (h.gm % 4096) ++ leBytes 1 h.gmPri ++ leBytes 1 h.gmHops ++ leBytes 16 0

/-- A HELLO as read from its 32 bytes. -/
def readHello (b : List Byte) : Hello :=
  let at_ : Nat → Nat → Nat := fun i n => leNat ((b.drop i).take n)
  { ident := BitVec.ofNat 64 (at_ 0 8), node := at_ 8 2 % 4096, valid := decide (at_ 8 2 / 0x8000 = 1), port := at_ 10 1
    trunk := if at_ 11 1 / 8 % 2 = 1 then some (at_ 11 1 % 8) else none, gm := at_ 12 2 % 4096, gmPri := at_ 14 1, gmHops := at_ 15 1 }

/-- ADDR of a packet (R453). -/
def packetAddr (k : Pkt) : Body → Nat
  | .coll c m _ => m.group + 2 ^ 8 * c + 2 ^ 16 * m.member + 2 ^ 32 * m.chunk
  | _ => k.addr.toNat

/-- AUX of a packet (R453). -/
def packetAux (k : Pkt) : Body → Nat
  | .coll _ m _ => m.inst
  | .sem r => r.op + 2 ^ 8 * r.aop + 2 ^ 16 * r.cond
  | .sub kind reason stream _ => kind + 2 ^ 8 * reason + 2 ^ 16 * stream
  | .steer t side => t + (if side then 2 ^ 8 else 0)
  | .cnp gq => gq
  | _ => k.aux

/-- The payload of a packet (R453); a collective's group has `total` members and elements of `w` bytes. -/
def packetPayload (total w : Nat) (k : Pkt) : Body → List Byte
  | .coll c m f => collPayload total w c m f
  | .sem r => leBytes 8 r.operand.toNat ++ leBytes 8 r.compare.toNat
  | .sub kind _ _ val => if [1, 2, 4, 5].contains kind then leBytes 8 val.toNat else []
  | .hello h => helloBytes h
  | .tsync t none => leBytes 8 t
  | .tsync t (some (t2, t3)) => leBytes 8 t ++ leBytes 8 t2 ++ leBytes 8 t3
  | _ => (wordBytes k.data).take k.len

/-- The 32 bytes of a packet's header (R451). -/
def packetHeader (t : PType) (k : Pkt) (b : Body) : List Byte :=
  leBytes 1 (ptypeCode t)
    ++ leBytes 1 (k.vc % 8 + (if k.alias_ then 8 else 0) + (if k.ce then 0x10 else 0) + (if k.echo then 0x20 else 0) + (if k.relaxed then 0x40 else 0)
        + (if k.telem.isSome then 0x80 else 0))
    ++ leBytes 2 (k.dst % 4096 + 4096 * k.dstTen) ++ leBytes 2 (k.src % 4096 + 4096 * k.srcTen) ++ leBytes 1 k.hops
    ++ leBytes 1 (k.ksel % 64 + if k.redir then 0x40 else 0) ++ leBytes 2 (k.qglobal % 1024) ++ leBytes 2 k.len ++ leBytes 4 k.serial.toNat
    ++ leBytes 8 (packetAddr k b) ++ leBytes 8 (packetAux k b)

/-- A packet on the wire (R451): header, extensions, payload, CRC-32C of all before it. -/
def packetBytes (total w : Nat) (t : PType) (k : Pkt) (b : Body) : List Byte :=
  let ext := match b with | .coll _ m _ => leBytes 4 m.ghash.toNat ++ leBytes 4 m.shape.toNat | _ => []
  let all := packetHeader t k b ++ ext ++ telemBytes k.telem ++ packetPayload total w k b
  all ++ leBytes 4 (crc32c all).toNat

/-! ### Reading a packet -/

/-- Bits of ADDR and AUX that a type leaves defined (R453); the others are zero. -/
def packetMask (t : PType) (sub : Nat) : Nat × Nat :=
  match t with
  | .rd => (2 ^ 48 - 1, 2 ^ 32 - 1)
  | .wr | .wrp => (2 ^ 48 - 1, 0)
  | .atom | .atomp => (2 ^ 48 - 1, 0xFF)
  | .rsp | .rspd => (0, 0xFFFF)
  | .coll => (2 ^ 64 - 1, 2 ^ 64 - 1)
  | .sem => (2 ^ 18 - 1, 0xFFFFFF)
  | .subctl => (2 ^ 64 - 1, if sub = 3 || sub = 7 then 0xFFFFFF else 0xFF00FF)
  | .steer => (0, 0xFFFF)
  | .cnp => (0, 0x3FF)
  | _ => (0, 0)

/-- R455: an unknown PTYPE, or a nonzero field that is defined as zero. -/
def packetBad (b : List Byte) : Bool :=
  let at_ : Nat → Nat → Nat := fun i n => leNat ((b.drop i).take n)
  let t := ptypeOf (at_ 0 1)
  let (ma, mx) := packetMask t (at_ 24 1)
  decide (t = .unknown) || decide (at_ 7 1 / 0x80 ≠ 0) || decide (at_ 8 2 / 0x400 ≠ 0) || decide (at_ 16 8 &&& ma ≠ at_ 16 8) || decide (at_ 24 8 &&& mx ≠ at_ 24 8)
    || (decide (t = .hello) && decide (leNat ((b.drop 48).take 16) ≠ 0))

/-- The type and header of a packet as read from its bytes, with what R455 finds of it. -/
def readPacket (b : List Byte) : PType × Pkt :=
  let at_ : Nat → Nat → Nat := fun i n => leNat ((b.drop i).take n)
  let t := ptypeOf (at_ 0 1)
  let f := at_ 1 1
  let tel := decide (f / 0x80 = 1)
  let start := 32 + (if t = .coll then 8 else 0)
  let data := (b.drop (start + if tel then 8 else 0)).take (at_ 10 2)
  (t, { alias_ := decide (f / 8 % 2 = 1), ce := decide (f / 0x10 % 2 = 1), echo := decide (f / 0x20 % 2 = 1), relaxed := decide (f / 0x40 % 2 = 1), vc := f % 8
        dst := at_ 2 2 % 4096, dstTen := at_ 2 2 / 4096, src := at_ 4 2 % 4096, srcTen := at_ 4 2 / 4096, hops := at_ 6 1, ksel := at_ 7 1 % 64
        redir := decide (at_ 7 1 / 0x40 % 2 = 1), qglobal := at_ 8 2 % 1024, len := at_ 10 2, serial := BitVec.ofNat 32 (at_ 12 4)
        addr := BitVec.ofNat 64 (at_ 16 8), aux := at_ 24 8, data := bytesWords ((data.length + 7) / 8) data
        telem := if tel then some { layer := BitVec.ofNat 16 (at_ start 2), operator := BitVec.ofNat 16 (at_ (start + 2) 2), range := BitVec.ofNat 32 (at_ (start + 4) 4) } else none
        bad := packetBad b })

/-- The trailer of a packet matches (R451, R478). -/
def trailerOk (b : List Byte) : Bool := decide (leNat (b.drop (b.length - 4)) = (crc32c (b.take (b.length - 4))).toNat)

/-! ### Payload protection (19 R809) -/

/-- The tweak of a packet's payload: header bytes 4–5, 8–9 and 12–23, least significant byte first. -/
def payloadTweak (header : List Byte) : Nat := leNat ((header.drop 4).take 2 ++ (header.drop 8).take 2 ++ (header.drop 12).take 12)

end Sys2Proof.Machine
end

