-- ==== Sys2Proof/Machine/OpsFabric.lean ====
section
/-! DEFINITION. Sending on the fabric (11): virtual channels, routes, trunks, credits, the link sequence a packet takes, transactions and their serials (07 R285 to R287). -/

namespace Sys2Proof.Machine

/-! ### Classes (11, virtual channel table) -/

/-- Message classes. -/
inductive Cls where
  | control | request | response
  deriving DecidableEq, Repr, Inhabited

/-- The class of a packet; collective messages go by CMSG (11 R454). -/
def clsOf (t : PType) (b : Body) : Cls :=
  match t, b with
  | .coll, .coll k _ _ => if k = 3 || k = 5 then .response else .request
  | .rsp, _ | .rspd, _ => .response
  | .subctl, _ | .steer, _ | .cnp, _ | .hello, _ | .tsync, _ => .control
  | _, _ => .request

/-- The VC of a class, adaptive or escape. -/
def Cls.vc : Cls → Bool → Nat
  | .control, _ => 0
  | .request, esc => if esc then 2 else 1
  | .response, esc => if esc then 4 else 3

/-- The class a virtual channel serves (11, virtual channel table). -/
def vcClass (vc : Nat) : Cls := if vc = 0 then .control else if vc < 3 then .request else .response

/-- The class of a packet in the switch: a collective packet in transit shows it by its VC. -/
def pktCls (t : PType) (k : Pkt) (b : Body) : Cls :=
  match t, b with
  | .coll, .coll .. => clsOf t b
  | .coll, _ => vcClass k.vc
  | _, _ => clsOf t b

/-- An escape VC, which a packet on it never leaves (11 R470). -/
def escapeVc (vc : Nat) : Bool := decide (vc = 2) || decide (vc = 4)

/-- A non-posted request (11 R457): it is answered. -/
def nonPosted : PType → Bool
  | .rd | .wr | .atom | .sem => true
  | _ => false

/-- Bytes of a packet on the wire (11 R451). -/
def pktBytes (t : PType) (k : Pkt) : Nat := 36 + k.len + (if t = .coll then 8 else 0) + (if k.telem.isSome then 8 else 0)

/-- Credits a packet consumes (12 R532). -/
def creditUnits (bytes : Nat) : Nat := (bytes + 255) / 256

/-- Flits a packet fills (12 R503). -/
def linkFlits (bytes : Nat) : Nat := (bytes + 235) / 236

/-! ### Identity (00 R3, R4) -/

/-- The alias ID. -/
def Dev.alias (d : Dev) : Option Nat := d.fab.node.map fun n => n / 2 * 2

/-- The packet is for this device (11 R461). -/
def Dev.isMine (d : Dev) (k : Pkt) : Bool :=
  decide (d.fab.node = some k.dst) || (k.alias_ && decide (d.alias = some (k.dst / 2 * 2)))

/-! ### Ports, trunks and routes -/

/-- The port carries traffic: ACTIVE, with a neighbour, not held (11 R448, R500). -/
def Dev.portUp (d : Dev) (p : Nat) : Bool :=
  decide ((d.lport p).st = .active) && (Tab.look {} p d.fab.nbr).valid && !(Tab.look {} p d.fab.nbr).dup

/-- Members of trunk `k`. -/
def Dev.members (d : Dev) (k : Nat) : List Nat := (List.range 64).filter fun p => (Tab.look 0 k d.fab.trunks).getLsbD p

/-- The trunk a port belongs to. -/
def Dev.trunkOf (d : Dev) (p : Nat) : Option Nat := (List.range 8).find? fun k => (Tab.look 0 k d.fab.trunks).getLsbD p

/-- The ports a route code stands for (11 R459, R461). -/
def Dev.codePorts (d : Dev) (c : Nat) : List Nat :=
  if c < 64 then (match d.trunkOf c with | some k => d.members k | none => [c])
  else if c < 0x48 then d.members (c - 0x40) else []

/-- Candidate and escape codes for a destination (11 R459, R462). -/
def Dev.routeOf (d : Dev) (dst : Nat) : List Nat × List Nat :=
  let e := (Tab.look 0 dst d.fab.routes).toNat
  if e / 2 ^ 28 % 2 = 1 then ([e % 128, e / 2 ^ 7 % 128, e / 2 ^ 14 % 128], [e / 2 ^ 21 % 128])
  else
    let ns := (List.range 64).filter fun p => d.portUp p && decide ((Tab.look {} p d.fab.nbr).node = dst)
    (ns, ns)

/-- Credits left on a VC of a port (12 R532). -/
def LPort.credits (l : LPort) (vc : Nat) : Nat := (Tab.look 0 vc l.ccum + 4096 - Tab.look 0 vc l.cons % 4096) % 4096

/-- Room on a port for a whole packet: credits at the next hop and retry buffer (11 R473, 12 R524). -/
def LPort.room (l : LPort) (vc bytes : Nat) : Bool :=
  decide (creditUnits bytes ≤ l.credits vc) && decide (l.unacked.length + linkFlits bytes ≤ 1024)

/-- Bytes queued at an egress for the class of a VC (11 R469, R485). -/
def LPort.queuedFor (l : LPort) (vc : Nat) : Nat :=
  (([0, 1, 2, 3, 4].filter fun v => decide (vcClass v = vcClass vc)).map fun v => Tab.look 0 v l.queued).sum

/-- Of ports given as (code, port), the one with the fewest bytes queued for the class of a VC; ties go to the lowest code (11 R469). A trunk
counts by its best member (log 160). -/
def Dev.least (d : Dev) (vc : Nat) : List (Nat × Nat) → Option (Nat × Nat)
  | [] => none
  | x :: r =>
    match d.least vc r with
    | none => some x
    | some y =>
      let qx := (d.lport x.2).queuedFor vc
      let qy := (d.lport y.2).queuedFor vc
      if qx < qy || (qx = qy && decide (x.1 ≤ y.1)) then some x else some y

/-- The port that takes a packet now among the ports of some codes. -/
def Dev.pickPort (d : Dev) (codes : List Nat) (vc bytes : Nat) : Option Nat :=
  (d.least vc (codes.flatMap fun c => ((d.codePorts c).filter fun p => d.portUp p && (d.lport p).room vc bytes).map fun p => (c, p))).map (·.2)

/-- Some port of some code is up. -/
def Dev.anyUp (d : Dev) (codes : List Nat) : Bool := codes.any fun c => (d.codePorts c).any fun p => d.portUp p

/-! ### Sending -/

/-- The flits of a packet in the retry buffer (12 R524). -/
def packetFlits (now seq vc n : Nat) (x : PType × Pkt × Body) : List LTx :=
  (List.range n).map fun i =>
    { seq := (seq + i) % 4096, vc, first := if i = 0 then some x else none, whole := if i + 1 = n then some x else none, last := decide (i + 1 = n), sentAt := now }

/-- A queue and destination pair as one number (11 R487). -/
def pairKey (gq dst : Nat) : Nat := 4096 * gq + dst

/-- Bytes a pair sent over the last 10 µs (11 R487). -/
def Dev.sentLast (d : Dev) (gq dst : Nat) : Nat :=
  ((d.fab.sent.filter fun x => decide (x.2.1 = pairKey gq dst) && decide (d.now < x.1 + 10000)).map (·.2.2)).sum

/-- The packet passes through this device. -/
def Dev.inTransit (d : Dev) (k : Pkt) : Bool := decide (d.fab.node ≠ some k.src)

/-- A waiting packet's class. -/
def WPkt.cls (x : WPkt) : Cls := pktCls x.t x.pkt x.body

/-- The VC a waiting packet waits for. -/
def WPkt.vcNow (x : WPkt) : Nat := x.cls.vc (x.escape || decide (x.cls = .control))

/-- The units the transit account holds (11 R471): packets in cut-through, and the transit and control packets that wait. -/
def Dev.countTransit (d : Dev) : Dev :=
  { d with fab.transit := (d.fab.undo.map (·.units)).sum
      + ((d.fab.wait.filter fun x => d.inTransit x.pkt || decide (x.cls = .control)).map fun x => creditUnits (pktBytes x.t x.pkt)).sum }

/-- The undo records change. -/
def Dev.putUndo (d : Dev) (us : List Undo) : Dev := ({ d with fab.undo := us }).countTransit

/-- The waiting packets change. -/
def Dev.putWait (d : Dev) (ws : List WPkt) : Dev := ({ d with fab.wait := ws }).countTransit

/-- A packet leaves on a port and VC (11 R473, R485, 12 R532); a packet in transit leaves an undo record (11 R481). -/
def Dev.transmit (d : Dev) (p vc : Nat) (t : PType) (k : Pkt) (b : Body) : Dev :=
  let bytes := pktBytes t k
  let l := d.lport p
  let mark := max 1 (d.fab.cfg.toNat / 2 ^ 7 % 512)
  let start := ((d.lport k.port).parts.find? fun x => decide (x.1 = k.vc)).map (·.2)
  let inVc := k.vc
  let k := { k with vc, ce := k.ce || (decide (vc ≠ 0) && decide (mark * 1024 < l.queuedFor vc)) }
  let d := d.setLport p fun l =>
    { l with
      cons := Tab.upd 0 vc (fun c => (c + creditUnits bytes) % 4096) l.cons
      queued := Tab.upd 0 vc (· + bytes) l.queued
      txNext := (l.txNext + linkFlits bytes) % 4096
      unacked := l.unacked ++ packetFlits d.now l.txNext vc (linkFlits bytes) (t, k, b) }
  let d := if d.inTransit k then
      d.putUndo (d.fab.undo ++ [{ inPort := k.port, inVc, inSeq := start, outPort := p, outSeq := l.txNext, vc, units := creditUnits bytes, pkt := (t, k), body := b }])
    else { d with fab.sent := (d.fab.sent.filter fun x => decide (d.now < x.1 + 10000)) ++ [(d.now, pairKey k.qglobal k.dst, bytes)] }
  d.emit (.packet p t k b)

/-- Bytes an egress sends in `ns` nanoseconds: 236 payload bytes in a slot of 4.25 ns, or 8.5 ns at width 8, less the skip slots (12 R513, R515). -/
def LPort.capacity (l : LPort) (ns : Nat) : Nat := ns * 1000 * 236 * 2048 / (2049 * (if l.txw8 then 8500 else 4250))

/-- Takes `n` bytes from the queues of VCs, each in turn giving up to an equal share (11 R477). -/
def drainVcs : Nat → List Nat → Tab Nat → Tab Nat
  | _, [], q => q
  | n, v :: r, q =>
    let x := min (Tab.look 0 v q) (n / (r.length + 1))
    drainVcs (n - x) r (Tab.put 0 v (Tab.look 0 v q - x) q)

/-- An egress sends for `ns`: VC0 first, then VC1 to VC4 in equal parts, what one leaves going to the others (11 R477). -/
def LPort.drain (l : LPort) (ns : Nat) : LPort :=
  if l.queued.isEmpty then l
  else
    let n := l.capacity ns
    let q0 := Tab.look 0 0 l.queued
    let total := fun (q : Tab Nat) => ([0, 1, 2, 3, 4].map fun v => Tab.look 0 v q).sum
    let q := drainVcs (n - q0) [1, 2, 3, 4] (Tab.put 0 0 (q0 - n) l.queued)
    { l with queued := drainVcs (n - (total l.queued - total q)) [1, 2, 3, 4] q }

/-- A link-management item leaves on a port in an LMGT flit of its own, kept for replay; it waits while the retry buffer is full
(12 R524, R533). -/
def Dev.linkItem (d : Dev) (p : Nat) (o : Out) : Dev :=
  let l := d.lport p
  if decide (l.unacked.length < 1024) && l.lmq.isEmpty then
    (d.setLport p fun l => { l with
      txNext := (l.txNext + 1) % 4096
      unacked := l.unacked ++ [{ seq := l.txNext, vc := 0, last := true, item := some o, sentAt := d.now }] }).emit o
  else d.setLport p fun l => { l with lmq := l.lmq ++ [o] }

/-- What became of a packet handed to the switch. -/
inductive Fwd where
  | sent | waits | noRoute
  deriving DecidableEq, Repr, Inhabited

/-- One attempt to forward a packet to its destination (11 R469, R470): on its adaptive VC, or on the escape VC. -/
def Dev.attempt (d : Dev) (t : PType) (k : Pkt) (b : Body) (esc : Bool) : Dev × Fwd :=
  let cls := pktCls t k b
  let (cands, escs) := d.routeOf k.dst
  let useEsc := esc || decide (cls = .control)
  let vc := cls.vc useEsc
  match d.pickPort (if useEsc then escs else cands) vc (pktBytes t k) with
  | some p => (d.transmit p vc t k b, .sent)
  | none => if d.anyUp cands || d.anyUp escs then (d, .waits) else (d, .noRoute)

/-- A packet for another node (11 R463): with no route, once over the partner of the destination's package, which may be this device. -/
def Dev.forward (d : Dev) (t : PType) (k : Pkt) (b : Body) (esc : Bool := false) : Dev × Fwd :=
  match d.attempt t k b esc with
  | (d, .noRoute) =>
    if k.alias_ && !k.redir then
      let k := { k with dst := if k.dst % 2 = 0 then k.dst + 1 else k.dst - 1, redir := true }
      if d.fab.node = some k.dst then (d.emit (.packet 0xFF t k b), .sent) else d.attempt t k b esc
    else (d, .noRoute)
  | r => r

/-- A packet without a route is counted and reported (11 R463); the unit is the port it came in on. -/
def Dev.countNoRoute (d : Dev) (port : Nat) : Dev :=
  { d with fab.noroute := satAdd 0x3FF d.fab.noroute }.post Src.fabNoroute port

/-- A packet waits at the head of its ingress (11 R470). -/
def Dev.await (d : Dev) (x : WPkt) : Dev := d.putWait (d.fab.wait ++ [x])

/-! ### Payload protection (19 R807 to R811) -/

/-- XTS-AES-256 takes no data unit shorter than a block. -/
def shortUnit (n : Nat) : Bool := decide (0 < n) && decide (n < 16)

/-- A payload under a key: encrypted, or decrypted (R809). -/
def coverWords (key : List Byte) (header : List Byte) (open_ : Bool) (n : Nat) (ws : List W64) : List W64 :=
  let b := (wordBytes ws).take n
  bytesWords ((n + 7) / 8) (if open_ then xtsDec key (payloadTweak header) b else xtsEnc key (payloadTweak header) b)

/-- The payload of a packet that this device sends, under the slot of its own tenant (R809); a collective's is sealed by its own. -/
def Dev.cover (d : Dev) (t : PType) (k : Pkt) (b : Body) : Pkt :=
  match d.sec.slotKey k.srcTen k.ksel with
  | some key => if k.len < 16 || decide (t = .coll) then k else { k with data := coverWords key (packetHeader t k b) false k.len k.data }
  | none => k

/-- A packet received for a tenant, decrypted under that tenant's slot; `none` where the slot is empty (R809, R811), or the payload is no data
unit (log 175). -/
def Dev.uncover (d : Dev) (t : PType) (k : Pkt) (b : Body) : Option Pkt :=
  if k.ksel = 0 || decide (t = .coll) then some k
  else (d.sec.slotKey k.dstTen k.ksel).bind fun key =>
    if shortUnit k.len then none
    else some (if k.len = 0 then k else { k with data := coverWords key (packetHeader t k b) true k.len k.data })

/-- A request under a nonzero selector that is never sent: its data or operands are too short (R810), or its slot holds no key (08 R326). -/
def Dev.unkeyed (d : Dev) (t : PType) (k : Pkt) : Bool :=
  decide (k.ksel ≠ 0) &&
    (decide ((match t with | .rd => k.aux | .atom | .atomp => 8 | _ => k.len) < 16) || (d.sec.slotKey k.srcTen k.ksel).isNone)

/-- Hands a packet to the switch: it is sent, or waits at the head of its ingress (11 R470), or has no route. A packet for this
device loops back. The answer is false when there was no route. Its payload counts as sent into the fabric (21 R858, index 16). -/
def Dev.sendPkt (d : Dev) (t : PType) (k : Pkt) (b : Body := .none) : Dev × Bool :=
  let k := d.cover t k b
  if d.isMine k && decide (d.fab.node.isSome) then (d.emit (.packet 0xFF t k b), true)
  else
    match (if d.fab.node.isSome then d.forward t k b else (d, .noRoute)) with
    | (d, .sent) => (d.count k.srcTen 16 k.len, true)
    | (d, .waits) => ((d.await { t, pkt := k, body := b, since := d.now }).count k.srcTen 16 k.len, true)
    | (d, .noRoute) => (d.countNoRoute k.port, false)

/-- A packet whose failure to leave concerns nobody here. -/
def Dev.sendAway (d : Dev) (t : PType) (k : Pkt) (b : Body := .none) : Dev := (d.sendPkt t k b).1

/-- The response to a request (11 R452, R456, R486): it carries the request's tag and goes to its source. -/
def Dev.rspOf (d : Dev) (k : Pkt) (st : Status) (data : List W64) (len : Nat) : Pkt :=
  { alias_ := true, echo := k.ce, dst := k.src, dstTen := k.srcTen, src := d.fab.node.getD 0, srcTen := k.dstTen, ksel := k.ksel,
    qglobal := k.qglobal, serial := k.serial, aux := st.code, len, data, telem := k.telem }

/-- Answers a request with RSP, or RSPD with data (11 R453). -/
def Dev.answer (d : Dev) (k : Pkt) (st : Status) (data : List W64 := []) (len : Nat := 0) : Dev :=
  d.sendAway (if data.isEmpty then .rsp else .rspd) (d.rspOf k st data len)

/-- Answers a non-posted request with a failure; discards anything else. -/
def Dev.refuse (d : Dev) (t : PType) (k : Pkt) (st : Status) : Dev := if nonPosted t then d.answer k st else d

/-! ### Service of waiting packets (11 R477) -/

/-- Weighted deficit round robin over candidates (id, bytes of the next segment): the candidate served, and every candidate's deficit
afterwards. A quantum is WEIGHT × 1,024 bytes; four rounds serve any segment (07 R281). -/
def drr (cands : List (Nat × Nat)) (deficit weight : Nat → Nat) : Option (Nat × (Nat → Nat)) :=
  (List.range 6).findSome? fun r =>
    (cands.find? fun c => decide (c.2 ≤ deficit c.1 + r * weight c.1 * 1024)).map fun c =>
      (c.1, fun i => deficit i + r * weight i * 1024 - if i = c.1 then c.2 else 0)

/-- The tenant whose share a waiting packet uses: that of the request's source (log 160). -/
def WPkt.ten (x : WPkt) : Nat := if x.cls = .response then x.pkt.dstTen else x.pkt.srcTen

/-- Within a VC the tenant whose turn it is (11 R477; 07 R281), with its first packet and the deficits this leaves. -/
def Dev.turnIn (d : Dev) (vc : Nat) (l : List WPkt) : Option (WPkt × (Nat → Nat)) :=
  let q := l.filter fun x => decide (x.vcNow = vc)
  let heads := (List.range 16).filterMap fun t => (q.find? fun x => decide (x.ten = t)).map fun x => (t, pktBytes x.t x.pkt)
  match drr heads (fun t => Tab.look 0 (16 * vc + t) d.fab.deficit) (fun t => max 1 ((d.ten t).assign.getD {}).weight) with
  | some (t, defs) => (q.find? fun x => decide (x.ten = t)).map fun x => (x, defs)
  | none => q.head?.map fun x => (x, fun t => Tab.look 0 (16 * vc + t) d.fab.deficit)

/-- The waiting packet that is served next (11 R477): VC0 first, then VC1 to VC4 in turn, with the VC and the deficits after it. -/
def Dev.nextServed (d : Dev) (l : List WPkt) : Option (WPkt × Nat × (Nat → Nat)) :=
  match l.find? fun x => decide (x.vcNow = 0) with
  | some x => some (x, 0, fun _ => 0)
  | none =>
    (((List.range 4).map fun i => 1 + (d.fab.rr + i) % 4).find? fun v => l.any fun x => decide (x.vcNow = v)).bind fun v =>
      (d.turnIn v l).map fun y => (y.1, v, y.2)

/-- Service of a VC is charged: the turn passes on, and the tenants of the VC have new deficits. -/
def Dev.chargeVc (d : Dev) (vc : Nat) (defs : Nat → Nat) : Dev :=
  if vc = 0 then d
  else { d with fab.rr := vc % 4, fab.deficit := (List.range 16).foldl (fun m t => Tab.put 0 (16 * vc + t) (defs t) m) d.fab.deficit }

/-- A waiting packet is tried: on its own port where it has one, else by its route. -/
def Dev.tryWait (d : Dev) (x : WPkt) : Dev × Fwd :=
  match x.via with
  | none => d.forward x.t x.pkt x.body x.escape
  | some p =>
    if (d.lport p).st ≠ .active then (d, .sent)
    else if (d.lport p).room 0 (pktBytes x.t x.pkt) then (d.transmit p 0 x.t x.pkt x.body, .sent) else (d, .waits)

/-- Waiting packets are tried in the order of R477: those that go leave the list, those without a route are refused (11 R463). -/
def Dev.serveWait : Nat → List WPkt → Dev → Dev
  | 0, _, d => d
  | n + 1, l, d =>
    match d.nextServed l with
    | none => d
    | some (x, vc, defs) =>
      Dev.serveWait n (without x l) (match d.tryWait x with
        | (d, .sent) => (d.putWait (without x d.fab.wait)).chargeVc vc defs
        | (d, .waits) => d
        | (d, .noRoute) => ((d.putWait (without x d.fab.wait)).countNoRoute x.pkt.port).refuse x.t x.pkt .pathFailure)

/-- Waiting packets are tried again (11 R470, R473, R477). -/
def Dev.retryFab (d : Dev) : Dev := Dev.serveWait d.fab.wait.length d.fab.wait d

/-- A HELLO or TSYNC of this device on one of its ports, on VC0 (11 R448, R493): it waits for credits. -/
def Dev.sendOn (d : Dev) (p : Nat) (t : PType) (len : Nat) (b : Body) : Dev :=
  let x : WPkt := { t, pkt := { alias_ := false, dst := (Tab.look {} p d.fab.nbr).node, src := d.fab.node.getD 0, len }, body := b, since := d.now, via := some p }
  match d.tryWait x with
  | (d, .waits) => d.await x
  | (d, _) => d

/-! ### Transactions (07 R285 to R287) -/

/-- The alias address of a package as this source sends it: bit 0 from the side cache (11 R456). -/
def Dev.aliasDst (d : Dev) (node t : Nat) : Nat :=
  node / 2 * 2 + bNat (Tab.look false (16 * (node / 2) + t) d.fab.side)

/-- A serial may be issued: not outstanding, not retired within the last second (07 R286). -/
def Dev.serialFree (d : Dev) (gq : Nat) (n : W32) : Bool :=
  !(d.tq.txns.any fun x => decide (x.gq = gq) && decide (x.serial = n)) && !((d.queue gq).retired.any fun r => decide (r.1 = n.toNat))

/-- The next serial of a queue, drawn at first from the DRBG (07 R286); `none` where it may not be issued yet. -/
def Dev.nextSerial (d : Dev) (gq : Nat) : Option W32 × Dev :=
  match (d.queue gq).serial with
  | none =>
    let (v, d) := d.rand 32
    if d.serialFree gq v then (some v, d.setQueue gq fun q => { q with serial := some (v + 1) }) else (none, d.setQueue gq fun q => { q with serial := some v })
  | some v => if d.serialFree gq v then (some v, d.setQueue gq fun q => { q with serial := some (v + 1) }) else (none, d)

/-- Retires a transaction (07 R287): its serial rests for 1 s. -/
def Dev.retire (d : Dev) (x : Txn) : Dev :=
  ({ d with tq.txns := without x d.tq.txns }).setQueue x.gq fun q => { q with retired := q.retired ++ [(x.serial.toNat, d.now)] }

/-- An earlier transaction of the queue orders this one after it (07 R279, R280, 11 R468). -/
def Dev.ordered (d : Dev) (gq dst lo len : Nat) (write : Bool) : Bool :=
  d.tq.txns.any fun x => decide (x.gq = gq) && decide (x.dst / 2 = dst / 2) && (write || x.write)
    && decide (x.lo < lo + len) && decide (lo < x.lo + x.len)

/-- What issuing a transaction came to. -/
inductive Issued where
  | ok | wait | failed (st : Status)
  deriving DecidableEq, Repr, Inhabited

/-- Issues a fabric transaction for queue `gq` (07 R285): it waits for ordering, a serial or a shaped rate; it fails without a route, or where its
selector forbids it (19 R810; 08 R326). -/
def Dev.transact (d : Dev) (gq : Nat) (for_ : TxFor) (t : PType) (k : Pkt) (b : Body) (lo len : Nat) (write relaxed : Bool) : Dev × Issued :=
  if d.unkeyed t k then (d, .failed .accessDenied)
  else if !relaxed && d.ordered gq k.dst lo len write then (d, .wait)
  else
    match d.nextSerial gq with
    | (none, d) => (d, .wait)
    | (some n, d) =>
      let k := { k with qglobal := gq, serial := n, src := d.fab.node.getD 0, relaxed }
      match d.sendPkt t k b with
      | (d, true) =>
        ({ d with tq.txns := d.tq.txns ++ [{ gq, serial := n, for_, issued := d.now, dst := k.dst, write, lo, len }] }, .ok)
      | (d, false) => (d, .failed .pathFailure)

/-! ### Fabric time (11 R488 to R495) -/

/-- A follower's offset, or a grandmaster's at a PPS edge, is applied: up to 1 µs by slewing, a larger positive one as a step, a
larger negative one by holding the time (11 R494). -/
def Dev.applyOffset (d : Dev) (off : Int) : Dev :=
  if off.natAbs ≤ 1000 then { d with fab.slew := off, fab.holdTo := none }
  else if 0 < off then { d with fab.time := d.fab.time + off.toNat, fab.slew := 0, fab.holdTo := none }
  else { d with fab.holdTo := some (d.now + off.natAbs), fab.slew := 0 }

end Sys2Proof.Machine
end

