-- ==== Sys2Proof/Machine/OpsQueue.lean ====
section
/-! DEFINITION. Tenants' pools, completion records and the serialising point of a queue (07), final notices of commands in progress (05 R187), and words cached over the coherence channel (09 R378 to R381). -/

namespace Sys2Proof.Machine

/-! ### Pools (07 R253 to R259) -/

/-- Units of a pool: 0 packet buffer (256 bytes), 1 reduction scratch (4 KiB), 2 page buffer (4 KiB). -/
def poolSize : Nat → Nat
  | 0 => 131072
  | 1 => 4096
  | _ => 2048

/-- A size in KiB in units of a pool, rounded down. -/
def poolUnits (pool kib : Nat) : Nat := if pool = 0 then 4 * kib else kib / 4

def assignFloor (a : Assign) (pool : Nat) : Nat := if pool = 0 then a.pktFloor else if pool = 1 then a.redFloor else a.pgbFloor
def assignCeil (a : Assign) (pool : Nat) : Nat := if pool = 0 then a.pktCeil else if pool = 1 then a.redCeil else a.pgbCeil

/-- A tenant's ceiling, rounded down, and floor, rounded up but not above it (log 21). -/
def Dev.ceilOf (d : Dev) (pool t : Nat) : Nat := poolUnits pool (assignCeil ((d.ten t).assign.getD {}) pool)
def Dev.floorOf (d : Dev) (pool t : Nat) : Nat :=
  min (d.ceilOf pool t) (if pool = 0 then poolUnits 0 (assignFloor ((d.ten t).assign.getD {}) 0) else (assignFloor ((d.ten t).assign.getD {}) pool + 3) / 4)

def Tenant.used (x : Tenant) (pool : Nat) : Nat := if pool = 0 then x.pkt else if pool = 1 then x.red else x.pgb
def Tenant.setUsed (x : Tenant) (pool n : Nat) : Tenant :=
  if pool = 0 then { x with pkt := n } else if pool = 1 then { x with red := n } else { x with pgb := n }

/-- Floor of the transit account in packet buffer units (11 R471). -/
def transitFloor : Nat := 16384

/-- Free units of a pool. -/
def Dev.freeUnits (d : Dev) (pool : Nat) : Nat :=
  poolSize pool - (((List.range 16).map fun t => (d.ten t).used pool).foldl (· + ·) 0 + if pool = 0 then d.fab.transit else 0)

/-- Floors that accounts other than `t` have not used. -/
def Dev.unusedFloors (d : Dev) (pool t : Nat) : Nat :=
  ((List.range 16).map fun u => if u = t then 0 else d.floorOf pool u - (d.ten u).used pool).foldl (· + ·) 0
    + if pool = 0 then transitFloor - d.fab.transit else 0

/-- Ceiling of the transit account in packet buffer units: TRANSIT_MIB, from 4 to 32 (11 R471). -/
def Dev.transitCeil (d : Dev) : Nat := 4096 * min 32 (max 4 (d.fab.cfg.toNat / 2 ^ 16 % 256))

/-- Units the transit account may still be granted under R256, as though it were a tenant (11 R471). -/
def Dev.transitGrant (d : Dev) : Nat :=
  let free := d.freeUnits 0
  let floors := ((List.range 16).map fun u => d.floorOf 0 u - (d.ten u).used 0).sum
  min (d.transitCeil - d.fab.transit) (max (min free (transitFloor - d.fab.transit)) (free - floors))

/-- Credits of a VC at flit slot 0: its reserve (11 R472, 12 R532); VC0 to VC2 of the Twin port as 18 R751 gives them. -/
def creditStart (p : Nat) : Tab Nat := if p = 64 then [(0, 32), (1, 256), (2, 256)] else [(0, 32), (1, 64), (2, 48), (3, 64), (4, 48)]

/-- Credits a receiver holds out on a VC (11 R472): its reserve and, on VC1 to VC4 of an optical port, an equal part of what the transit account
may have above its floor (log 161); at most 2,047 (12 R532). -/
def Dev.allowance (d : Dev) (p vc : Nat) : Nat :=
  let more := if p = 64 || vc = 0 then 0 else (d.fab.transit + d.transitGrant - transitFloor) / 256
  min 2047 (Tab.look 0 vc (creditStart p) + more)

/-- Credits of packets that came in on a VC of a port and still hold their buffer: those that wait and those in cut-through (11 R481). -/
def Dev.heldFrom (d : Dev) (p vc : Nat) : Nat :=
  ((d.fab.wait.filter fun x => x.via.isNone && decide (x.pkt.port = p) && decide (x.pkt.vc = vc) && d.inTransit x.pkt).map fun x => creditUnits (pktBytes x.t x.pkt)).sum
    + ((d.fab.undo.filter fun u => decide (u.inPort = p) && decide (u.inVc = vc)).map (·.units)).sum

/-- The CCUM of each VC of a port moves on as far as buffers are free (12 R532); it never moves back. -/
def Dev.advertise (d : Dev) (p : Nat) : Dev :=
  d.setLport p fun l => { l with released := [0, 1, 2, 3, 4].foldl (fun r v =>
    let out := (Tab.look 0 v r + 4096 - Tab.look 0 v l.rxCons) % 4096
    let want := d.allowance p v - d.heldFrom p v
    if out < want then Tab.put 0 v ((Tab.look 0 v l.rxCons + want) % 4096) r else r) l.released }

/-- `n` units may be granted to tenant `t` (07 R256); a unit that is not free is granted to nobody (R259). -/
def Dev.canGrant (d : Dev) (pool t n : Nat) : Bool :=
  let u := (d.ten t).used pool
  decide (u + n ≤ d.ceilOf pool t) && decide (n ≤ d.freeUnits pool)
    && (decide (u + n ≤ d.floorOf pool t) || decide (d.unusedFloors pool t + n ≤ d.freeUnits pool))

/-- The tenant waits for units of a pool and may have them now. -/
def Dev.unitsFor (d : Dev) (pool u : Nat) : Bool :=
  let n := Tab.look 0 pool (d.ten u).waiting
  decide (n ≠ 0) && d.canGrant pool u n

/-- No other waiting tenant comes before tenant `t` (07 R258): `t` stays below its floor, or nobody else may have units now. -/
def Dev.firstFor (d : Dev) (pool t n : Nat) : Bool :=
  decide ((d.ten t).used pool + n ≤ d.floorOf pool t) || (List.range 16).all fun u => decide (u = t) || !d.unitsFor pool u

/-- Units that tenant `t` may have at once; a request for them never waits (07 R256; 09 R369). -/
def Dev.grantable (d : Dev) (pool t n : Nat) : Bool := d.canGrant pool t n && d.firstFor pool t n

/-- Takes or gives back units. -/
def Dev.take (d : Dev) (pool t n : Nat) : Dev := d.setTen t fun x => x.setUsed pool (x.used pool + n)
def Dev.give (d : Dev) (pool t n : Nat) : Dev := d.setTen t fun x => x.setUsed pool (x.used pool - n)

/-- A request of a tenant no longer waits: what it was granted is free again. -/
def Dev.unwait (d : Dev) (pool t : Nat) : Dev :=
  (d.give pool t (Tab.look 0 pool (d.ten t).granted)).setTen t fun x =>
    { x with waiting := Tab.put 0 pool 0 x.waiting, granted := Tab.put 0 pool 0 x.granted }

/-- Tenant `t` asks for `n` units (07 R256 to R258): it has them from those it was granted while it waited, or at once, or waits. -/
def Dev.claim (d : Dev) (pool t n : Nat) : Dev × Bool :=
  let g := Tab.look 0 pool (d.ten t).granted
  let e := d.unwait pool t
  if decide (n ≤ g) || e.grantable pool t n then (e.take pool t n, true)
  else (e.setTen t fun x => { x with waiting := Tab.put 0 pool n x.waiting }, false)

/-- The next tenant in round robin that waits below its floor (07 R258). -/
def Dev.lowWaiter (d : Dev) (pool : Nat) : Option Nat :=
  ((List.range 16).map fun i => (Tab.look 0 pool d.tq.turn + i) % 16).find? fun u => d.unitsFor pool u && decide ((d.ten u).used pool < d.floorOf pool u)

/-- A waiting request is granted its units (07 R258). -/
def Dev.grantWaiter (d : Dev) (pool u : Nat) : Dev :=
  let n := Tab.look 0 pool (d.ten u).waiting
  (d.take pool u n).setTen u fun x => { x with waiting := Tab.put 0 pool 0 x.waiting, granted := Tab.put 0 pool n x.granted }

/-- The tenant that freed units go to (07 R258): one below its floor, in round robin, else tenant `t`, whom the scheduler's order names, if it
waits. -/
def Dev.grantFreed (d : Dev) (pool t : Nat) : Dev × Option Nat :=
  match d.lowWaiter pool with
  | some u => ({ d with tq.turn := Tab.put 0 pool ((u + 1) % 16) d.tq.turn }.grantWaiter pool u, some u)
  | none => if d.unitsFor pool t then (d.grantWaiter pool t, some t) else (d, none)

/-! ### Commands in progress (05 R187, 06 R224) -/

/-- Fields of the payload a final notice carries although the command failed (06 R217): their values are left open (log 6). -/
def Dev.drawData (d : Dev) : Nat → List Nat × Dev
  | 0 => ([], d)
  | n + 1 => let (v, d) := d.draw 64; let (l, d) := d.drawData n; (v.toNat :: l, d)

/-- Fields of the response payload of a command that may answer ACCEPTED (06, command tables). -/
def finalFields (opcode : Nat) : Nat := if opcode = 0x0702 then 2 else if opcode = 0x0703 || opcode = 0x0A04 then 1 else 0

/-- The final notice of an ACCEPTED command (06 R217); Q_START, which waits for its ring's translation, answers late by its response (08 R344). -/
def Dev.finishAcc (d : Dev) (a : Acc) (st : Status) (data : List Nat) : Dev :=
  let (data, d) := if data.isEmpty then d.drawData (finalFields a.opcode) else (data, d)
  ({ d with mbx.acc := without a d.mbx.acc }).respond a.req.path a.req.noIrq
    { opcode := a.opcode, seq := a.req.seq, tenant := a.req.tenant.toNat, notice := decide (a.opcode ≠ 0x0302), status := st, data }

/-- Ends the commands in progress that a test names. -/
def Dev.finishAccs (d : Dev) (p : Acc → Bool) (st : Status) (data : List Nat) : Dev :=
  (d.mbx.acc.filter p).foldl (fun d a => d.finishAcc a st data) d

/-! ### Coherence words (09 R378 to R381) -/

/-- A change of a cached word invalidates its copies; the answer is true when no copy stands in the way. -/
def Dev.invalidate (d : Dev) (w : CohWord) (v : W64) : Dev × Bool :=
  match d.rm.dir.find? fun e => decide (e.word = w) with
  | none => (d, true)
  | some e =>
    if e.holders.isEmpty then (d, true)
    else
      let e' := { e with newVal := some v, acks := if e.acks.isEmpty then e.holders else e.acks }
      let d := { d with rm.dir := d.rm.dir.map fun x => if x.word = w then e' else x }
      if e.acks.isEmpty then (e.holders.foldl (fun d p => d.facet p 1 1 (.facetCoh p 3 w 0)) d, false) else (d, false)

/-- The ordering flag of a queue as a word. -/
def flagWord (gq : Nat) : CohWord := { sem := false, tenant := gq / 64, index := gq }

/-- A queue's DONE count becomes visible. -/
def Dev.putFlag (d : Dev) (gq : Nat) (v : W64) : Dev := d.setTen (gq / 64) fun x => { x with qflag := Tab.put 0 (gq % 64) v x.qflag }

/-- The value a queue's ordering flag has, or is about to have. -/
def Dev.flagNow (d : Dev) (gq : Nat) : W64 :=
  match d.rm.dir.find? fun e => decide (e.word = flagWord gq) with
  | some e => e.newVal.getD (Tab.look 0 (gq % 64) (d.ten (gq / 64)).qflag)
  | none => Tab.look 0 (gq % 64) (d.ten (gq / 64)).qflag

/-- A queue's DONE count takes a value, once no copy stands in the way. -/
def Dev.setFlag (d : Dev) (gq : Nat) (v : W64) : Dev :=
  match d.invalidate (flagWord gq) v with
  | (d, true) => d.putFlag gq v
  | (d, false) => d

/-- One more completion record has been written (TEN_QFLAG). -/
def Dev.bumpFlag (d : Dev) (gq : Nat) : Dev := d.setFlag gq (d.flagNow gq + 1)

/-! ### Completion records (07 R270 to R275) -/

/-- PHASE of descriptor `i` in a ring of 2^L slots (07 R270). -/
def phaseOf (i l : Nat) : Bool := i / 2 ^ l % 2 = 0

/-- Operations in progress of a queue. -/
def Dev.opsOf (d : Dev) (gq : Nat) : List Op := d.tq.ops.filter fun o => decide (o.gq = gq)

/-- Every record a queue owes has been written, or is held for Bus Master Enable or its ring (07 R273, R275; 08 R343). -/
def Queue.settled (q : Queue) : Bool := q.recs.all fun i => (q.written ++ q.held).any fun r => decide (r.index = i)

/-- A draining or aborting queue whose operations all have their records is STOPPED, and its Q_STOP ends (07 R273). -/
def Dev.drained (d : Dev) (gq : Nat) : Dev :=
  let q := d.queue gq
  if (decide (q.st = .draining) || decide (q.st = .aborting)) && (d.opsOf gq).isEmpty && q.settled then
    (d.setQueue gq fun q => { q with st := .stopped }).finishAccs
      (fun a => decide (a.opcode = 0x0303) && a.objs.contains (.queue (gq / 64) (gq % 64))) .ok []
  else d

/-- HEAD passes the contiguous indices that have records (07 R278). -/
def advanceHead : Nat → W32 → List Nat → W32
  | 0, h, _ => h
  | n + 1, h, rs => if rs.contains h.toNat then advanceHead n (h + 1) (without h.toNat rs) else h

/-- An index at or above `h`, in 32-bit counts. -/
def aheadOf (h : W32) (i : Nat) : Bool := decide ((BitVec.ofNat 32 i - h).toNat < 2 ^ 31)

/-- A record of the queue has been written: LAST_STATUS is its status, and HEAD passes the contiguous indices that have records (07 R278). -/
def Queue.wrote (q : Queue) (r : CRec) : Queue :=
  let ws := q.written ++ [r]
  let h := advanceHead ws.length q.head (ws.map (·.index))
  { q with head := h, last := r.status, recs := q.recs.filter (aheadOf h), written := ws.filter fun x => aheadOf h x.index }

/-- A record has been written: the flag counts it, HEAD follows, its vector is signalled if it asks (07 R272), and a queue that drains may
stop. -/
def Dev.recordDone (d : Dev) (gq : Nat) (r : CRec) : Dev :=
  let d := (d.bumpFlag gq).setQueue gq fun q => q.wrote r
  let d := d.journal 0x04 (gq / 64) gq (d.queue gq).head.toNat
  (if r.irq then d.signal (gq / 64 + 1) (d.queue gq).vector else d).drained gq

/-- A record that cannot be written is held, and its queue stops as under Q_STOP with SMODE 0 (08 R343). -/
def Dev.recordFailed (d : Dev) (gq : Nat) (r : CRec) : Dev :=
  (d.setQueue gq fun q => { q with held := q.held ++ [r], ringFault := true, st := if q.st = .running then .draining else q.st }).drained gq

/-- Writes a completion record, or holds it while Bus Master Enable is 0 (07 R271, R275). -/
def Dev.writeRecord (d : Dev) (gq : Nat) (r : CRec) : Dev :=
  if !(d.fn (gq / 64 + 1)).bme then (d.setQueue gq fun q => { q with held := q.held ++ [r] }).drained gq
  else
    match d.startJob { for_ := .record gq r, fn := gq / 64 + 1, iova := recAddr (d.queue gq) r.index, len := 16, write := true,
                       msg := some (.record gq r), engine := gq % 16 } with
    | (d, some j) => if j.status = .ok then d.recordDone gq r else d.recordFailed gq r
    | (d, none) => d

/-- Writes the records held for a queue. -/
def Dev.flushRecords (d : Dev) (gq : Nat) : Dev :=
  (d.queue gq).held.foldl (fun d r => d.writeRecord gq r) (d.setQueue gq fun q => { q with held := [], ringFault := false })

/-- A completion record as two words (07 R270). -/
def recWords (r : CRec) : W64 × W64 := (BitVec.ofNat 64 (leNat (r.bytes.take 8)), BitVec.ofNat 64 (leNat (r.bytes.drop 8)))

/-- The record of descriptor `idx` is decided: the counts follow, and the record is written, or waits for its JACK on a Twin pair (07 R271,
18 R763). INTERNAL raises FW_INTERNAL (05 R200). -/
def Dev.putRecord (d : Dev) (gq idx : Nat) (st : Status) (part irq : Bool) (result : Nat) : Dev :=
  let q := d.queue gq
  let r : CRec := { index := idx, status := st, phase := phaseOf idx q.log2, partial_ := part, result, irq }
  let d := (d.setQueue gq fun q =>
    { q with recs := q.recs ++ [idx], timeouts := if st = .timeout then satAdd 0xFFFF q.timeouts else q.timeouts }).postIf
      (decide (st = .internal)) Src.fwInternal 0
  if d.guards (gq / 64) then d.hold (gq / 64) 0x03 gq idx (.record gq r) [(recWords r).1, (recWords r).2] else d.writeRecord gq r

/-! ### The serialising point (07 R292) -/

/-- Counter index of an operation in SET 0x0010 (21 R858). -/
def opIndex (op : Nat) : Nat :=
  match op with
  | 0x01 => 0 | 0x02 => 1 | 0x10 => 2 | 0x11 => 3 | 0x12 => 4 | 0x20 => 5 | 0x21 => 6 | 0x22 => 7 | 0x30 => 8 | 0x31 => 9
  | 0x32 => 10 | 0x40 => 11 | _ => 12

/-- RESULT of an operation (07 R270): bytes confirmed, or what the operation returns. -/
def Op.resultOf (o : Op) : Nat :=
  if [0x01, 0x02, 0x10, 0x11, 0x40, 0x41].contains o.desc.op then o.confirmed else o.result.toNat

/-- Packet buffer units of `n` bytes. -/
def bufUnits (n : Nat) : Nat := (n + 255) / 256

/-- The operation in progress with a descriptor index. -/
def Dev.opAt (d : Dev) (gq idx : Nat) : Option Op := d.tq.ops.find? fun o => decide (o.gq = gq) && decide (o.idx = idx)

/-- Replaces an operation in progress. -/
def Dev.setOp (d : Dev) (o : Op) : Dev :=
  { d with tq.ops := d.tq.ops.map fun x => if x.gq = o.gq && x.idx = o.idx then o else x }

/-- A deciding event reaches the serialising point: the first decides the operation (07 R290, R292, R293). Its transactions are
retired and its page requests no longer wait; later events find no operation. -/
def Dev.decideOp (d : Dev) (gq idx : Nat) (st : Status) : Dev :=
  match d.opAt gq idx with
  | none => d
  | some o =>
    let d := { d with
      tq.ops := without o d.tq.ops
      col.waiters := d.col.waiters.filter fun w => decide (w.own ≠ some (gq, idx))
      xlt.pages := d.xlt.pages.filter fun p => decide (p.acc.op ≠ some (gq, idx)) }
    let mine := d.tq.txns.filter fun x => decide (x.gq = gq) && (match x.for_ with | .op i .. => decide (i = idx) | .sem i => decide (i = idx) | _ => false)
    let d := mine.foldl Dev.retire d
    let t := gq / 64
    let d := if o.dump then { d with dbg.dumps := Tab.upd none t (fun x => x.map fun y => { y with status := some st }) d.dbg.dumps } else d
    let d := (d.give 0 t o.held).unwait 0 t
    let d := d.count t (if st = Status.ok then opIndex o.desc.op else 13) 1
    let d := match o.desc.body with
      | .coll _ _ n _ fmt rop .. =>
        if decide (st = Status.ok) && (decide (o.desc.op = 0x20) || decide (o.desc.op = 0x21)) then d.count t (32 + 4 * fmt + rop) n else d
      | _ => d
    let d := d.trace 0x02 t 0 gq st.code (o.desc.telem) idx
    (d.putRecord gq idx st (decide (st ≠ Status.ok) && (decide (0 < o.confirmed) || o.touched)) o.desc.irq o.resultOf).drained gq

/-- A descriptor that has not started ends (07 R289, R294): a record without effect. Whether its IRQ flag is known before it is fetched is
left open (log 150). -/
def Dev.endUnstarted (d : Dev) (gq idx : Nat) (st : Status) : Dev :=
  let (b, d) := d.draw 1
  d.putRecord gq idx st false (decide (b = 1)) 0

end Sys2Proof.Machine
end

