-- ==== Sys2Proof/Machine/OpsVault.lean ====
section
/-! DEFINITION. The Vault cipher and the metadata log (17 R707, R736; 19 R805, R806), marks of shadow regions and the lag they make (17 R713 to R719). -/

namespace Sys2Proof.Machine

def Dev.vten (d : Dev) (t : Nat) : VTen := Tab.look {} t d.vlt.ten
def Dev.setVten (d : Dev) (t : Nat) (f : VTen → VTen) : Dev := { d with vlt.ten := Tab.upd {} t f d.vlt.ten }

/-- Bytes of a granule (17, Model). -/
def granuleSize : Nat := 2097152

/-- The open epoch of a tenant: one more than the highest epoch issued to it (17 R721). -/
def Dev.openEp (d : Dev) (t : Nat) : Nat := Tab.look 0 t d.onyx.issued + 1

/-- The version of a granule that a chain of epochs, newest first, selects (17, Model). -/
def Dev.verOf (d : Dev) (t r g : Nat) (chain : List Nat) : Option Ver :=
  chain.findSome? fun x =>
    d.onyx.vers.find? fun v => decide (v.t = t) && decide (v.region = r) && decide (v.granule = g) && decide (v.epoch = x)

/-- A sealed epoch of a tenant. -/
def Dev.sealAt (d : Dev) (t e : Nat) : Option Seal := d.onyx.seals.find? fun s => decide (s.t = t) && decide (s.epoch = e)

/-- The version of a granule in the image of a sealed epoch. -/
def Dev.verAt (d : Dev) (t r g e : Nat) : Option Ver := (d.sealAt t e).bind fun s => d.verOf t r g s.chain

/-- A sealed epoch needs the version. -/
def Dev.sealed (d : Dev) (v : Ver) : Bool :=
  d.onyx.seals.any fun s => decide (s.t = v.t) && decide (d.verOf v.t v.region v.granule s.chain = some v)

/-- The epoch is damaged on this Vault: it needs a damaged version (17 R709, R745). -/
def Dev.epochDamaged (d : Dev) (s : Seal) : Bool :=
  d.onyx.vers.any fun v => v.damaged && decide (v.t = s.t) && decide (d.verOf v.t v.region v.granule s.chain = some v)

/-- Bytes of an epoch, as VLT_SEAL and the summary state them (17 R722, R733). -/
def Seal.bytes (s : Seal) : Nat := granuleSize * s.granules

/-- The summary of an epoch, as words (17 R733). -/
def Seal.summary (s : Seal) : List W64 :=
  [s.tag, BitVec.ofNat 64 s.epoch, BitVec.ofNat 64 s.time, BitVec.ofNat 64 s.bytes, BitVec.ofNat 64 s.regions.length]
    ++ s.regions.flatMap fun r => [BitVec.ofNat 64 r.1, BitVec.ofNat 64 r.2]

/-! ### Vault cipher (17 R736, 19 R805) -/

/-- VGEN from `v` on: a derivation whose Key1 equals Key2 advances it and is made again (19 R805). -/
def vgenFrom (pvk : BitVec 256) (t : Nat) : Nat → Nat → Nat
  | 0, v => v
  | n + 1, v => if keyHalves (vaultKey pvk t v) then vgenFrom pvk t n (v + 1) else v

/-- The Vault key of a tenant (19 R805). -/
def Dev.vkey (d : Dev) (t : Nat) : List Byte :=
  let pvk := d.secNv.pvk.getD 0
  vaultKey pvk t (vgenFrom pvk t 64 (Tab.look 0 t d.onyx.vgen))

/-- The tweak of a data unit of 4 KiB (17 R736). -/
def unitTweak (region granule u : Nat) : Nat := region * 2 ^ 36 + granule * 512 + u

/-- A unit of words, filled with zeros. -/
def unitWords (ws : List W64) (u : Nat) : List W64 := ((ws.drop (512 * u)).take 512 ++ List.replicate 512 0).take 512

/-- The ciphertext of a granule (17 R736). -/
def Dev.sealGranule (d : Dev) (t region granule : Nat) (ws : List W64) : List W64 :=
  (List.range 512).flatMap fun u => bytesWords 512 (xtsEnc (d.vkey t) (unitTweak region granule u) (wordBytes (unitWords ws u)))

/-- A unit of a granule's ciphertext, decrypted. -/
def Dev.openUnit (d : Dev) (t region granule : Nat) (ws : List W64) (u : Nat) : List W64 :=
  bytesWords 512 (xtsDec (d.vkey t) (unitTweak region granule u) (wordBytes (unitWords ws u)))

/-- The 4 KiB at a multiple of 4 KiB of a region of a sealed epoch; region 0xFF is the summary (17 R732, R733). A granule without a version reads as
zeros. -/
def Dev.epochUnit (d : Dev) (t r e a : Nat) : List W64 :=
  if r = 0xFF then unitWords (((d.sealAt t e).map Seal.summary).getD []) (a / 4096)
  else
    match d.verAt t r (a / granuleSize) e with
    | none => List.replicate 512 0
    | some v => d.openUnit t r (a / granuleSize) v.data (a % granuleSize / 4096)

/-- `len` bytes at offset `pos` of a region of a sealed epoch, as words (17 R732). -/
def Dev.epochWords (d : Dev) (t r e pos len : Nat) : List W64 :=
  let first := pos / 4096
  let all := (List.range ((pos % 4096 + len + 4095) / 4096)).flatMap fun i => d.epochUnit t r e (4096 * (first + i))
  (all.drop (pos % 4096 / 8)).take ((len + 7) / 8)

/-! ### The metadata log (17 R707, 19 R806) -/

/-- The bytes of a record (log 172). -/
def LogRec.bytes : LogRec → List Byte
  | .ver t r g e b k => [1] ++ leBytes 1 t ++ leBytes 1 r ++ [0] ++ leBytes 4 g ++ leBytes 8 e ++ leBytes 8 b ++ leBytes 8 k
  | .seal t e tag time rs ch =>
    [2] ++ leBytes 1 t ++ leBytes 1 rs.length ++ leBytes 1 ch.length ++ leBytes 4 0 ++ leBytes 8 e ++ leBytes 8 tag.toNat ++ leBytes 8 time
      ++ (rs.flatMap fun x => leBytes 1 x.1 ++ zeros 7 ++ leBytes 8 x.2) ++ ch.flatMap fun x => leBytes 8 x
  | .drop t e => [3] ++ leBytes 1 t ++ zeros 6 ++ leBytes 8 e
  | .region t r base size => [4] ++ leBytes 1 t ++ leBytes 1 r ++ zeros 5 ++ leBytes 8 base ++ leBytes 8 size
  | .retired i => [5] ++ zeros 3 ++ leBytes 4 i
  | .erases i n => [6] ++ zeros 3 ++ leBytes 4 i ++ leBytes 8 n
  | .vgen t n => [7] ++ leBytes 1 t ++ zeros 2 ++ leBytes 4 n

/-- The first block of a die that holds the log; the page manager leaves sixteen of each die to it (17 R704; log 172). -/
def logBlock : Nat := 4076

/-- Where a page of the log lies: the die of its first copy, block and page; the second copy lies on the die four above (17 R707; log 172). -/
def logPlace (n : Nat) : Nat × Nat × Nat := (n / 16384 % 4, logBlock + n / 1024 % 16, n % 1024)

/-- The tweak of a log page (19 R806). -/
def logTweak (die block page : Nat) : Nat := (die * 4096 + block) * 1024 + page

/-- A page of the log as it is programmed (17 R707, 19 R806): its sequence number, the encrypted body, and the CRC-32C over both. -/
def logPage (key : List Byte) (die block page seq : Nat) (r : LogRec) : List Byte :=
  let all := leBytes 8 seq ++ xtsEnc key (logTweak die block page) ((r.bytes ++ List.replicate 16372 0).take 16372)
  all ++ leBytes 4 (crc32c all).toNat

/-- A page of the log passes its check (17 R707). -/
def logPageOk (b : List Byte) : Bool := decide (b.length = 16384) && decide (leNat (b.drop 16380) = (crc32c (b.take 16380)).toNat)

/-- The body of a page of the log, decrypted. -/
def openLogPage (key : List Byte) (die block page : Nat) (b : List Byte) : List Byte := xtsDec key (logTweak die block page) ((b.drop 8).take 16372)

/-- The two copies of each page of the log, with their places: die, block and page. -/
def Dev.logPages (d : Dev) : List ((Nat × Nat × Nat) × List Byte) :=
  let key := vlogKey (d.secNv.pvk.getD 0)
  d.onyx.log.flatMap fun x =>
    let (die, block, page) := logPlace x.1
    [((die, block, page), logPage key die block page x.1 x.2), ((die + 4, block, page), logPage key (die + 4) block page x.1 x.2)]

/-- A record joins the log, in a page of its own. -/
def Dev.vlog (d : Dev) (r : LogRec) : Dev := { d with onyx.log := d.onyx.log ++ [(d.onyx.logSeq, r)], onyx.logSeq := d.onyx.logSeq + 1 }

/-! ### Marks -/

/-- The granules of a tenant's shadow regions that a range of IOVAs touches: region and granule. A region is named by its PASID too;
`none` for a window that has none. -/
def Dev.granulesOf (d : Dev) (t : Nat) (pasid : Option Nat) (iova len : Nat) : List (Nat × Nat) :=
  (d.vten t).regions.flatMap fun (r, reg) =>
    match reg with
    | none => []
    | some x =>
      let lo := max iova x.base.toNat
      let hi := min (iova + len) (x.base.toNat + x.size)
      if decide (pasid = some x.pasid) && decide (lo < hi) then
        let first := (lo - x.base.toNat) / granuleSize
        (List.range ((hi - 1 - x.base.toNat) / granuleSize - first + 1)).map fun i => (r, first + i)
      else []

/-- The mark stands for a granule of an epoch, and its capture has not started reading: a further mark joins it (17 R715, log 31). -/
def Mark.pends (m : Mark) (g : Nat × Nat) (e : Nat) : Bool :=
  decide (m.region = g.1) && decide (m.granule = g.2) && decide (m.epoch = e) && !m.reading

/-- Those of them that no pending capture of the open epoch covers. -/
def Dev.unmarked (d : Dev) (t : Nat) (pasid : Option Nat) (iova len : Nat) : List (Nat × Nat) :=
  (d.granulesOf t pasid iova len).filter fun g => !((d.vten t).marks.any fun m => m.pends g (d.openEp t))

/-- Lag: granules marked and not yet stored. -/
def VTen.lag (v : VTen) : Nat :=
  (v.marks.foldl (fun (l : List (Nat × Nat)) m => if l.contains (m.region, m.granule) then l else (m.region, m.granule) :: l) []).length

/-- VLT_LAG follows the lag across LAG_LIMIT, both ways (17 R719). -/
def Dev.lagCheck (d : Dev) (t : Nat) : Dev :=
  let v := d.vten t
  let high := decide (max 1 (d.vlt.cfg.toNat % 65536) ≤ v.lag)
  if high = v.stalled then d
  else (d.setVten t fun v => { v with stalled := high }).notice (t + 1)
    { opcode := 0x07F0, tenant := t, notice := true, data := [v.lag, bNat high] }

/-- Granules are marked for the open epoch; a mark joins one that pends (17 R715). `auto`: by a write of the HX-20, not by a FLUSH (17 R714). -/
def Dev.putMarks (d : Dev) (t : Nat) (gs : List (Nat × Nat)) (auto : Bool) : Dev :=
  let e := d.openEp t
  let join : List Mark → Nat × Nat → List Mark := fun l g =>
    if l.any fun m => m.pends g e then l.map fun m => if m.pends g e then { m with auto := m.auto || auto } else m
    else l ++ [{ region := g.1, granule := g.2, epoch := e, auto }]
  d.setVten t fun v => { v with marks := gs.foldl join v.marks }

/-- Granules are marked, and the lag is judged (17 R715, R719). -/
def Dev.mark (d : Dev) (t : Nat) (gs : List (Nat × Nat)) (auto : Bool := true) : Dev := (d.putMarks t gs auto).lagCheck t

/-- REF of a MARK entry (18 R762). -/
def markRef (g : Nat × Nat) : Nat := g.1 * 2 ^ 28 + g.2

/-- The marks are journaled and wait for their JACKs; one already waiting is not journaled again (18 R763). -/
def Dev.holdMarks (d : Dev) (t : Nat) (gs : List (Nat × Nat)) : Dev :=
  gs.foldl (fun d g =>
    let x : Guard := .mark t g.1 g.2
    if (d.twn.guards.any fun e => decide (e.2 = x)) || (d.twn.jwait.any fun e => decide (e.2 = some x)) then d
    else d.hold t 0x06 (markRef g) (d.openEp t) x) d

end Sys2Proof.Machine
end

