-- ==== Sys2Proof/Machine/OpsCol.lean ====
section
/-! DEFINITION. Collectives (10): groups and their tree, messages, instances, folding, closing, results, and members that leave; and writes of an operation to local memory. -/

namespace Sys2Proof.Machine

/-! ### Writes of an operation to local memory -/

/-- Bytes of an operation's result have been written (07 R271) and their buffer units are free; with the last, the operation ends. -/
def Dev.confirm (d : Dev) (gq idx len : Nat) : Dev :=
  match d.opAt gq idx with
  | none => d
  | some o =>
    let u := min o.held (bufUnits len)
    let o' := { o with confirmed := o.confirmed + len, held := o.held - u }
    let d := (d.setOp o').give 0 (gq / 64) u
    if o'.issued && decide (o'.total ≤ o'.confirmed) && decide (o'.tee = 0) then d.decideOp gq idx o'.endSt else d

/-- A write of an operation has failed: it decides the operation, whose record says PARTIAL when a page of it was written (07 R270). -/
def Dev.putFailed (d : Dev) (gq idx : Nat) (j : Job) : Dev :=
  (match d.opAt gq idx with
    | some o => d.setOp { o with touched := o.touched || j.some_ }
    | none => d).decideOp gq idx j.status

/-- Writes bytes of an operation to local memory with its PASID; a failure decides the operation. `fault` allows a page fault. -/
def Dev.writeLocal (d : Dev) (o : Op) (iova : W64) (off len : Nat) (data : List W64) (fault : Bool) : Dev :=
  let t := o.gq / 64
  match d.startJob { for_ := .put o.gq o.idx off len, fn := t + 1, pasid := some o.desc.pasid, iova, len, write := true, data,
                     op := some (o.gq, o.idx), mayFault := fault, engine := o.gq % 16 } with
  | (d, some j) => if j.status = Status.ok then (d.count t 15 len).confirm o.gq o.idx len else d.putFailed o.gq o.idx j
  | (d, none) => d

/-- Writes bytes of an operation to local memory, marking the granules of shadow regions it touches (17 R714); on a Twin pair the
first write into an unmarked granule waits for its JACK (18 R763). -/
def Dev.putLocal (d : Dev) (o : Op) (iova : W64) (off len : Nat) (data : List W64) (fault : Bool) : Dev :=
  let t := o.gq / 64
  let gs := d.unmarked t (some o.desc.pasid) iova.toNat len
  if gs.isEmpty then d.writeLocal o iova off len data fault
  else if d.guards t then
    let d := d.holdMarks t gs
    { d with vlt.heldPut := d.vlt.heldPut ++ [{ gq := o.gq, idx := o.idx, iova, off, len, data, fault }] }
  else (d.mark t gs).writeLocal o iova off len data fault

/-- Bytes of a firing dump's operation go to DEST as well, below MAXLEN (21 R873, R874). -/
def Dev.teeDump (d : Dev) (o : Op) (off len : Nat) (data : List W64) : Dev :=
  let t := o.gq / 64
  match Tab.look none t d.dbg.dumps, d.opAt o.gq o.idx with
  | some x, some y =>
    if y.dump && decide (x.firing = some (o.gq, o.idx)) && !x.failed && decide (off < x.maxlen) then
      let n := min len (x.maxlen - off)
      match d.startJob { for_ := .dump t n, fn := t + 1, pasid := some o.desc.pasid, iova := x.dest + BitVec.ofNat 64 off, len := n, write := true,
                         data := data.take ((n + 7) / 8), engine := o.gq % 16 } with
      | (d, some j) =>
        { d with dbg.dumps := Tab.put none t (some { x with bytes := if j.status = Status.ok then x.bytes + n else x.bytes,
                                                            failed := decide (j.status ≠ Status.ok) }) d.dbg.dumps }
      | (d, none) => d.setOp { y with tee := y.tee + 1 }
    else d
  | _, _ => d

/-- A dump write that waited has ended. -/
def Dev.teeDone (d : Dev) (t n : Nat) (st : Status) : Dev :=
  match Tab.look none t d.dbg.dumps with
  | none => d
  | some x =>
    let d := { d with dbg.dumps := Tab.put none t (some { x with bytes := if st = .ok then x.bytes + n else x.bytes,
                                                                 failed := x.failed || decide (st ≠ .ok) }) d.dbg.dumps }
    match x.firing.bind fun y => d.opAt y.1 y.2 with
    | some o => (d.setOp { o with tee := o.tee - 1 }).confirm o.gq o.idx 0
    | none => d

/-! ### Groups (10, Model) -/

def Dev.group (d : Dev) (t g : Nat) : Group := Tab.look {} (256 * t + g) d.col.groups
def Dev.setGroup (d : Dev) (t g : Nat) (f : Group → Group) : Dev := { d with col.groups := Tab.upd {} (256 * t + g) f d.col.groups }

/-- The index of tenant t's member on this device. -/
def Dev.self (d : Dev) (t g : Nat) : Nat := (d.group t g).members.findIdx fun m => decide (m = (d.alias.getD 0) * 16 + t)

/-- Parent and children of a member (10, Model). -/
def parentOf (i : Nat) : Nat := (i - 1) / 8
def childrenOf (total i : Nat) : List Nat := ((List.range 8).map fun c => 8 * i + 1 + c).filter fun c => decide (c < total)

/-- A member with children of its own. -/
def interior (total i : Nat) : Bool := decide (8 * i + 1 < total)

/-- The members of a subtree; four levels below a member cover any group (10, Model). -/
def subtree (total : Nat) : Nat → Nat → List Nat
  | 0, i => [i]
  | n + 1, i => i :: (childrenOf total i).flatMap (subtree total n)

/-- GHASH of a group: CRC-32C of its MEMBER values (10, Model). -/
def ghashOf (ms : List Nat) : W32 := crc32c (ms.flatMap fun m => leBytes 2 m)

/-- SHAPE of a descriptor: CRC-32C of byte 0 and bytes 32 to 55 (10, Model). -/
def shapeOf (op : Nat) (b : DescBody) : W32 :=
  match b with
  | .coll _ _ count group fmt rop deadline quorum cflags seed _ =>
    crc32c (leBytes 1 op ++ leBytes 4 count ++ leBytes 2 group ++ leBytes 1 fmt ++ leBytes 1 rop ++ leBytes 4 deadline
      ++ leBytes 2 quorum ++ [cflags, 0] ++ leBytes 8 seed.toNat)
  | _ => 0

/-- Number of chunks of a collective: one for a barrier (10, Model). -/
def chunksOf (count : Nat) : Nat := max 1 ((count + 1023) / 1024)

/-- Fields of a collective descriptor that folding needs. -/
structure CollP where
  count : Nat := 0
  fmt   : Nat := 0
  rop   : Nat := 0
  deadline : Nat := 0
  quorum : Nat := 0
  cflags : Byte := 0
  seed  : W64 := 0
  src   : W64 := 0
  dst   : W64 := 0
  bitmap : W64 := 0

def collP : Option DescBody → CollP
  | some (.coll src dst count _ fmt rop deadline quorum cflags seed bitmap) =>
    { count, fmt, rop, deadline, quorum, cflags, seed, src, dst, bitmap }
  | _ => {}

/-! ### Messages -/

/-- The operation of tenant t's member that takes part in an instance. -/
def Dev.collOp (d : Dev) (t g k : Nat) : Option Op :=
  d.tq.ops.find? fun o => decide (o.gq / 64 = t) && decide (o.result.toNat = k) && match o.desc.body with | .coll _ _ _ h .. => decide (h = g) | _ => false

/-- The identifiers of the operation here that takes part in an instance (07 R267). -/
def Dev.collTelem (d : Dev) (t g k : Nat) : Option Telem :=
  (d.collOp t g k).bind (·.desc.telem)

/-- The selector of a member's message (19 R808): from the translation of its SRC operand, at the chunk it carries; else the tenant's default. -/
def Dev.collSel (d : Dev) (t g : Nat) (m : CollMsg) : Nat :=
  match ((d.collOp t g m.inst).filter fun o => decide (o.desc.op ≠ 0x22)).map fun o => collP (some o.desc.body) with
  | some p => d.selOf (t + 1) (p.src.toNat + if m.chunk < 0xFFFFFFFE then 1024 * fmtBytes p.fmt * m.chunk else 0)
  | none => (d.ten t).keydef.toNat % 64

/-- A collective message under its selector (19 R808 to R810), with the width of the elements it carries: its payload encrypted; as it is where
there is none; `none` where its data are too short or the slot holds no key. What a message carries beside data (a bitmap) goes in the clear
where it is no data unit (log 175). -/
def Dev.collSeal (d : Dev) (t : Nat) (k : Pkt) (total w cmsg sel : Nat) (m : CollMsg) (f : Option FinalInfo) : Option (CollMsg × Option FinalInfo) :=
  let b := collPayload total w cmsg m f
  if sel = 0 then some (m, f)
  else if shortUnit b.length then (if 0xFFFFFFFE ≤ m.chunk then some (m, f) else none)
  else (d.sec.slotKey t sel).map fun key =>
    let m := { m with ksel := sel }
    if b.isEmpty then (m, f)
    else
      ({ m with elems := [], admitted := [], cipher := some (w, xtsEnc key (payloadTweak (packetHeader .coll k (.coll cmsg m f))) b) },
       f.map fun x => { x with status := 0, present := [], missing := 0, late := 0, carried := [] })

/-- Sends a collective message from tenant t's member to member `i` (10, Model; 11 R454); the answer is why it could not leave. -/
def Dev.collSend (d : Dev) (t g i cmsg : Nat) (m : CollMsg) (f : Option FinalInfo := none) (fmt : Nat := 0) : Dev × Option Status :=
  let grp := d.group t g
  let v := grp.members.getD i 0
  let node := v / 16
  let m := { m with tenant := v % 16, group := g, member := d.self t g, ghash := ghashOf grp.members }
  let k : Pkt := { alias_ := true, dst := d.aliasDst node (v % 16), dstTen := v % 16, src := d.fab.node.getD 0, srcTen := t,
                   qglobal := 64 * t + 63, len := collLen grp.total fmt cmsg m, telem := d.collTelem t g m.inst }
  match d.collSeal t k grp.total (if cmsg = 2 then 4 else fmtBytes fmt) cmsg (d.collSel t g m) m f with
  | none => (d, some .accessDenied)
  | some (m, f) =>
    match d.sendPkt .coll { k with ksel := m.ksel } (.coll cmsg m f) with
    | (d, true) => (d, none)
    | (d, false) => (d, some .pathFailure)

/-- A message with only its instance. -/
def bareMsg (k : Nat) : CollMsg := { tenant := 0, group := 0, inst := k, chunk := 0, member := 0, ghash := 0, shape := 0 }

/-- Sends to several members; failures concern nobody. -/
def Dev.collAll (d : Dev) (t g : Nat) (is : List Nat) (cmsg : Nat) (m : CollMsg) (f : Option FinalInfo := none)
    (fmt : Nat := 0) : Dev :=
  is.foldl (fun d i => (d.collSend t g i cmsg m f fmt).1) d

/-- Some result chunk cannot be sent under the selector of this member (19 R810; 08 R326). -/
def Dev.collDenied (d : Dev) (t g k fmt : Nat) (res : List (Nat × List W32)) : Bool :=
  res.any fun (ci, l) =>
    let m := { bareMsg k with chunk := ci, elems := l }
    let sel := d.collSel t g { m with group := g }
    decide (sel ≠ 0) && (shortUnit (fmtBytes fmt * l.length) || (!l.isEmpty && (d.sec.slotKey t sel).isNone))

/-! ### Instances -/

def Dev.instAt (d : Dev) (t g k : Nat) : Option Inst :=
  d.col.inst.find? fun x => decide (x.t = t) && decide (x.g = g) && decide (x.k = k)

def Dev.setInst (d : Dev) (x : Inst) : Dev :=
  { d with col.inst := d.col.inst.map fun y => if y.t = x.t && y.g = x.g && y.k = x.k then x else y }

/-- The instance, opened if need be. -/
def Dev.openInst (d : Dev) (t g k : Nat) : Dev × Inst :=
  match d.instAt t g k with
  | some x => (d, x)
  | none => let x : Inst := { t, g, k, started := d.now }; ({ d with col.inst := d.col.inst ++ [x] }, x)

/-- Scratch units an instance holds: one for each chunk with a value (10, Model; 07 R253). -/
def Inst.units (x : Inst) : Nat := (x.chunks.filter fun c => c.2.acc.isSome && !c.2.sent).length

/-- The carries held for a group go, with their units. -/
def Dev.dropCarries (d : Dev) (t g : Nat) : Dev :=
  (d.col.carries.filter fun c => decide (c.t = t) && decide (c.g = g)).foldl
    (fun d c => ({ d with col.carries := without c d.col.carries }).give 1 t c.chunks.length) d

/-- The group is dropped: its carries and state go, and COL_GROUP_DROP ends (10 R407, 06). -/
def Dev.freeGroup (d : Dev) (t g : Nat) : Dev :=
  ((d.dropCarries t g).setGroup t g fun _ => {}).finishAccs (fun a => decide (a.opcode = 0x0601) && a.objs.contains (.group t g)) .ok []

/-- An instance ends at this device: its scratch is returned (07 R258); a group being dropped goes with its last instance. -/
def Dev.closeInst (d : Dev) (x : Inst) : Dev :=
  let d := ((({ d with col.inst := d.col.inst.filter fun y => !(y.t = x.t && y.g = x.g && y.k = x.k) }).give 1 x.t x.units).unwait 1 x.t).setGroup x.t x.g fun g =>
    { g with finalised := max g.finalised x.k }
  if (d.group x.t x.g).dropping && !(d.col.inst.any fun y => decide (y.t = x.t) && decide (y.g = x.g)) then d.freeGroup x.t x.g else d

/-- Ends the local member's operation, if it has started. -/
def Dev.endOwn (d : Dev) (x : Inst) (st : Status) : Dev :=
  match x.own with
  | some (gq, idx) => d.decideOp gq idx st
  | none => d

/-- A FINAL failure sent to every member of an instance by one that is not its root (10 R418, R440): its own operation ends with it. -/
def Dev.failAll (d : Dev) (x : Inst) (st : Status) : Dev :=
  let me := d.self x.t x.g
  let d := d.collAll x.t x.g ((List.range (d.group x.t x.g).total).filter fun i => decide (i ≠ me)) 5 { bareMsg x.k with chunk := 0xFFFFFFFF, last := true }
    (some { status := st.code, present := [], missing := 0, late := 0 })
  (d.closeInst x).endOwn x st

/-- A FINAL failure from this member: every member of its subtree ends with the status (10 R439). -/
def Dev.failInst (d : Dev) (x : Inst) (st : Status) : Dev :=
  let total := (d.group x.t x.g).total
  let m := bareMsg x.k
  let d := d.collAll x.t x.g (childrenOf total (d.self x.t x.g)) 5 { m with chunk := 0xFFFFFFFF, last := true }
    (some { status := st.code, present := [], missing := 0, late := 0 })
  (d.closeInst x).endOwn x st

/-- The members between a member and the root, the member first. -/
def ancestors : Nat → Nat → List Nat
  | 0, i => [i]
  | n + 1, i => if i = 0 then [] else i :: ancestors n (parentOf i)

/-- The admitted set of the subtree of this engine, known so far. -/
def Inst.admittedSet (x : Inst) : List Nat := x.acks.foldl (fun l a => a.2.foldl (fun l i => insertNat i l) l) x.admitted

/-- Some data of a member has been folded into an instance (10 R439): its own, or a partial of an interior member above it, which before the close
holds its whole subtree (10 R414) and after it the admitted members (10 R419). -/
def Inst.folded (x : Inst) (member : Nat) : Bool :=
  x.chunks.any fun c => c.2.folded.any fun i =>
    decide (i = member) || ((ancestors 4 member).contains i && (!x.closed || x.admittedSet.contains member))

/-- The status of a FINAL failure (10 R439). -/
def leaveStatus (st : Status) : Status :=
  if st = .timeout then .timeout else if st = .pathFailure then .pathFailure else .targetUnavailable

/-- The root learns that a member leaves (10 R439). -/
def Dev.rootLeave (d : Dev) (x : Inst) (member : Nat) (st : Status) : Dev :=
  if (x.desc.isNone || decide ((collP x.desc).deadline ≠ 0)) && !x.folded member then
    d.setInst { x with
      left := insertNat member x.left
      leftSt := leaveStatus st
      missing := insertNat member x.missing
      admitted := without member x.admitted
      queue := x.queue.filter fun y => y.carry || decide (y.src ≠ member) }
  else d.failInst x (leaveStatus st)

/-- The local member of a collective leaves its instance (10 R439). -/
def Dev.leave (d : Dev) (t g k : Nat) (st : Status) : Dev :=
  match d.instAt t g k with
  | none => d
  | some x =>
    let me := d.self t g
    if me = 0 then d.rootLeave { x with own := none } 0 st
    else
      let d := d.setInst { x with own := none }
      (d.collSend t g 0 6 { bareMsg k with chunk := st.code }).1

/-- An operation ends by timeout, abort, path failure or Bus Master Enable: a collective's member leaves first (10 R439). -/
def Dev.endOp (d : Dev) (gq idx : Nat) (st : Status) : Dev :=
  match d.opAt gq idx with
  | none => d
  | some o =>
    let d := d.decideOp gq idx st
    match o.desc.body with
    | .coll _ _ _ g .. => if o.open_ then d.leave (gq / 64) g o.result.toNat st else d
    | _ => d

/-! ### Folding (10 R401 to R403, R414, R419, R433, R435) -/

/-- Sources a chunk still waits for at this engine: its own member and its children, or only admitted ones once closed. -/
def Inst.awaited (x : Inst) (total me : Nat) : List Nat :=
  let all := me :: childrenOf total me
  if x.closed then all.filter fun i => x.admitted.contains i || (x.acks.any fun a => decide (a.1 = i) && !a.2.isEmpty)
  else all.filter fun i => !x.left.contains i

/-- The chunk holds everything this engine waits for (10 R414, R419). -/
def Inst.full (x : Inst) (total me : Nat) (c : Chunk) : Bool :=
  (x.awaited total me).all fun i => c.folded.contains i

/-- Every order constraint before an input is met (10 R402): with deterministic order, own first, then children ascending,
then carries. -/
def Inst.inTurn (x : Inst) (total me : Nat) (f : FoldIn) : Bool :=
  if !(collP x.desc).cflags.getLsbD 2 then true
  else
    let c := Tab.look ({} : Chunk) f.chunk x.chunks
    let before := if f.carry then x.awaited total me else (x.awaited total me).filter fun i => decide (i < f.src) || decide (i = me)
    (before.filter fun i => decide (i ≠ f.src) || f.carry).all fun i => c.folded.contains i

/-- Folds one input into its chunk, keeping the value from before a tentative fold (10 R435). -/
def Inst.fold (x : Inst) (f : FoldIn) : Inst :=
  let p := collP x.desc
  let c := Tab.look ({} : Chunk) f.chunk x.chunks
  let elems := if f.raw then f.elems.map (toF32 p.fmt) else f.elems
  let acc := match c.acc with | none => elems | some a => foldElems p.fmt p.rop a elems
  let c' := { c with
    acc := some acc
    folded := if f.carry then c.folded else insertNat f.src c.folded
    carries := if f.carry then insertNat f.src c.carries else c.carries
    saved := if f.passed then c.saved else (f.src, f.port, c.acc) :: c.saved }
  { x with chunks := Tab.put {} f.chunk c' x.chunks, queue := without f x.queue }

/-- Sends chunk `c` to the parent when it is complete there (10 R414, R419); with RED_CUT 0 only when every input has passed (10 R436). -/
def Dev.forwardChunk (d : Dev) (x : Inst) (ci : Nat) : Dev :=
  let total := (d.group x.t x.g).total
  let me := d.self x.t x.g
  let c := Tab.look {} ci x.chunks
  let n := chunksOf (collP x.desc).count
  if decide (me ≠ 0) && (!x.closed || x.ackSent) && x.full total me c && !c.sent && c.acc.isSome && (c.saved.isEmpty || d.col.cfg.getLsbD 8) then
    let m := { bareMsg x.k with chunk := ci, shape := x.shape.getD 0, elems := c.acc.getD [], last := decide (ci + 1 = n),
                                admitted := if ci + 1 = n then x.admittedSet else [] }
    match d.collSend x.t x.g (parentOf me) 2 m none (collP x.desc).fmt with
    | (d, none) => (d.setInst { x with chunks := Tab.put {} ci { c with sent := true } x.chunks }).give 1 x.t 1
    | (d, some st) => match x.own with | some (gq, idx) => d.endOp gq idx st | none => d
  else d

/-! ### Results (10 R421, R422) -/

/-- The membership bitmap: present members, then members whose carry was folded (10 R421). -/
def bitmapWords (total : Nat) (present carried : List Nat) : List Byte :=
  let half := (total + 7) / 8
  let bytes : List Nat → List Byte := fun l => (List.range half).map fun b =>
    BitVec.ofNat 8 (((List.range 8).map fun i => if l.contains (8 * b + i) then 2 ^ i else 0).foldl (· + ·) 0)
  bytes present ++ bytes carried

/-- Packs bytes into 64-bit words. -/
def packWords : Nat → List Byte → List W64
  | 0, _ => []
  | n + 1, l => if l.isEmpty then [] else BitVec.ofNat 64 (leNat (l.take 8)) :: packWords n (l.drop 8)

/-- Elements as bytes in memory, little-endian (log 22). -/
def elemBytes (fmt : Nat) (l : List W32) : List Byte := l.flatMap fun x => leBytes (fmtBytes fmt) x.toNat

/-- Elements of `w` bytes out of a list of bytes (log 22). -/
def takeElems (w : Nat) : Nat → List Byte → List W32
  | 0, _ => []
  | n + 1, l => BitVec.ofNat 32 (leNat (l.take w)) :: takeElems w n (l.drop w)

/-- `n` elements as read from memory. -/
def unpackElems (fmt : Nat) (data : List W64) (n : Nat) : List W32 :=
  takeElems (fmtBytes fmt) n (data.flatMap fun w => leBytes 8 w.toNat)

/-- Bytes this member receives: offset of its first element and count (10 R410). -/
def shareOf (op count total me : Nat) : Nat × Nat := if op = 0x21 then (me * (count / total), count / total) else (0, count)

/-- The part of a result chunk that this member receives: byte offset in DST and the bytes. -/
def resultBytes (op : Nat) (p : CollP) (total me ci : Nat) (l : List W32) : Nat × List Byte :=
  let (lo, n) := shareOf op p.count total me
  let first := max lo (1024 * ci)
  let last := min (lo + n) (1024 * ci + l.length)
  ((first - lo) * fmtBytes p.fmt, elemBytes p.fmt ((l.drop (first - 1024 * ci)).take (last - first)))

/-- A result chunk reaches the local member, whose operation has started: it is written to DST (10 R422, R437). -/
def Dev.writeResult (d : Dev) (x : Inst) (ci : Nat) (l : List W32) : Dev :=
  match x.own with
  | none => d
  | some (gq, idx) =>
    match d.opAt gq idx with
    | none => d
    | some o =>
      let p := collP x.desc
      let (off, bs) := resultBytes o.desc.op p (d.group x.t x.g).total (d.self x.t x.g) ci l
      if bs.isEmpty then d
      else (d.teeDump o off bs.length (packWords (bs.length + 1) bs)).putLocal o (p.dst + BitVec.ofNat 64 off) off bs.length (packWords (bs.length + 1) bs) false

/-- The FINAL's status reaches the local member (10 R421, R422): with a result its bitmap is written and it ends when all is
written; else it ends at once. -/
def Dev.takeFinal (d : Dev) (x : Inst) (f : FinalInfo) : Dev :=
  let grp := d.group x.t x.g
  let d := d.setGroup x.t x.g fun g => { g with present := f.present.length, missing := f.missing, late := f.late }
  let st := Status.ofCode f.status
  match x.own with
  | none => d
  | some (gq, idx) =>
    match d.opAt gq idx with
    | none => d
    | some o =>
      if st ≠ .ok then d.decideOp gq idx st
      else
        let p := collP x.desc
        let (_, n) := shareOf o.desc.op p.count grp.total (d.self x.t x.g)
        let bs := if p.bitmap = 0 then [] else bitmapWords grp.total f.present f.carried
        let o' := { o with total := n * fmtBytes p.fmt + bs.length, issued := true, endSt := st }
        let d := d.setOp o'
        if bs.isEmpty then d.confirm gq idx 0 else d.putLocal o' p.bitmap 0 bs.length (packWords (bs.length + 1) bs) false

/-- The root finalises an instance whose data is complete (10 R414, R416, R420): FINAL goes down the tree, and the root's own
member takes it. -/
def Dev.finalise (d : Dev) (x : Inst) (st : Status) : Dev :=
  let grp := d.group x.t x.g
  let p := collP x.desc
  let n := chunksOf p.count
  let present := if x.closed then x.admittedSet else (List.range grp.total).filter fun i => !x.left.contains i
  let carried := ((Tab.look {} 0 x.chunks).carries)
  let f : FinalInfo := { status := st.code, present, missing := grp.total - present.length, late := grp.lateHere, carried }
  let kids := childrenOf grp.total 0
  let m := bareMsg x.k
  let d := d.collAll x.t x.g kids 5 { m with chunk := 0xFFFFFFFF, last := true } (some f)
  let scale := if p.cflags.getLsbD 0 then some (present.length + carried.length) else none
  let res := if st = Status.ok then (List.range n).map fun ci =>
      (ci, finishElems p.fmt p.rop scale p.seed x.k (1024 * ci) (((Tab.look {} ci x.chunks).acc).getD [])) else []
  let d := res.foldl (fun d (ci, l) => d.collAll x.t x.g kids 5 { m with chunk := ci, elems := l, last := decide (ci + 1 = n) } none p.fmt) d
  let d := if !kids.isEmpty && d.collDenied x.t x.g x.k p.fmt res then d.endOwn x .accessDenied else d
  let d := if x.closeAt.isSome && decide (st = Status.timeout) then { d with col.quorumFail := satAdd 0xFF d.col.quorumFail } else d
  let d := d.trace 0x05 x.t 0 0xFFFF st.code none (x.g + x.k * 256)
  let d := d.closeInst x
  let d := d.takeFinal x f
  let d := res.foldl (fun d (ci, l) => d.writeResult x ci l) d
  d.journal 0x08 x.t x.g x.k

/-- All chunks of an instance hold everything they wait for, from inputs that have passed (10 R414, R420). -/
def Inst.allFull (x : Inst) (total : Nat) : Bool :=
  x.desc.isSome && !(x.queue.any fun f => f.carry) && (List.range (chunksOf (collP x.desc).count)).all fun ci =>
    let c := Tab.look {} ci x.chunks
    x.full total 0 c && c.saved.isEmpty && (c.acc.isSome || x.closed)

/-- Interior children of a member: those that send CLOSE_ACK (10 R418). -/
def closers (total me : Nat) : List Nat := (childrenOf total me).filter (interior total)

/-- Every CLOSE_ACK has arrived (10 R420). -/
def Inst.acked (x : Inst) (total me : Nat) : Bool := (closers total me).all fun i => x.acks.any fun a => decide (a.1 = i)

/-- The root looks at an instance: below QUORUM it fails with TIMEOUT, else it finalises once all is folded (10 R414, R420). -/
def Dev.rootCheck (d : Dev) (x : Inst) : Dev :=
  let total := (d.group x.t x.g).total
  if x.closed then
    if x.acked total 0 then
      if x.admittedSet.length < (collP x.desc).quorum then d.finalise x .timeout
      else if x.allFull total then d.finalise x .ok else d
    else d
  else if x.allFull total then d.finalise x .ok else d

/-- An interior member has all its CLOSE_ACKs: it sends its own (10 R418) and forwards what is now complete (10 R419). -/
def Dev.interiorCheck (d : Dev) (x : Inst) : Dev :=
  let total := (d.group x.t x.g).total
  let me := d.self x.t x.g
  let d := if x.closed && x.acked total me && !x.ackSent then
      (d.setInst { x with ackSent := true }).collAll x.t x.g [parentOf me] 4 { bareMsg x.k with chunk := 0xFFFFFFFE, admitted := x.admittedSet }
    else d
  (List.range (chunksOf (collP x.desc).count)).foldl (fun d ci =>
    match d.instAt x.t x.g x.k with | some y => d.forwardChunk y ci | none => d) d

/-- After any change an engine looks at its instance again. -/
def Dev.checkInst (d : Dev) (t g k : Nat) : Dev :=
  match d.instAt t g k with
  | none => d
  | some x => if d.self t g = 0 then d.rootCheck x else d.interiorCheck x

/-- A late contribution of a group is counted with its last chunk (10 R424; log 157). -/
def Dev.countLate (d : Dev) (t g : Nat) (last : Bool) : Dev := if last then d.setGroup t g fun x => { x with lateHere := x.lateHere + 1 } else d

/-- A chunk of this member's own data has been read: a leaf sends it to its parent as CONTRIB, any other member folds it (10, Model). -/
def Dev.ownChunk (d : Dev) (x : Inst) (ci : Nat) (elems : List W32) : Dev :=
  let total := (d.group x.t x.g).total
  let me := d.self x.t x.g
  let p := collP x.desc
  if decide (me ≠ 0) && !interior total me then
    let m := { bareMsg x.k with chunk := ci, shape := x.shape.getD 0, elems, last := decide (ci + 1 = chunksOf p.count) }
    match d.collSend x.t x.g (parentOf me) 1 m none p.fmt with
    | (d, none) => d
    | (d, some st) => match x.own with | some (gq, idx) => d.endOp gq idx st | none => d
  else if x.closed && !x.admitted.contains me then d.countLate x.t x.g (decide (ci + 1 = chunksOf p.count))
  else d.setInst { x with admitted := insertNat me x.admitted, queue := x.queue ++ [{ src := me, chunk := ci, elems, raw := true }] }

/-- Refuses a member's message: a FINAL to that member alone (10 R409, R412, R441; log 23). -/
def Dev.collRefuse (d : Dev) (m : CollMsg) (st : Status) : Dev :=
  let total := (d.group m.tenant m.group).total
  let y : CollMsg := { bareMsg m.inst with chunk := 0xFFFFFFFF, last := true, tenant := m.srcTen, group := m.group }
  let k : Pkt := { alias_ := true, dst := m.src, dstTen := m.srcTen, src := d.fab.node.getD 0, srcTen := m.tenant, qglobal := 64 * m.tenant + 63, len := collLen total 0 5 y }
  match d.collSeal m.tenant k total 4 5 (d.collSel m.tenant m.group y) y (some { status := st.code, present := [], missing := 0, late := 0, refusal := true }) with
  | some (y, f) => d.sendAway .coll { k with ksel := y.ksel } (.coll 5 y f)
  | none => d

/-- Why a collective message is refused: the group is not defined here (10 R441), or has another list (10 R409). -/
def Dev.collBar (d : Dev) (m : CollMsg) : Option Status :=
  let grp := d.group m.tenant m.group
  if !grp.complete then some .targetUnavailable else if m.ghash ≠ ghashOf grp.members then some .badState else none

/-- Data of a member reaches its engine (10 R412, R413, R417, R419): it is admitted unless the engine has closed, and queued once. -/
def Dev.collData (d : Dev) (m : CollMsg) (elems : List W32) (partial_ : Bool) : Dev :=
  let grp := d.group m.tenant m.group
  let me := d.self m.tenant m.group
  if !(childrenOf grp.total me).contains m.member || partial_ ≠ interior grp.total m.member then d
  else if m.inst ≤ grp.finalised then (if m.passed then d.countLate m.tenant m.group m.last else d)
  else
    let (d, x) := d.openInst m.tenant m.group m.inst
    if x.shape.isSome && decide (x.shape ≠ some m.shape) then
      (if m.passed then (d.setInst { x with left := insertNat m.member x.left }).collRefuse m .badField else d)
    else if x.closed && !x.admitted.contains m.member && !(x.acks.any fun a => decide (a.1 = m.member)) then
      (if m.passed then d.countLate m.tenant m.group m.last else d)
    else
      let x := { x with shape := some m.shape, admitted := if x.closed then x.admitted else (m.member :: m.admitted).foldl (fun l i => insertNat i l) x.admitted }
      let c := Tab.look ({} : Chunk) m.chunk x.chunks
      let f : FoldIn := { src := m.member, chunk := m.chunk, elems, raw := !partial_, passed := m.passed, port := m.port }
      if c.folded.contains m.member then
        -- the packet of a tentative fold has now passed, or this is a later copy
        let c := if m.passed then { c with saved := c.saved.filter fun s => decide (s.1 ≠ m.member) } else c
        (d.setInst { x with chunks := Tab.put {} m.chunk c x.chunks }).checkInst m.tenant m.group m.inst
      else
        let q := x.queue.filter fun y => !(decide (y.src = m.member) && decide (y.chunk = m.chunk) && !y.passed)
        if q.any fun y => decide (y.src = m.member) && decide (y.chunk = m.chunk) && !y.carry then d.setInst x
        else d.setInst { x with queue := q ++ [f] }

end Sys2Proof.Machine
end

