-- ==== Sys2Proof/Machine/OpsReset.lean ====
section
/-! DEFINITION. Resets and the fault aggregator: the start of a tenant reset (03 R115, 05 R210), device reset (03 R112), power loss (02 R74), the S5 latch (20 R841), and how each fault is merged, escalated, recorded and reacted to (20 R830 to R850). -/

namespace Sys2Proof.Machine

/-! ### Twin and Vault close -/

/-- S4, S5, DR and Always-on only hold TWIN_ALIVE_OUT low and send DOWN once, when the Twin port is up (18 R765). -/
def Dev.twinDown (d : Dev) (cause : Nat) : Dev :=
  let d := { d with twn.aliveOut := false, twn.outHeld := true }
  if decide ((d.lport 64).st = .active) && !d.twn.downSent then { d.twin 0x03 0xFF cause with twn.downSent := true } else d

/-- A program of the Vault is in flight: of a captured granule or of a raw command. -/
def Vlt.busy (v : Vlt) : Bool := (v.ten.any fun x => x.2.marks.any fun m => m.read && !m.mirrorWait) || !v.raw.isEmpty

/-- The controller reports closed once no program is in flight (17 R742). -/
def Dev.vaultClosed (d : Dev) : Dev :=
  if d.vlt.st = .closing && !d.vlt.busy then { d with vlt.st := .closed } else d

/-- Power loss is signalled to the Vault controller: it starts no further program or erase, and an erase in progress is abandoned, so
that no page of its block is marked erased (17 R737, R742). -/
def Dev.vaultClose (d : Dev) : Dev :=
  ({ d with
    vlt.closing := true
    vlt.st := if d.vlt.st = VSt.ready then VSt.closing else d.vlt.st
    onyx.blks := d.onyx.blks.map fun (x : Nat × Blk) =>
      (x.1, if x.2.st = BlkSt.erasing then ({ x.2 with st := BlkSt.mapped, written := 1024 } : Blk) else x.2) }).vaultClosed

/-- Jade asserts the laser-disable wires of some Rubies (01 R20): every laser there that is not FAILED loses its drive current and reads
OFF, whatever the control link says, and no position of the Ruby is lit. -/
def Dev.lasersOff (d : Dev) (ns : List Nat) : Dev :=
  { d with
    jad.laserDis := ns.foldl (fun m n => m ||| BitVec.ofNat 2 (2 ^ n)) d.jad.laserDis
    las.las := Tab.mapv {} (fun j l => if ns.contains (j / 36) && decide (l.st ≠ .failed) then { l with st := .off, current := 0 } else l) d.las.las
    las.pos := Tab.mapv {} (fun i q => if ns.contains (i / 18) then { q with lit := false } else q) d.las.pos }

/-- The 2 ms hold-up: both laser-disable wires, and the Vault closes (02 R74, 16 R675, 20 R841). -/
def Dev.loseMain (d : Dev) : Dev := { d.vaultClose.lasersOff [0, 1] with jad.losing := true }

/-- Mirroring of a tenant is in force (17 R726): enabled, in Twin operation, the tenant served here and taken by the partner. -/
def Dev.mirroring (d : Dev) (t : Nat) : Bool :=
  d.vlt.cfg.getLsbD 24 && (decide (d.twn.st = .syncing) || decide (d.twn.st = .paired)) && (d.ten t).served && !(d.vten t).mirrorOff

/-- The partner is told to drop an epoch, or will be once mirroring resumes (17 R726, R727). -/
def Dev.sendDrop (d : Dev) (t e : Nat) : Dev :=
  if d.mirroring t then d.twin 0x24 t e else { d with onyx.dropRec := d.onyx.dropRec ++ [(t, e)] }

/-- A tenant's Vault contents are removed here (19 R805): versions and seals go, and VGEN advances to the next that gives a key. -/
def Dev.vaultRemove (d : Dev) (t : Nat) : Dev :=
  let v := d.vten t
  let n := vgenFrom (d.secNv.pvk.getD 0) t 64 (Tab.look 0 t d.onyx.vgen + 1)
  { d.vlog (.vgen t n) with
    onyx.vers := d.onyx.vers.filter fun v => decide (v.t ≠ t)
    onyx.seals := d.onyx.seals.filter fun v => decide (v.t ≠ t)
    onyx.chain := Tab.put [] t [] d.onyx.chain
    onyx.dropRec := d.onyx.dropRec.filter fun x => decide (x.1 ≠ t)
    onyx.vgen := Tab.put 0 t n d.onyx.vgen
    vlt.ten := Tab.put {} t { regions := v.regions, marks := v.marks, stalled := v.stalled } d.vlt.ten }

/-- VDROP with EPOCH all ones: every epoch of the tenant (19 R805). -/
def allEpochs : Nat := 2 ^ 64 - 1

/-- The serving device removes a tenant's Vault contents on both sides (19 R805). -/
def Dev.vaultErase (d : Dev) (t : Nat) : Dev := (d.vaultRemove t).sendDrop t allEpochs

/-- The tenant's Vault state loses a seal or restore in progress; a seal already recorded here is dropped on both sides (17 R747). -/
def Dev.endSeal (d : Dev) (t : Nat) : Dev :=
  let v := d.vten t
  let d := { d.setVten t (fun v => { v with sealing := none, restoring := none, restoreBad := none }) with vlt.vrest := d.vlt.vrest.filter fun k => decide (k.1 ≠ t) }
  match v.sealing with
  | some s =>
    if s.recorded then
      ({ d.vlog (.drop t s.epoch) with onyx.seals := d.onyx.seals.filter fun x => !(decide (x.t = t) && decide (x.epoch = s.epoch)) }).sendDrop t s.epoch
    else d
  | none => d

/-! ### Tenant reset -/

/-- The tenant an object belongs to (06 R225). -/
def Obj.tenant? : Obj → Option Nat
  | .tenant t => some t
  | .queue t _ => some t
  | .stream t _ => some t
  | .group t _ => some t
  | .region t _ => some t
  | _ => Option.none

/-- A command that has not begun is answered without effect. -/
def Dev.answerWait (d : Dev) (w : Wait) (st : Status) : Dev :=
  d.respond w.hdr.req.path w.hdr.req.noIrq
    { opcode := w.hdr.opcode.toNat, seq := w.hdr.req.seq, tenant := w.hdr.req.tenant.toNat, status := st }

/-- Commands of a function that have not begun executing are answered (05 R210). -/
def Dev.refuseWaiting (d : Dev) (f : Nat) (st : Status) : Dev :=
  let mine := (d.mbx.cur.toList.filter fun w => decide (pathFn w.hdr.req.path = f) && decide (f ≠ 0)) ++ (d.fn f).stream
  let d := { d with mbx.cur := d.mbx.cur.filter fun w => !(decide (pathFn w.hdr.req.path = f) && decide (f ≠ 0)) }
  mine.foldl (fun d w => d.answerWait w st) (d.setFn f fun g => { g with stream := [], cmdHead := g.cmdTail })

/-- A TR of tenant `t` begins with Fence, or is joined (03 R115, R118): waiting commands are answered TENANT_FENCED and those in
progress end with ABORTED (05 R210); an armed or firing dump and the wait-for capture go (21 R889); pre-translations are
discarded (08 R331). TEN_RESET's own final notice follows at Release (06 R233). -/
def Dev.trStart (d : Dev) (t cause : Nat) : Dev :=
  if d.fenced t then d
  else
    let d := d.setTen t fun x => { x with rst := 1, rstCause := cause, trAt := d.now }
    let d := d.refuseWaiting (t + 1) .tenantFenced
    let d := (d.endSeal t).finishAccs (fun a => decide (pathFn a.req.path = t + 1) && decide (a.opcode ≠ 0x0204)) .aborted []
    let d := d.finishAccs (fun a => decide (a.opcode = 0x0A04) && decide (a.arg = t)) .aborted []
    let gone := d.xlt.pre.filter fun p => decide (p.2.2.owner = t + 1)
    { d with
      xlt.pre := d.xlt.pre.filter fun p => decide (p.2.2.owner ≠ t + 1)
      xlt.preDisc := min 0x7FFF (d.xlt.preDisc + gone.length)
      dbg.dumps := Tab.put none t none d.dbg.dumps
      dbg.graphs := Tab.put none t none d.dbg.graphs }

/-- Descriptors aborted or decided with one status (07 R292). -/
def Dev.endOps (d : Dev) (p : Op → Bool) (st : Status) : Dev :=
  (d.tq.ops.filter p).foldl (fun d o => d.endOp o.gq o.idx st) d

/-- Quiesce begins: the tenant's operations are aborted (07 R295), its member leaves each open instance, and an instance it is root
of or holds other members' data of fails (10 R440). -/
def Dev.trQuiesce (d : Dev) (t : Nat) : Dev :=
  let d := d.setTen t fun x => { x with rst := 2 }
  let mine := d.col.inst.filter fun x => decide (x.t = t)
  let d := mine.foldl (fun d x =>
    match d.instAt x.t x.g x.k with
    | none => d
    | some y =>
      let me := d.self y.t y.g
      let holds := y.chunks.any fun c => c.2.folded.any fun i => decide (i ≠ me)
      let d := if me = 0 then d else (d.collSend y.t y.g 0 6 { bareMsg y.k with chunk := Status.aborted.code }).1
      if me = 0 then d.failInst { y with own := none } .targetUnavailable
      else if holds then d.failAll { y with own := none } .targetUnavailable else d.setInst { y with own := none }) d
  d.endOps (fun o => decide (o.gq / 64 = t)) .aborted

/-! ### Device reset -/

/-- Every domain of the Active column, in the order the sequencer turns it on (02 R58). In Active the model clock-gates none, which R59
leaves open (may): DESIGN CHOICE (log 131). -/
def activeSeq : List (Nat × Nat) := (List.range 112).map fun n => (n, if n = 100 || n = 103 then 1 else 3)

/-- Bit of JAD_RSTCAUSE a DR sets. -/
def drBit : DrCause → BitVec 8
  | .fault => 2 | .cmd => 4 | .pwrOk => 8 | .refclk => 16 | .wdog => 32 | .tap => 0

/-- The device as a DR leaves it: only Jade's domain 0, fuses and the non-volatile stores survive (03 R112), with them ORI, POS and STK of
the die slots (01 R47, reset PR only); tenants' views of the log read empty (20, registers). Domain 0 reads OFF, as the reset column of
PWR_DOMSTAT says, until the sequencer's first step: DESIGN CHOICE (log 130), since the domain table permits it only ON. -/
def Dev.cleared (d : Dev) : Dev :=
  { jad := d.jad, flash := d.flash, fuses := d.fuses, onyx := d.onyx, calNv := d.calNv, secNv := d.secNv, twnPr := d.twnPr,
    boot.dies := Tab.mapv {} (fun _ x => { ori := x.ori, pos := x.pos, stk := x.stk }) d.boot.dies
    flt := { log := d.flt.log.map fun r => (if r.dom.isSome then { r with acked := true, view := false } else r : Rec),
             lost := d.flt.lost, incl := d.flt.incl, inclSeq := d.flt.inclSeq, waiting := d.flt.waiting, due := d.flt.due },
    out := d.out, free := d.free, now := d.now }

/-- A DR (03 R112, R117): counted before HOST_READY unless PWR_OK caused it (R98); a latched device stays as it is (20 R841). The
sixth stops boot. -/
def Dev.devReset (d : Dev) (cause : DrCause) : Dev :=
  if d.jad.latched then d
  else
    let n := if d.up then 0 else if cause = .pwrOk then d.jad.drCount else d.jad.drCount + 1
    let d := (d.twinDown 1).cleared
    let d := { d with
      jad.drCount := n
      jad.rstCause := d.jad.rstCause ||| drBit cause
      jad.losing := false
      jad.laserDis := if d.jad.pwrOk then 0 else d.jad.laserDis
      boot.stage := if d.jad.pwrOk then .clocks else .rails
      boot.start := d.now
      pwr.seq := if d.jad.pwrOk then activeSeq else [(0, 3)], pwr.stepAt := d.now }
    if 6 ≤ n then ({ d with boot.stage := .halted, jad.drCount := 6 }).post Src.bootLoop 0 else d

/-! ### Inclusions (20 R844, R845, R850) -/

/-- The bytes of an inclusion (20 R844). -/
def Incl.bytes (i : Incl) : List Byte :=
  let b := leBytes 4 i.seq ++ leBytes 2 i.src ++ leBytes 1 i.unit ++ leBytes 1 i.stage ++ leBytes 8 i.ftime ++ leBytes 8 i.detail ++ leBytes 4 i.fwVer.toNat
  b ++ leBytes 4 (crc32c b).toNat

/-- SEQ of a stored inclusion. -/
def inclSeqOf (b : List Byte) : Nat := leNat (b.take 4)

/-- A stored inclusion passes its CRC (20 R845). -/
def inclValid (b : List Byte) : Bool := decide (b.length = 32) && decide (leNat (b.drop 28) = (crc32c (b.take 28)).toNat)

/-- The place of a new inclusion: the first unused, else that with the lowest SEQ (20 R845). -/
def inclPlace (st : Tab (List Byte)) : Nat :=
  match (List.range 64).find? fun k => (Tab.look [] k st).isEmpty with
  | some k => k
  | none => (List.range 64).foldl (fun b k => if inclSeqOf (Tab.look [] k st) < inclSeqOf (Tab.look [] b st) then k else b) 0

/-- An inclusion is written to the store (20 R844, R845). -/
def Dev.storeIncl (d : Dev) (i : Incl) : Dev :=
  { d with
    flt.inclSeq := d.flt.inclSeq + 1
    flt.incl := Tab.put [] (inclPlace d.flt.incl) { i with seq := d.flt.inclSeq + 1 }.bytes d.flt.incl }

/-- Inclusions that waited for domain 3 are written (20 R850). -/
def Dev.flushIncl (d : Dev) : Dev := if d.domain 3 = 3 then d.flt.waiting.foldl Dev.storeIncl { d with flt.waiting := [] } else d

/-- An inclusion of the present fault; it waits while domain 3 is OFF. -/
def Dev.include_ (d : Dev) (src unit detail : Nat) : Dev :=
  let i : Incl := { seq := 0, src, unit, stage := d.boot.stage.code, ftime := d.fab.time, detail, fwVer := d.boot.fwVer }
  if d.domain 3 = 0 then { d with flt.waiting := d.flt.waiting ++ [i] } else d.storeIncl i

/-- S5: the latch, an inclusion, Twin DOWN; after HOST_READY the hold-up of R841, before it boot stops in HALTED (03 R121). -/
def Dev.latch (d : Dev) (p : Post) : Dev :=
  let d := ((d.twinDown 2).include_ p.src p.unit p.detail)
  let d := { d with jad.latched := true }
  if d.up then d.loseMain
  else { d with boot.stage := .halted, boot.conikHeld := true, mbx.link.held := true, mbx.link.up := false }

/-! ### The aggregator (20 R830) -/

/-- The slot a new record takes: an empty one, else that of the oldest cleared record (20 R833). -/
def freeSlot (log : List Rec) : Option Nat × List Rec :=
  match (List.range 256).find? fun i => !(log.any fun r => decide (r.slot = i)) with
  | some i => (some i, log)
  | none =>
    match log.find? fun r => r.cleared with
    | some r => (some r.slot, without r log)
    | none => (none, log)

/-- Tenants an S3 reaction resets: the tenant of the record, or those bound to the port (20 R840). -/
def Dev.s3Tenants (d : Dev) (p : Post) : List Nat :=
  match p.dom with
  | some t => [t]
  | none => if srcPortScope p.src then (List.range 16).filter fun t => (d.hport p.unit).bind.getLsbD t else []

/-- The reaction of a class (20 R840, R841, R885). -/
def Dev.react (d : Dev) (cls : Nat) (p : Post) : Dev :=
  match cls with
  | 3 =>
    if d.stopped then { d with dbg.heldTr := d.dbg.heldTr ++ (d.s3Tenants p).map fun t => (t, 3) }
    else (d.s3Tenants p).foldl (fun d t => d.trStart t 3) d
  | 4 =>
    let d := (d.twinDown 1).vaultClose
    if d.jad.losing || p.src = Src.refclkLost then { d with jad.rstCause := d.jad.rstCause ||| drBit .fault } else d.devReset .fault
  | 5 => d.latch p
  | _ => d

/-- A time at which a timer began, moved on by what a stop since `cut` held it (21 R880). -/
def heldTime (cut now t : Nat) : Nat := t + (now - max cut t)

/-- The timers that a stop holds go on from their values (21 R880): those of 07 R289 and 09 R357, the PRI timeout, collective deadlines and grace
periods, and the dump limit. -/
def Dev.holdTimers (d : Dev) : Dev :=
  let h := heldTime d.dbg.cutAt d.now
  { d with
    tq.txns := d.tq.txns.map fun (x : Txn) => { x with issued := h x.issued }
    tq.ops := d.tq.ops.map fun (o : Op) => { o with startedAt := h o.startedAt }
    tq.q := d.tq.q.map fun (x : Nat × Queue) => (x.1, { x.2 with visible := x.2.visible.map fun v => (v.1, h v.2) })
    xlt.pages := d.xlt.pages.map fun (p : PageReq) => { p with at_ := h p.at_ }
    col.inst := d.col.inst.map fun (x : Inst) => { x with started := h x.started, closeAt := x.closeAt.map h }
    vlt.ten := d.vlt.ten.map fun (x : Nat × VTen) => (x.1, { x.2 with marks := x.2.marks.map fun m => if m.reading then { m with at_ := h m.at_ } else m })
    dbg.dumps := d.dbg.dumps.map fun (x : Nat × Option Dump) => (x.1, x.2.map fun y => { y with at_ := h y.at_ }) }

/-- A stopped device resumes (21 R883, R884): pipelines restart, and the tenant resets decided meanwhile begin (R885). Causes: 0
DBG_RESUME, 1 MAXSTOP, 2 FLR, 3 PERST_N. -/
def Dev.resume (d : Dev) (cause : Nat) : Dev :=
  if d.stopped then
    let d := { d.holdTimers with dbg.st := .running, dbg.resumeCause := cause }
    let d := (d.trace 0x09 0xFF 0 0xFFFF 0 none d.dbg.cycles).finishAccs (fun a => decide (a.opcode = 0x0A00)) .ok []
    let held := d.dbg.heldTr
    held.foldl (fun d h => d.trStart h.1 h.2) { d with dbg.heldTr := [] }
  else d

/-- One fault at the aggregator (20 R830, R831): merged into an unacknowledged record of its source and unit, or escalated, recorded
and reacted to. A die held out of service raises none (20 R849). -/
def Dev.handle (d : Dev) (p : Post) : Dev :=
  if (resetClass p.src).isNone || (faultSlot p.src p.unit).any (fun n => (Tab.look {} n d.boot.dies).held) then d
  else if d.flt.log.any fun r => decide (r.src = p.src) && decide (r.unit = p.unit) && !r.acked then
    { d with flt.log := d.flt.log.map fun r =>
        (if r.src = p.src && r.unit = p.unit && !r.acked then { r with count := satAdd 0xFFFF r.count } else r : Rec) }
  else
    let c := d.flt.classOf p.src
    let esc := decide (c < 5) && d.flt.log.any fun r => decide (r.dom = p.dom) && decide (r.cls = c) && !r.acked
    let cls := if esc then c + 1 else c
    let acked := decide (cls = 3) && !(d.s3Tenants p).isEmpty
    let (slot, log) := freeSlot d.flt.log
    let d := match slot with
      | some i =>
        ({ d with
          flt.log := log ++ [({ slot := i, time := d.fab.time, src := p.src, cls, prog := c, acked, esc, dom := p.dom, unit := p.unit } : Rec)]
          jad.smbAlert := d.jad.smbAlert || decide (min 5 d.flt.pinThr ≤ cls) }).trace 0x07 (p.dom.getD 0xFF) 0 0xFFFF 0 none p.src
      | none => { d with flt.lost := satAdd 0xFFFF d.flt.lost }
    let d := if slot.isSome || esc then
        let d := d.signal 0 2
        match p.dom with | some t => d.signal (t + 1) 2 | none => d
      else d
    (if 2 ≤ cls then d.wake else d).react cls p

/-- The fault the aggregator serves next: a P0 source before all others, else the oldest (20 R843). -/
def nextDue (l : List Post) : Option Post := (l.find? fun p => srcP0 p.src).or l.head?

/-- The faults that have fired are served one at a time. -/
def Dev.settleN : Nat → Dev → Dev
  | 0, d => d
  | n + 1, d =>
    match nextDue d.flt.due with
    | none => d
    | some p => Dev.settleN n (({ d with flt.due := d.flt.due.erase p }).handle p)

/-- The faults a command has fired are handled, with those that handling them fires (at most 64 go in one step). -/
def Dev.settle (d : Dev) : Dev := d.settleN 64

/-- The board or the administrator acknowledges: every record then unacknowledged below S5 is acknowledged and cleared (20 R836,
R838); a STUCK bit lasts until its fault is acknowledged (02, JAD_AINSTAT). -/
def Dev.ackAll (d : Dev) : Dev :=
  let hit : Rec → Bool := fun r => !r.acked && decide (r.cls < 5)
  let srcs := (d.flt.log.filter hit).map (·.src)
  { d with
    flt.log := d.flt.log.map fun r => (if hit r then { r with acked := true, cleared := true } else r : Rec)
    jad.ain := d.jad.ain.filterMap fun (i, a) =>
      let a' := if srcs.contains (Src.stopStuck + i) then { a with stuck := false } else a
      if a' = {} then none else some (i, a') }

/-! ### Throttling (16 R669) -/

/-- The level in force follows its parts: the largest of g, b, 4 while a non-Onyx limit comparator is active, and EXT_LEVEL while
THERM_IN_N is low. -/
def Dev.relevel (d : Dev) : Dev :=
  let lim := (List.range 50).any fun n => (Tab.look {} n d.thm.sens).limit
  let ext := if (Tab.look {} 1 d.jad.ain).level then d.thm.cfg.toNat % 8 else 0
  let l := max (max d.thm.g d.thm.b) (max (if lim then 4 else 0) ext)
  if l = d.thm.level then d else ({ d with thm.level := l }).trace 0x0C 0xFF 0 0xFFFF 0 none l

end Sys2Proof.Machine
end

