-- ==== Sys2Proof/WellFormed.lean ====
section
/-! DEFINITION. Well-formed commands: every operand that names a unit of the device names one it has. What a message carries is not checked here: a wrong value in it is an input the spec gives an effect. -/

namespace Sys2Proof

/-- Names a Host Facet port (04). -/
def Unit.hostPort (n : Nat) : Bool := decide (n < 8)
/-- Names a Host Facet port, or 8 + n for the Inner Facet of tile n (04). -/
def Unit.facetLink (n : Nat) : Bool := decide (n < 12)
/-- Names an optical port (12). -/
def Unit.optPort (n : Nat) : Bool := decide (n < 64)
/-- Names an optical port, or the Twin port 64 (12, 18). -/
def Unit.linkPort (n : Nat) : Bool := decide (n < 65)
/-- Names a tenant slot (07). -/
def Unit.tenant (n : Nat) : Bool := decide (n < 16)
/-- Names a PCI function: the PF or a VF (05). -/
def Unit.function (n : Nat) : Bool := decide (n < 17)
/-- Names a device-global queue (07). -/
def Unit.queueNo (n : Nat) : Bool := decide (n < 1024)
/-- Names a queue of a tenant (07). -/
def Unit.queueOf (n : Nat) : Bool := decide (n < 64)
/-- Names an asynchronous input (02). -/
def Unit.asyncInput (n : Nat) : Bool := decide (n < 6)
/-- Names a bring-up item, 1 to 8 (03). -/
def Unit.bringupItem (n : Nat) : Bool := decide (1 ≤ n) && decide (n < 9)
/-- Names a Beryl tile (13). -/
def Unit.tile (n : Nat) : Bool := decide (n < 4)
/-- Names a ring of a Beryl (13). -/
def Unit.ring (n : Nat) : Bool := decide (n < 576)
/-- Names a heater sense group (13). -/
def Unit.group (n : Nat) : Bool := decide (n < 32)
/-- Names a collective group of a tenant (10). -/
def Unit.collGroup (n : Nat) : Bool := decide (n < 256)
/-- Names a laser, 36 for each Ruby (14). -/
def Unit.laser (n : Nat) : Bool := decide (n < 72)
/-- Names a key range (08). -/
def Unit.keyRange (n : Nat) : Bool := decide (n < 8)
/-- Names an entry of the host map (08). -/
def Unit.hmapEntry (n : Nat) : Bool := decide (n < 16)
/-- Names a wavelength position or receive channel (13, 14). -/
def Unit.channel (n : Nat) : Bool := decide (n < 18)
/-- Names a Ruby (14). -/
def Unit.ruby (n : Nat) : Bool := decide (n < 2)
/-- Names a temperature sensor (16). -/
def Unit.sensor (n : Nat) : Bool := decide (n < 58)
/-- Names a bridge of an Inner Facet (04). -/
def Unit.bridge (n : Nat) : Bool := decide (n < 4)
/-- Names a cluster of a Host Facet port (04). -/
def Unit.cluster (n : Nat) : Bool := decide (n < 32)
/-- Names a cluster of an Inner Facet (04). -/
def Unit.innerCluster (n : Nat) : Bool := decide (n < 72)
/-- Names a cluster of a Host Facet port, or of an Inner Facet as link 8 + n (04 R155). -/
def Unit.facetCluster (p c : Nat) : Bool := Unit.facetLink p && (if p < 8 then Unit.cluster c else Unit.innerCluster c)
/-- Names a declared stream of a tenant (09). -/
def Unit.stream (n : Nat) : Bool := decide (n < 32)
/-- Names a reduce engine (10). -/
def Unit.engine (n : Nat) : Bool := decide (n < 4)
/-- Names an Onyx die (17). -/
def Unit.onyxDie (n : Nat) : Bool := decide (n < 8)
/-- Names a block of an Onyx die (17). -/
def Unit.onyxBlock (n : Nat) : Bool := decide (n < 4096)
/-- Names a calibration channel (15). -/
def Unit.calChannel (n : Nat) : Bool := decide (n < 2304)
/-- Names a buffer pool (07). -/
def Unit.bufferPool (n : Nat) : Bool := decide (n < 3)
/-- Names an egress: an optical port, or 64 + n for DMA engine n (07 R281). -/
def Unit.egress (n : Nat) : Bool := decide (n < 80)
/-- Names a FLT_SEV word (20). -/
def Unit.sevWord (n : Nat) : Bool := decide (n < 32)
/-- Names a shadow region (17). -/
def Unit.shadowRegion (n : Nat) : Bool := decide (n < 16)

/-- Every unit a command names exists. -/
def Instr.wf : Instr → Bool
  | .aoRailsUp => true
  | .prRelease .. => true
  | .pwrOkRise => true
  | .pwrOkFall _ => true
  | .railFail .. => true
  | .powerlossHoldupEnd => true
  | .pwrOkLate => true
  | .pwrReqRetry => true
  | .pllLock => true
  | .refclkWindowCheck .. => true
  | .refclkPpmCheck .. => true
  | .xtalFail => true
  | .rcTrim => true
  | .stopReqEvent _ => true
  | .thermInOnset _ => true
  | .thermInRelease => true
  | .faultAckEdge _ => true
  | .timePpsEdge _ => true
  | .twinAliveEdge _ => true
  | .twinAliveTimeout => true
  | .asyncStuckTimeout i => Unit.asyncInput i
  | .asyncUnmask i => Unit.asyncInput i
  | .asyncRateFault i => Unit.asyncInput i
  | .twinAliveOutToggle => true
  | .domainStepDone => true
  | .identityCollect .. => true
  | .slotLoad .. => true
  | .slotVerify => true
  | .selftestPreop .. => true
  | .bootWatchdog => true
  | .hostReadyEntry => true
  | .bringupItemStart item => Unit.bringupItem item
  | .fabricReadyEntry => true
  | .perstAssert => true
  | .perstDeassert => true
  | .pcieFlrPf => true
  | .pcieFlrVf t => Unit.tenant t
  | .flrReadsDrained fn => Unit.function fn
  | .deviceReset .. => true
  | .trQuiesceDone t => Unit.tenant t
  | .trScrubDone t => Unit.tenant t
  | .pcieConfigAccess fn _ _ _ => Unit.function fn
  | .pcieLinkTrain .. => true
  | .pcieAerError _ bit => decide (bit < 32)
  | .pcieReadCompletion fn _ _ _ => Unit.function fn
  | .pcieCompletionTimeout fn _ => Unit.function fn
  | .bmeClear fn => Unit.function fn
  | .bmeSet fn => Unit.function fn
  | .priEnableWrite fn => Unit.function fn
  | .facetFlitRx p _ => Unit.hostPort p
  | .facetAckTimeout p => Unit.hostPort p
  | .facetHr p => Unit.hostPort p
  | .facetHrHoldExpiry p => Unit.hostPort p
  | .facetKLock p => Unit.facetLink p
  | .facetLanesIdentified p _ _ _ _ => Unit.facetLink p
  | .facetCentreDone p _ _ => Unit.facetLink p
  | .facetLaneRes p _ _ => Unit.facetLink p
  | .facetNeg p _ _ _ => Unit.hostPort p
  | .facetCrd p _ _ _ _ _ => Unit.hostPort p
  | .facetReady p _ => Unit.hostPort p
  | .facetTrainTimeout p => Unit.facetLink p
  | .facetLaneWindow p _ => Unit.facetLink p
  | .facetRepairReq p c _ _ => Unit.facetCluster p c
  | .facetRepairAt p c _ => Unit.facetCluster p c
  | .facetRepairCycleN p c => Unit.facetCluster p c
  | .facetRepairTake p c => Unit.facetCluster p c
  | .facetRepairRelease p c => Unit.facetCluster p c
  | .facetMaskReq p c => Unit.hostPort p && Unit.cluster c
  | .facetMaskAt p c _ => Unit.hostPort p && Unit.cluster c
  | .facetMaskCycle p c => Unit.hostPort p && Unit.cluster c
  | .innerClusterFail n c _ => Unit.bridge n && Unit.innerCluster c
  | .facetMsgRd p _ => Unit.hostPort p
  | .facetMsgWr p _ => Unit.hostPort p
  | .facetMsgWrp p _ => Unit.hostPort p
  | .facetMsgAtom p _ => Unit.hostPort p
  | .facetMsgAtomp p _ => Unit.hostPort p
  | .facetMsgCpl p _ _ _ => Unit.hostPort p
  | .facetMsgCpld p _ _ _ _ => Unit.hostPort p
  | .facetCohGet p _ => Unit.hostPort p
  | .facetCohInvack p _ => Unit.hostPort p
  | .facetCohDrop p _ => Unit.hostPort p
  | .cohInvackTimeout p _ => Unit.hostPort p
  | .facetTimestampRx p _ _ => Unit.hostPort p
  | .sidebandCommand p _ => Unit.hostPort p
  | .mbxCmdDoorbell fn _ _ => Unit.function fn
  | .mbxRspHeadWrite fn _ => Unit.function fn
  | .mbxNtcHeadWrite fn _ => Unit.function fn
  | .mbxCtlWrite fn _ _ => Unit.function fn
  | .mctpMessage .. => true
  | .conikStepSelect .. => true
  | .oxsumUnknownOpcode .. => true
  | .devVersion .. => true
  | .devOpcodes .. => true
  | .devStatus .. => true
  | .devIdentity .. => true
  | .devReset .. => true
  | .devResetApply => true
  | .flashWrite .. => true
  | .flashEraseDone => true
  | .flashFinalCheck => true
  | .flashRead .. => true
  | .fwActivate .. => true
  | .fwConfirm .. => true
  | .hportReset .. => true
  | .tenAssign .. => true
  | .tenRelease .. => true
  | .tenBind .. => true
  | .tenQuery .. => true
  | .tenReset .. => true
  | .tenExport .. => true
  | .qCreate .. => true
  | .qDestroy .. => true
  | .qStart .. => true
  | .qStop .. => true
  | .qAbort .. => true
  | .qQuery .. => true
  | .xltFlush .. => true
  | .streamDeclare .. => true
  | .streamWithdraw .. => true
  | .fabStatus .. => true
  | .fabSetPkgid .. => true
  | .fabTimeSet .. => true
  | .fabRouteWrite .. => true
  | .fabTrunk .. => true
  | .linkReset .. => true
  | .colGroupSet .. => true
  | .colGroupDrop .. => true
  | .colStatus .. => true
  | .semRead .. => true
  | .semWrite .. => true
  | .vltShadowAdd .. => true
  | .vltShadowRemove .. => true
  | .vltSeal .. => true
  | .vltRestore .. => true
  | .vltQuery .. => true
  | .vltEpochDrop .. => true
  | .vltRawErase .. => true
  | .vltRawProgram .. => true
  | .vltRawRead .. => true
  | .twnEnable .. => true
  | .twnStatus .. => true
  | .twnRejoin .. => true
  | .twnTakeover .. => true
  | .secStatus .. => true
  | .secSelftest .. => true
  | .secZeroise .. => true
  | .secRekey .. => true
  | .secAuthBegin .. => true
  | .secAuthFinish .. => true
  | .dbgStop .. => true
  | .dbgResume .. => true
  | .dbgWaitfor .. => true
  | .dbgQsnap .. => true
  | .dbgTensorDump .. => true
  | .cntRead .. => true
  | .tlmExport .. => true
  | .optPolish .. => true
  | .optLustre .. => true
  | .walMap .. => true
  | .walMove .. => true
  | .lasSwap .. => true
  | .lasStatus .. => true
  | .pwrSet .. => true
  | .pwrDarkPorts .. => true
  | .thmRead .. => true
  | .thmLimits .. => true
  | .tenDbtailWrite t q _ => Unit.tenant t && Unit.queueOf q
  | .descStart t q _ => Unit.tenant t && Unit.queueOf q
  | .opCopy gq _ => Unit.queueNo gq
  | .opFill gq _ => Unit.queueNo gq
  | .opGet gq _ => Unit.queueNo gq
  | .opPut gq _ => Unit.queueNo gq
  | .opAtomic gq _ => Unit.queueNo gq
  | .opAllreduce gq _ => Unit.queueNo gq
  | .opReduceScatter gq _ => Unit.queueNo gq
  | .opBarrier gq _ => Unit.queueNo gq
  | .opSemAtomic gq _ => Unit.queueNo gq
  | .opSemWait gq _ => Unit.queueNo gq
  | .opSemRead gq _ => Unit.queueNo gq
  | .opFlush gq _ => Unit.queueNo gq
  | .opEpochRead gq _ => Unit.queueNo gq
  | .segmentIssue egress => Unit.egress egress
  | .txnTimeout gq _ _ => Unit.queueNo gq
  | .bufferUnitFree pool t => Unit.bufferPool pool && Unit.tenant t
  | .serialQuarantineEnd gq _ => Unit.queueNo gq
  | .atsTranslationCompletion fn _ _ => Unit.function fn
  | .pretranslateIssue t q _ _ => Unit.tenant t && Unit.queueOf q
  | .atsInvalidateRequest fn _ _ _ _ _ => Unit.function fn
  | .invalidationComplete => true
  | .prgResponse fn _ _ => Unit.function fn
  | .priTimeout fn _ => Unit.function fn
  | .xltKeyrangeWrite t _ k _ => Unit.tenant t && Unit.keyRange k
  | .xltHmapWrite _ k _ => Unit.hmapEntry k
  | .targetWriteAck .. => true
  | .ownerWriteAck .. => true
  | .subctlSubscribe .. => true
  | .subctlGrant .. => true
  | .subctlRefuse .. => true
  | .subctlRenew .. => true
  | .subctlInval .. => true
  | .subctlInvack .. => true
  | .subctlBreak .. => true
  | .subctlUnsub .. => true
  | .leaseRenewTimer => true
  | .leaseExpiry t s => Unit.tenant t && Unit.stream s
  | .subscribeRetry => true
  | .prefetchIssue t s => Unit.tenant t && Unit.stream s
  | .lineFillDone t s _ => Unit.tenant t && Unit.stream s
  | .takeoverWriteHoldEnd t => Unit.tenant t
  | .collContrib .. => true
  | .collPartial .. => true
  | .collClose .. => true
  | .collCloseAck .. => true
  | .collFinal .. => true
  | .collLeave .. => true
  | .collCarry .. => true
  | .collDeadline t g _ => Unit.tenant t && Unit.collGroup g
  | .collGraceTimeout t g _ => Unit.tenant t && Unit.collGroup g
  | .collDropTimeout t g => Unit.tenant t && Unit.collGroup g
  | .reduceFoldStep e => Unit.engine e
  | .semWaitResend => true
  | .helloSend => true
  | .neighbourTimeout p => Unit.optPort p
  | .packetForward .. => true
  | .pktRd .. => true
  | .pktWr .. => true
  | .pktWrp .. => true
  | .pktAtom .. => true
  | .pktAtomp .. => true
  | .pktRsp .. => true
  | .pktSem .. => true
  | .pktSteer .. => true
  | .pktCnp .. => true
  | .pktHello p _ => Unit.optPort p
  | .pktTsync p _ _ => Unit.optPort p
  | .escapeTimeout .. => true
  | .congestionRecovery => true
  | .tsyncExchange => true
  | .timeLockLoss => true
  | .linkFlitRx p _ => Unit.linkPort p
  | .linkAckTimeout p => Unit.linkPort p
  | .retryBudgetExpiry p => Unit.linkPort p
  | .skipSlotRx p _ => Unit.linkPort p
  | .linkLightLock p _ _ _ => Unit.linkPort p
  | .identCheckDone p _ => Unit.linkPort p
  | .ts1Rx p _ => Unit.linkPort p
  | .ts2Rx p _ => Unit.linkPort p
  | .ts3Rx p _ => Unit.linkPort p
  | .linkStateTimeout p => Unit.linkPort p
  | .linkFailedRetry p => Unit.linkPort p
  | .linkResetEvent p => Unit.linkPort p
  | .lmgtRetract p _ _ => Unit.linkPort p
  | .lmgtRekeyReady p _ => Unit.linkPort p
  | .rekeyThreshold p => Unit.linkPort p
  | .rekeyOverdue p => Unit.linkPort p
  | .ringEnable b r => Unit.tile b && Unit.ring r
  | .ringSeekDone b r _ _ => Unit.tile b && Unit.ring r
  | .ringFilterOutput b r _ => Unit.tile b && Unit.ring r
  | .ringTrackTimeout b r => Unit.tile b && Unit.ring r
  | .ringLightChange b r _ => Unit.tile b && Unit.ring r
  | .brlSyncGo b => Unit.tile b
  | .brlLcfgWrite b _ => Unit.tile b
  | .heaterScanDone b g _ => Unit.tile b && Unit.group g
  | .heaterRampStep b r => Unit.tile b && Unit.ring r
  | .rxCorrectionApply p k => Unit.optPort p && Unit.channel k
  | .laserRampEnd j _ => Unit.laser j
  | .laserMonitorSample j _ => Unit.laser j
  | .laserRetryTimer j => Unit.laser j
  | .laserPowerLoop j _ => Unit.laser j
  | .laserPositionLit n k => Unit.ruby n && Unit.channel k
  | .laserSwapAdvance n k => Unit.ruby n && Unit.channel k
  | .laserDisableWire n => Unit.ruby n
  | .rubyLinkSilent n => Unit.ruby n
  | .moveStart p => Unit.optPort p
  | .walNext p _ => Unit.optPort p
  | .walMoveAt p _ _ _ _ => Unit.optPort p
  | .moveSlotN p => Unit.optPort p
  | .moveAlignDone p _ => Unit.optPort p
  | .walReady p _ _ _ => Unit.optPort p
  | .moveReleaseSlot p => Unit.optPort p
  | .walDone p _ _ _ => Unit.optPort p
  | .walReq p _ _ _ => Unit.optPort p
  | .walReqNow p _ _ => Unit.optPort p
  | .walNak p _ _ _ => Unit.optPort p
  | .walCancel p _ => Unit.optPort p
  | .walRxuse p _ => Unit.optPort p
  | .moveAbandon p => Unit.optPort p
  | .polishStart b => Unit.tile b
  | .polishScanDone ch _ => Unit.calChannel ch
  | .polishRelockDone ch => Unit.calChannel ch
  | .polishDrvcompDone ch => Unit.calChannel ch
  | .polishOffsetDone ch _ => Unit.calChannel ch
  | .polishLevelsDone ch _ => Unit.calChannel ch
  | .lightPolishDone ch _ => Unit.calChannel ch
  | .lustreSample ch _ => Unit.calChannel ch
  | .calRecordWrite ch => Unit.calChannel ch
  | .reservationTimeout p => Unit.optPort p
  | .thermalRound .. => true
  | .limitComparator n _ => Unit.sensor n
  | .tripComparator n _ => Unit.sensor n
  | .idleEntry => true
  | .idleWake => true
  | .aoWake .. => true
  | .coldWarmTimeout b => Unit.tile b
  | .vltMount .. => true
  | .vltCaptureStart t region _ => Unit.tenant t && Unit.shadowRegion region
  | .vltCaptureDone t region _ => Unit.tenant t && Unit.shadowRegion region
  | .vltSealRecord t => Unit.tenant t
  | .vltProgramDone die block _ _ => Unit.onyxDie die && Unit.onyxBlock block
  | .vltEraseDone die block _ => Unit.onyxDie die && Unit.onyxBlock block
  | .vltPageReadDone die block _ _ => Unit.onyxDie die && Unit.onyxBlock block
  | .vltScrubTick => true
  | .vltReclaim die block => Unit.onyxDie die && Unit.onyxBlock block
  | .vltRestoreDone t _ => Unit.tenant t
  | .vltDieLost die => Unit.onyxDie die
  | .vltResync t => Unit.tenant t
  | .vltHeal t => Unit.tenant t
  | .twnVput t _ _ _ _ _ => Unit.tenant t
  | .twnVack t _ _ _ _ => Unit.tenant t
  | .twnVseal t _ _ => Unit.tenant t
  | .twnVsealack t _ _ => Unit.tenant t
  | .twnVdrop t _ => Unit.tenant t
  | .twnVread t _ _ _ => Unit.tenant t
  | .twnVdata t _ _ _ _ _ => Unit.tenant t
  | .twnPair .. => true
  | .twnBeat .. => true
  | .twnBeatSend => true
  | .twnDown .. => true
  | .twnJrnl .. => true
  | .twnJack .. => true
  | .twnSnap t _ _ _ => Unit.tenant t
  | .twnFailureTimer => true
  | .twnHelloHold => true
  | .twnPortLost => true
  | .twnPortActive => true
  | .twnPairingTimeout => true
  | .keymsgHello p _ => Unit.linkPort p
  | .keymsgCert p _ _ _ => Unit.linkPort p
  | .keymsgVerify p _ => Unit.linkPort p
  | .keymsgFinish p _ => Unit.linkPort p
  | .keymsgRekey p _ _ => Unit.linkPort p
  | .keymsgRekeyAck p _ _ => Unit.linkPort p
  | .keymsgPvk .. => true
  | .keymsgAbort p _ => Unit.linkPort p
  | .spdmRequest .. => true
  | .keyLoad .. => true
  | .keyClear .. => true
  | .fsLoad .. => true
  | .rootAdd .. => true
  | .rootClear .. => true
  | .cokeySet .. => true
  | .meshCheck .. => true
  | .drbgReseed .. => true
  | .authNonceExpiry .. => true
  | .authLockoutEnd .. => true
  | .entropySampleFail => true
  | .faultRaise .. => true
  | .inclusionDeferredWrite => true
  | .fltAckAll => true
  | .tenFstatClr t => Unit.tenant t
  | .fltSevWrite w _ => Unit.sevWord w
  | .fltCfgWrite .. => true
  | .fltInclclr => true
  | .fltStatSevRejClr => true
  | .tlmFrame => true
  | .tsSend => true
  | .dumpTimeout t => Unit.tenant t
  | .dumpDone t => Unit.tenant t
  | .stopCut => true
  | .stopRecordDone => true
  | .maxstopExpiry => true
  | .tapInstructionLoad .. => true
  | .trstAssert => true
  | .fabTimeLoRead => true
  | .dbgStopvalLoRead .. => true
  | .jadAindropClr i => Unit.asyncInput i
  | .jadBootstatStopIgnClr => true
  | .jadRstcauseClr .. => true
  | .jadTeststatBscanClr => true
  | .fctRetryClr p => Unit.hostPort p
  | .fctPerrClr p c => Unit.hostPort p && Unit.cluster c
  | .mbxBmstatClr fn => Unit.function fn
  | .tenQcntClr t q => Unit.tenant t && Unit.queueOf q
  | .tenQlateClr t q => Unit.tenant t && Unit.queueOf q
  | .tenStreamCntClr t s _ => Unit.tenant t && Unit.stream s
  | .xltInvcntClr => true
  | .xltPrecntClr => true
  | .xltPricntClr fn => Unit.function fn
  | .colCntClr => true
  | .fabCntClr .. => true
  | .lnkRetryClr p => Unit.linkPort p
  | .lnkErrClr p => Unit.linkPort p
  | .lnkFeccorClr p => Unit.linkPort p
  | .walCntClr p => Unit.optPort p
  | .calCntClr => true
  | .calCnt2Clr => true
  | .vltCntClr => true
  | .twnCntClr => true
  | .secCntClr => true
  | .dbgTrstatClr => true
  | .dbgTlmstatClr => true
  | .registerWrite fn _ _ _ => Unit.function fn
  | .alwaysOnRailsFall => true
  | .xtalValid => true
  | .rubyLinkReturn n => Unit.ruby n
  | .flashProgramDone => true
  | .selftestDone .. => true

end Sys2Proof
end

