-- ==== Sys2Proof/Machine/Board.lean ====
section
/-! DEFINITION. Rails, power pins, clocks and asynchronous inputs (02). -/

namespace Sys2Proof.Machine

/-! ### Rails and PWR_OK (02 R51 to R57, R73 to R76) -/

/-- A device whose volatile state is new: what PR leaves of it (03 R112). -/
def Dev.fresh (d : Dev) : Dev :=
  { flash := d.flash, fuses := d.fuses, onyx := d.onyx, calNv := d.calNv, secNv := d.secNv,
    flt := { incl := d.flt.incl, inclSeq := d.flt.inclSeq }, out := d.out, free := d.free, now := d.now }

/-- AO_RAILS_UP (R51): Jade is in PR and its RC oscillator runs. -/
def execAoRailsUp (s : State) : R := s.run fun d =>
  if d.jad.aoUp then d else { d.fresh with jad.aoUp := true, jad.rcRunning := true }

/-- ALWAYS_ON_RAILS_FALL (R75): nothing volatile is left. -/
def execAlwaysOnRailsFall (s : State) : R := s.run fun d => d.fresh

/-- PR_RELEASE (R52, R28, 23 R925). -/
def execPrRelease (st : Straps) (s : State) : R := s.run fun d =>
  if d.jad.aoUp && !d.jad.released then
    { d with jad.released := true, jad.straps := st, jad.pwrReq := true, boot.stage := .rails }
  else d

/-- The device restarts now that PWR_OK is high: from the CLOCKS stage of its first boot, or as after a DR (R75). After a power loss
PWR_REQ rises again only here, once PWR_OK has risen: DESIGN CHOICE (log 126), since the spec names no moment. -/
def Dev.restart (d : Dev) : Dev :=
  if d.jad.latched then d
  else if d.jad.lost then ({ d with jad.lost := false, jad.pwrReq := true }).devReset .pwrOk
  else { d with boot.stage := .clocks, boot.start := d.now, pwr.seq := activeSeq, pwr.stepAt := d.now }

/-- PWR_OK_RISE (R75): during the hold-up the restart follows its end; in Always-on only nothing happens before a wake (16 R692). -/
def execPwrOkRise (s : State) : R := s.run fun d =>
  if d.jad.released && !d.jad.pwrOk then
    let d := { d with jad.pwrOk := true, jad.reqFails := 0 }
    if d.jad.losing || (decide (d.pwr.state = 3) && !d.jad.pwrReq) then d else (d.restart).settle
  else d

/-- Debounce time of the input table, in ns. -/
def debounceNs : Nat → Nat
  | 0 => 500 | 1 => 5000 | 2 => 500 | 3 => 50 | 4 => 500 | 5 => 1000 | _ => 0

/-- Minimum pulse width of the input table, in ns. -/
def minPulseNs : Nat → Nat
  | 0 => 1000 | 1 => 10000 | 2 => 1000 | 3 => 100 | 4 => 1000 | 5 => 2000 | _ => 0

/-- Whether a pulse is seen (R66): never below the debounce time, always from the minimum width on; between the two it may be, a free
value (log 6). -/
def Dev.seen (d : Dev) (i ns : Nat) : Dev × Bool :=
  if ns < debounceNs i then (d, false)
  else if minPulseNs i ≤ ns then (d, true)
  else ((d.draw 1).2, decide ((d.draw 1).1 = 1))

/-- PWR_OK_FALL (R74, R66): both laser-disable wires, and the Vault closes. -/
def execPwrOkFall (ns : Nat) (s : State) : R := s.run fun d =>
  match d.seen 5 ns with
  | (d, true) => if d.jad.pwrOk then ({ d with jad.pwrOk := false, jad.lost := true }).loseMain else d
  | (d, false) => d

/-- RAIL_FAIL (R73): handled as a PWR_OK fall, and raises RAIL_FAIL. -/
def execRailFail (_rail : Nat) (s : State) : R := s.run fun d =>
  if d.jad.pwrOk then
    ((({ d with jad.pwrOk := false, jad.lost := true }).loseMain).post Src.railFail 0).settle
  else d

/-- Every main domain is OFF and PWR_REQ is low; what the main domains held is gone (R74, 16 R691). -/
def Dev.powerOff (d : Dev) (st : Stage) : Dev :=
  { d.cleared with flt := d.flt, boot.stage := st, pwr.dom := [(0, 3)], jad.losing := false, jad.pwrReq := false, jad.lost := true,
                   twn.outHeld := true }

/-- PWR_REQ rises and the command that woke the device is answered (16 R692). -/
def Dev.aoWake (d : Dev) (req : Option Req) : Dev :=
  let d := { d with jad.pwrReq := true }
  match req with
  | some r => d.respond r.path r.noIrq { opcode := 0x0C00, seq := r.seq, tenant := r.tenant.toNat }
  | none => d

/-- Always-on only is being entered: its hold-up runs (16 R691). -/
def Dev.enteringAo (d : Dev) : Bool := d.jad.losing && decide (d.pwr.target = 3) && !d.jad.latched

/-- Always-on only has been entered; a wake request held meanwhile is served now (R80, 16 R692). -/
def Dev.enterAo (d : Dev) : Dev :=
  let held := d.pwr.wakeHeld
  let d := { d.powerOff .dormant with pwr.state := 3, pwr.target := 3 }
  match held with
  | none => d
  | some q => if d.jad.pwrOk then (d.aoWake q).restart.settle else { d.aoWake q with boot.stage := .rails }

/-- POWERLOSS_HOLDUP_END (R74, 16 R675, R691, 20 R841): a latched device stays HALTED; one that enters Always-on only waits there;
else PWR_OK that is high again restarts it (R75). -/
def execPowerlossHoldupEnd (s : State) : R := s.run fun d =>
  if d.jad.losing then
    if d.enteringAo then d.enterAo
    else
      let d := d.powerOff (if d.jad.latched then .halted else .rails)
      (if d.jad.pwrOk then d.restart else d).settle
  else d

/-- PWR_OK_LATE (R76): S4, or S5 after the third failed request. -/
def execPwrOkLate (s : State) : R := s.run fun d =>
  if d.jad.pwrReq && !d.jad.pwrOk then
    let d := { d with jad.pwrReq := false, jad.reqFails := d.jad.reqFails + 1 }
    (d.post (if 3 ≤ d.jad.reqFails then Src.pwrOkLate5 else Src.pwrOkLate4) 0).settle
  else d

/-- PWR_REQ_RETRY (R76). -/
def execPwrReqRetry (s : State) : R := s.run fun d =>
  if !d.jad.pwrReq && !d.jad.pwrOk && decide (0 < d.jad.reqFails) && decide (d.jad.reqFails < 3) then { d with jad.pwrReq := true } else d

/-! ### Clocks (02 R63 to R65, R77 to R79) -/

/-- PLL_LOCK (R63): the CLOCKS stage ends, unless REFCLK or a boundary-scan instruction holds the device there (R77, 23 R924). -/
def execPllLock (s : State) : R := s.run fun d =>
  if d.boot.stage = .clocks && !d.jad.refHold && !d.jad.bscanHold then
    { d.flushIncl with boot.jpll := true, boot.gpll := true, boot.bpll := 0xF, boot.refclkOk := true, boot.stage := .identify }
  else d

/-- REFCLK_WINDOW_CHECK (R77): the count of a 10 µs window against 1,000; 100 good windows end the hold. While PWR_OK is low or the stage is
RAILS nothing is raised: DESIGN CHOICE (log 127), since the spec does not say from when the check is armed. -/
def execRefclkWindowCheck (count : Nat) (s : State) : R := s.run fun d =>
  if 900 ≤ count && count ≤ 1100 then
    let n := d.jad.refGood + 1
    { d with boot.refclkOk := true, jad.refGood := n, jad.refHold := d.jad.refHold && decide (n < 100) }
  else if d.jad.pwrOk && !d.jad.refHold && decide (d.boot.stage ≠ .rails) then
    let d := (({ d with jad.refHold := true, jad.refGood := 0 }).post Src.refclkLost 0).settle
    (d.devReset .refclk).settle
  else { d with boot.refclkOk := false, jad.refGood := 0 }

/-- An offset as REFCLK_PPM holds it: 12 bits, signed. An offset beyond them stands at the end of the range: DESIGN CHOICE (log 128). -/
def ppmField (ppm : Int) : Int := max (-2048) (min 2047 ppm)

/-- REFCLK_PPM_CHECK (R78): only while the crystal is valid. -/
def execRefclkPpmCheck (ppm : Int) (s : State) : R := s.run fun d =>
  if d.jad.xtalOk then
    (({ d with jad.refPpm := ppmField ppm }).postIf (decide (100 < ppm.natAbs) && d.boot.refclkOk) Src.refclkPpm 0).settle
  else d

/-- XTAL_FAIL (R79): the RC keeps its trim, and REFCLK_PPM reads 0. -/
def execXtalFail (s : State) : R := s.run fun d =>
  (({ d with jad.xtalOk := false, jad.refPpm := 0 }).post Src.xtalFail 0).settle

/-- XTAL_VALID (R65). -/
def execXtalValid (s : State) : R := s.run fun d => { d with jad.xtalOk := d.jad.aoUp }

/-- RC_TRIM (R65). -/
def execRcTrim (s : State) : R := s.run fun d => { d with jad.rcTrimmed := d.jad.rcTrimmed || d.jad.xtalOk }

/-! ### Asynchronous inputs (02 R66 to R72) -/

/-- Rate limits of the input table, in ns. -/
def rateLimit : Nat → Nat
  | 0 => 1000000 | 1 => 10000000 | 2 => 100000 | 3 => 999000000 | 4 => 2000 | _ => 0

/-- An event of input `i`: accepted, or ignored and counted beyond the rate limit (R67); a masked input is not looked at (R69). -/
def Dev.accept (d : Dev) (i : Nat) : Dev × Bool :=
  let a := Tab.look {} i d.jad.ain
  if a.masked then (d, false)
  else
    match a.last with
    | some l =>
      if d.now < l + rateLimit i then
        let a := { a with drop := satAdd 0xFFFF a.drop, ignored := (a.ignored.filter fun x => decide (d.now < x + 1000000)) ++ [d.now] }
        ({ d with jad.ain := Tab.put {} i a d.jad.ain }, false)
      else
        let n := (a.ignored.filter fun x => decide (d.now < x + 1000000)).length
        ({ d with jad.ain := Tab.put {} i { a with last := some d.now, rated := a.rated && decide (16 < n) } d.jad.ain }, true)
    | none => ({ d with jad.ain := Tab.put {} i { a with last := some d.now } d.jad.ain }, true)

/-- The debounced level of an input. -/
def Dev.setLevel (d : Dev) (i : Nat) (v : Bool) : Dev := { d with jad.ain := Tab.upd {} i (fun a => { a with level := v }) d.jad.ain }

/-- A pulse of an input: where it is seen the input reads active while it lasts, and it is an event (R66, R67). -/
def Dev.pulse (d : Dev) (i ns : Nat) : Dev × Bool :=
  match d.seen i ns with
  | (d, false) => (d, false)
  | (d, true) => ({ d with jad.ain := Tab.upd {} i (fun a => { a with until_ := d.now + ns }) d.jad.ain }).accept i

/-- STOP_REQ_EVENT (21 R876, R887, 03 R122). DORMANT lies after HOST_READY: there the event has no effect at all. -/
def execStopReqEvent (ns : Nat) (s : State) : R := s.run fun d =>
  match d.pulse 0 ns with
  | (d, false) => d
  | (d, true) =>
    if !d.up then (if d.boot.stage = .dormant then d else { d with boot.stopIgn := true })
    else if d.stopped then { d with dbg.ignored := satAdd 0xFF d.dbg.ignored }
    else if !d.dbg.cfg.getLsbD 0 then d
    else
      let d := if d.dbg.st = .scheduled then d.finishAccs (fun a => decide (a.opcode = 0x0A00)) .aborted [] else d
      { d with dbg.st := .scheduled, dbg.cause := 1, dbg.stopFt := d.fab.time }

/-- THERM_IN_ONSET (16 R671, R669). -/
def execThermInOnset (ns : Nat) (s : State) : R := s.run fun d =>
  match d.seen 1 ns with
  | (d, false) => d
  | (d, true) =>
    match (d.setLevel 1 true).accept 1 with
    | (d, ok) => ((d.relevel).postIf ok Src.thmExt 0).settle

/-- THERM_IN_RELEASE (16 R669). -/
def execThermInRelease (s : State) : R := s.run fun d => (d.setLevel 1 false).relevel

/-- FAULT_ACK_EDGE (20 R836). -/
def execFaultAckEdge (ns : Nat) (s : State) : R := s.run fun d =>
  match d.pulse 2 ns with
  | (d, ok) => if ok then d.ackAll else d

/-- The multiple of 10^9 ns nearest a time. -/
def nearestSecond (t : Nat) : Nat := (t + 500000000) / 1000000000 * 1000000000

/-- TIME_PPS_EDGE (11 R492): only while enabled; a grandmaster steers by it. -/
def execTimePpsEdge (ns : Nat) (s : State) : R := s.run fun d =>
  if d.fab.ppsEn then
    match d.pulse 3 ns with
    | (d, true) =>
      if d.fab.parent.isNone && d.fab.timeSet then d.applyOffset ((nearestSecond d.fab.time : Int) - (d.fab.time : Int)) else d
    | (d, false) => d
  else
    match d.seen 3 ns with
    | (d, true) => { d with jad.ain := Tab.upd {} 3 (fun a => { a with until_ := d.now + ns }) d.jad.ain }
    | (d, false) => d

/-- TWIN_ALIVE_EDGE (18 R766): an accepted edge shows the partner alive, unless it belongs to a chatter whose rate fault stands (R71):
more than 16 edges of the last millisecond were ignored (DEDUCED, log 129). -/
def execTwinAliveEdge (ns : Nat) (s : State) : R := s.run fun d =>
  match d.seen 4 ns with
  | (d, false) => d
  | (d, true) =>
    match (d.setLevel 4 (!(Tab.look {} 4 d.jad.ain).level)).accept 4 with
    | (d, true) => { d with twn.aliveIn := d.twn.aliveIn || !(Tab.look {} 4 d.jad.ain).rated, twn.lastEdge := some d.now }
    | (d, false) => d

/-- The fault source of an input (02, input table): the sources of 0x006 to 0x00A in order. -/
def ainSrc (i : Nat) : Nat := Src.stopStuck + i

/-- The input's fault is raised and the input masked, except THERM_IN_N (R69). -/
def Dev.stuckInput (d : Dev) (i : Nat) : Dev :=
  ({ d with jad.ain := Tab.upd {} i (fun a => { a with stuck := true, masked := decide (i ≠ 1), level := a.level || decide (i < 4) }) d.jad.ain }).post (ainSrc i) 0

/-- The partner is not alive any more (18 R766). -/
def Dev.aliveGone (d : Dev) : Dev := { d with twn.aliveIn := false, twn.aliveLost := if d.twn.aliveIn then d.now else d.twn.aliveLost }

/-- TWIN_ALIVE_TIMEOUT (18 R766, 02 R69): no accepted edge for 50 µs, while Twin operation watches its partner. -/
def execTwinAliveTimeout (s : State) : R := s.run fun d =>
  if d.twn.enabled && d.twn.lastEdge.any fun x => decide (x + 50000 ≤ d.now) then (({ d.aliveGone with twn.lastEdge := none }).stuckInput 4).settle else d

/-- ASYNC_STUCK_TIMEOUT (R69): each time an input that is not masked has been active for its timeout. PWR_OK has no such timeout. -/
def execAsyncStuckTimeout (i : Nat) (s : State) : R := s.runIf (Unit.asyncInput i) fun d =>
  if decide (i < 5) && !(Tab.look {} i d.jad.ain).masked then
    let d := d.stuckInput i
    (if i = 4 then d.aliveGone else d).settle
  else d

/-- ASYNC_UNMASK (R70): the fault stays until it is acknowledged. -/
def execAsyncUnmask (i : Nat) (s : State) : R := s.runIf (Unit.asyncInput i) fun d =>
  { d with jad.ain := Tab.upd {} i (fun a => if a.masked then { a with masked := false, level := if i = 4 then a.level else false, until_ := 0 } else a) d.jad.ain }

/-- ASYNC_RATE_FAULT (R71): more than 16 events of the input were ignored within 1 ms; for TWIN_ALIVE the partner counts as lost. -/
def execAsyncRateFault (i : Nat) (s : State) : R := s.runIf (Unit.asyncInput i) fun d =>
  let a := Tab.look {} i d.jad.ain
  if decide (i < 5) && !a.rated && decide (16 < (a.ignored.filter fun x => decide (d.now < x + 1000000)).length) then
    let d := { d with jad.ain := Tab.put {} i { a with rated := true } d.jad.ain }
    ((if i = 4 then d.aliveGone else d).post (ainSrc i) 0).settle
  else d

/-- TWIN_ALIVE_OUT_TOGGLE (R68, 18 R765): low unless domain 47 is ON, Twin operation is enabled and nothing holds it low. -/
def execTwinAliveOutToggle (s : State) : R := s.run fun d =>
  { d with twn.aliveOut := decide (d.domain 47 = 3) && d.twn.enabled && !d.twn.outHeld && !d.twn.aliveOut }

/-- JAD_AINDROP_CLR (R67, R83). -/
def execJadAindropClr (i : Nat) (s : State) : R := s.runIf (Unit.asyncInput i) fun d => d.mmio 0 fun d =>
  { d with jad.ain := Tab.upd {} i (fun a => { a with drop := 0 }) d.jad.ain }

/-- JAD_BOOTSTAT_STOP_IGN_CLR (03 R122). -/
def execJadBootstatStopIgnClr (s : State) : R := s.run fun d => d.mmio 0 fun d => { d with boot.stopIgn := false }

/-- JAD_RSTCAUSE_CLR (03, JAD_RSTCAUSE): each bit written 1 clears. -/
def execJadRstcauseClr (mask : BitVec 8) (s : State) : R := s.run fun d => d.mmio 0 fun d => { d with jad.rstCause := d.jad.rstCause &&& ~~~mask }

/-- JAD_TESTSTAT_BSCAN_CLR (23 R924). -/
def execJadTeststatBscanClr (s : State) : R := s.run fun d => d.mmio 0 fun d => { d with jad.bscanDr := false }

end Sys2Proof.Machine
end

