-- ==== Sys2Proof/Machine/OpsStart.lean ====
section
/-! DEFINITION. Descriptors (07 R267 to R277): what makes one refused, and what starting one does. -/

namespace Sys2Proof.Machine

/-- Fields of a DMA, remote-memory or semaphore descriptor are in range (R268, R352; 10 R425, R426). -/
def descFields (x : Desc) : Bool :=
  match x.body with
  | .dma _ _ len v => decide (1 ≤ len) && decide (len ≤ 2 ^ 40) && decide (v.toNat < 4)
  | .remote a _ len aop _ _ =>
    if x.op = 0x12 then decide (len = 8) && decide (aop ≤ 9) && decide (a.toNat % 8 = 0) else decide (1 ≤ len) && decide (len ≤ 2 ^ 24)
  | .sem a _ _ aop cond =>
    decide (a.toNat / 2 ^ 18 % 2 ^ 30 = 0) && (if x.op = 0x30 then decide (aop ≤ 9) else if x.op = 0x31 then decide (cond ≤ 3) else true)
  | _ => true

/-- OP belongs to the queue's type and its layout (R268, R269). -/
def descKind (qtype : Nat) (x : Desc) : Bool :=
  match x.body with
  | .dma .. => decide (qtype = 0) && [0x01, 0x02].contains x.op
  | .coll .. => decide (qtype = 1) && [0x20, 0x21, 0x22].contains x.op
  | .sem .. => decide (qtype = 1) && [0x30, 0x31, 0x32].contains x.op
  | .remote .. => decide (qtype = 2) && [0x10, 0x11, 0x12].contains x.op
  | .vault .. => decide (qtype = 3) && [0x40, 0x41].contains x.op

/-- The fields of a collective descriptor (10 R399, R403, R410). -/
def Dev.collFields (d : Dev) (gq : Nat) (x : Desc) : Bool :=
  match x.body with
  | .coll _ _ count group fmt rop deadline quorum cflags _ _ =>
    let total := (d.group (gq / 64) group).total
    let grace := max 1 (d.col.cfg.toNat % 256)
    let scale := cflags.getLsbD 0
    decide (group ≤ 255)
      && (if x.op = 0x22 then decide (count = 0) else
            decide (1 ≤ count) && decide (count ≤ 2 ^ 30) && decide (fmt ≤ 5) && decide (rop ≤ 3)
              && (decide (rop ≠ 3) || (decide (1 ≤ fmt) && decide (fmt ≤ 4)))
              && (!scale || ((decide (rop = 0) || decide (rop = 3)) && decide (fmt ≤ 4))))
      && (decide (x.op ≠ 0x21) || decide (count % max 1 total = 0))
      && (decide (deadline = 0) || (decide (1 ≤ quorum) && decide (quorum ≤ total)))
      && decide (deadline + 4 * grace ≤ (d.queue gq).timeout)
      && (!cflags.getLsbD 1 || decide (deadline ≠ 0))
      && decide (cflags.toNat < 8)
  | _ => true

/-- The fields of a Vault descriptor (17 R713, R732, R733). -/
def Dev.vaultFields (d : Dev) (t : Nat) (x : Desc) : Bool :=
  match x.body with
  | .vault e l off len region =>
    if x.op = 0x40 then
      decide (e = 0) && decide (l = 0) && decide (1 ≤ len) &&
        match Tab.look none region (d.vten t).regions with | some r => decide (off + len ≤ r.size) | none => false
    else
      match d.onyx.seals.find? fun s => decide (s.t = t) && decide (s.epoch = e.toNat) with
      | none => false
      | some s =>
        if region = 0xFF then decide (off = 0) && decide (len = 4096)
        else decide (off % 4096 = 0) && decide (len % 4096 = 0) && s.regions.any fun r => decide (r.1 = region) && decide (off + len ≤ r.2)
  | _ => true

/-- Why a descriptor ends as it starts: BAD_FIELD (R269), or BAD_STATE for a group that is not complete or is being dropped (10 R408). -/
def Dev.descRefused (d : Dev) (gq : Nat) (x : Desc) : Option Status :=
  if x.rsvd || !descKind (d.queue gq).qtype x || !descFields x || !d.vaultFields (gq / 64) x then some .badField
  else
    match x.body with
    | .coll _ _ _ g .. =>
      let grp := d.group (gq / 64) g
      if g ≤ 255 && (!grp.complete || grp.dropping) then some .badState else if d.collFields gq x then none else some .badField
    | _ => none

/-- The operation needs the fabric (03 R107). -/
def needsFabric (x : Desc) : Bool :=
  match x.body with
  | .dma _ _ _ v => decide (v.toNat % 4 ≠ 0)
  | .remote .. => true
  | .coll .. => true
  | .sem .. => true
  | .vault .. => false

/-- The first index at or above `i` whose record has not been decided. -/
def skipDone : Nat → W32 → List Nat → W32
  | 0, i, _ => i
  | n + 1, i, rs => if rs.contains i.toNat then skipDone n (i + 1) rs else i

/-- The index a queue starts next. -/
def Queue.nextStart (q : Queue) : W32 :=
  skipDone q.recs.length (if (q.head - q.next).toNat < 2 ^ 31 then q.head else q.next) q.recs

/-- Operations a dump trigger fires on (21 R872). -/
def dumpOps : List Nat := [0x01, 0x02, 0x10, 0x11, 0x20, 0x21, 0x41]

/-- A trigger fires at the first descriptor whose identifiers it names (21 R872). -/
def Dev.dumpFires (d : Dev) (t : Nat) (x : Desc) : Bool :=
  match Tab.look none t d.dbg.dumps, x.telem with
  | some p, some i => p.firing.isNone && decide (i.layer = p.layer) && decide (i.operator = p.operator) && decide (i.range = p.stp) && dumpOps.contains x.op
  | _, _ => false

/-- The queue's RANGE trace (21 R862, event 3). -/
def Dev.traceRange (d : Dev) (gq : Nat) (x : Desc) : Dev :=
  let prev := Tab.look none gq d.dbg.lastRange
  match x.telem with
  | some i =>
    let d := if prev.isSome && decide (prev ≠ some i.range) then d.trace 0x03 (gq / 64) 0 gq 0 x.telem (prev.getD 0).toNat else d
    { d with dbg.lastRange := Tab.put none gq (some i.range) d.dbg.lastRange }
  | none => d

/-- The pre-translations still held for a descriptor that starts are used (08 R330): they enter its engine's micro-TLB. -/
def Dev.usePre (d : Dev) (gq i : Nat) : Dev :=
  let mine := d.xlt.pre.filter fun p => decide (p.1 = gq) && decide (p.2.1 = i)
  let m := Tab.look [] (gq % 16) d.xlt.micro
  { d with
    xlt.pre := d.xlt.pre.filter fun p => !(decide (p.1 = gq) && decide (p.2.1 = i))
    xlt.preUsed := min 0xFFFF (d.xlt.preUsed + mine.length)
    xlt.micro := if mine.isEmpty then d.xlt.micro else Tab.put [] (gq % 16) (mine.foldl (fun m p => touch 64 p.2.2 m) m) d.xlt.micro }

/-- A descriptor starts (R276): it is traced and journaled, takes a collective's instance number (10 R407), and fires a dump. The
START entry of a collective carries its group and instance, for which the spec gives no field (log 35). -/
def Dev.startDesc (d : Dev) (gq : Nat) (i : W32) (x : Desc) : Dev :=
  let t := gq / 64
  let inst := match x.body with | .coll _ _ _ g .. => [BitVec.ofNat 64 g, BitVec.ofNat 64 ((d.group t g).counter + 1)] | _ => []
  let d := (d.setQueue gq fun q => { q with next := i + 1, fetched := without i.toNat q.fetched }).journal 0x02 t gq i.toNat inst
  let d := ((d.trace 0x01 t 0 gq 0 x.telem i.toNat).traceRange gq x).usePre gq i.toNat
  let o : Op := { gq, idx := i.toNat, desc := x, startedAt := d.now }
  match d.descRefused gq x with
  | some st => ({ d with tq.ops := d.tq.ops ++ [o] }).decideOp gq i.toNat st
  | none =>
    match x.body with
    | .coll _ _ _ g .. =>
      let k := (d.group t g).counter + 1
      let fires := d.dumpFires t x
      let d := if fires then { d with dbg.dumps := Tab.upd none t (fun p => p.map fun y => { y with firing := some (gq, i.toNat) }) d.dbg.dumps } else d
      { d.setGroup t g (fun y => { y with counter := k }) with tq.ops := d.tq.ops ++ [{ o with result := BitVec.ofNat 64 k, dump := fires }] }
    | _ =>
      let fires := d.dumpFires t x
      let d := if fires then { d with dbg.dumps := Tab.upd none t (fun p => p.map fun y => { y with firing := some (gq, i.toNat) }) d.dbg.dumps } else d
      { d with tq.ops := d.tq.ops ++ [{ o with dump := fires }] }

/-- A descriptor can start now (R276, R277, R107, R295; 21 R877): it is the next of a running queue with fewer than 64 in progress, every lower
index has its record if it asks for a fence, and the fabric is ready if it needs it. -/
def Dev.mayStart1 (d : Dev) (gq : Nat) (i : W32) (x : Desc) : Bool :=
  let w := d.queue gq
  !d.stopped && !d.fenced (gq / 64) && decide (w.st = .running) && decide (i = w.nextStart) && decide (i ≠ w.tail) && decide ((d.opsOf gq).length < 64)
    && (!x.fence || decide (w.head = i)) && (!needsFabric x || decide (d.boot.stage = .fabricReady))

/-- A descriptor has been fetched, and starts; where its slot is not present the queue stops as under Q_STOP with SMODE 0 (08 R343). -/
def Dev.fetched (d : Dev) (gq : Nat) (i : W32) (x : Desc) (st : Status) : Dev :=
  if st = .ok then (if d.mayStart1 gq i x then (d.emit (.descFetch gq i.toNat ((d.queue gq).slotAddr i.toNat))).startDesc gq i x else d)
  else if st = .accessDenied then ((d.setQueue gq fun q => { q with ringFault := true, st := if q.st = .running then .draining else q.st }).dropPre gq none).drained gq
  else d

end Sys2Proof.Machine
end

