-- ==== Sys2Proof/Machine/OpsMove.lean ====
section
/-! DEFINITION. Operations on memory here and elsewhere: streams and page buffer lines (09), segments and their scheduling (07), requests of peers at an exported window (08 R308, 09), and what follows when a job on host memory or a fabric transaction ends. -/

namespace Sys2Proof.Machine

/-! ### Fabric addresses (00 R7) -/

def faNode (a : W64) : Nat := a.toNat / 2 ^ 52
def faTen (a : W64) : Nat := a.toNat / 2 ^ 48 % 16
def faOff (a : W64) : Nat := a.toNat % 2 ^ 48

/-! ### Streams and lines (09 R358 to R372) -/

def Dev.stream (d : Dev) (t s : Nat) : Stream := Tab.look {} (32 * t + s) d.rm.streams
def Dev.setStream (d : Dev) (t s : Nat) (f : Stream → Stream) : Dev := { d with rm.streams := Tab.upd {} (32 * t + s) f d.rm.streams }

/-- The lease is live: a subscriber takes it as expired 1 µs early (R360, R365). -/
def Dev.leaseLive (d : Dev) (x : Stream) : Bool :=
  match x.st, x.lease with
  | .granted, some e => decide (d.fab.time + 1000 < e)
  | _, _ => false

/-- The declared stream of a tenant that holds a fabric address. -/
def Dev.streamAt (d : Dev) (t addr : Nat) : Option Nat :=
  (List.range 32).find? fun s =>
    let x := d.stream t s
    decide (x.st ≠ .absent) && decide (x.base.toNat ≤ addr) && decide (addr < x.base.toNat + x.span)

/-- The line of a stream with a number. -/
def Dev.lineAt (d : Dev) (t s line : Nat) : Option Line :=
  d.rm.lines.find? fun l => decide (l.t = t) && decide (l.s = s) && decide (l.line = line)

def Dev.setLine (d : Dev) (l : Line) : Dev :=
  { d with rm.lines := d.rm.lines.map fun x => if x.t = l.t && x.s = l.s && x.line = l.line then l else x }

/-- A line is freed with its page buffer unit (07 R258). -/
def Dev.freeLine (d : Dev) (l : Line) : Dev :=
  ({ d with rm.lines := d.rm.lines.filter fun x => !(x.t = l.t && x.s = l.s && x.line = l.line) }).give 2 l.t 1

/-- A line that has not been read is counted as discarded (TEN_SDISC). -/
def Dev.countDisc (d : Dev) (l : Line) : Dev :=
  if l.st = .used then d else d.setStream l.t l.s fun x => { x with disc := satAdd 0x7FFFFFFF x.disc }

/-- Lines of a stream that a range overlaps are discarded; those being fetched are DOOMED (R372, R374). The range is in bytes of the
fabric address. -/
def Dev.discardLines (d : Dev) (t s lo len : Nat) : Dev :=
  (d.rm.lines.filter fun l => decide (l.t = t) && decide (l.s = s) && decide (l.line * 4096 < lo + len) && decide (lo < l.line * 4096 + 4096)).foldl
    (fun d l =>
      if l.st = .fetching || l.st = .doomed then d.setLine { l with st := .doomed }
      else (d.freeLine l).countDisc l) d

/-- A write into the range of one of the tenant's own streams discards the lines it overlaps (R372). -/
def Dev.ownWrite (d : Dev) (t addr len : Nat) : Dev :=
  (List.range 32).foldl (fun d s =>
    let x := d.stream t s
    if x.st ≠ .absent && x.base.toNat < addr + len && addr < x.base.toNat + x.span then d.discardLines t s addr len else d) d

/-- What a read of a stream range finds (R360, R361). -/
inductive LineRead where
  | data (l : List W64)
  | wait
  | forward
  deriving DecidableEq, Repr, Inhabited

/-- A read within one 4 KiB page of a stream: served from its line, waiting for one being fetched, or forwarded; the stream's page
and counts follow (R360, R361, R367). -/
def Dev.readLine (d : Dev) (t s addr len : Nat) : Dev × LineRead :=
  let x := d.stream t s
  let d := d.setStream t s fun x => { x with page := (addr - x.base.toNat) / 2 ^ x.log2 }
  match d.lineAt t s (addr / 4096) with
  | some l =>
    if !d.leaseLive x then (d.setStream t s fun x => { x with miss := satAdd 0x7FFFFFFF x.miss }, .forward)
    else
      match l.st with
      | .fetching => (d, .wait)
      | .doomed => (d.setStream t s fun x => { x with miss := satAdd 0x7FFFFFFF x.miss }, .forward)
      | _ =>
        ((d.setLine { l with st := .used, used := d.now }).setStream t s fun x => { x with hit := satAdd 0x7FFFFFFF x.hit },
          .data ((l.data.drop (addr % 4096 / 8)).take ((len + 7) / 8)))
  | none => (d.setStream t s fun x => { x with miss := satAdd 0x7FFFFFFF x.miss }, .forward)

/-! ### Requests at an exported window (08 R303 to R308, 07 R296, 05 R206) -/

/-- Why a request is turned away at the window of tenant `t`, in the order of R308; `none` where it is served. Rights: 1 read, 2 write,
4 atomic. -/
def Dev.windowCheck (d : Dev) (t off len rights : Nat) : Option Status :=
  let x := d.ten t
  if !x.served || d.fenced t || !(d.fn (t + 1)).bme || decide (x.winSize = 0) then some .targetUnavailable
  else if x.winSize.toNat < off + len then some .accessDenied
  else if x.winFlags / rights % 2 = 0 then some .accessDenied
  else none

/-- Rights a request needs. -/
def rightsOf : PType → Nat
  | .rd => 1
  | .atom | .atomp => 4
  | _ => 2

/-- Bytes a request touches. -/
def reqLen (t : PType) (k : Pkt) : Nat := match t with | .rd => k.aux | .atom | .atomp => 8 | _ => k.len

/-- Subscribers other than the source whose range a write overlaps (09 R373). -/
def Dev.matched (d : Dev) (k : Pkt) (len : Nat) : List Sub :=
  let lo := faOff k.addr
  d.rm.subs.filter fun s => decide (s.t = k.dstTen) && decide (s.lo < lo + len) && decide (lo < s.lo + s.len)
    && !(decide (s.node = k.src) && decide (s.ten = k.srcTen))

/-- Sends a subscription message of the owner (09 R373 to R377): INVAL carries the written range. -/
def Dev.sendSub (d : Dev) (s : Sub) (kind reason : Nat) (addr : Nat) (span : W64) : Dev :=
  d.sendAway .subctl { dst := s.node, dstTen := s.ten, src := d.fab.node.getD 0, srcTen := s.t, addr := BitVec.ofNat 64 addr } (.sub kind reason s.stream span)

/-- A write or atomic has been issued on its path: matched subscribers are told, and its acknowledgement waits for the read-back and
for them (R348, R373, R375). `old` is an atomic's answer. -/
def Dev.afterWrite (d : Dev) (t : PType) (k : Pkt) (path : Nat) (old : List W64) : Dev :=
  let ss := d.matched k (reqLen t k)
  let d := ss.foldl (fun d s => d.sendSub s 0x05 0 (faOff k.addr) (BitVec.ofNat 64 (reqLen t k))) d
  if nonPosted t then
    if t = .atom && ss.isEmpty then d.answer k .ok old 8
    else
      let w : PendW := { pkt := { k with data := old }, path, flushed := decide (t = .atom), subs := ss.map fun s => (s.node, s.ten, s.stream),
                         expiry := (ss.map fun s => s.expiry).foldl max 0 }
      { d with rm.pend := d.rm.pend ++ [w] }
  else d

/-- Acknowledgements that have all they wait for are sent (R348, R375). -/
def Dev.ackWrites (d : Dev) : Dev :=
  let go : PendW → Bool := fun w => w.flushed && (w.subs.isEmpty || decide (w.expiry ≤ d.fab.time))
  let ready := d.rm.pend.filter go
  ready.foldl (fun d w => d.answer w.pkt .ok w.pkt.data (8 * w.pkt.data.length)) { d with rm.pend := d.rm.pend.filter fun w => !go w }

/-- One peer request fewer is being served; with the last on a replaced window TEN_EXPORT ends (06 R235). -/
def Dev.servedOne (d : Dev) (t : Nat) : Dev :=
  let d := d.setTen t fun x => if 0 < x.servingOld then { x with servingOld := x.servingOld - 1 } else { x with serving := x.serving - 1 }
  if (d.ten t).servingOld = 0 then d.finishAccs (fun a => decide (a.opcode = 0x0210) && a.objs.contains (.tenant t)) .ok [] else d

/-- The host path a window access takes, once translated. -/
def Dev.winPath (d : Dev) (t : Nat) (iova : W64) : Nat :=
  match (d.lookup 16 (t + 1) (some (d.ten t).winPasid) iova.toNat).1 with
  | some e => d.pathOf (e.pa + (iova - e.base)).toNat
  | none => 8

/-- The fabric address of an IOVA of tenant `t` (08 R305), where the window holds it. -/
def Dev.toFabric (d : Dev) (v : W64) (t : Nat) : Option W64 :=
  let x := d.ten t
  if x.winSize = 0 || decide (v.toNat < x.winBase.toNat) || decide (x.winBase.toNat + x.winSize.toNat ≤ v.toNat) then none
  else some (BitVec.ofNat 64 ((d.alias.getD 0) * 2 ^ 52 + t * 2 ^ 48 + (v.toNat - x.winBase.toNat)))

/-- The IOVA a request names in the window. -/
def Dev.winIova (d : Dev) (k : Pkt) : W64 := (d.ten k.dstTen).winBase + BitVec.ofNat 64 (faOff k.addr)

/-- A peer's request whose job has ended is answered (R347, R348, R353). -/
def Dev.peerDone (d : Dev) (t : PType) (k : Pkt) (st : Status) (data : List W64) : Dev :=
  let d := d.servedOne k.dstTen
  if st ≠ .ok then d.refuse t k st
  else
    match t with
    | .rd => d.answer k .ok data k.aux
    | .atom | .atomp => d.afterWrite t k 8 data
    | _ => d.afterWrite t k (d.winPath k.dstTen (d.winIova k)) []

/-! ### Operations: what a segment is (07 R281, R290) -/

/-- Where an operation reads and writes: a fabric address, or local memory; `none` where it does not. -/
structure Ends where
  src : Option (Bool × W64) := none
  dst : Option (Bool × W64) := none

/-- The ends of a DMA or remote-memory operation; `true` marks a fabric address (07 R268). -/
def endsOf (x : Desc) : Ends :=
  match x.body with
  | .dma s t _ v => { src := if x.op = 0x02 then none else some (v.getLsbD 0, s), dst := some (v.getLsbD 1, t) }
  | .vault _ l .. => { dst := if x.op = 0x41 then some (false, l) else none }
  | .remote r l _ .. =>
    if x.op = 0x10 then { src := some (true, r), dst := some (false, l) }
    else if x.op = 0x11 then { src := some (false, l), dst := some (true, r) } else { dst := some (true, r) }
  | _ => {}

/-- Bytes to the end of the page an address is in. -/
def pageLeft (a : W64) (off : Nat) : Nat := 4096 - (a.toNat + off) % 4096

/-- The next segment of an operation: offset and length, within one page at both ends. -/
def Op.nextSeg (o : Op) : Option (Nat × Nat) :=
  if o.open_ && !o.issued && decide (o.next < o.total) then
    let e := endsOf o.desc
    let cap : Option (Bool × W64) → Nat := fun x => match x with | some (_, a) => pageLeft a o.next | none => 4096
    some (o.next, min (o.total - o.next) (min (cap e.src) (cap e.dst)))
  else none

/-- The node a fabric end of the operation names. -/
def Op.remote (o : Op) : Option W64 :=
  let e := endsOf o.desc
  match e.src, e.dst with
  | some (true, a), _ => some a
  | _, some (true, a) => some a
  | _, _ => none

/-- Bytes of a DMA or remote-memory descriptor. -/
def descBytes (x : Desc) : Nat := match x.body with | .dma _ _ n _ => n | .remote _ _ n .. => n | _ => 0

/-- Two operations of a queue that R279 orders: a common target and overlapping ranges, one of them written. -/
def opsConflict (a b : Op) : Bool :=
  let ea := endsOf a.desc
  let eb := endsOf b.desc
  let hit : Option (Bool × W64) → Option (Bool × W64) → Bool := fun x y =>
    match x, y with
    | some (fx, p), some (fy, q) =>
      fx == fy && (!fx || decide (faNode p / 2 = faNode q / 2)) && decide (p.toNat < q.toNat + descBytes b.desc) && decide (q.toNat < p.toNat + descBytes a.desc)
    | _, _ => false
  !a.desc.relaxed && !b.desc.relaxed && (hit ea.dst eb.dst || hit ea.dst eb.src || hit ea.src eb.dst)

/-- An earlier operation of the queue, in 32-bit counts, must finish first (07 R279). -/
def Dev.mustWait (d : Dev) (o : Op) : Bool :=
  d.tq.ops.any fun x => decide (x.gq = o.gq) && decide (x.idx ≠ o.idx) && aheadOf (BitVec.ofNat 32 x.idx) o.idx && opsConflict x o

/-- The local IOVA operand of an operation, where it has one. -/
def localOf (x : Desc) : Option W64 :=
  match (endsOf x).src, (endsOf x).dst with
  | some (false, a), _ => some a
  | _, some (false, a) => some a
  | _, _ => none

/-- The fabric packet of an operation's segment; its selector is that of its local IOVA operand, or the tenant's default (19 R808). -/
def Dev.opPkt (d : Dev) (o : Op) (a : W64) (off : Nat) : Pkt :=
  { dst := d.aliasDst (faNode a) (faTen a), dstTen := faTen a, src := d.fab.node.getD 0, srcTen := o.gq / 64,
    ksel := match localOf o.desc with | some l => d.selOf (o.gq / 64 + 1) (l.toNat + off) | none => (d.ten (o.gq / 64)).keydef.toNat % 64,
    addr := a + BitVec.ofNat 64 off, relaxed := o.desc.relaxed, telem := o.desc.telem, qglobal := o.gq }

/-- A segment that could not be sent is taken back and waits to be issued again. -/
def Dev.unissue (d : Dev) (gq idx off len : Nat) : Dev :=
  match d.opAt gq idx with
  | none => d
  | some o =>
    let u := min o.held (bufUnits len)
    (d.setOp { o with next := min o.next off, issued := false, held := o.held - u }).give 0 (gq / 64) u

/-- Sends a segment as a fabric transaction (07 R285); without a route the operation ends (07 R290). -/
def Dev.sendSeg (d : Dev) (o : Op) (t : PType) (k : Pkt) (off len : Nat) : Dev :=
  let d := if t = .rd then d else d.ownWrite (o.gq / 64) k.addr.toNat len
  match d.transact o.gq (.op o.idx off len) t k .none k.addr.toNat len (decide (t ≠ .rd)) true with
  | (d, .ok) => d
  | (d, .wait) => d.unissue o.gq o.idx off len
  | (d, .failed st) => d.endOp o.gq o.idx st

/-- Data of a segment goes to the operation's destination. -/
def Dev.deliver (d : Dev) (o : Op) (off len : Nat) (data : List W64) : Dev :=
  let d := d.teeDump o off len data
  match (endsOf o.desc).dst with
  | some (true, a) => d.sendSeg o .wr { d.opPkt o a off with data, len } off len
  | some (false, a) => d.putLocal o (a + BitVec.ofNat 64 off) off len data (decide (o.desc.op ≤ 0x02))
  | none => d

/-- A segment is issued with the units it was given (07 R281): its source read here, from a line, or from the owner. -/
def Dev.issueSeg (d : Dev) (o : Op) (off len : Nat) : Dev :=
  let t := o.gq / 64
  let u := bufUnits len
  let o' := { o with next := off + len, issued := decide (o.total ≤ off + len), held := o.held + u }
  let d := d.setOp o'
  match (endsOf o.desc).src with
  | none =>
    match o.desc.body with
    | .dma s .. => d.deliver o' off len (List.replicate ((len + 7) / 8) s)
    | .vault e _ pos _ region => d.deliver o' off len (d.epochWords t region e.toNat (pos + off) len)
    | _ => d
  | some (false, a) =>
    match d.startJob { for_ := .seg o.gq o.idx off len, fn := t + 1, pasid := some o.desc.pasid, iova := a + BitVec.ofNat 64 off, len,
                       op := some (o.gq, o.idx), mayFault := decide (o.desc.op ≤ 0x02), engine := o.gq % 16 } with
    | (d, some j) => if j.status = .ok then d.deliver o' off len j.words else d.endOp o.gq o.idx j.status
    | (d, none) => d
  | some (true, a) =>
    let fwd := fun (d : Dev) => d.sendSeg o' .rd { d.opPkt o a off with aux := len } off len
    match d.streamAt t (a.toNat + off) with
    | none => fwd d
    | some s =>
      match d.readLine t s (a.toNat + off) len with
      | (d, .data l) => d.deliver o' off len l
      | (d, .wait) => d.unissue o.gq o.idx off len
      | (d, .forward) => fwd d

/-! ### When a job on host memory ends -/

/-- Bytes of a segment's source have been read. -/
def Dev.segRead (d : Dev) (gq idx off len : Nat) (st : Status) (data : List W64) : Dev :=
  match d.opAt gq idx with
  | none => d
  | some o =>
    if st ≠ .ok then d.endOp gq idx st
    else
      match o.desc.body with
      | .coll _ _ _ g .. =>
        match d.instAt (gq / 64) g o.result.toNat with
        | none => d
        | some x =>
          let p := collP (some o.desc.body)
          (d.count (gq / 64) 14 len).ownChunk x off (unpackElems p.fmt data (len / fmtBytes p.fmt))
      | _ => (d.count (gq / 64) 14 len).deliver o off len data

/-- A late member's chunk has been read: it goes to the root as CARRY; after the last the operation ends TIMEOUT (10 R423, R424). -/
def Dev.carryRead (d : Dev) (gq idx ci len : Nat) (st : Status) (data : List W64) : Dev :=
  match d.opAt gq idx with
  | none => d
  | some o =>
    match o.desc.body with
    | .coll _ _ _ g .. =>
      let p := collP (some o.desc.body)
      let n := chunksOf p.count
      let m := { bareMsg o.result.toNat with chunk := ci, shape := shapeOf o.desc.op o.desc.body,
                                             elems := unpackElems p.fmt data (len / fmtBytes p.fmt), last := decide (ci + 1 = n) }
      let d := if st = .ok then (d.collSend (gq / 64) g 0 7 m none p.fmt).1 else d
      if n ≤ o.arg + 1 then d.decideOp gq idx .timeout else d.setOp { o with arg := o.arg + 1 }
    | _ => d

/-- A queue restarted over a ring fault has its ring translated, or not (08 R344). -/
def Dev.ringDone (d : Dev) (gq : Nat) (st : Status) : Dev :=
  let p : Acc → Bool := fun a => decide (a.opcode = 0x0302) && a.objs.contains (.queue (gq / 64) (gq % 64))
  if st = .ok then ((d.setQueue gq fun q => { q with st := .running, ringFault := false }).flushRecords gq).finishAccs p .ok []
  else d.finishAccs p .badState []

/-- A seal whose epoch holds a granule that cannot be captured ends with the capture's status; its marks and versions merge into the
open epoch (17 R749). -/
def Dev.sealFailed (d : Dev) (t e : Nat) (st : Status) : Dev :=
  match (d.vten t).sealing with
  | none => d
  | some s =>
    if s.epoch ≠ e then d
    else
      let o := d.openEp t
      let newer : Ver → Bool := fun v => d.onyx.vers.any fun w => decide (w.t = t) && decide (w.region = v.region) && decide (w.granule = v.granule) && decide (w.epoch = o)
      let d := d.setVten t fun v => { v with
        sealing := none
        marks := v.marks.foldl (fun (l : List Mark) m =>
          if m.epoch ≠ e then (if l.any fun x => x.pends (m.region, m.granule) o then
              l.map fun x => if x.pends (m.region, m.granule) o then { x with flush := x.flush ++ m.flush } else x else l ++ [m])
          else l ++ [{ m with epoch := o }]) [] }
      let d := { d with
        onyx.vers := (d.onyx.vers.filter fun (v : Ver) => !(decide (v.t = t) && decide (v.epoch = e) && newer v)).map fun (v : Ver) =>
          (if v.t = t && v.epoch = e then { v with epoch := o } else v : Ver)
        onyx.chain := Tab.upd [] t (fun c => without e c) d.onyx.chain }
      d.finishAccs (fun a => decide (a.opcode = 0x0702) && a.objs.contains (.tenant t)) st []

/-- A granule's capture has read host memory, or failed (17 R716, R718): the FLUSH operations it serves end with the read's status and
the mark stays; for a granule that the HX-20 marked itself VLT_CAPTURE is raised. -/
def Dev.captureRead (d : Dev) (t r g : Nat) (st : Status) (data : List W64) : Dev :=
  let v := d.vten t
  match v.marks.find? fun m => decide (m.region = r) && decide (m.granule = g) && m.reading && !m.read with
  | none => d
  | some m =>
    let put : Mark → Dev → Dev := fun m' d => d.setVten t fun v => { v with marks := v.marks.map (fun x => if x = m then m' else x) }
    let d := d.give 0 t m.held
    if st = .ok then put { m with read := true, held := 0, data } (d.count t 14 (8 * data.length))
    else
      let d := (put { m with reading := false, held := 0, flush := [] } d).sealFailed t m.epoch st
      m.flush.foldl (fun d (gq, idx) => d.endOp gq idx st) (if m.auto then d.post Src.vltCapture 0xFF (some t) else d)

/-- The completion status a compute die sees (04; 09 R355). -/
def Dev.dieDone (d : Dev) (p tag tenant : Nat) (st : Status) (data : List W64) : Dev :=
  d.facetCpl p tag tenant st.facet (if st = .ok then data else [])

/-- A telemetry frame has been written, or skipped (21 R861). -/
def Dev.frameDone (d : Dev) (st : Status) : Dev :=
  if st = .ok then { d with dbg.frames := satAdd 0xFFFF d.dbg.frames } else { d with dbg.skipped := satAdd 0x7FFF d.dbg.skipped }

/-- What a finished job serves goes on. -/
def Dev.jobDone (d : Dev) (j : Job) : Dev :=
  match j.for_ with
  | .record gq r => if j.status = .ok then d.recordDone gq r else d.recordFailed gq r
  | .put gq idx _ len =>
    if j.status = .ok then (d.count (gq / 64) 15 len).confirm gq idx len else d.putFailed gq idx j
  | .seg gq idx off len => d.segRead gq idx off len j.status j.words
  | .peer t k => d.peerDone t k j.status j.words
  | .die p tag tenant => d.dieDone p tag tenant j.status j.words
  | .dieW p tag tenant => d.dieDone p tag tenant j.status []
  | .capture t r g => d.captureRead t r g j.status j.words
  | .restore t => if j.status = .ok then d else d.setVten t fun v => { v with restoreBad := v.restoreBad.or (some j.status) }
  | .ring gq => d.ringDone gq j.status
  | .fetch gq i x => d.fetched gq i x j.status
  | .dump t n => d.teeDone t n j.status
  | .frame _ => d.frameDone j.status
  | .carry gq idx off len => d.carryRead gq idx off len j.status j.words
  | _ => d

/-- Several jobs have ended. -/
def Dev.jobsDone (d : Dev) (js : List Job) : Dev := js.foldl Dev.jobDone d

/-- Starts a job whose outcome is handled when it ends, be it at once. -/
def Dev.runJob (d : Dev) (q : JobReq) : Dev :=
  match d.startJob q with
  | (d, some j) => d.jobDone j
  | (d, none) => d

end Sys2Proof.Machine
end

