-- ==== Sys2Proof/Machine/Records.lean ====
section
/-! DEFINITION. Calibration records as bytes (15 R645 to R648): layouts, the CRC-32C check word, the newer of two copies and the write that
replaces the older. -/

namespace Sys2Proof.Machine

/-! ### Numbers in a record -/

/-- `n` bytes of a signed number in two's complement. -/
def intBytes (n : Nat) (v : Int) : List Byte := leBytes n (v % (256 ^ n : Nat)).toNat

/-- The number at an offset of a record. -/
def recNat (b : List Byte) (off n : Nat) : Nat := leNat ((b.drop off).take n)

/-- The signed number at an offset of a record. -/
def recInt (b : List Byte) (off n : Nat) : Int :=
  let v := recNat b off n
  if 2 * v < 256 ^ n then (v : Int) else (v : Int) - (256 ^ n : Nat)

/-- A byte of flags. -/
def flagByte (l : List Bool) : Byte := BitVec.ofNat 8 (l.foldr (fun b v => (if b then 1 else 0) + 2 * v) 0)

/-! ### Records (R645) -/

/-- What names a record: KIND, SLOT, INDEX and its LEN. -/
structure RecId where
  kind  : Nat
  slot  : Nat
  index : Nat
  len   : Nat
  deriving DecidableEq, Repr, Inhabited

/-- Ring 576b + r: slot 2 + b, index r. -/
def ringId (x : Nat) : RecId := { kind := 2, slot := 2 + x / 576, index := x % 576, len := 40 }

/-- Receive channel 18·port + k: slot 2 + b, index 18p + k within the Beryl. -/
def rxId (i : Nat) : RecId := { kind := 3, slot := 2 + i / 288, index := i % 288, len := 24 }

/-- Laser 36n + j: slot 10 + n, index j. -/
def lasId (j : Nat) : RecId := { kind := 4, slot := 10 + j / 36, index := j % 36, len := 20 }

/-- A record with its header and check word (R645, R646). -/
def record (r : RecId) (seq : Nat) (body : List Byte) : List Byte :=
  let b := leBytes 1 r.kind ++ leBytes 1 r.slot ++ leBytes 2 r.index ++ leBytes 2 r.len ++ leBytes 2 seq ++ body
  b ++ leBytes 4 (crc32c b).toNat

/-- A copy qualifies: a correct check word, and the KIND, SLOT, INDEX and LEN of its place (R646, R647). -/
def recordOk (r : RecId) (b : List Byte) : Bool :=
  decide (b.length = r.len) && decide (recNat b 0 1 = r.kind) && decide (recNat b 1 1 = r.slot) && decide (recNat b 2 2 = r.index)
    && decide (recNat b 4 2 = r.len) && decide ((crc32c (b.take (r.len - 4))).toNat = recNat b (r.len - 4) 4)

/-- The body of a ring record: 28 bytes, the neighbours' places among them; a place without a neighbour holds zeros, which is a neighbour of
coefficient 0 (log 168). -/
def RingRec.bytes (r : RingRec) : List Byte :=
  leBytes 2 r.code ++ intBytes 2 r.temp ++ intBytes 2 r.tc ++ intBytes 2 r.setpt ++ leBytes 2 r.p0 ++ intBytes 1 r.drvcomp ++ leBytes 1 r.swing ++ leBytes 1 r.pre
    ++ [flagByte [r.full, r.flank]]
    ++ ((List.range 4).flatMap fun j => match r.nbrs[j]? with | some n => leBytes 2 n.1 ++ intBytes 1 n.2 | none => [0, 0, 0])
    ++ [0, 0]

/-- A ring record read back. -/
def ringOf (b : List Byte) : RingRec :=
  { code := recNat b 8 2, temp := recInt b 10 2, tc := recInt b 12 2, setpt := recInt b 14 2, p0 := recNat b 16 2, drvcomp := recInt b 18 1,
    swing := recNat b 19 1, pre := recNat b 20 1, full := (recNat b 21 1).testBit 0, flank := (recNat b 21 1).testBit 1
    nbrs := ((List.range 4).map fun j => (recNat b (22 + 3 * j) 2, recInt b (24 + 3 * j) 1)).filter fun n => decide (n.2 ≠ 0) }

/-- The body of a receive-channel record: 12 bytes. -/
def RxRec.bytes (r : RxRec) : List Byte :=
  ((List.range 4).flatMap fun s => intBytes 1 (r.rxc.ofs.getD s 0)) ++ leBytes 1 r.rxc.gain ++ leBytes 1 r.rxc.post ++ leBytes 1 r.rxc.thr ++ leBytes 1 r.rxc.intLen
    ++ leBytes 2 r.lustre ++ intBytes 2 r.temp

/-- A receive-channel record read back. -/
def rxOf (b : List Byte) : RxRec :=
  { rxc := { ofs := (List.range 4).map fun s => recInt b (8 + s) 1, gain := recNat b 12 1, post := recNat b 13 1, thr := recNat b 14 1, intLen := recNat b 15 1 }
    lustre := recNat b 16 2, temp := recInt b 18 2 }

/-- The body of a laser record: 8 bytes. -/
def LasRec.bytes (r : LasRec) : List Byte := leBytes 2 r.iStart ++ leBytes 2 r.ptarget ++ leBytes 2 r.ibol ++ [0, 0]

/-- A laser record read back. -/
def lasOf (b : List Byte) : LasRec := { iStart := recNat b 8 2, ptarget := recNat b 10 2, ibol := recNat b 12 2 }

/-! ### Two copies (R647, R648) -/

/-- SEQ a is newer than b when (a − b) mod 2^16 lies in 1 to 32,767 (R647). -/
def seqNewer (a b : Nat) : Bool := decide (1 ≤ (a + 65536 - b) % 65536) && decide ((a + 65536 - b) % 65536 ≤ 32767)

/-- The copy to read: the one that qualifies, or the newer of two (R647). -/
def Copies.newer (r : RecId) (c : Copies) : Option (List Byte) :=
  if recordOk r c.a then if recordOk r c.b && !seqNewer (recNat c.a 6 2) (recNat c.b 6 2) then some c.b else some c.a
  else if recordOk r c.b then some c.b else none

/-- The older copy, or one that does not qualify, is replaced, with SEQ one higher than the newer copy (R648); copy a with SEQ 0 where none
qualifies (log 168). -/
def Copies.write (r : RecId) (c : Copies) (body : List Byte) : Copies :=
  match c.newer r with
  | none => { c with a := record r 0 body }
  | some n =>
    let new := record r ((recNat n 6 2 + 1) % 65536) body
    if recordOk r c.a && decide (c.a = n) then { c with b := new } else { c with a := new }

/-- The records of a table with a valid copy, read back. -/
def goodRecs {α : Type} (idOf : Nat → RecId) (read : List Byte → α) (t : Tab Copies) : List (Nat × α) :=
  t.filterMap fun e => (e.2.newer (idOf e.1)).map fun b => (e.1, read b)

end Sys2Proof.Machine
end

