-- ==== Sys2Proof/Machine/OpsBoot.lean ====
section
/-! DEFINITION. The boot directory and the image checks (03 R85 to R94), Bus Master Enable and function reset (05 R203 to R209), and the Scrub and Release of a tenant reset (03 R115, 05 R211). -/

namespace Sys2Proof.Machine

/-! ### Boot directory (03 R86 to R88) -/

/-- A number read from the flash, little-endian. -/
def Memory.num (m : Memory) (a n : Nat) : Nat := leNat (m.read a n)

/-- Copy `k` of the directory; `none` without a correct MAGIC and CRC. An ACTIVE byte other than 0 or 1 reads as slot B, and a TRIAL byte
other than 1 as no trial: DESIGN CHOICE (log 132), since R86 names no other value. -/
def dirCopy (m : Memory) (k : Nat) : Option BootDir :=
  let b := 4096 * k
  if m.num b 4 = 0x48584431 && m.num (b + 12) 4 = (crc32c (m.read b 12)).toNat then
    some { ok := true, seq := m.num (b + 4) 4, active := decide (m.num (b + 8) 1 ≠ 0), trial := decide (m.num (b + 9) 1 = 1) }
  else none

/-- The copy in use and its number: the higher SEQ of those that qualify (R87). -/
def dirNow (m : Memory) : Option (Nat × BootDir) :=
  match dirCopy m 0, dirCopy m 1 with
  | some a, some b => if a.seq < b.seq then some (1, b) else some (0, a)
  | some a, none => some (0, a)
  | none, some b => some (1, b)
  | none, none => none

/-- The slot the directory selects: A where no copy qualifies (R87). -/
def dirSlot (m : Memory) : Bool := match dirNow m with | some (_, x) => x.active | none => false

/-- Writes the copy not in use with a SEQ one higher (R88). Where neither copy qualifies it writes copy 0 with SEQ 1: DESIGN CHOICE (log 133). -/
def dirWrite (m : Memory) (active trial : Bool) : Memory :=
  let (k, seq) := match dirNow m with | some (k, x) => (1 - k, x.seq + 1) | none => (0, 1)
  let body := leBytes 4 0x48584431 ++ leBytes 4 seq ++ [BitVec.ofNat 8 (bNat active), BitVec.ofNat 8 (bNat trial), 0, 0]
  (m.erase (4096 * k) 4096).write (4096 * k) (body ++ leBytes 4 (crc32c body).toNat)

/-! ### Images (03 R89 to R92) -/

/-- Where a slot begins (R85). -/
def slotBase (slot : Bool) : Nat := if slot then 0x00D00000 else 0x00100000

/-- A component entry: type, offset, length, digest. -/
structure Comp where
  ctype : Nat
  off   : Nat
  len   : Nat
  dig   : Nat

/-- A number in a byte string, little-endian. -/
def bytesNum (h : List Byte) (a n : Nat) : Nat := leNat ((h.drop a).take n)

/-- The valid component entries of an image header (R89). -/
def comps (h : List Byte) : List Comp :=
  (List.range (min 8 (bytesNum h 6 2))).map fun i =>
    { ctype := bytesNum h (0x20 + 64 * i) 2, off := bytesNum h (0x24 + 64 * i) 4, len := bytesNum h (0x28 + 64 * i) 4,
      dig := beNat ((h.drop (0x2C + 64 * i)).take 48) }

/-- What the checks of R92 come to. -/
inductive ImgCheck where
  | ok (fwVer : BitVec 24) (oxMaj : Byte)
  | auth
  | integrity
  deriving DecidableEq, Repr

/-- Sizes and placement: inside the slot and TOTAL_LEN, one Conik component of at most 3 MiB, 3.5 MiB in all, 256 KiB for the others
(R89, R90, R92). A COMP_OFF below 0x1000 or not a multiple of 4 KiB breaks the layout of R89 and is refused too: DESIGN CHOICE (log 134),
since the list of R92 does not name it. -/
def compsOk (cs : List Comp) (total : Nat) : Bool :=
  cs.all (fun c => decide (0x1000 ≤ c.off) && decide (c.off % 4096 = 0) && decide (c.off + c.len ≤ min total 0xC00000)
      && (decide (c.ctype = 1) || decide (3 < c.ctype) || decide (c.ctype = 0) || decide (c.len ≤ 262144)))
    && decide ((cs.filter fun c => decide (c.ctype = 1)).length = 1)
    && (cs.filter fun c => decide (c.ctype = 1)).all (fun c => decide (c.len ≤ 3145728))
    && decide (((cs.filter fun c => decide (1 ≤ c.ctype) && decide (c.ctype ≤ 3)).map (·.len)).foldl (· + ·) 0 ≤ 3670016)

/-- Jade's checks of a header and the digests computed beside it (R92): INTEGRITY where only a digest differs. -/
def imgCheck (fl : Flash) (h : List Byte) (digs : List (BitVec 384)) : ImgCheck :=
  let n := bytesNum h 6 2
  let cs := comps h
  let key := bytesNum h 0xD 1
  if bytesNum h 0 4 = 0x4858494D && bytesNum h 4 2 = 1 && decide (1 ≤ n) && decide (n ≤ 8) && compsOk cs (bytesNum h 0x10 4)
      && decide (key ≤ 3) && !fl.revoked.getLsbD key && Config.imageSig key (h.take 0x220) ((h.drop 0x220).take 96)
      && decide (fl.minSvn ≤ bytesNum h 0xE 2) then
    if digs.map (·.toNat) = cs.map (·.dig) then .ok (BitVec.ofNat 24 (bytesNum h 8 4)) (BitVec.ofNat 8 (bytesNum h 0xC 1)) else .integrity
  else .auth

/-- The header of a slot, its first 4 KiB (R89). -/
def slotHdr (m : Memory) (slot : Bool) : List Byte := m.read (slotBase slot) 0x1000

/-- The bytes of a component in a slot; none where its entry reaches beyond the 12 MiB. -/
def slotComp (m : Memory) (slot : Bool) (c : Comp) : List Byte :=
  if c.off + c.len ≤ 0xC00000 then m.read (slotBase slot + c.off) c.len else []

/-- The digests the boot ROM computes as it reads a slot (R91). -/
def slotDigs (m : Memory) (slot : Bool) : List (BitVec 384) := (comps (slotHdr m slot)).map fun c => Config.sha384 (slotComp m slot c)

/-- The components of known types, as they come to lie in Conik's SRAM; a component of unknown type is hashed and not loaded (R91, R94). -/
def slotSram (m : Memory) (slot : Bool) : List (Nat × List Byte) :=
  ((comps (slotHdr m slot)).filter fun c => decide (1 ≤ c.ctype) && decide (c.ctype ≤ 3)).map fun c => (c.ctype, slotComp m slot c)

/-- The checks of R92 on a slot as the flash holds it. -/
def imageCheck (fl : Flash) (m : Memory) (slot : Bool) : ImgCheck := imgCheck fl (slotHdr m slot) (slotDigs m slot)

/-- Whether a slot is bad: it is marked (R95 to R97), or a FLASH_WRITE sequence has begun on it and no FINAL has passed since, which the flash
remembers over PR and a loss of power (06 R251). -/
def Dev.bad (d : Dev) (slot : Bool) : Bool := (if slot then d.jad.bBad else d.jad.aBad) || d.flash.unfinished.getLsbD (bNat slot)

/-- Sets or clears the bad mark of a slot. -/
def Dev.setBad (d : Dev) (slot v : Bool) : Dev := if slot then { d with jad.bBad := v } else { d with jad.aBad := v }

/-! ### Calibration records (15 R645 to R650) -/

/-- A ring as its record leaves it (15 R645). -/
def RingRec.load (r : RingRec) (g : Ring) : Ring :=
  { g with setpt := r.setpt, nbrs := r.nbrs, drvcomp := r.drvcomp, swing := r.swing, pre := r.pre }

/-- A die slot with a record that has no valid copy: Beryl b holds 576 ring and 288 channel records, Ruby n 36 lasers. -/
def badSlots (rs : List (Nat × RingRec)) (cs : List (Nat × RxRec)) (ls : List (Nat × LasRec)) : List Nat :=
  ((List.range 4).filter fun b => decide ((rs.filter fun r => decide (r.1 / 576 = b)).length < 576) || decide ((cs.filter fun r => decide (r.1 / 288 = b)).length < 288)).map (2 + ·)
    ++ ((List.range 2).filter fun n => decide ((ls.filter fun r => decide (r.1 / 36 = n)).length < 36)).map (10 + ·)

/-- The laser records reach the Rubies; a laser without one keeps 90 mA and takes the nominal power target, which the spec does not
state (log 6). -/
def Dev.loadLasers (d : Dev) (ls : List (Nat × LasRec)) : Dev :=
  (List.range 72).foldl (fun (d : Dev) j =>
    match ls.find? fun r => decide (r.1 = j) with
    | some (_, r) => { d with las.las := Tab.upd {} j (fun l => { l with target := r.ptarget, startI := r.iStart, ibol := r.ibol }) d.las.las }
    | none =>
      let (v, d) := d.draw 16
      { d with las.las := Tab.upd {} j (fun l => { l with target := v.toNat, startI := 900 }) d.las.las }) d

/-- INIT loads the newer valid copy of each record; the rest take defaults and raise CAL_RECORD for their die slot (15 R647, R650). -/
def Dev.loadRecords (d : Dev) : Dev :=
  let rs := goodRecs ringId ringOf d.calNv.ring
  let cs := goodRecs rxId rxOf d.calNv.rx
  let ls := goodRecs lasId lasOf d.calNv.las
  let n := rs.length + cs.length + ls.length
  let d := rs.foldl (fun (d : Dev) e => { d with opt.rings := Tab.upd {} e.1 (RingRec.load e.2) d.opt.rings }) d
  let d := cs.foldl (fun (d : Dev) e => { d with
    opt.rxc := Tab.put {} e.1 e.2.rxc d.opt.rxc
    cal.chans := Tab.upd {} (36 * (e.1 / 18) + 18 + e.1 % 18) (fun c => { c with lustre := e.2.lustre, polished := e.2.lustre }) d.cal.chans }) d
  let d := { d.loadLasers ls with cal.loaded := n, cal.bad := 3528 - n }
  (badSlots rs cs ls).foldl (fun (d : Dev) u => d.post Src.calRecord u) d

/-- Both slots are bad or the flash cannot be read (R99). An unreadable flash counts as two bad slots; the model sets both marks, so that they
outlast a DR even where the flash can be read again: DESIGN CHOICE (log 135). -/
def Dev.recovery (d : Dev) : Dev :=
  ({ d with boot.stage := .recovery, boot.conikHeld := false }).post Src.bootImage 0

/-! ### Bus Master Enable and FLR (05 R203 to R209) -/

/-- Reads outstanding under a function's requester ID, Translation Requests among them (05 R207, MBX_BMSTAT.OUTSTANDING; 08 R316). -/
def Dev.outstanding (d : Dev) (f : Nat) : Nat := d.readsOf f

/-- Reads of a function outstanding on any path, the Host Facet ports among them (03 R115). -/
def Dev.hostReads (d : Dev) (f : Nat) : Nat := (d.mbx.reads.filter fun r => decide (r.fn = f) && r.port.isSome).length + d.readsOf f

/-- BM_OFF falls once no read is outstanding (05, MBX_BMSTAT). -/
def Dev.bmSettled (d : Dev) (f : Nat) : Dev := d.setFn f fun g => { g with bmOff := g.bmOff && decide (0 < d.outstanding f) }

/-- The completion of a read that was outstanding when Bus Master Enable was cleared is discarded and counted (05 R204). -/
def Dev.discardRead (d : Dev) (f : Nat) : Dev := (d.setFn f fun g => { g with discarded := satAdd 0x3FF g.discarded }).bmSettled f

/-- Ends one waiting access. -/
def Dev.endAccess (d : Dev) (a : Access) (st : Status) : Dev :=
  let (d, j) := d.endPiece a.job a.off st []
  d.jobsDone j.toList

/-- What a test names is dropped from the caches, and accesses not yet sent that it covers are translated anew (08 R327, R332, R333, R337). -/
def Dev.forget (d : Dev) (hit : Nat → Option Nat → Nat → Nat → Bool) : Dev :=
  let d := d.dropXlt fun e => hit e.owner e.pasid e.base.toNat (2 ^ e.log2)
  let (d, js) := d.retranslate hit
  d.jobsDone js

/-- Bus Master Enable of a function reads 0 (R203 to R205): queues with work stop and their operations end MASTER_DISABLED; reads
outstanding are no longer waited for, requests not yet sent are dropped. -/
def Dev.bmeCleared (d : Dev) (f : Nat) : Dev :=
  let reads := d.mbx.reads.filter fun r => decide (r.fn = f) && r.port.isNone && !r.stale
  let waits := d.mbx.readWait.filter fun r => decide (r.fn = f)
  let accs := ((d.xlt.ats ++ d.xlt.atsWait).filter fun a => decide (a.fn = f)).filterMap (·.acc)
  let pages := (d.xlt.pages.filter fun p => decide (p.fn = f)).map (·.acc)
  let d := d.setFn f fun g => { g with bme := false, bmOff := decide (0 < d.outstanding f) }
  let d := { d with
    mbx.reads := d.mbx.reads.map (fun r => (if r.fn = f && r.port.isNone then { r with stale := true } else r : HRead))
    mbx.readWait := d.mbx.readWait.filter fun r => decide (r.fn ≠ f)
    xlt.ats := d.xlt.ats.map (fun a => (if a.fn = f then { a with stale := true, off := true, acc := none } else a : AtsReq))
    xlt.atsWait := d.xlt.atsWait.filter fun a => decide (a.fn ≠ f)
    xlt.pages := d.xlt.pages.filter fun p => decide (p.fn ≠ f) }
  let d := if f = 0 then d else
    let gqs := (List.range 64).map fun q => 64 * (f - 1) + q
    let d := gqs.foldl (fun d gq =>
      let st := (d.queue gq).st
      if st = .running || st = .draining || st = .aborting then (d.setQueue gq fun q => { q with st := .mdStopped }).dropPre gq none else d) d
    let d := d.endOps (fun o => decide (o.gq / 64 + 1 = f)) .masterDisabled
    d.finishAccs (fun a => decide (a.opcode = 0x0303) && a.objs.any fun o => match o with | .queue t _ => decide (t + 1 = f) | _ => false)
      .masterDisabled []
  let d := reads.foldl (fun d r => let (d, j) := d.endPiece r.job r.off .masterDisabled []; d.jobsDone j.toList) d
  let d := waits.foldl (fun d r => let (d, j) := d.endPiece r.job r.off .masterDisabled []; d.jobsDone j.toList) d
  (accs ++ pages).foldl (fun d a => d.endAccess a .masterDisabled) d

/-- Bus Master Enable of a function reads 1 (07 R275): held records and vectors go out. -/
def Dev.bmeSet (d : Dev) (f : Nat) : Dev :=
  let d := d.setFn f fun g => { g with bme := true }
  let d := if f = 0 then d else ((List.range 64).map fun q => 64 * (f - 1) + q).foldl (fun d gq => d.flushRecords gq) d
  d.flushVecs f

/-- An FLR of a function (R207, R209): its configuration reads as reset at once; held records are discarded. -/
def Dev.flr (d : Dev) (f : Nat) : Dev :=
  let d := d.bmeCleared f
  let d := d.setFn f fun g => { g with
    mse := false, vfEnable := false, cto := 0, mrrs := 2, mps := 0, bar := [], aerCorr := 0, aerUncorr := 0, msix := false, atomicEn := false, priEn := false, pageAlloc := 0,
    vecs := [], vadr := [], vctl := [], flr := decide (0 < d.outstanding f) }
  if f = 0 then d else
    ((List.range 64).map fun q => 64 * (f - 1) + q).foldl (fun d gq => d.setQueue gq fun q => { q with held := [] }) d

/-- The mailbox registers and contents of a function read as reset; its configuration stays (05 R211, R212). -/
def Fn.mailboxReset (g : Fn) : Fn :=
  { mse := g.mse, bme := g.bme, vfEnable := g.vfEnable, cto := g.cto, mrrs := g.mrrs, mps := g.mps, bar := g.bar, aerCorr := g.aerCorr, aerUncorr := g.aerUncorr, msix := g.msix, atomicEn := g.atomicEn, priEn := g.priEn,
    pageAlloc := g.pageAlloc, flr := g.flr, vadr := g.vadr, vctl := g.vctl, kept := g.kept }

/-! ### Scrub and Release -/

/-- Requests of a tenant that wait on a port for packet buffer units are dropped, and their credits return. -/
def Dev.dropMemWait (d : Dev) (t p : Nat) : Dev :=
  let mine := (d.hport p).memWait.filter fun x => decide (x.2.tenant = t)
  mine.foldl (fun d x => (if x.1 = 3 || x.1 = 5 then d else d.facetCpl p x.2.tag t 1 []).memCredit p x.2)
    (d.setHport p fun h => { h with memWait := h.memWait.filter fun x => decide (x.2.tenant ≠ t) })

/-- What the tenant holds in remote memory, coherence and collectives goes (09 R390, 10). -/
def Dev.scrubFabric (d : Dev) (t : Nat) : Dev :=
  let d := (List.range 12).foldl (fun d p => d.dropMemWait t p) d
  let dies := d.rm.die.filter fun r => decide (r.tenant = t)
  let d := dies.foldl (fun d r => if r.posted then d else d.facetCpl r.p r.tag t 1 []) { d with rm.die := d.rm.die.filter fun r => decide (r.tenant ≠ t) }
  let d := (d.tq.txns.filter fun x => decide (x.gq / 64 = t)).foldl Dev.retire d
  let mine : CohWord → Bool := fun w => decide (w.tenant = t)
  let d := (d.rm.dir.filter fun e => mine e.word).foldl (fun d e => e.holders.foldl (fun d p => d.facet p 1 1 (.facetCoh p 3 e.word 0)) d) d
  let owns : Nat → Bool := fun i => decide (Tab.look 0 (i / 1024) d.col.owner = t + 1)
  let ws := d.col.waiters.filter fun w => owns w.index && w.own.isNone
  let d := ws.foldl (fun d w => d.answer w.pkt .targetUnavailable) d
  { d with
    rm.lines := d.rm.lines.filter fun l => decide (l.t ≠ t)
    rm.streams := d.rm.streams.filter fun s => decide (s.1 / 32 ≠ t)
    rm.subs := d.rm.subs.filter fun s => decide (s.t ≠ t)
    rm.dir := d.rm.dir.filter fun e => !mine e.word
    col.inst := d.col.inst.filter fun x => decide (x.t ≠ t)
    col.carries := d.col.carries.filter fun x => decide (x.t ≠ t)
    col.groups := d.col.groups.filter fun g => decide (g.1 / 256 ≠ t)
    col.waiters := d.col.waiters.filter fun w => !owns w.index
    col.resend := d.col.resend.filter fun x => decide (x.1 / 64 ≠ t)
    col.sem := d.col.sem.filter fun x => !owns x.1 }

/-- What the tenant holds in translation, the Vault and the Twin journal goes; unsealed versions are discarded (17 R747). -/
def Dev.scrubHost (d : Dev) (t : Nat) : Dev :=
  let mine : Guard → Bool := fun g => match g with
    | .record gq _ => decide (gq / 64 = t)
    | .sem i _ => decide (Tab.look 0 (i / 1024) d.col.owner = t + 1)
    | .mark u _ _ => decide (u = t)
    | .reply .. => false
  let d := d.dropXlt fun e => decide (e.owner = t + 1)
  let peers := d.vlt.heldPeer.filter fun x => decide (x.2.dstTen = t)
  let d := peers.foldl (fun d x => d.refuse x.1 x.2 .targetUnavailable) d
  let dies := d.vlt.heldDie.filter fun x => decide (x.2.2.tenant = t)
  let d := dies.foldl (fun d x => if x.1 = 2 || x.1 = 4 then d.facetCpl x.2.1 x.2.2.tag t 1 [] else d) d
  let v := d.vten t
  { d with
    xlt.ats := d.xlt.ats.map (fun a => (if a.fn = t + 1 then { a with acc := none } else a : AtsReq))
    xlt.atsWait := d.xlt.atsWait.filter fun a => decide (a.fn ≠ t + 1)
    xlt.pages := d.xlt.pages.filter fun p => decide (p.fn ≠ t + 1)
    vlt.ten := Tab.put {} t { mirrored := v.mirrored, mirrorOff := v.mirrorOff } d.vlt.ten
    vlt.heldPut := d.vlt.heldPut.filter fun h => decide (h.gq / 64 ≠ t)
    vlt.heldPeer := d.vlt.heldPeer.filter fun x => decide (x.2.dstTen ≠ t)
    vlt.heldDie := d.vlt.heldDie.filter fun x => decide (x.2.2.tenant ≠ t)
    onyx.vers := d.onyx.vers.filter fun v => decide (v.t ≠ t) || d.sealed v
    twn.guards := d.twn.guards.filter fun g => !mine g.2
    twn.jwait := d.twn.jwait.filter fun g => match g.2 with | some x => !mine x | none => true }

/-- Scrub (03 R115): slices, semaphores, counters and the fault log of the tenant are zeroed, its commands still open end ABORTED,
its queues are ABSENT and keep their serials (07 R273, R286, R297). -/
def Dev.scrub (d : Dev) (t : Nat) : Dev :=
  let d := d.journalCfg t 0x0204 []
  let d := d.finishAccs (fun a => (a.objs.any fun o => decide (o.tenant? = some t)) && decide (a.opcode ≠ 0x0204) && decide (a.opcode ≠ 0x0201)) .aborted []
  let d := (d.scrubFabric t).scrubHost t
  let d := (List.range 64).foldl (fun d q => d.setQueue (64 * t + q) fun x => { serial := x.serial, retired := x.retired }) d
  let d := d.setTen t fun x => { x with rst := 3, pkt := 0, red := 0, pgb := 0, waiting := [], granted := [], deficit := [], tokens := 0, qflag := [], serving := 0, servingOld := 0 }
  { d with
    flt.log := d.flt.log.map (fun r => (if r.dom = some t then { r with acked := true, view := false } else r : Rec))
    tq.ops := d.tq.ops.filter fun o => decide (o.gq / 64 ≠ t)
    dbg.ops := d.dbg.ops.filter fun c => decide (c.1 / 64 ≠ t)
    dbg.qacct := d.dbg.qacct.filter fun c => decide (c.1 / 1024 ≠ t)
    dbg.qbase := (List.range 64).foldl (fun l q => Tab.put 0 (64 * t + q) d.dbg.counted l) d.dbg.qbase
    dbg.qsince := d.dbg.qsince.filter fun c => decide (c.1 / 64 ≠ t)
    dbg.lastRange := d.dbg.lastRange.filter fun c => decide (c.1 / 64 ≠ t) }

/-- The tenant's slices return (TEN_RELEASE, or the assignments an FR of the PF clears, 03 R112): its window, semaphore blocks and
payload keys go; with TEN_RELEASE its Vault contents too (19 R805). -/
def Dev.unassign (d : Dev) (t : Nat) (vault : Bool) : Dev :=
  let d := d.journalCfg t 0x0201 []
  let d := { d with twn.snapSent := Tab.put 0 t 0 d.twn.snapSent }
  let d := d.setTen t fun x => { x with assign := none, winBase := 0, winSize := 0, winPasid := 0, winFlags := 0, frPf := false }
  let d := { d with
    col.owner := d.col.owner.filter fun o => decide (o.2 ≠ t + 1)
    sec.slots := d.sec.slots.filter fun s => decide (s.1 / 64 ≠ t) }
  if vault then d.vaultErase t else d

/-- Release (03 R115, 05 R211, R234): rings read as zero, TEN_RESET_DONE comes first, then the final notices of TEN_RESET and
TEN_RELEASE (06 R233). -/
def Dev.trRelease (d : Dev) (t : Nat) : Dev :=
  let x := d.ten t
  let n := satAdd 0xFF x.rstCount
  let d := (d.setTen t fun x => { x with rst := 0, rstCount := n }).setFn (t + 1) Fn.mailboxReset
  let r : Reply := { opcode := 0x02F0, tenant := t, notice := true, data := [x.rstCause, n] }
  let d := (if x.frPf then d else d.notice (t + 1) r).notice 0 r
  let of : Nat → Acc → Bool := fun op a => decide (a.opcode = op) && a.objs.contains (.tenant t)
  let rel := d.mbx.acc.any (of 0x0201)
  let d := if rel || x.frPf then d.unassign t rel else d
  (d.finishAccs (of 0x0204) .ok []).finishAccs (of 0x0201) .ok []

/-- An FR of the PF (03 R112, R119): PF state and every tenant are reset; fabric, links, calibration and Twin pairing stay.
PF commands in progress end without a notice, as their ring is gone. The stage drops to HOST_READY, as the table's 'Restarts at' says;
Case 2 keeps FABRIC_READY throughout: DESIGN CHOICE (log 136), and FABRIC_READY is entered again at once where R450 still holds. -/
def Dev.frPf (d : Dev) (bit : BitVec 8) (resumeCause : Nat) : Dev :=
  let d := ((d.resume resumeCause).flr 0)
  let d := (List.range 16).foldl (fun d t => (d.flr (t + 1)).setTen t fun x => { x with keydef := 0, krBase := [], krLim := [], krCtl := [] }) d
  let d := (d.setFn 0 fun g => { (Fn.mailboxReset g) with kept := [] })
  let onPf : Path → Bool := fun p => match p with | .mctp => false | p => decide (pathFn p = 0)
  let d := { d with
    jad.rstCause := d.jad.rstCause ||| bit
    boot.stage := .hostReady
    mbx.acc := d.mbx.acc.filter fun a => !onPf a.req.path
    mbx.cur := d.mbx.cur.filter fun w => !onPf w.hdr.req.path
    sec.slots := []
    sec.auth := d.sec.auth.filter fun a => match a.1 with | .mctp => true | _ => false }
  (List.range 16).foldl (fun d t => (d.trStart t 4).setTen t fun x => { x with frPf := true }) d

/-- FR of the PF in RECOVERY, where no tenant and no VF is served: its configuration space and mailbox read as reset (03 R100, R112). -/
def Dev.frRecovery (d : Dev) : Dev :=
  { (d.flr 0).setFn 0 fun g => { (Fn.mailboxReset g) with kept := [] } with jad.rstCause := d.jad.rstCause ||| 64 }

end Sys2Proof.Machine
end

