-- ==== Sys2Proof/Machine/Boot.lean ====
section
/-! DEFINITION. Die identity (01), boot, resets and tenant resets (03), and the PCIe endpoint (05 R162 to R176, R203 to R208). -/

namespace Sys2Proof.Machine

/-! ### Identity (01 R33 to R47) -/

/-- The die type a slot must report. -/
def slotType (n : Nat) : Nat := if n = 0 then 1 else if n = 1 then 6 else if n < 6 then 2 else if n < 10 then 3 else if n < 12 then 4 else 5

/-- An identity word passes its check: its CRC-8 over bits 63:8, most significant byte first, and its die type (R34). -/
def idOk (n : Nat) (w : W64) : Bool :=
  (crc8 (((List.range 7).map fun i => BitVec.ofNat 8 (w.toNat / 2 ^ (56 - 8 * i))))).toNat = w.toNat % 256 && w.toNat / 2 ^ 60 = slotType n

/-- Revision of an identity word: major in bits 7:4, minor in 3:0. -/
def revOf (w : W64) : Nat := w.toNat / 2 ^ 52 % 256

/-- The combination table (R35): the revisions of a die kind (0 Garnet, 1 Jade, 2 Beryl, 3 Quartz, 4 Ruby, 5 Onyx) in combination 1 or 2. -/
def comboRevs (c kind : Nat) : List Nat :=
  if c = 1 then (if kind = 1 then [0x01, 0x02] else [0x01])
  else if kind = 0 then [0x10] else if kind = 1 then [0x02] else if kind = 2 then [0x01, 0x10] else if kind = 4 then [0x01, 0x02] else [0x01]

def kindOf (n : Nat) : Nat := if n = 0 then 0 else if n = 1 then 1 else if n < 6 then 2 else if n < 10 then 3 else if n < 12 then 4 else 5

/-- The revision most slots of a kind report; the lower one of a tie. -/
def commonRev (ids : List (Nat × Nat)) (kind : Nat) : Nat :=
  let mine := (ids.filter fun x => decide (kindOf x.1 = kind)).map (·.2)
  (mine.foldl (fun (b : Nat × Nat) r =>
    let n := (mine.filter fun y => decide (y = r)).length
    if b.2 < n || (b.2 = n && decide (r < b.1)) then (r, n) else b) (0, 0)).1

/-- Slots that break combination `c`: a revision it does not list, or, for Beryl, Ruby and Onyx, not the common one (R35, R42). -/
def offenders (c : Nat) (ids : List (Nat × Nat)) : List Nat :=
  (ids.filter fun x =>
    !(comboRevs c (kindOf x.1)).contains x.2 || ([2, 4, 5].contains (kindOf x.1) && decide (x.2 ≠ commonRev ids (kindOf x.1)))).map (·.1)

/-- Slots held out with a slot (R36 to R41): its optical stack, a Ruby's two stacks, an Onyx stack. -/
def heldWith (n : Nat) : List Nat :=
  if n < 2 then [] else if n < 6 then [n, n + 4] else if n < 10 then [n - 4, n]
  else if n = 10 then [10, 2, 3, 6, 7] else if n = 11 then [11, 4, 5, 8, 9]
  else if n < 16 then [12, 13, 14, 15] else [16, 17, 18, 19]

/-- Power domains of a die slot (02 R58, R82). -/
def slotDomains (n : Nat) : List Nat :=
  if 2 ≤ n && n < 6 then (List.range 11).map fun i => 54 + 11 * (n - 2) + i
  else if n = 10 then [98, 99, 100] else if n = 11 then [101, 102, 103] else if 12 ≤ n && n < 20 then [104 + (n - 12)] else []

/-- The strap designator a Beryl on Garnet port `i` reports (R26). -/
def berylDes (st : Straps) (i : Nat) : Nat := match st.beryl[i]? with | some (pos, ori) => 2 * bNat ori + bNat pos | none => i

/-- The staircase position and orientation an Onyx die in place `i` (4 × stack + place) finds (R30). -/
def onyxPos (st : Straps) (i : Nat) : Nat × Bool := match st.onyx[i]? with | some x => x | none => (i % 4, decide (i % 2 = 1))

/-- STRAP_STK of a stack, which its bottom die samples and passes up (R31). -/
def stackStrap (st : Straps) (s : Nat) : Bool := (st.onyxStk[s]?).getD (decide (s = 1))

/-- The designator of the Onyx die in place `i`: V(4 × STRAP_STK + p) (R31). -/
def onyxDes (st : Straps) (i : Nat) : Nat := 4 * bNat (stackStrap st (i / 4)) + (onyxPos st i).1

/-- The place of the die that has the designator Vn; none where no die claims it. -/
def onyxPlace (st : Straps) (n : Nat) : Option Nat := (List.range 8).find? fun i => decide (onyxDes st i = n)

/-! ### The remaps of turned dies (R29, R32) -/

/-- Data lane `l` of `w` as a Beryl presents it to Garnet: reversed within each cluster where STRAP_ORI is 1 (R29). -/
def berylLane (ori : Bool) (w l : Nat) : Nat := if ori then w - 1 - l else l

/-- Cluster `c` of `n` as a Beryl presents it (R29). -/
def berylCluster (ori : Bool) (n c : Nat) : Nat := if ori then n - 1 - c else c

/-- The wavelength position of Quartz laser input coupler `k` (R29). -/
def couplerPos (ori : Bool) (k : Nat) : Nat := if ori then 17 - k else k

/-- The lane order Garnet finds on Inner Facet port `i`: the Beryl there stands turned where the port lies on the south edge, and undoes that
by its own remap; the order arrives canonical exactly where its STRAP_ORI says how it stands (R25, R29, R36). -/
def laneSeen (st : Straps) (i l : Nat) : Nat :=
  berylLane (match st.beryl[i]? with | some x => x.2 | none => decide (2 ≤ i)) 32 (if 2 ≤ i then 31 - l else l)

/-- A word of an Onyx die's 32-bit channel: a turned die reverses the bit order (R32). -/
def onyxWord (turned : Bool) (w : W32) : W32 := if turned then w.reverse else w

/-- A plane as a turned Onyx die maps it (R32). -/
def onyxPlane (turned : Bool) (p : Nat) : Nat := if turned then 3 - p else p

/-- One slot's record from the reads of its die: the first that passes of up to three, else the last (R40). `reads` lists Garnet, Jade, the
Beryls and Quartz by Garnet port, the Rubies, and the Onyx dies by stack and place; an Onyx die is recorded in the slot of its designator
(R31), and a slot that no die claims fails its check. -/
def dieOf (st : Straps) (n : Nat) (reads : List (List W64)) : Die :=
  let place := if 12 ≤ n then onyxPlace st (n - 12) else some 0
  let rs := match place with | some i => ((reads[if 12 ≤ n then 12 + i else n]?).getD []).take 3 | none => []
  let good := rs.find? (idOk n)
  let base : Die := { id := (good.or rs.getLast?).getD 0, valid := true, chkOk := good.isSome }
  if 2 ≤ n && n < 10 then
    match st.beryl[(n - 2) % 4]? with | some (pos, ori) => { base with ori := ori, pos := if pos then 1 else 0 } | none => base
  else if 12 ≤ n then
    match place with
    | some i => { base with ori := (onyxPos st i).2, pos := BitVec.ofNat 2 (onyxPos st i).1, stk := stackStrap st (i / 4) }
    | none => base
  else base

/-- Holds out the slots that go with a slot and raises DIE_HELD for the one that caused it (R36 to R41, 02 R82); a die held out already is
marked and raises no further fault (20 R849). A Ruby's laser-disable wire is asserted. -/
def Dev.holdSlots (d : Dev) (cause : Nat) (mark : Die → Die) : Dev :=
  if (Tab.look {} cause d.boot.dies).held then { d with boot.dies := Tab.upd {} cause mark d.boot.dies } else
  let hs := heldWith cause
  let doms := hs.flatMap slotDomains
  let d := { d with
    boot.dies := Tab.upd {} cause mark (Tab.updAll {} hs (fun _ x => { x with held := true }) d.boot.dies)
    pwr.heldOff := Tab.updAll false doms (fun _ _ => true) d.pwr.heldOff
    pwr.dom := Tab.updAll 0 doms (fun _ _ => 0) d.pwr.dom
    pwr.seq := d.pwr.seq.filter fun s => !doms.contains s.1 }
  let d := if cause = 10 then d.lasersOff [0] else if cause = 11 then d.lasersOff [1] else d
  d.post Src.dieHeld cause

/-- Strap checks of Beryl and Onyx dies (R36 to R39). -/
def Dev.strapChecks (d : Dev) : Dev :=
  let st := d.jad.straps
  let d := (List.range 4).foldl (fun d i =>
    let des := berylDes st i
    let dup := (List.range 4).any fun j => decide (j ≠ i) && decide (berylDes st j = des)
    if des ≠ i || dup then d.holdSlots (2 + i) fun x => { x with mismatch := decide (des ≠ i), conflict := dup } else d) d
  (List.range 8).foldl (fun d i =>
    let (p, m) := onyxPos st i
    let dup := (List.range 4).any fun j => decide (4 * (i / 4) + j ≠ i) && decide ((onyxPos st (4 * (i / 4) + j)).1 = p)
    let turned := decide (m ≠ decide (p % 2 = 1))
    if dup || turned then d.holdSlots (12 + onyxDes st i) fun x => { x with mismatch := x.mismatch || turned, conflict := dup } else d) d

/-- Bits of slots, for an inclusion's DETAIL (20 R844). -/
def slotMask (l : List Nat) : Nat := (l.map fun n => 2 ^ n).foldl (· + ·) 0

/-- Every slot is read and recorded (R33, R40). -/
def Dev.collect (d : Dev) (reads : List (List W64)) : Dev :=
  (List.range 20).foldl (fun d n =>
    { d with boot.dies := Tab.put {} n (dieOf d.jad.straps n reads) d.boot.dies }) d

/-- The slots whose identity word failed its check. -/
def Dev.failing (d : Dev) : List Nat := (List.range 20).filter fun n => !(Tab.look {} n d.boot.dies).chkOk

/-- The failing slots are held out, then those the strap checks name (R36 to R41). -/
def Dev.holdFailing (d : Dev) : Dev := (d.failing.foldl (fun d n => d.holdSlots n id) d).strapChecks

/-- The slots that break combination `k`, of those not held out for their identity (R35). -/
def Dev.breakers (d : Dev) (k : Nat) : List Nat :=
  let out := d.failing.flatMap heldWith
  offenders k (((List.range 20).filter fun n => !out.contains n).map fun n => (n, revOf (Tab.look {} n d.boot.dies).id))

/-- A whole-cluster repair of a fuse: a spare cluster carries the failing cluster's role in its direction (04 R156; 23 R917, R918). -/
def InnerDir.fuse (x : InnerDir) (r : Repair) : InnerDir :=
  { x with failed := x.failed ||| BitVec.ofNat 72 (2 ^ r.cluster), spare := Tab.put 0 (r.target - 68) (r.cluster + 1) x.spare }

/-- A repair fuse of an Inner Facet is applied: a spare cluster, or a spare lane of the cluster (04 R156; 23 R917, R918). -/
def Dev.fuse (d : Dev) (n : Nat) (r : Repair) : Dev :=
  if 68 ≤ r.target then
    { d with fct.inner := Tab.upd {} n (fun x => if r.toDie then { x with tx := x.tx.fuse r } else { x with rx := x.rx.fuse r }) d.fct.inner }
  else
    let put : Lrep → Lrep := fun l => if r.target = 32 then { l with s0 := some r.lane } else { l with s1 := some r.lane }
    d.setClus (8 + n) r.cluster fun y => if r.toDie then { y with tx := put y.tx } else { y with rx := put y.rx }

/-- Two entries of a die name the same cluster, direction and target (23 R926). -/
def fuseConflict : List Repair → Bool
  | [] => false
  | r :: l => (l.any fun x => decide (x.toDie = r.toDie) && decide (x.cluster = r.cluster) && decide (x.target = r.target)) || fuseConflict l

/-- Fused repairs are applied to the four Inner Facets before they train (23 R918); a die whose entries conflict is held out (23 R926). -/
def Dev.fuseBridges (d : Dev) : Dev :=
  let d := (List.range 4).foldl (fun d n => (Tab.look [] n d.fuses.repair).foldl (fun d r => d.fuse n r) d) { d with fct.inner := [] }
  (List.range 6).foldl (fun d n =>
    if fuseConflict (Tab.look [] n d.fuses.repair) then d.holdSlots (if n < 4 then 2 + n else 12 + 4 * (n - 4)) id else d) d

/-- The combination is decided and boot goes on, but for the test straps; the bridges take their fused repairs. -/
def Dev.combine (d : Dev) (k : Nat) : Dev :=
  { d.fuseBridges with boot.combo := k, boot.comboOk := true, boot.collected := true, boot.stage := if d.jad.straps.testEn then d.boot.stage else .load }

/-- No combination holds: the dies that break it are refused, with S5 (R35, R42). R42 says only 'each offending slot'; which slots those are
where no combination fits is the model's choice: those that break the combination with the fewest offenders, combination 1 on a tie, where
dies that must share a revision offend by not having the one most of them have, the lower on a tie. DESIGN CHOICE (log 137). -/
def Dev.refuseDies (d : Dev) (os : List Nat) : Dev :=
  Dev.post { d with boot.collected := true, boot.dies := Tab.updAll {} os (fun _ x => { x with refused := true }) d.boot.dies }
    Src.dieFatal (os.headD 0) none (slotMask os)

/-- IDENTITY_COLLECT (R33 to R42, R46): every slot is read, checked and recorded; a failing Garnet or Jade, or a combination that breaks
R35, stops boot with S5. -/
def execIdentityCollect (reads : List (List W64)) (s : State) : R := s.run fun d =>
  if d.boot.stage = .identify then
    let d := d.collect reads
    let dead := d.failing.filter fun n => decide (n < 2)
    if !dead.isEmpty then (d.post Src.dieFatal (dead.headD 0) none (slotMask dead)).settle
    else
      let o1 := d.breakers 1
      let o2 := d.breakers 2
      if o1.isEmpty then (d.holdFailing.combine 1).settle
      else if o2.isEmpty then (d.holdFailing.combine 2).settle
      else (d.holdFailing.refuseDies (if o2.length < o1.length then o2 else o1)).settle
  else d

/-! ### Boot (03 R87 to R104) -/

/-- The boot ROM reads a slot: its components of known types go to Conik's SRAM, each component is hashed as it is read, and the header and the
digests go to Jade (R91, R94). -/
def Dev.loadSlot (d : Dev) (m : Memory) (slot : Bool) : Dev :=
  { d with boot.slot := slot, boot.loaded := true, boot.hdr := slotHdr m slot, boot.digs := slotDigs m slot, boot.sram := slotSram m slot }

/-- SLOT_LOAD (R87, R91, R95, R97, R99): the slot the directory selects, or the other when that one is bad. -/
def execSlotLoad (readable : Bool) (s : State) : R := s.run fun d =>
  if d.boot.stage = .load && !d.boot.loaded then
    if !readable then ((({ d with jad.aBad := true, jad.bBad := true }).recovery)).settle
    else
      let sel := dirSlot s.mem
      if !d.bad sel then d.loadSlot s.mem sel
      else if !d.bad (!sel) then d.loadSlot s.mem (!sel)
      else d.recovery.settle
  else d

/-- A slot that fails its check is bad; with both bad boot enters recovery (R93, R95, R99). -/
def Dev.rejectSlot (d : Dev) : Dev :=
  let d := (({ d with boot.loaded := false, boot.hdr := [], boot.digs := [], boot.sram := [] }).setBad d.boot.slot true).post Src.bootSlot 0
  if d.bad false && d.bad true then d.recovery else d

/-- A verified slot is executed: INIT begins, with the calibration records loaded (R95, 15 R647); Oxsum's minor version is free (log 6). -/
def Dev.executeSlot (d : Dev) (ver : BitVec 24) (maj : Byte) : Dev :=
  Dev.loadRecords { (d.draw 8).2 with
    boot.stage := .init, boot.loaded := false, boot.conikHeld := false, boot.fwVer := ver, boot.oxMaj := maj
    mbx.oxMin := (d.draw 8).1.toNat, boot.execAt := d.now }

/-- SLOT_VERIFY (R92, R93, R95, R99, 15 R647, R650): Jade authorises execution and INIT loads the calibration records, or the slot is bad
and the other is loaded. -/
def execSlotVerify (s : State) : R := s.run fun d =>
  if d.boot.stage = .load && d.boot.loaded then
    match imgCheck d.flash d.boot.hdr d.boot.digs with
    | .ok ver maj => (d.executeSlot ver maj).settle
    | _ => d.rejectSlot.settle
  else d

/-- BOOT_WATCHDOG (R96): the second DR of a slot marks it bad. The count of a slot starts again at PR only, not at HOST_READY or after a new
image: DESIGN CHOICE (log 138). -/
def execBootWatchdog (s : State) : R := s.run fun d =>
  if d.boot.stage = .init then
    let n := (if d.boot.slot then d.jad.wdogB else d.jad.wdogA) + 1
    let d := if d.boot.slot then { d with jad.wdogB := n } else { d with jad.wdogA := n }
    let d := if 2 ≤ n then ((d.setBad d.boot.slot true).post Src.bootSlot 0) else d
    (d.devReset .wdog).settle
  else d

/-- HOST_READY_ENTRY (R101, R98, 06 R252): the DR count returns to 0, and a trial that did not boot is reverted in the directory. -/
def execHostReadyEntry (s : State) : R := s.runMem fun d m =>
  if d.boot.stage = .init then
    let d := { d with boot.stage := .hostReady, boot.readyAt := d.now, jad.drCount := 0, boot.bootTime := BitVec.ofNat 32 ((d.now - d.boot.start) / 1000) }
    match dirNow m with
    | some (_, x) =>
      if x.trial && decide (x.active ≠ d.boot.slot) then ((d.post Src.bootSlot 0).settle, dirWrite m d.boot.slot false) else (d, m)
    | none => (d, m)
  else (d, m)

/-- PERST_ASSERT (R110, R111, R120): the endpoint is held in reset, so that before HOST_READY its configuration space and mailboxes read as
reset; after HOST_READY the PF takes FR. -/
def execPerstAssert (s : State) : R := s.run fun d =>
  if d.jad.perstHigh then
    let d := { d with jad.perstHigh := false, jad.perstFell := d.now, mbx.link := {} }
    (if d.up then d.frPf 128 3 else { d with mbx.fns := [] }).settle
  else d

/-- PERST_DEASSERT (R110, 16 R692): the endpoint may train; after at least 100 µs low it wakes Always-on only, a wake that is held while
Always-on only is being entered (02 R80). -/
def execPerstDeassert (s : State) : R := s.run fun d =>
  if d.jad.perstHigh then d
  else
    let d := { d with jad.perstHigh := true }
    if d.boot.stage = .dormant && decide (d.jad.perstFell + 100000 ≤ d.now) then { d with jad.pwrReq := true, boot.stage := .rails }
    else if d.jad.losing && decide (d.pwr.target = 3) && !d.jad.latched && decide (d.jad.perstFell + 100000 ≤ d.now) then { d with pwr.wakeHeld := some none }
    else d

/-- PCIE_FLR_PF (R112): FR of the PF, a configuration write that comes over the link. -/
def execPcieFlrPf (s : State) : R := s.run fun d => d.configReq 0 fun d => (if d.up then d.frPf 64 2 else d.frRecovery).settle

/-- PCIE_FLR_VF (05 R207, R209, 03 R112): the Bus Master Enable rules at once, and the tenant's TR. -/
def execPcieFlrVf (t : Nat) (s : State) : R := s.runIf (Unit.tenant t) fun d => d.configReq (t + 1) fun d =>
  (((d.resume 2).flr (t + 1)).trStart t 0).settle

/-- FLR_READS_DRAINED (05 R207). -/
def execFlrReadsDrained (fn : Nat) (s : State) : R := s.runIf (Unit.function fn) fun d =>
  if d.outstanding fn = 0 then d.setFn fn fun g => { g with flr := false, bmOff := false } else d

/-- DEVICE_RESET (R112, R117). -/
def execDeviceReset (cause : DrCause) (s : State) : R := s.run fun d => (d.devReset cause).settle

/-- TR_QUIESCE_DONE (R115): nothing of the tenant runs and its host reads have ended; Scrub follows. -/
def execTrQuiesceDone (t : Nat) (s : State) : R := s.runIf (Unit.tenant t) fun d =>
  let d := if (d.ten t).rst = 1 then d.trQuiesce t else d
  (if (d.ten t).rst = 2 && decide (d.hostReads (t + 1) = 0) then d.scrub t else d).settle

/-- TR_SCRUB_DONE (R115, 05 R211): Release. -/
def execTrScrubDone (t : Nat) (s : State) : R := s.runIf (Unit.tenant t) fun d =>
  (if (d.ten t).rst = 3 then d.trRelease t else d).settle

/-! ### The PCIe endpoint (05) -/

/-- Size of a function's BAR, by its first dword (R171). -/
def barSize (fn k : Nat) : Nat := if 2 ≤ k then 2 ^ 16 else if fn = 0 then 2 ^ 24 else 2 ^ 20

/-- A dword of a BAR as it reads: the programmed address above the size of the BAR, and in the low dword the type, 64-bit memory, not
prefetchable (R171). -/
def Fn.barDword (g : Fn) (fn k : Nat) : W32 :=
  let v := Tab.look 0 k g.bar
  if k % 2 = 1 then v else (v &&& ~~~(BitVec.ofNat 32 (barSize fn k - 1))) ||| 4

/-- The capabilities a function has (R164, R165). -/
def hasCap (fn : Nat) : Cap → Bool
  | .pcie | .pm | .msix | .aer | .ari | .ats | .pri | .pasid => true
  | .sriov | .dsn | .doe => decide (fn = 0)
  | .acs | .resizableBar | .msi | .ioBar => false

/-- A configuration write of a field that can be written; the AER status bits clear where 1 is written. -/
def Fn.config (g : Fn) (x : CfgField) (v : Nat) : Fn :=
  match x with
  | .memSpaceEnable => { g with mse := decide (v % 2 = 1) }
  | .vfEnable => { g with vfEnable := decide (v % 2 = 1) }
  | .bar k => { g with bar := Tab.put 0 k (BitVec.ofNat 32 v) g.bar }
  | .maxPayload => { g with mps := v % 8 }
  | .maxReadRequest => { g with mrrs := v % 8 }
  | .completionTimeout => { g with cto := v % 16 }
  | .msixEnable => { g with msix := decide (v % 2 = 1) }
  | .aerCorrectable => { g with aerCorr := g.aerCorr &&& ~~~(BitVec.ofNat 32 v) }
  | .aerUncorrectable => { g with aerUncorr := g.aerUncorr &&& ~~~(BitVec.ofNat 32 v) }
  | .atomicOpEnable => { g with atomicEn := decide (v % 2 = 1) }
  | .pageAllocation => { g with pageAlloc := v }
  | _ => g

/-- What a configuration read of a field returns: the value it stands for, sizes in bytes (R163 to R172; 08 R314). -/
def Dev.configValue (d : Dev) (fn : Nat) (g : Fn) (x : CfgField) : Nat :=
  match x with
  | .vendorId => Config.vendorId.toNat
  | .deviceId => if fn = 0 then 0x2020 else 0x2021
  | .classCode => 0x120000
  | .bar k => if k < 4 then (g.barDword fn k).toNat else 0
  | .hasCap c => bNat (hasCap fn c)
  | .memSpaceEnable => bNat g.mse
  | .busMasterEnable => bNat g.bme
  | .vfEnable => bNat g.vfEnable
  | .firstVfOffset => 1
  | .vfStride => 1
  | .totalVfs => 16
  | .maxPayloadSupported => 512
  | .maxPayload => g.mps
  | .maxReadRequest => g.mrrs
  | .completionTimeout => g.cto
  | .ctoRangeA => 1
  | .ctoRangesBCD => 0
  | .ctoDisableSupported => 0
  | .aspmL0s => 0
  | .aspmL1 => 1
  | .l1Substates => 0
  | .linkWidth => d.mbx.link.width
  | .linkGts => d.mbx.link.gts
  | .msixEnable => bNat g.msix
  | .msixEntries => 2048
  | .msixTableBar => 2
  | .msixTableOffset => 0
  | .msixPbaOffset => 0x8000
  | .aerCorrectable => g.aerCorr.toNat
  | .aerUncorrectable => g.aerUncorr.toNat
  | .atomicOpEnable => bNat g.atomicEn
  | .atsStu => 4096
  | .atsQueueDepth => 32
  | .atsPageAligned => 1
  | .atsGlobalInvalidate => 1
  | .pasidWidth => 20
  | .pasidExecute => 0
  | .pasidPrivileged => 0
  | .priEnable => bNat g.priEn
  | .pageAllocation => g.pageAlloc
  | .serialNumber => if fn = 0 then Config.serialNumber.toNat else 0
  | .doeDiscovery => bNat (decide (fn = 0))
  | .doeSpdm => bNat (decide (fn = 0))
  | .other => 0

/-- Bus Master Enable is written (R203, 07 R275). -/
def Dev.writeBme (d : Dev) (fn : Nat) (v : Bool) : Dev :=
  if v = (d.fn fn).bme then d else if v then d.bmeSet fn else d.bmeCleared fn

/-- A configuration write of a field; in RECOVERY no VF can be enabled (03 R100). -/
def Dev.configWrite (d : Dev) (fn : Nat) (field : CfgField) (val : Nat) : Dev :=
  match field with
  | .busMasterEnable => d.writeBme fn (decide (val % 2 = 1))
  | .vfEnable => if d.up then d.setFn fn fun g => g.config .vfEnable val else d
  | x => (d.setFn fn fun g => g.config x val).flushVecs fn

/-- PCIE_CONFIG_ACCESS (03 R105, R100, R110, 05 R207): none arrives with the link down; Retry Status before HOST_READY; a VF that is not there
is an Unsupported Request; a function in FLR reads as reset and takes no write. -/
def execPcieConfigAccess (fn : Nat) (write : Bool) (field : CfgField) (val : Nat) (s : State) : R := s.runIf (Unit.function fn) fun d =>
  if !d.linkUp then d
  else if d.fnPresent fn then
    if write then ((if (d.fn fn).flr then d else d.configWrite fn field val).emit (.pcieConfig fn false 0)).settle
    else d.emit (.pcieConfig fn false (d.configValue fn (if (d.fn fn).flr then {} else d.fn fn) field))
  else if d.boot.stage = .load || d.boot.stage = .init then d.emit (.pcieConfig fn true 0)
  else d.emit (.pcieUr fn)

/-- PCIE_LINK_TRAIN (05 R167, R168, 03 R110): below 8 GT/s it retrains, three times at most. -/
def execPcieLinkTrain (gts width : Nat) (s : State) : R := s.run fun d =>
  if !d.jad.perstHigh || d.mbx.link.held || decide (d.boot.stage.code < 4) || decide (d.boot.stage = .halted) || decide (d.boot.stage = .dormant) then d
  else if gts < 8 then
    let n := d.mbx.link.attempts + 1
    let d := { d with mbx.link := { up := false, gts, width, attempts := n, held := decide (3 ≤ n) } }
    (d.postIf (decide (3 ≤ n)) Src.pcieSpeed 0).settle
  else (({ d with mbx.link := { up := true, gts, width } }).postIf (decide (width < 8)) Src.pcieWidth 0).settle

/-- An AER error is reported as PCIe defines: its bit sets in the PF's status register and an error message leaves (05 R170). -/
def Dev.aerReport (d : Dev) (correctable : Bool) (bit : Nat) : Dev :=
  let b : W32 := BitVec.ofNat 32 (2 ^ bit)
  (d.setFn 0 fun g => if correctable then { g with aerCorr := g.aerCorr ||| b } else { g with aerUncorr := g.aerUncorr ||| b }).emit
    (.pcieError correctable bit)

/-- PCIE_AER_ERROR (05 R170). -/
def execPcieAerError (correctable : Bool) (bit : Nat) (s : State) : R := s.runIf (decide (bit < 32)) fun d =>
  ((d.aerReport correctable bit).post (if correctable then Src.pcieCorr else Src.pcieUncorr) 0).settle

/-- A failure whose status the spec does not give (log 6): any status but OK. -/
def Dev.drawFail (d : Dev) : Status × Dev :=
  let (v, d) := d.draw 8
  (if Status.ofCode v.toNat = .ok then .internal else Status.ofCode v.toNat, d)

/-- A completion of the device's own read on PCIe: delivered, or discarded and counted where Bus Master Enable was cleared (05 R204). -/
def Dev.hostCpl (d : Dev) (f tag : Nat) (ok : Bool) (data : List W64) : Dev :=
  match d.mbx.reads.find? fun r => decide (r.fn = f) && decide (r.tag = tag) && r.port.isNone with
  | none => d
  | some r =>
    if r.stale then
      let d := { d with mbx.reads := without r d.mbx.reads }
      let (d, js) := if r.rmw.isSome then d.releaseRmw r.pa else (d, [])
      (d.discardRead f).jobsDone js
    else
      let (st, d) := if ok then (Status.ok, d) else d.drawFail
      let (d, js) := d.readEnded r st data
      d.jobsDone js

/-- The PCIe completion timeout of a function, in ns (05 R169). -/
def Fn.ctoNs (g : Fn) : Nat := if g.cto = 1 then 80000 else if g.cto = 2 then 8000000 else 40000000

/-- The completion timeout of a read fires: it ends with TIMEOUT, as does a Translation Request's access (08 R317); a discarded one only frees
its tag (05 R169, R204). Before its time nothing fires. -/
def Dev.hostTimeout (d : Dev) (f tag : Nat) : Dev :=
  match d.mbx.reads.find? fun r => decide (r.fn = f) && decide (r.tag = tag) && r.port.isNone && decide (r.at_ + (d.fn f).ctoNs ≤ d.now) with
  | none =>
    match d.xlt.ats.find? fun q => decide (q.fn = f) && decide (q.tag = tag) && decide (q.at_ + (d.fn f).ctoNs ≤ d.now) with
    | none => d
    | some q =>
      let d := { d with xlt.ats := without q d.xlt.ats }
      let d := if q.off then d.bmSettled f else d
      (match q.acc with | some a => d.endAccess a .timeout | none => d).retryReads.retryAts
  | some r =>
    if r.stale then
      let d := { d with mbx.reads := without r d.mbx.reads }
      let (d, js) := if r.rmw.isSome then d.releaseRmw r.pa else (d, [])
      (d.bmSettled f).jobsDone js
    else
      let (d, js) := d.readEnded r .timeout []
      d.jobsDone js

/-- PCIE_READ_COMPLETION (05 R204); held while stopped (21 R880). -/
def execPcieReadCompletion (fn tag : Nat) (ok : Bool) (data : List W64) (s : State) : R :=
  s.intake (Unit.function fn) (.hostCpl fn tag ok data) fun d => (d.hostCpl fn tag ok data).settle

/-- PCIE_COMPLETION_TIMEOUT (05 R169); handled at resume where the device is stopped (21 R880). -/
def execPcieCompletionTimeout (fn tag : Nat) (s : State) : R :=
  s.intake (Unit.function fn) (.hostTimeout fn tag) fun d => (d.hostTimeout fn tag).settle

/-- BME_CLEAR (05 R203 to R205). -/
def execBmeClear (fn : Nat) (s : State) : R := s.runIf (Unit.function fn) fun d => d.configReq fn fun d =>
  if (d.fn fn).bme then (d.bmeCleared fn).settle else d

/-- BME_SET (07 R275); a function in FLR takes no configuration write (R207). -/
def execBmeSet (fn : Nat) (s : State) : R := s.runIf (Unit.function fn) fun d => d.configReq fn fun d =>
  if (d.fn fn).bme then d else (d.bmeSet fn).settle

/-- MBX_BMSTAT_CLR (05 R204). -/
def execMbxBmstatClr (fn : Nat) (s : State) : R := s.runIf (Unit.function fn) fun d => d.mmio fn fun d =>
  d.setFn fn fun g => { g with discarded := 0, refused := 0 }

end Sys2Proof.Machine
end

