-- ==== Sys2Proof/Machine/OpsSem.lean ====
section
/-! DEFINITION. Semaphores (10 R425 to R431), the operations of a queue that are opened once (collectives, semaphores, atomics), and the choice of the next segment (07 R281 to R283). -/

namespace Sys2Proof.Machine

/-! ### Semaphores -/

/-- The tenant + 1 whose block holds a semaphore, 0 for none. -/
def Dev.semOwner (d : Dev) (i : Nat) : Nat := Tab.look 0 (i / 1024) d.col.owner

/-- A semaphore as a coherence word. -/
def Dev.semWord (d : Dev) (i : Nat) : CohWord := { sem := true, tenant := d.semOwner i - 1, index := i }

/-- The value a reader sees. -/
def Dev.semSeen (d : Dev) (i : Nat) : W64 := Tab.look 0 i d.col.sem

/-- The value of the last update, seen or on its way to be seen (R428). -/
def Dev.semNow (d : Dev) (i : Nat) : W64 :=
  let gs := d.twn.guards.map (·.2) ++ d.twn.jwait.filterMap (·.2)
  match gs.reverse.findSome? fun g => match g with | .sem j v => if j = i then some v else none | _ => none with
  | some v => v
  | none =>
    match d.rm.dir.find? fun e => decide (e.word = d.semWord i) with
    | some e => e.newVal.getD (d.semSeen i)
    | none => d.semSeen i

/-- COND of a SEM_WAIT (R425). -/
def condHolds (cond : Nat) (v operand compare : W64) : Bool :=
  match cond with
  | 0 => BitVec.ule operand v
  | 1 => decide (v = operand)
  | 2 => decide (v ≠ operand)
  | _ => decide (v &&& compare = operand)

/-- Ends an operation with a result. -/
def Dev.finishOp (d : Dev) (gq idx : Nat) (st : Status) (result : W64) : Dev :=
  match d.opAt gq idx with
  | none => d
  | some o => (d.setOp { o with result }).decideOp gq idx st

/-- A waiter is told the value that satisfied it, or why it ends (R426, R432). -/
def Dev.answerWaiter (d : Dev) (w : Waiter) (st : Status) (v : W64) : Dev :=
  match w.own with
  | some (gq, idx) => d.finishOp gq idx st v
  | none => d.answer w.pkt st (if st = .ok then [v] else []) (if st = .ok then 8 else 0)

/-- An update becomes visible, and its waiters are evaluated again (R429). -/
def Dev.semShow (d : Dev) (i : Nat) (v : W64) : Dev :=
  let hit : Waiter → Bool := fun w => decide (w.index = i) && condHolds w.cond v w.operand w.compare
  let ws := d.col.waiters.filter hit
  ws.foldl (fun d w => d.answerWaiter w .ok v)
    { d with col.sem := Tab.put 0 i v d.col.sem, col.waiters := d.col.waiters.filter fun w => !hit w }

/-- An update that no longer waits for the Twin partner: its cached copies are invalidated first (09 R381). -/
def Dev.semApply (d : Dev) (i : Nat) (v : W64) : Dev :=
  match d.invalidate (d.semWord i) v with
  | (d, true) => d.semShow i v
  | (d, false) => d

/-- A semaphore takes a new value at its home node (R428; 18 R763). -/
def Dev.semSet (d : Dev) (i : Nat) (v : W64) : Dev :=
  if decide (d.semOwner i ≠ 0) && d.guards (d.semOwner i - 1) then d.hold (d.semOwner i - 1) 0x05 i v.toNat (.sem i v) else d.semApply i v

/-- A semaphore operation at its home node (R426): the value it returns; `none` for a wait whose condition does not hold. -/
def Dev.semDo (d : Dev) (i : Nat) (r : SemReq) : Dev × Option W64 :=
  if r.op = 0x30 then
    let old := d.semNow i
    (d.semSet i (atomNew r.aop old r.operand r.compare), some old)
  else if r.op = 0x31 then
    (d, if condHolds r.cond (d.semSeen i) r.operand r.compare then some (d.semSeen i) else none)
  else (d, some (d.semSeen i))

/-- A wait is held in the table of 8,192 waiters (R429); false when it is full. -/
def Dev.addWaiter (d : Dev) (w : Waiter) : Dev × Bool :=
  if d.col.waiters.length < 8192 then ({ d with col.waiters := d.col.waiters ++ [w] }, true) else (d, false)

/-- Earlier writes of the queue to a node are still to be acknowledged (R430). -/
def Dev.priorWrites (d : Dev) (gq idx node : Nat) : Bool :=
  (d.tq.txns.any fun x => decide (x.gq = gq) && x.write && decide (x.dst / 2 = node / 2))
    || (d.tq.ops.any fun o => decide (o.gq = gq) && decide (o.idx ≠ idx) && aheadOf (BitVec.ofNat 32 o.idx) idx && o.open_ &&
          match (endsOf o.desc).dst with | some (true, a) => decide (faNode a / 2 = node / 2) | _ => false)

/-- A wait that found the table full is sent again later (R429). -/
def Dev.waitAgain (d : Dev) (gq idx : Nat) : Dev := { d with col.resend := without (gq, idx) d.col.resend ++ [(gq, idx)] }

/-- A semaphore operation is sent to its home node, or done here when the semaphore is the tenant's own (R427, R430). -/
def Dev.semIssue (d : Dev) (o : Op) : Dev :=
  match o.desc.body with
  | .sem a x y aop cond =>
    let t := o.gq / 64
    let i := a.toNat % 2 ^ 18
    let r : SemReq := { op := o.desc.op, aop, cond, operand := x, compare := y }
    if !o.desc.relaxed && d.priorWrites o.gq o.idx (faNode a) then d
    else if decide (d.alias = some (faNode a / 2 * 2)) && decide (faTen a = t) && decide (d.semOwner i = t + 1) then
      let d := d.setOp { o with open_ := true, issued := true }
      match d.semDo i r with
      | (d, some v) => d.finishOp o.gq o.idx .ok v
      | (d, none) =>
        match d.addWaiter { index := i, tenant := t, cond, operand := x, compare := y, own := some (o.gq, o.idx), pkt := { dst := 0, src := 0 } } with
        | (d, true) => d
        | (d, false) => d.waitAgain o.gq o.idx
    else
      let k : Pkt := { dst := d.aliasDst (faNode a) (faTen a), dstTen := faTen a, src := d.fab.node.getD 0, srcTen := t,
                       addr := BitVec.ofNat 64 i, len := 16, data := [x, y], telem := o.desc.telem }
      match d.claim 0 t 1 with
      | (d, false) => d
      | (d, true) =>
        match d.transact o.gq (.sem o.idx) .sem k (.sem r) 0 0 false true with
        | (d, .ok) => d.setOp { o with open_ := true, issued := true, held := o.held + 1 }
        | (d, .wait) => d.give 0 t 1
        | (d, .failed st) => (d.give 0 t 1).endOp o.gq o.idx st
  | _ => d

/-! ### Opening an operation -/

/-- The operation in progress that an OP command opens: started, with one of the codes, and not yet opened. -/
def Dev.toOpen (d : Dev) (gq idx op : Nat) : Option Op :=
  match d.opAt gq idx with
  | some o => if o.desc.op = op && !o.open_ && !d.stopped && !d.fenced (gq / 64) then some o else none
  | none => none

/-- A DMA or remote-memory transfer is split into segments (07 R281); one of no bytes is complete. -/
def Dev.openBytes (d : Dev) (o : Op) (len : Nat) : Dev :=
  let d := d.setOp { o with total := len, open_ := true, issued := decide (len = 0) }
  if len = 0 then d.decideOp o.gq o.idx .ok else d

/-- An ATOMIC is one transaction to the word's node (09 R353); it waits behind what R279 orders before it, and for a packet buffer unit for its
response (11 R474). -/
def Dev.atomicIssue (d : Dev) (o : Op) : Dev :=
  match o.desc.body with
  | .remote a _ _ aop x y =>
    if d.mustWait o then d
    else
      let d := d.ownWrite (o.gq / 64) a.toNat 8
      let k := { d.opPkt o a 0 with aux := aop, len := if aop = 5 then 16 else 8, data := if aop = 5 then [x, y] else [x] }
      match d.claim 0 (o.gq / 64) 1 with
      | (d, false) => d
      | (d, true) =>
        match d.transact o.gq (.op o.idx 0 8) .atom k .none a.toNat 8 true o.desc.relaxed with
        | (d, .ok) => d.setOp { o with open_ := true, issued := true, total := 8, next := 8, held := o.held + 1 }
        | (d, .wait) => d.give 0 (o.gq / 64) 1
        | (d, .failed st) => (d.give 0 (o.gq / 64) 1).endOp o.gq o.idx st
  | _ => d

/-- The root's held carries enter the next instance: those of its SHAPE are folded, others are discarded and counted (10 R424). -/
def Dev.takeCarries (d : Dev) (x : Inst) : Dev :=
  if d.self x.t x.g ≠ 0 then d
  else
    let n := chunksOf (collP x.desc).count
    let mine := d.col.carries.filter fun c => !c.dead && decide (c.t = x.t) && decide (c.g = x.g) && (decide (c.chunks.length = n) || decide (x.shape ≠ some c.shape))
    mine.foldl (fun d c =>
      let d := ({ d with col.carries := without c d.col.carries }).give 1 c.t c.chunks.length
      if x.shape = some c.shape then
        match d.instAt x.t x.g x.k with
        | some y => d.setInst { y with queue := y.queue ++ c.chunks.map fun z => { src := c.member, chunk := z.1, elems := z.2, raw := true, carry := true } }
        | none => d
      else d.countLate c.t c.g true) d

/-- A collective's member joins its instance and its data is read chunk by chunk (10 R407, R411, R423, R424). -/
def Dev.openColl (d : Dev) (o : Op) : Dev :=
  let p := collP (some o.desc.body)
  match o.desc.body with
  | .coll _ _ _ g .. =>
    let t := o.gq / 64
    let k := o.result.toNat
    let bar := decide (o.desc.op = 0x22)
    let n := chunksOf p.count
    let sh := shapeOf o.desc.op o.desc.body
    let read : (Nat → Nat → RdFor) → Dev → Dev := fun f d => (List.range n).foldl (fun d ci =>
      let len := min 1024 (p.count - 1024 * ci) * fmtBytes p.fmt
      d.runJob { for_ := f ci len, fn := t + 1, pasid := some o.desc.pasid, iova := p.src + BitVec.ofNat 64 (1024 * ci * fmtBytes p.fmt), len,
                 op := some (o.gq, o.idx), engine := o.gq % 16 }) d
    if k ≤ (d.group t g).finalised then
      let d := d.setOp { o with open_ := true }
      if p.cflags.getLsbD 1 && decide (d.self t g ≠ 0) then read (fun ci len => .carry o.gq o.idx ci len) d else d.decideOp o.gq o.idx .timeout
    else
      let (d, x) := d.openInst t g k
      if x.shape.isSome && decide (x.shape ≠ some sh) then
        (d.setInst { x with left := insertNat (d.self t g) x.left }).decideOp o.gq o.idx .badField
      else
        let x := { x with own := some (o.gq, o.idx), desc := some o.desc.body, kind := o.desc.op, shape := some sh }
        let d := ((d.setOp { o with open_ := true }).setInst x).takeCarries x
        if decide (d.self t g = 0) && decide (p.deadline = 0) && !x.left.isEmpty then d.failInst x x.leftSt
        else if bar then
          match d.instAt t g k with | some y => d.ownChunk y 0 [] | none => d
        else read (fun ci len => .seg o.gq o.idx ci len) d
  | _ => d

/-! ### The next segment (07 R281 to R283) -/

/-- Bytes a bucket holds now: `num` bytes per `den` ns, at most 10 µs of the rate and at least 8 KiB (R282). -/
def bucket (tokens at_ now num den : Nat) : Nat := min (max 8192 (10000 * num / den)) (tokens + (now - at_) * num / den)

/-- The tenant's and the queue's tokens cover a segment (R282). Rates are in Gb/s and Mb/s; 0 is not shaped. -/
def Dev.shaped (d : Dev) (gq len : Nat) : Bool :=
  let x := d.ten (gq / 64)
  let q := d.queue gq
  let r := (x.assign.getD {}).rateGbps
  (decide (r = 0) || decide (len ≤ bucket x.tokens x.tokenAt d.now r 8)) &&
    (decide (q.rate = 0) || decide (len ≤ bucket q.tokens q.tokenAt d.now q.rate 8000))

/-- Spends the tokens of a segment. -/
def Dev.spend (d : Dev) (gq len : Nat) : Dev :=
  let r := ((d.ten (gq / 64)).assign.getD {}).rateGbps
  let d := if r = 0 then d else d.setTen (gq / 64) fun x => { x with tokens := bucket x.tokens x.tokenAt d.now r 8 - len, tokenAt := d.now }
  d.setQueue gq fun q => if q.rate = 0 then q else { q with tokens := bucket q.tokens q.tokenAt d.now q.rate 8000 - len, tokenAt := d.now }

/-- The pair of queue and destination stays within its limit over 10 µs (11 R487); limits are in MB/s. -/
def Dev.limited (d : Dev) (gq dst len : Nat) : Bool :=
  d.fab.pairs.any fun p => decide (p.gq = gq) && decide (p.dst = dst) && decide (p.limit * 10 < d.sentLast gq dst + len)

/-- The operation's segments leave at this egress (R281): an optical port on a route to its node, or the DMA engine of its queue. -/
def Dev.atEgress (d : Dev) (o : Op) (e : Nat) : Bool :=
  match o.remote with
  | some a =>
    let dst := d.aliasDst (faNode a) (faTen a)
    if d.alias = some (dst / 2 * 2) then decide (e = 64 + o.gq % 16)
    else
      let (cs, es) := d.routeOf dst
      let ps := (cs ++ es).flatMap d.codePorts
      if ps.isEmpty then decide (e = 64 + o.gq % 16) else ps.contains e
  | none => decide (e = 64 + o.gq % 16)

/-- A read that a line being fetched will serve waits for it (09 R358). -/
def Dev.onFetching (d : Dev) (o : Op) (off : Nat) : Bool :=
  match (endsOf o.desc).src with
  | some (true, a) =>
    match d.streamAt (o.gq / 64) (a.toNat + off) with
    | some s => match d.lineAt (o.gq / 64) s ((a.toNat + off) / 4096) with | some l => decide (l.st = .fetching) && d.leaseLive (d.stream (o.gq / 64) s) | none => false
    | none => false
  | _ => false

/-- A page fault of the queue holds back later segments to the same target (08 R340). -/
def Dev.pageStops (d : Dev) (o : Op) : Bool :=
  !o.desc.relaxed && d.xlt.pages.any fun p =>
    match p.acc.op with
    | some (gq, idx) => decide (gq = o.gq) && aheadOf (BitVec.ofNat 32 idx) o.idx &&
        decide (((d.opAt gq idx).bind Op.remote).map (fun a => faNode a / 2) = o.remote.map fun a => faNode a / 2)
    | none => false

/-- The oldest operation of a queue that has a segment to issue at an egress, with that segment (R279, R281, R282). -/
def Dev.nextOf (d : Dev) (gq e : Nat) : Option (Op × Nat × Nat) :=
  d.tq.ops.findSome? fun o =>
    if o.gq = gq && !d.pageStops o && d.atEgress o e && !d.mustWait o then
      match o.nextSeg with
      | some (off, len) =>
        let far := match o.remote with | some a => d.limited gq (d.aliasDst (faNode a) (faTen a)) len | none => false
        if d.shaped gq len && !far && !d.onFetching o off then some (o, off, len) else none
      | none => none
    else none

/-- Queues of a tenant with a segment at an egress, each with the bytes of it. -/
def Dev.readyQueues (d : Dev) (t e : Nat) : List (Nat × Nat) :=
  (List.range 64).filterMap fun q => (d.nextOf (64 * t + q) e).map fun x => (64 * t + q, x.2.2)

end Sys2Proof.Machine
end

