-- ==== Sys2Proof/Machine/Queue.lean ====
section
/-! DEFINITION. Queues and their operations (07; 09 R350 to R354; 10 R407 to R430): doorbells, starting descriptors, opening operations, issuing segments, timeouts and grants. -/

namespace Sys2Proof.Machine

/-! ### Doorbells (R262 to R266) -/

/-- A doorbell write of index `n` for a queue: it makes descriptors visible, or is discarded, counted and reported (R265, R266). -/
def Dev.doorbell (d : Dev) (gq : Nat) (n : W32) : Dev :=
  let d := d.wake
  let q := d.queue gq
  let t := gq / 64
  if q.st = .absent || d.fenced t || decide (2 ^ 31 ≤ (n - q.tail).toNat) || decide (2 ^ q.log2 < (n - q.head).toNat) then
    (d.setQueue gq fun q => { q with refused := satAdd 0x7FFF q.refused }).post Src.queueDbProto (gq % 64) (some t)
  else
    (d.setQueue gq fun q => { q with tail := n, visible := q.visible.filter (fun v => decide (v.1 ≠ q.head.toNat) && aheadOf q.head v.1) ++ [(n.toNat, d.now)] }).journal
      0x01 t gq n.toNat

/-- TEN_DBTAIL_WRITE (R262). -/
def execTenDbtailWrite (t q : Nat) (n : W32) (s : State) : R := s.runIf (Unit.tenant t && Unit.queueOf q) fun d => d.mmio (t + 1) fun d => (d.doorbell (64 * t + q) n).settle

/-! ### Starting descriptors (R276, R277) -/

/-- DESC_START (R276, R277, R107, R295, 21 R877): the next visible descriptor of a running queue starts. It has been fetched ahead, or its slot
is translated and it is fetched first (R260, 08 R300, R343). -/
def execDescStart (t q : Nat) (x : Desc) (s : State) : R := s.runIf (Unit.tenant t && Unit.queueOf q) fun d =>
  let gq := 64 * t + q
  let w := d.queue gq
  let i := w.nextStart
  if !d.mayStart1 gq i x then d
  else if w.fetched.contains i.toNat then (d.startDesc gq i x).settle
  else (d.runJob { for_ := .fetch gq i x, fn := t + 1, iova := w.slotAddr i.toNat, len := 64, engine := gq % 16, probe := true }).settle

/-! ### Opening operations -/

/-- OP_COPY (R268, R279, R281). -/
def execOpCopy (gq idx : Nat) (s : State) : R := s.runIf (Unit.queueNo gq) fun d =>
  match d.toOpen gq idx 0x01 with | some o => (d.openBytes o (descBytes o.desc)).settle | none => d

/-- OP_FILL (R268). -/
def execOpFill (gq idx : Nat) (s : State) : R := s.runIf (Unit.queueNo gq) fun d =>
  match d.toOpen gq idx 0x02 with | some o => (d.openBytes o (descBytes o.desc)).settle | none => d

/-- OP_GET (09 R347). -/
def execOpGet (gq idx : Nat) (s : State) : R := s.runIf (Unit.queueNo gq) fun d =>
  match d.toOpen gq idx 0x10 with | some o => (d.openBytes o (descBytes o.desc)).settle | none => d

/-- OP_PUT (09 R348). -/
def execOpPut (gq idx : Nat) (s : State) : R := s.runIf (Unit.queueNo gq) fun d =>
  match d.toOpen gq idx 0x11 with | some o => (d.openBytes o (descBytes o.desc)).settle | none => d

/-- OP_ATOMIC (09 R353). -/
def execOpAtomic (gq idx : Nat) (s : State) : R := s.runIf (Unit.queueNo gq) fun d =>
  match d.toOpen gq idx 0x12 with | some o => (d.atomicIssue o).settle | none => d

/-- OP_ALLREDUCE (10 R414, R416). -/
def execOpAllreduce (gq idx : Nat) (s : State) : R := s.runIf (Unit.queueNo gq) fun d =>
  match d.toOpen gq idx 0x20 with | some o => (d.openColl o).settle | none => d

/-- OP_REDUCE_SCATTER (10 R410). -/
def execOpReduceScatter (gq idx : Nat) (s : State) : R := s.runIf (Unit.queueNo gq) fun d =>
  match d.toOpen gq idx 0x21 with | some o => (d.openColl o).settle | none => d

/-- OP_BARRIER (10 R410). -/
def execOpBarrier (gq idx : Nat) (s : State) : R := s.runIf (Unit.queueNo gq) fun d =>
  match d.toOpen gq idx 0x22 with | some o => (d.openColl o).settle | none => d

/-- OP_SEM_ATOMIC (10 R426 to R430). -/
def execOpSemAtomic (gq idx : Nat) (s : State) : R := s.runIf (Unit.queueNo gq) fun d =>
  match d.toOpen gq idx 0x30 with | some o => (d.semIssue o).settle | none => d

/-- OP_SEM_WAIT (10 R429). -/
def execOpSemWait (gq idx : Nat) (s : State) : R := s.runIf (Unit.queueNo gq) fun d =>
  match d.toOpen gq idx 0x31 with | some o => (d.semIssue o).settle | none => d

/-- OP_SEM_READ (10 R426). -/
def execOpSemRead (gq idx : Nat) (s : State) : R := s.runIf (Unit.queueNo gq) fun d =>
  match d.toOpen gq idx 0x32 with | some o => (d.semIssue o).settle | none => d

/-- SEM_WAIT_RESEND (10 R429). -/
def execSemWaitResend (s : State) : R := s.run fun d =>
  if d.stopped then d
  else
    let ws := d.col.resend
    (ws.foldl (fun (d : Dev) w => match d.opAt w.1 w.2 with | some o => d.semIssue o | none => d) { d with col.resend := [] }).settle

/-! ### Segments (R281 to R284) -/

/-- The chosen segment is issued, or its tenant waits for packet buffer units (R256, R257). -/
def Dev.grantIssue (d : Dev) (o : Op) (off len : Nat) : Dev :=
  match d.claim 0 (o.gq / 64) (bufUnits len) with
  | (d, true) => (d.spend o.gq len).issueSeg o off len
  | (d, false) => d

/-- Tenants with a segment at an egress, each with its bytes: not fenced, and not waiting for packet buffer units (R257, R281). -/
def Dev.readyTenants (d : Dev) (e : Nat) : List (Nat × Nat) :=
  (List.range 16).filterMap fun t =>
    if d.fenced t || decide (Tab.look 0 0 (d.ten t).waiting ≠ 0) then none else ((d.readyQueues t e).head?).map fun q => (t, q.2)

/-- The tenant whose turn it is at an egress, with the deficits this leaves (R281). -/
def Dev.pickTenant (d : Dev) (e : Nat) : Option (Nat × (Nat → Nat)) :=
  drr (d.readyTenants e) (fun t => Tab.look 0 e (d.ten t).deficit) (fun t => ((d.ten t).assign.getD {}).weight)

/-- The queue of a tenant whose turn it is at an egress, with the deficits this leaves (R281). -/
def Dev.pickQueue (d : Dev) (t e : Nat) : Option (Nat × (Nat → Nat)) :=
  drr (d.readyQueues t e) (fun q => Tab.look 0 e (d.queue q).deficit) (fun q => (d.queue q).weight)

/-- The deficits after a turn; a tenant or queue with nothing to send keeps none (R281). -/
def Dev.chargeTurn (d : Dev) (e t : Nat) (tdef qdef : Nat → Nat) : Dev :=
  let ts := d.readyTenants e
  let qs := d.readyQueues t e
  let d := (List.range 16).foldl (fun d u => d.setTen u fun x => { x with deficit := Tab.put 0 e (if ts.any (fun y => decide (y.1 = u)) then tdef u else 0) x.deficit }) d
  ((List.range 64).map fun q => 64 * t + q).foldl (fun d u => d.setQueue u fun x =>
    { x with deficit := Tab.put 0 e (if qs.any (fun y => decide (y.1 = u)) then qdef u else 0) x.deficit }) d

/-- SEGMENT_ISSUE (R281, R282, R295): two levels of weighted deficit round robin choose the tenant and the queue. -/
def execSegmentIssue (e : Nat) (s : State) : R := s.runIf (Unit.egress e) fun d =>
  if d.stopped then d
  else
    match d.pickTenant e with
    | none => d
    | some (t, tdef) =>
      match d.pickQueue t e with
      | none => d
      | some (gq, qdef) =>
        match d.nextOf gq e with
        | none => d
        | some (o, off, len) => ((d.chargeTurn e t tdef qdef).grantIssue o off len).settle

/-! ### Timeouts and serials (R286 to R290) -/

/-- A piece of a compute die's request has ended; with the last its completion goes out (09 R355). -/
def Dev.pieceDone (d : Dev) (id piece : Nat) (st : Status) (data : List W64) : Dev :=
  match d.rm.die.find? fun r => decide (r.id = id) with
  | none => d
  | some r =>
    let r' := { r with done := r.done ++ [(piece, st.code)], data := r.data ++ [(piece, data)] }
    if r'.done.length < r'.pieces then { d with rm.die := d.rm.die.map fun x => if x.id = id then r' else x }
    else
      let d := ({ d with rm.die := without r d.rm.die } : Dev).give 0 r.tenant r.units
      if r'.posted then d
      else
        let bad := (List.range r'.pieces).findSome? fun i =>
          (r'.done.find? fun x => decide (x.1 = i) && decide (x.2 ≠ 0)).map fun x => Status.ofCode x.2
        let words := (List.range r'.pieces).flatMap fun i => ((r'.data.find? fun x => decide (x.1 = i)).map (·.2)).getD []
        match bad with
        | some st => d.dieDone r'.p r'.tag r'.tenant st []
        | none => d.dieDone r'.p r'.tag r'.tenant .ok (if r'.read then words else [])

/-- A fetch of a line has ended without data: the line is freed, and the reads that waited for it receive the status (09 R371; log 155). -/
def Dev.lineFailed (d : Dev) (t s line : Nat) (st : Status) : Dev :=
  match d.lineAt t s line with
  | some l => if l.st = .fetching || l.st = .doomed then l.waiters.foldl (fun d w => d.pieceDone w.1 w.2.1 st []) (d.freeLine l) else d
  | none => d

/-- A fabric transaction has ended without its answer: timeout, path failure or a status (R290; 09 R357, R371). -/
def Dev.txnFailed (d : Dev) (x : Txn) (st : Status) : Dev :=
  match x.for_ with
  | .op idx .. => d.endOp x.gq idx st
  | .sem idx => d.endOp x.gq idx st
  | .die req piece => (d.retire x).pieceDone req piece st []
  | .line t s line => (d.retire x).lineFailed t s line st

/-- When the doorbell that made descriptor `idx` visible was written. -/
def Queue.visibleAt (q : Queue) (idx : Nat) : Option Nat :=
  (q.visible.find? fun v => decide (v.1 ≠ idx) && aheadOf (BitVec.ofNat 32 idx) v.1).map (·.2)

/-- Microseconds after which a transaction of the device times out (R289; 09 R357). -/
def Dev.txnLimit (d : Dev) (x : Txn) : Nat :=
  match x.for_ with
  | .op .. => (d.queue x.gq).timeout
  | .sem _ => (d.queue x.gq).timeout
  | _ => max 200 (min 1000000 ((Tab.look 0x3E8 (x.gq / 64) d.rm.cfg).toNat % 2 ^ 20))

/-- An operation that holds no transaction times out: one not yet issued, TIMEOUT_US after its doorbell; a semaphore operation or a collective
with a deadline, after its start (10 R410, R429); a FLUSH, TIMEOUT_US after a capture it waits for has started its host read (17 R716); an exact collective never (10 R415; log 150). -/
def Dev.opExpired (d : Dev) (o : Op) : Bool :=
  let q := d.queue o.gq
  let late : Nat → Bool := fun t => decide (t + 1000 * q.timeout ≤ d.now)
  if o.open_ then
    match o.desc.body with
    | .coll _ _ _ _ _ _ deadline .. => decide (deadline ≠ 0) && late o.startedAt
    | .sem .. => late o.startedAt
    | _ =>
      if o.desc.op = 0x40 then (d.vten (o.gq / 64)).marks.any fun m => m.flush.contains (o.gq, o.idx) && m.reading && late m.at_
      else decide (o.next = 0) && !o.issued && late ((q.visibleAt o.idx).getD o.startedAt)
  else late ((q.visibleAt o.idx).getD o.startedAt)

/-- TXN_TIMEOUT (R289, R290): a transaction, an operation not yet issued, or a descriptor not yet started, whose time has run out. Held while
stopped (21 R880). -/
def execTxnTimeout (gq idx : Nat) (serial : Option W32) (s : State) : R := s.runIf (Unit.queueNo gq) fun d =>
  if d.stopped then d
  else
    match serial with
    | some n =>
      match d.tq.txns.find? fun x => decide (x.gq = gq) && decide (x.serial = n) with
      | some x => if x.issued + 1000 * d.txnLimit x ≤ d.now then (d.txnFailed x .timeout).settle else d
      | none => d
    | none =>
      match d.opAt gq idx with
      | some o => if d.opExpired o then (d.endOp gq idx .timeout).settle else d
      | none =>
        let q := d.queue gq
        let i := BitVec.ofNat 32 idx
        if (i - q.nextStart).toNat < (q.tail - q.nextStart).toNat && !q.recs.contains idx
            && (match q.visibleAt idx with | some t => decide (t + 1000 * q.timeout ≤ d.now) | none => false) then (d.endUnstarted gq idx .timeout).settle
        else d

/-- SERIAL_QUARANTINE_END (R286): 1 s after its retirement a serial may be issued again. -/
def execSerialQuarantineEnd (gq : Nat) (n : W32) (s : State) : R := s.runIf (Unit.queueNo gq) fun d =>
  d.setQueue gq fun q => { q with retired := q.retired.filter fun r => !(decide (r.1 = n.toNat) && decide (r.2 + 1000000000 ≤ d.now)) }

/-- TEN_QCNT_CLR (R298). -/
def execTenQcntClr (t q : Nat) (s : State) : R := s.runIf (Unit.tenant t && Unit.queueOf q) fun d => d.mmioTen t fun d =>
  d.setQueue (64 * t + q) fun x => { x with timeouts := 0, refused := 0 }

/-- TEN_QLATE_CLR (R288). -/
def execTenQlateClr (t q : Nat) (s : State) : R := s.runIf (Unit.tenant t && Unit.queueOf q) fun d => d.mmioTen t fun d =>
  d.setQueue (64 * t + q) fun x => { x with late := 0 }

end Sys2Proof.Machine
end

