-- ==== Sys2Proof/Machine/OpsArrive.lean ====
section
/-! DEFINITION. Fabric packets that arrive (11 R455 to R464, R480 to R487): relaying, the tenant they name, requests at a window, responses, and the subscriptions and lines of remote memory (09). -/

namespace Sys2Proof.Machine

/-! ### Congestion (R485 to R487) -/

/-- A mark for the pair of queue and destination (R487); limits and rates are in MB/s. The first mark sets the limit to half the rate of the
last 10 µs, later ones halve it, at most once in 10 µs. -/
def Dev.congest (d : Dev) (gq dst : Nat) : Dev :=
  match d.fab.pairs.find? fun p => decide (p.gq = gq) && decide (p.dst = dst) with
  | some p =>
    let p' : Pair := if p.cut + 10000 ≤ d.now then { p with limit := max 1000 (p.limit / 2), mark := d.now, cut := d.now } else { p with mark := d.now }
    { d with fab.pairs := d.fab.pairs.map fun x => if x = p then p' else x }
  | none =>
    let rate := d.sentLast gq dst / 10
    let old := d.fab.pairs.foldl (fun (m : Option Pair) p => match m with | some q => if p.mark < q.mark then some p else m | none => some p) none
    let ps := if d.fab.pairs.length < 4096 then d.fab.pairs else match old with | some q => without q d.fab.pairs | none => []
    { d with fab.pairs := ps ++ [{ gq, dst, limit := max 1000 (rate / 2), mark := d.now, cut := d.now, rise := d.now }] }

/-- A marked posted request or collective packet is answered with CNP, at most once per 10 µs for each QGLOBAL (R486). -/
def Dev.notifyMark (d : Dev) (t : PType) (k : Pkt) : Dev :=
  let seen := Tab.look 0 k.qglobal d.fab.cnpAt
  if k.ce && [PType.wrp, .atomp, .coll].contains t && (decide (seen = 0) || decide (seen + 10000 ≤ d.now + 1)) then
    ({ d with fab.cnpAt := Tab.put 0 k.qglobal (d.now + 1) d.fab.cnpAt }).sendAway .cnp
      { alias_ := false, dst := k.src, src := d.fab.node.getD 0, aux := k.qglobal } (.cnp k.qglobal)
  else d

/-! ### Relaying (R463, R464, R473, R478 to R481) -/

/-- An undo record goes with its transit units: its last flit has left (R481). -/
def Dev.dropUndo (d : Dev) (u : Undo) : Dev :=
  d.putUndo (without u d.fab.undo)

/-- The undo record of a packet in cut-through. -/
def Dev.undoOf (d : Dev) (t : PType) (k : Pkt) : Option Undo :=
  d.fab.undo.find? fun u => decide (u.pkt.1 = t) && decide (u.pkt.2.src = k.src) && decide (u.pkt.2.qglobal = k.qglobal)
    && decide (u.pkt.2.serial = k.serial) && decide (u.inPort = k.port)

/-- The largest HOPS a packet may arrive with (R464). -/
def Dev.maxHop (d : Dev) : Nat := max 2 (d.fab.cfg.toNat / 2 % 64)

/-- A packet without a route here (R463), or one that has hopped too often (R464), which raises FAB_LOOP instead: a non-posted request is
answered PATH_FAILURE. -/
def Dev.noWay (d : Dev) (t : PType) (k : Pkt) (src : Nat) : Dev :=
  (({ d with fab.noroute := satAdd 0x3FF d.fab.noroute }).post src k.port).refuse t k .pathFailure

/-- A packet goes to the switch (R463, R473): it leaves, and keeps its undo record until it has passed its check; or waits; or finds no way. -/
def Dev.relayOn (d : Dev) (t : PType) (k : Pkt) (b : Body) : Dev :=
  match d.forward t k b (escapeVc k.vc) with
  | (d, .sent) => if k.passed then (match d.undoOf t k with | some u => d.dropUndo u | none => d) else d
  | (d, .waits) => d.await { t, pkt := k, body := b, since := d.now, escape := escapeVc k.vc }
  | (d, .noRoute) => d.noWay t k Src.fabNoroute

/-- A packet for another node (R463, R464, R473): forwarded, cut-through unless FAB_CFG.CUT is 0; its undo record goes once it has passed
its check. One that has taken MAXHOP hops raises FAB_LOOP, and goes over the partner of its package once, as one without a route. -/
def Dev.relay (d : Dev) (t : PType) (k : Pkt) (b : Body) : Dev :=
  match d.undoOf t k with
  | some u => if k.passed then d.dropUndo u else d
  | none =>
    let k' := { k with hops := k.hops + 1 }
    if !k.passed && !d.fab.cfg.getLsbD 0 then d
    else if d.maxHop ≤ k.hops then
      if k.alias_ && !k.redir then
        (d.post Src.fabLoop k.port).relayOn t { k' with dst := if k.dst % 2 = 0 then k.dst + 1 else k.dst - 1, redir := true } b
      else d.noWay t k Src.fabLoop
    else d.relayOn t k' b

/-! ### Delivery (R455 to R457, R480) -/

/-- This device serves the tenant (18 R760). -/
def Dev.serves (d : Dev) (t : Nat) : Bool := (d.ten t).served && (d.ten t).assign.isSome

/-- The other device of the package. -/
def Dev.partnerNode (d : Dev) : Nat := match d.fab.node with | some n => if n % 2 = 0 then n + 1 else n - 1 | none => 0

/-- A packet for a tenant this device does not serve (R457): sent on to the partner once, or refused and counted. -/
def Dev.misdirected (d : Dev) (t : PType) (k : Pkt) (b : Body) : Dev :=
  if d.twn.partnerServed.getLsbD k.dstTen && !k.redir then
    let key := 16 * k.src + k.dstTen
    let seen := Tab.look 0 key d.fab.steerAt
    let steer := decide (pktCls t k b = .request) && (decide (seen = 0) || decide (seen + 10000 ≤ d.now + 1))
    let d := if steer then
        ({ d with fab.steerAt := Tab.put 0 key (d.now + 1) d.fab.steerAt }).sendAway .steer
          { alias_ := false, dst := k.src, src := d.fab.node.getD 0 } (.steer k.dstTen (decide (d.partnerNode % 2 = 1)))
      else d
    d.relayOn t { k with dst := d.partnerNode, redir := true, hops := k.hops + 1 } b
  else ({ d with fab.unserved := satAdd 0x3FF d.fab.unserved }).refuse t k .targetUnavailable

/-- A packet served here (21 R858, index 17; 11 R486): its payload from another node counts as received, and a mark is answered. -/
def Dev.received (d : Dev) (t : PType) (k : Pkt) : Dev := (if d.fab.node = some k.src then d else d.count k.dstTen 17 k.len).notifyMark t k

/-- What a packet that arrives does: malformed ones are counted (R455), others are relayed, redirected, or served once they have passed
their check (R480); the payload of a packet from another node that is served counts as received (21 R858, index 17). A payload under a selector
is decrypted; where its slot is empty, the packet is discarded, and a non-posted request answered ACCESS_DENIED (19 R809, R811). -/
def Dev.arrive (d : Dev) (t : PType) (k : Pkt) (b : Body) (serve : Dev → Pkt → Dev) : Dev :=
  if k.bad || decide (t = .unknown) then { d with fab.malformed := satAdd 0x3FF d.fab.malformed }
  else if !d.isMine k then d.wake.relay t k b
  else if !k.passed then d
  else if k.alias_ && !d.serves k.dstTen then d.misdirected t k b
  else let d := d.wake
  match d.uncover t k b with
  | none => (d.notifyMark t k).refuse t k .accessDenied
  | some k => serve (d.received t k) k

/-! ### Requests at a window -/

/-- A request that the window admits, on its host path, once its shadow granules are marked (08 R308, 09 R348, R353; 17 R714). -/
def Dev.serveHost (d : Dev) (t : PType) (k : Pkt) (gs : List (Nat × Nat)) : Dev :=
  let ten := k.dstTen
  let d := if gs.isEmpty then d else d.mark ten gs
  let d := if k.telem.isSome then d.trace 0x06 ten 0 0xFFFF 0 k.telem (k.src % 4096 + k.serial.toNat * 2 ^ 32) else d
  let d := d.setTen ten fun x => { x with serving := x.serving + 1 }
  d.runJob { for_ := .peer t k, fn := ten + 1, pasid := some (d.ten ten).winPasid, iova := d.winIova k, len := reqLen t k, write := decide (t = .wr) || decide (t = .wrp),
             atom := if t = .atom || t = .atomp then some (k.aux, k.data.getD 0 0, k.data.getD 1 0) else none,
             data := if t = .wr || t = .wrp then k.data else [], engine := 16 }

/-- A write or atomic is issued on its host path (08 R308, 09 R348, R353), or waits: for the end of the hold after a takeover (09 R391)
or for the JACK of a granule's mark (18 R763). -/
def Dev.serveReq (d : Dev) (t : PType) (k : Pkt) : Dev :=
  let ten := k.dstTen
  let len := reqLen t k
  if decide (t ≠ .rd) && decide (d.now < Tab.look 0 ten d.rm.hold) then { d with rm.held := d.rm.held ++ [(t, k)] }
  else
    match d.windowCheck ten (faOff k.addr) len (rightsOf t) with
    | some st => (if !nonPosted t && !(d.fn (ten + 1)).bme then d.setFn (ten + 1) fun g => { g with refused := satAdd 0x7FF g.refused } else d).refuse t k st
    | none =>
      if (t = .atom || t = .atomp) && (decide (9 < k.aux) || decide (k.addr.toNat % 8 ≠ 0)) then d.refuse t k .badField
      else
        let iova := d.winIova k
        let pasid := (d.ten ten).winPasid
        let gs := if t = .rd then [] else d.unmarked ten (some pasid) iova.toNat len
        if !gs.isEmpty && d.guards ten then { d.holdMarks ten gs with vlt.heldPeer := d.vlt.heldPeer ++ [(t, k)] }
        else d.serveHost t k gs

/-- A memory request packet (09 R347 to R353). -/
def Dev.request (d : Dev) (t : PType) (k : Pkt) : Dev := d.arrive t k .none fun d k => d.serveReq t k

/-- A semaphore packet at its home node (10 R427, R428). -/
def Dev.serveSem (d : Dev) (k : Pkt) (r : SemReq) : Dev :=
  let i := k.addr.toNat % 2 ^ 18
  let x := d.ten k.dstTen
  if d.fenced k.dstTen || decide (x.winSize = 0) then d.answer k .targetUnavailable
  else if x.winFlags / 4 % 2 = 0 || d.semOwner i ≠ k.dstTen + 1 then d.answer k .accessDenied
  else if (r.op = 0x30 && decide (9 < r.aop)) || (r.op = 0x31 && decide (3 < r.cond)) || !([0x30, 0x31, 0x32].contains r.op) then d.answer k .badField
  else
    match d.semDo i r with
    | (d, some v) => d.answer k .ok [v] 8
    | (d, none) =>
      match d.addWaiter { index := i, tenant := k.dstTen, cond := r.cond, operand := r.operand, compare := r.compare, own := none, pkt := k } with
      | (d, true) => d
      | (d, false) => d.answer k .noResource

/-! ### Pieces of compute-die requests and lines -/

/-- Issues a piece of a compute die's request as a transaction of queue 64t + 63 (09 R355, R356); one that R280 holds back waits. -/
def Dev.issuePiece (d : Dev) (req piece : Nat) (t : PType) (k : Pkt) : Dev :=
  let ten := k.srcTen
  let len := reqLen t k
  let d := if t = .rd then d else d.ownWrite ten (k.dst * 2 ^ 52 + k.dstTen * 2 ^ 48 + faOff k.addr) len
  match d.transact (64 * ten + 63) (.die req piece) t k .none (faOff k.addr) len (decide (t ≠ .rd)) k.relaxed with
  | (d, .ok) => d
  | (d, .wait) => { d with rm.dieWait := d.rm.dieWait ++ [(req, piece, t, k)] }
  | (d, .failed st) => d.pieceDone req piece st []

/-- The pieces that were held back are tried again, in order. -/
def Dev.retryPieces (d : Dev) : Dev :=
  let w := d.rm.dieWait
  w.foldl (fun d x => d.issuePiece x.1 x.2.1 x.2.2.1 x.2.2.2) { d with rm.dieWait := [] }

/-- The packet of a tenant's request to a fabric address that has no local IOVA: its selector is the tenant's default (19 R808). -/
def Dev.faPkt (d : Dev) (t addr : Nat) : Pkt :=
  let a := BitVec.ofNat 64 addr
  { dst := d.aliasDst (faNode a) (faTen a), dstTen := faTen a, src := d.fab.node.getD 0, srcTen := t, ksel := (d.ten t).keydef.toNat % 64, addr := BitVec.ofNat 64 (faOff a),
    qglobal := 64 * t + 63 }

/-- A piece of a compute die's read that lies in one page: served from a line, waiting for one, or forwarded (09 R361). -/
def Dev.readPiece (d : Dev) (t req piece addr len : Nat) (telem : Option Telem) (relaxed : Bool) : Dev :=
  let fwd := fun (d : Dev) => d.issuePiece req piece .rd { d.faPkt t addr with aux := len, telem, relaxed }
  match d.streamAt t addr with
  | none => fwd d
  | some s =>
    match d.readLine t s addr len with
    | (d, .data l) => d.pieceDone req piece .ok l
    | (d, .wait) =>
      match d.lineAt t s (addr / 4096) with
      | some l => d.setLine { l with waiters := l.waiters ++ [(req, piece, addr, len)] }
      | none => fwd d
    | (d, .forward) => fwd d

/-- The reads that waited for a line that will not serve them are forwarded, and count as misses (09 R361). -/
def Dev.forwardWaiters (d : Dev) (l : Line) : Dev :=
  l.waiters.foldl (fun d w =>
    (d.setStream l.t l.s fun x => { x with miss := satAdd 0x7FFFFFFF x.miss }).issuePiece w.1 w.2.1 .rd { d.faPkt l.t w.2.2.1 with aux := w.2.2.2 })
    (d.setLine { l with waiters := [] })

/-! ### Responses (07 R285 to R292) -/

/-- The answer of an operation's segment: read data go to the destination, an acknowledged write is confirmed, an atomic returns its old
value. -/
def Dev.segAnswer (d : Dev) (x : Txn) (idx off len : Nat) (data : List W64) : Dev :=
  match d.opAt x.gq idx with
  | none => d
  | some o =>
    if o.desc.op = 0x12 then (d.setOp { o with result := data.headD 0 }).confirm x.gq idx 8
    else if x.write then d.confirm x.gq idx len
    else d.deliver o off len data

/-! ### Subscriptions (09 R362 to R377, R386 to R390) -/

/-- Sends a subscription message of a stream to the owner. -/
def Dev.sendStream (d : Dev) (t s kind : Nat) (addr : Nat) (val : W64) : Dev × Bool :=
  let x := d.stream t s
  d.sendPkt .subctl { d.faPkt t x.base.toNat with ksel := 0, addr := BitVec.ofNat 64 addr } (.sub kind 0 s val)

/-- Requests a subscription; without a path the stream is refused for that reason (R363, TEN_SSTAT). -/
def Dev.subscribe (d : Dev) (t s : Nat) : Dev :=
  let x := d.stream t s
  match (d.setStream t s fun x => { x with st := .subscribing, lease := none }).sendStream t s 1 (faOff x.base) (BitVec.ofNat 64 x.span) with
  | (d, true) => d
  | (d, false) => d.setStream t s fun x => { x with st := .refused, reason := 5 }

/-- All lines of a stream go; reads that wait for one are forwarded. -/
def Dev.dropLines (d : Dev) (t s : Nat) : Dev :=
  let x := d.stream t s
  let d := d.discardLines t s x.base.toNat x.span
  (d.rm.lines.filter fun l => decide (l.t = t) && decide (l.s = s)).foldl Dev.forwardWaiters d

/-- A stream loses its lease (R386, R388): its lines go, and it subscribes again. -/
def Dev.loseLease (d : Dev) (t s : Nat) : Dev := (d.dropLines t s).subscribe t s

/-- A response with a failure ends its transaction; a path failure of a prefetch costs the stream its lease (09 R386). -/
def Dev.txnRefused (d : Dev) (x : Txn) (st : Status) : Dev :=
  match x.for_ with
  | .line t s _ => if st = .pathFailure then (d.txnFailed x st).loseLease t s else d.txnFailed x st
  | _ => d.txnFailed x st

/-- A response reaches its transaction, or is late (R288, R292); ECHO marks the pair (11 R487). -/
def Dev.takeResponse (d : Dev) (k : Pkt) (status : Nat) : Dev :=
  let d := if k.echo then d.congest k.qglobal k.src else d
  match d.tq.txns.find? fun x => decide (x.gq = k.qglobal) && decide (x.serial = k.serial) with
  | none => d.setQueue k.qglobal fun q => { q with late := satAdd 0x7FFFFFFF q.late }
  | some x =>
    let st := Status.ofCode status
    if st ≠ .ok then
      match x.for_ with
      | .sem idx =>
        let wait := match d.opAt x.gq idx with | some o => decide (o.desc.op = 0x31) | none => false
        if st = .noResource && wait then (d.retire x).waitAgain x.gq idx else d.txnRefused x st
      | _ => d.txnRefused x st
    else
      match x.for_ with
      | .op idx off len => (d.retire x).segAnswer x idx off len k.data
      | .sem idx => (d.retire x).finishOp x.gq idx .ok (k.data.headD 0)
      | .die req piece => (d.retire x).pieceDone req piece .ok k.data
      | .line t s line =>
        let d := d.retire x
        match d.lineAt t s line with
        | some l => d.setLine { l with data := k.data }
        | none => d

/-- A response packet. -/
def Dev.response (d : Dev) (k : Pkt) (status : Nat) : Dev :=
  d.arrive (if k.data.isEmpty then .rsp else .rspd) k .none fun d k =>
    if d.twn.failedNode = some k.dst then { d with twn.stale := satAdd 0xFFFF d.twn.stale } else (d.takeResponse k status).retryPieces

/-- Why the owner refuses a subscription (R364; TEN_SSTAT reasons). -/
def Dev.subRefused (d : Dev) (k : Pkt) (stream : Nat) (span : W64) : Option Nat :=
  let x := d.ten k.dstTen
  if 4096 ≤ (d.rm.subs.filter fun s => !(decide (s.node = k.src) && decide (s.ten = k.srcTen) && decide (s.stream = stream) && decide (s.t = k.dstTen))).length then some 1
  else if d.fenced k.dstTen || decide (x.winSize = 0) then some 2
  else if x.winFlags % 2 = 0 then some 3
  else if x.winSize.toNat < faOff k.addr + span.toNat then some 4
  else none

/-- The owner's side of a message (R364, R375, R377). -/
def Dev.subOwner (d : Dev) (kind : Nat) (k : Pkt) (stream : Nat) (val : W64) : Dev :=
  let mine : Sub → Bool := fun s => decide (s.node = k.src) && decide (s.ten = k.srcTen) && decide (s.stream = stream) && decide (s.t = k.dstTen)
  if kind = 1 then
    let s : Sub := { node := k.src, ten := k.srcTen, stream, t := k.dstTen, lo := faOff k.addr, len := val.toNat, expiry := d.fab.time + 100000 }
    match d.subRefused k stream val with
    | some reason => d.sendSub s 3 reason (faOff k.addr) 0
    | none =>
      ({ d with rm.subs := (d.rm.subs.filter fun s => !mine s) ++ [s] }).sendSub s 2 0 (faOff k.addr) (BitVec.ofNat 64 s.expiry)
  else if kind = 6 then
    let key := (k.src, k.srcTen, stream)
    match d.rm.pend.find? fun w => w.subs.contains key && decide (faOff w.pkt.addr = faOff k.addr) with
    | some w =>
      let w' := { w with subs := without key w.subs }
      ({ d with rm.pend := d.rm.pend.map fun x => if x = w then w' else x }).ackWrites
    | none => d
  else { d with rm.subs := d.rm.subs.filter fun s => !mine s }

/-- The subscriber's side of a message (R364, R365, R374, R388); it must come from the package that owns the stream. -/
def Dev.subReader (d : Dev) (kind : Nat) (k : Pkt) (s : Nat) (val : W64) : Dev :=
  let t := k.dstTen
  let x := d.stream t s
  if x.st = .absent || decide (faNode x.base / 2 ≠ k.src / 2) then d
  else
    match kind with
    | 2 => if x.st = .subscribing then d.setStream t s fun x => { x with st := .granted, lease := some val.toNat, page := 0, reason := 0 } else d
    | 3 => if x.st = .subscribing then d.setStream t s fun x => { x with st := .refused, lease := none, reason := val.toNat } else d
    | 4 => if x.st = .granted then d.setStream t s fun x => { x with lease := some val.toNat } else d
    | 5 =>
      let lo := x.base.toNat / 2 ^ 48 * 2 ^ 48 + faOff k.addr
      let d := d.discardLines t s lo val.toNat
      let d := (d.rm.lines.filter fun l => decide (l.t = t) && decide (l.s = s) && decide (l.st = .doomed)).foldl Dev.forwardWaiters d
      (d.sendStream t s 6 (faOff k.addr) 0).1
    | 7 => if x.st = .granted then d.loseLease t s else d
    | _ => d

/-- A subscription message (11 R453): 1, 6 and 8 go to the owner, the others to the subscriber. -/
def Dev.subctl (d : Dev) (kind : Nat) (k : Pkt) (s : Nat) (val : W64) : Dev :=
  d.arrive .subctl k (.sub kind 0 s val) fun d k =>
    if kind = 1 || kind = 6 || kind = 8 then d.subOwner kind k s val else d.subReader kind k s val

/-! ### A compute die's requests with an IOVA (08 R301) -/

/-- A compute die's RD (1), WR (2), WRP (3), ATOM (4) or ATOMP (5) of host memory, translated with its PASID under the pinned-memory rule
(08 R301, R338). A write into a shadow region marks its granules first (17 R714; 18 R763). An ATOMP is executed as ATOM and its completion
dropped (04, feature table). -/
def Dev.dieHost (d : Dev) (kind p : Nat) (m : MemMsg) : Dev :=
  let t := m.tenant
  let len := if 4 ≤ kind then 8 else m.len
  let gs := if kind = 1 then [] else d.unmarked t (some m.pasid) m.addr.toNat len
  if !gs.isEmpty && d.guards t then { d.holdMarks t gs with vlt.heldDie := d.vlt.heldDie ++ [(kind, p, m)] }
  else
    let d := if gs.isEmpty then d else d.mark t gs
    d.runJob { for_ := if kind = 1 || kind = 4 then .die p m.tag t else if kind = 2 then .dieW p m.tag t else .dropped,
               fn := t + 1, pasid := some m.pasid, iova := m.addr, len, write := decide (kind = 2) || decide (kind = 3),
               atom := if 4 ≤ kind then some (m.aop, m.data.getD 0 0, m.data.getD 1 0) else none,
               data := if kind = 2 || kind = 3 then m.data else [], engine := 16 }

end Sys2Proof.Machine
end

