-- ==== Sys2Proof/Machine/Collect.lean ====
section
/-! DEFINITION. Collectives (10): the messages of an instance, its deadline and grace, the reduce engines, and the counters. -/

namespace Sys2Proof.Machine

/-- Sends CLOSE to the interior children of an engine and closes its instance (10 R418). -/
def Dev.closeDown (d : Dev) (x : Inst) : Dev :=
  let total := (d.group x.t x.g).total
  let me := d.self x.t x.g
  let d := d.setInst { x with closed := true, closeAt := some d.now }
  (d.collAll x.t x.g (closers total me) 3 (bareMsg x.k)).checkInst x.t x.g x.k

/-- CLOSE at an interior member (10 R418). -/
def Dev.collClosed (d : Dev) (m : CollMsg) : Dev :=
  let grp := d.group m.tenant m.group
  if decide (m.inst ≤ grp.finalised) || decide (d.self m.tenant m.group = 0) then d
  else
    let (d, x) := d.openInst m.tenant m.group m.inst
    if x.closed then d else d.closeDown x

/-- CLOSE_ACK of a child: its subtree's admitted set (10 R418, R420). -/
def Dev.collAcked (d : Dev) (m : CollMsg) : Dev :=
  match d.instAt m.tenant m.group m.inst with
  | none => d
  | some x =>
    if !x.closed || (x.acks.any fun a => decide (a.1 = m.member)) || !(closers (d.group m.tenant m.group).total (d.self m.tenant m.group)).contains m.member then d
    else (d.setInst { x with acks := x.acks ++ [(m.member, m.admitted)] }).checkInst m.tenant m.group m.inst

/-- The root refuses this member alone: its operation ends with the status (10 R409, R412, R441). -/
def Dev.refusedMember (d : Dev) (m : CollMsg) (st : Status) : Dev :=
  match d.instAt m.tenant m.group m.inst with
  | none => d
  | some x => (d.setInst { x with own := none }).endOwn x st

/-- The operation here that has started on an instance and has not been opened takes part in it from now on, its own data late (10 R422). -/
def Dev.adoptOwn (d : Dev) (t g k : Nat) : Dev :=
  match d.tq.ops.find? fun o => decide (o.gq / 64 = t) && !o.open_ && decide (o.result.toNat = k) && match o.desc.body with | .coll _ _ _ h .. => decide (h = g) | _ => false with
  | none => d
  | some o =>
    let (d, x) := d.openInst t g k
    (d.setOp { o with open_ := true }).setInst
      { x with own := some (o.gq, o.idx), desc := some o.desc.body, kind := o.desc.op, shape := some (shapeOf o.desc.op o.desc.body) }

/-- FINAL at a member: passed on to its children, taken by its own operation if that has started, and the group's highest finalised instance
follows (10 R422, R423, R437). -/
def Dev.finalHead (d : Dev) (m : CollMsg) (f : FinalInfo) : Dev :=
  let t := m.tenant
  let g := m.group
  let grp := d.group t g
  let kids := childrenOf grp.total (d.self t g)
  let d := (d.adoptOwn t g m.inst).collAll t g kids 5 { bareMsg m.inst with chunk := 0xFFFFFFFF, last := true } (some f)
  let d := (d.trace 0x05 t 0 0xFFFF f.status none (g + m.inst * 256)).setGroup t g fun y =>
    { y with finalised := max y.finalised m.inst, present := f.present.length, missing := f.missing, late := f.late }
  let d := d.journal 0x08 t g m.inst
  match d.instAt t g m.inst with
  | none => d
  | some x =>
    if x.final.isSome then d
    else if Status.ofCode f.status ≠ .ok then (d.closeInst x).takeFinal x f
    else if x.own.isNone then d.closeInst x
    else (d.setInst { x with final := some f }).takeFinal x f

/-- FMT of an instance as the descriptor of the member here gives it; 0 while none is held. -/
def Dev.fmtAt (d : Dev) (t g k : Nat) : Nat := match d.instAt t g k with | some x => (collP x.desc).fmt | none => 0

/-- A result chunk at a member (10 R413, R422): passed on, written once; the instance ends with the last. -/
def Dev.finalChunk (d : Dev) (m : CollMsg) : Dev :=
  let t := m.tenant
  let g := m.group
  let grp := d.group t g
  let kids := childrenOf grp.total (d.self t g)
  let d := d.collAll t g kids 5 { bareMsg m.inst with chunk := m.chunk, elems := m.elems, last := m.last } none (d.fmtAt t g m.inst)
  match d.instAt t g m.inst with
  | none => d
  | some x =>
    if x.result.any fun r => decide (r.1 = m.chunk) then d
    else
      let x := { x with result := x.result ++ [(m.chunk, [])] }
      let d := (d.setInst x).writeResult x m.chunk m.elems
      if x.final.isSome && decide (chunksOf (collP x.desc).count ≤ x.result.length) then d.closeInst x else d

/-- LEAVE at the root (10 R439). -/
def Dev.collLeft (d : Dev) (m : CollMsg) (status : Nat) : Dev :=
  if decide (m.inst ≤ (d.group m.tenant m.group).finalised) || decide (d.self m.tenant m.group ≠ 0) then d
  else
    let (d, x) := d.openInst m.tenant m.group m.inst
    (d.rootLeave x m.member (Status.ofCode status)).checkInst m.tenant m.group m.inst

/-- A carry that cannot be held is given up, with the units it has (10 R424). -/
def Dev.dropCarry (d : Dev) (c : Carry) : Dev :=
  ({ d with col.carries := d.col.carries.map fun x => if x = c then ({ c with chunks := [], dead := true } : Carry) else x } : Dev).give 1 c.t c.chunks.length

/-- CARRY at the root (10 R424): held for the next instance, or discarded and counted with its last chunk. -/
def Dev.collCarried (d : Dev) (m : CollMsg) : Dev :=
  let t := m.tenant
  let g := m.group
  if d.self t g ≠ 0 then d
  else
    match d.col.carries.find? fun c => decide (c.t = t) && decide (c.g = g) && decide (c.member = m.member) with
    | none =>
      let c : Carry := { t, g, member := m.member, shape := m.shape, chunks := [], inst := m.inst }
      if d.grantable 1 t 1 then ({ d with col.carries := d.col.carries ++ [{ c with chunks := [(m.chunk, m.elems)] }] } : Dev).take 1 t 1
      else if m.last then d.countLate t g true else { d with col.carries := d.col.carries ++ [{ c with dead := true }] }
    | some c =>
      if c.inst ≠ m.inst then d.countLate t g m.last
      else if c.dead then (if m.last then ({ d with col.carries := without c d.col.carries } : Dev).countLate t g true else d)
      else if c.chunks.any fun x => decide (x.1 = m.chunk) then d
      else if d.grantable 1 t 1 then
        ({ d with col.carries := d.col.carries.map fun x => if x = c then ({ c with chunks := c.chunks ++ [(m.chunk, m.elems)] } : Carry) else x } : Dev).take 1 t 1
      else
        let d := d.dropCarry c
        if m.last then ({ d with col.carries := d.col.carries.filter fun x => !(x.dead && decide (x.t = t) && decide (x.g = g) && decide (x.member = m.member)) } : Dev).countLate t g true
        else d

/-- What a collective message that is not refused does. -/
def Dev.collTake (d : Dev) (kind : Nat) (m : CollMsg) (f : FinalInfo) : Dev :=
  match kind with
  | 1 => (d.collData m m.elems false).checkInst m.tenant m.group m.inst
  | 2 => (d.collData m m.elems true).checkInst m.tenant m.group m.inst
  | 3 => d.collClosed m
  | 4 => d.collAcked m
  | 5 => if m.chunk = 0xFFFFFFFF then d.finalHead m f else d.finalChunk m
  | 6 => d.collLeft m f.status
  | _ => d.collCarried m

/-- A collective message from another node that has passed counts as received (21 R858, index 17). -/
def Dev.collCounted (d : Dev) (kind : Nat) (m : CollMsg) : Dev :=
  if m.passed && decide (d.fab.node ≠ some m.src) then d.count m.tenant 17 (collLen (d.group m.tenant m.group).total (d.fmtAt m.tenant m.group m.inst) kind m) else d

/-- A collective message that has reached this device (11 R454): only CONTRIB and PARTIAL act before their packet has passed (10 R435, R437), and
then only by a tentative fold; one of another list, or of a group not defined here, is refused (10 R409, R441). -/
def Dev.coll (d : Dev) (kind : Nat) (m : CollMsg) (f : FinalInfo) : Dev :=
  if d.fenced m.tenant || (!m.passed && decide (2 < kind)) then d
  else
    let d := d.collCounted kind m
    if kind = 5 && f.refusal then d.refusedMember m (Status.ofCode f.status)
    else if kind = 4 && m.toNode.isSome && decide (m.toNode = d.twn.failedNode) then { d with twn.stale := satAdd 0xFFFF d.twn.stale }
    else
      match d.collBar m with
      | some st => if m.passed then d.collRefuse m st else d
      | none => d.collTake kind m f

/-- The header of a collective message's packet (11 R453, R454). -/
def Dev.collHeader (d : Dev) (kind : Nat) (m : CollMsg) : Pkt :=
  { alias_ := m.toNode.isNone, ksel := m.ksel, ce := m.ce, redir := m.redir, dst := m.toNode.getD (d.fab.node.getD 0), dstTen := m.tenant, src := m.src, srcTen := m.srcTen,
    qglobal := 64 * m.srcTen + 63, len := collLen (d.group m.tenant m.group).total (d.fmtAt m.tenant m.group m.inst) kind m, bad := m.bad, passed := m.passed, port := m.port, vc := m.vc }

/-- A collective message decrypted under the slot of the tenant it is for (19 R809); `none` where the slot is empty, and it is discarded (R811). -/
def Dev.collOpen (d : Dev) (kind : Nat) (m : CollMsg) (f : FinalInfo) : Option (CollMsg × FinalInfo) :=
  if m.ksel = 0 then some (m, f)
  else (d.sec.slotKey m.tenant m.ksel).bind fun key =>
    match m.cipher with
    | none => some (m, f)
    | some (w, b) =>
      if b.length < 16 then none
      else some (readColl (d.group m.tenant m.group).total w kind m f (xtsDec key (payloadTweak (packetHeader .coll (d.collHeader kind m) (.coll kind m none))) b))

/-- A collective packet that comes in for this device (11 R455, R457, R463, R486): a malformed one is counted; one for a tenant served elsewhere
goes on to the partner; a mark on one that passed is answered with CNP. -/
def Dev.collIn (d : Dev) (kind : Nat) (m : CollMsg) (f : FinalInfo) : Dev :=
  let k := d.collHeader kind m
  if m.bad then { d with fab.malformed := satAdd 0x3FF d.fab.malformed }
  else if m.toNode.isNone && !d.serves m.tenant then
    if m.passed then d.misdirected .coll k (.coll kind m (if kind = 5 || kind = 6 then some f else none)) else d
  else
    let d := if m.passed then d.notifyMark .coll k else d
    match d.collOpen kind m f with
    | some (m, f) => d.coll kind m f
    | none => d

/-- A FINAL without information, for the messages that carry none. -/
def noFinal (status : Nat) : FinalInfo := { status, present := [], missing := 0, late := 0 }

/-- COLL_CONTRIB (10 R417). -/
def execCollContrib (m : CollMsg) (s : State) : R := s.intake true (.coll 1 m (noFinal 0)) fun d => (d.collIn 1 m (noFinal 0)).settle

/-- COLL_PARTIAL (10 R414). -/
def execCollPartial (m : CollMsg) (s : State) : R := s.intake true (.coll 2 m (noFinal 0)) fun d => (d.collIn 2 m (noFinal 0)).settle

/-- COLL_CLOSE (10 R418). -/
def execCollClose (m : CollMsg) (s : State) : R := s.intake true (.coll 3 m (noFinal 0)) fun d => (d.collIn 3 m (noFinal 0)).settle

/-- COLL_CLOSE_ACK (10 R420). -/
def execCollCloseAck (m : CollMsg) (s : State) : R := s.intake true (.coll 4 m (noFinal 0)) fun d => (d.collIn 4 m (noFinal 0)).settle

/-- COLL_FINAL (10 R422). -/
def execCollFinal (m : CollMsg) (f : FinalInfo) (s : State) : R := s.intake true (.coll 5 m f) fun d => (d.collIn 5 m f).settle

/-- COLL_LEAVE (10 R439). -/
def execCollLeave (m : CollMsg) (status : Nat) (s : State) : R :=
  s.intake true (.coll 6 m (noFinal status)) fun d => (d.collIn 6 m (noFinal status)).settle

/-- COLL_CARRY (10 R424). -/
def execCollCarry (m : CollMsg) (s : State) : R := s.intake true (.coll 7 m (noFinal 0)) fun d => (d.collIn 7 m (noFinal 0)).settle

/-- The instance a timer of collective g names, while the device is not stopped. -/
def Dev.timedInst (d : Dev) (t g k : Nat) : Option Inst := if d.stopped then none else d.instAt t g k

/-- The root closes an instance whose deadline has passed (10 R416). -/
def Dev.deadlineClose (d : Dev) (t g k : Nat) (x : Inst) : Dev :=
  ({ d with col.closes := satAdd 0x7FFF d.col.closes }.trace 0x04 t 0 0xFFFF 0 none (g + k * 256)).closeDown x

/-- COLL_DEADLINE (10 R416): DEADLINE_US after the instance began at the root, which knows it from its own descriptor, the root sends CLOSE. -/
def execCollDeadline (t g k : Nat) (s : State) : R := s.runIf (Unit.tenant t && Unit.collGroup g) fun d =>
  match d.timedInst t g k with
  | none => d
  | some x =>
    let p := collP x.desc
    if decide (d.self t g ≠ 0) || x.closed || decide (p.deadline = 0) || decide (d.now < x.started + 1000 * p.deadline) then d
    else (d.deadlineClose t g k x).settle

/-- Children of the member that have not acknowledged the close. -/
def Dev.lateChildren (d : Dev) (t g : Nat) (x : Inst) : List Nat :=
  (closers (d.group t g).total (d.self t g)).filter fun i => !(x.acks.any fun a => decide (a.1 = i))

/-- A contribution of a late child's subtree has been folded. -/
def Dev.lateFolded (d : Dev) (t g : Nat) (x : Inst) : Bool := (d.lateChildren t g x).any fun i => (subtree (d.group t g).total 4 i).any fun j => x.folded j

/-- The instance fails, and every member is told (10 R418). -/
def Dev.leaveInst (d : Dev) (t g : Nat) (x : Inst) : Dev := if d.self t g = 0 then d.failInst x .targetUnavailable else d.failAll x .targetUnavailable

/-- GRACE_US since CLOSE was sent on (10 R418, R442). -/
def Dev.graceOver (d : Dev) (x : Inst) : Bool := match x.closeAt with | some n => decide (n + 1000 * max 1 (d.col.cfg.toNat % 256) ≤ d.now) | none => false

/-- The late children count as missing. -/
def Dev.missLate (d : Dev) (t g k : Nat) (x : Inst) : Dev :=
  let late := d.lateChildren t g x
  (d.setInst { x with acks := x.acks ++ late.map fun i => (i, []) , missing := late.foldl (fun l i => insertNat i l) x.missing }).checkInst t g k

/-- COLL_GRACE_TIMEOUT (10 R418): a child that has not acknowledged has its subtree counted missing, or the instance fails. -/
def execCollGraceTimeout (t g k : Nat) (s : State) : R := s.runIf (Unit.tenant t && Unit.collGroup g) fun d =>
  match d.timedInst t g k with
  | none => d
  | some x =>
    if !x.closed || (d.lateChildren t g x).isEmpty || !d.graceOver x then d
    else if d.lateFolded t g x then (d.leaveInst t g x).settle
    else (d.missLate t g k x).settle

/-- A group being dropped is given up: its instances end ABORTED and it is freed. -/
def Dev.dropNow (d : Dev) (t g : Nat) : Dev :=
  let d := (d.col.inst.filter fun x => decide (x.t = t) && decide (x.g = g)).foldl (fun d x => d.failInst x .aborted) d
  if (d.group t g).dropping then d.freeGroup t g else d

/-- COLL_DROP_TIMEOUT (10 R408): open instances end ABORTED, and the group is freed. -/
def execCollDropTimeout (t g : Nat) (s : State) : R := s.runIf (Unit.tenant t && Unit.collGroup g) fun d =>
  if d.stopped || !(d.group t g).dropping then d else (d.dropNow t g).settle

/-- An input can be folded by engine `e` now (10 R401, R402, R433, R435): its descriptor is known, it is its turn, its chunk holds no
tentative fold, and a scratch unit is there. -/
def Dev.foldable (d : Dev) (e : Nat) (x : Inst) (f : FoldIn) : Bool :=
  let c := Tab.look ({} : Chunk) f.chunk x.chunks
  x.desc.isSome && decide ((f.chunk + x.g) % 4 = e) && c.saved.isEmpty && x.inTurn (d.group x.t x.g).total (d.self x.t x.g) f
    && (c.acc.isSome || (decide (Tab.look 0 1 (d.ten x.t).waiting = 0)))

/-- What an engine folds next: the first contribution of an instance that it can. -/
def Dev.foldNext (d : Dev) (e : Nat) : Option (Inst × FoldIn) :=
  if d.stopped then none else d.col.inst.findSome? fun x => (x.queue.find? fun f => d.foldable e x f).map fun f => (x, f)

/-- The contribution is folded (10 R433). -/
def Dev.foldIn (d : Dev) (x : Inst) (f : FoldIn) : Dev := (d.setInst (x.fold f)).checkInst x.t x.g x.k

/-- REDUCE_FOLD_STEP (10 R433): the first input that engine `e` can fold; without a scratch unit the tenant waits (07 R257). -/
def execReduceFoldStep (e : Nat) (s : State) : R := s.runIf (Unit.engine e) fun d =>
  match d.foldNext e with
  | none => d
  | some (x, f) =>
    if (Tab.look ({} : Chunk) f.chunk x.chunks).acc.isSome then (d.foldIn x f).settle
    else
      match d.claim 1 x.t 1 with
      | (d, true) => (d.foldIn x f).settle
      | (d, false) => d

/-- COL_CNT_CLR (10 R442). -/
def execColCntClr (s : State) : R := s.run fun d => d.mmio 0 fun d => { d with col.closes := 0, col.quorumFail := 0, col.restores := 0 }

/-- The partials of a chunk that were forwarded and are not yet acknowledged: port, VC and sequence (11 R482). -/
def Dev.sentPartials (d : Dev) (x : Inst) (ci : Nat) : List (Nat × Nat × Nat) :=
  (List.range 64).flatMap fun p => ((d.lport p).unacked.filterMap fun u =>
    match u.first with
    | some (.coll, _, .coll 2 m _) => if m.group = x.g && m.inst = x.k && m.chunk = ci then some (p, u.vc, u.seq) else none
    | _ => none)

/-- The tentative folds of a chunk that came in on port `p` are undone, and what was forwarded of it is retracted (10 R435). -/
def Dev.unfoldChunk (d : Dev) (x : Inst) (p ci : Nat) : Dev :=
  let c := Tab.look ({} : Chunk) ci x.chunks
  match c.saved.find? fun s => decide (s.2.1 = p) with
  | none => d
  | some s =>
    let outs := if c.sent then d.sentPartials x ci else []
    let c' : Chunk := { c with acc := s.2.2, saved := without s c.saved, folded := without s.1 c.folded, sent := false }
    let d := d.setInst { x with chunks := Tab.put {} ci c' x.chunks }
    let d := if s.2.2.isNone && !c.sent then d.give 1 x.t 1 else if s.2.2.isSome && c.sent then d.take 1 x.t 1 else d
    let d := { d with col.restores := satAdd 0xFF d.col.restores, fab.retractTx := min 0x3FF (d.fab.retractTx + outs.length) }
    outs.foldl (fun d o => d.linkItem o.1 (.retract o.1 o.2.1 o.2.2)) d

/-- Every tentative fold of an input from port `p` is undone, and what of it was not yet folded goes (10 R435). -/
def Dev.unfold (d : Dev) (p : Nat) : Dev :=
  let keep : FoldIn → Bool := fun f => f.passed || decide (f.port ≠ p)
  let d : Dev := { d with col.inst := d.col.inst.map fun x => ({ x with queue := x.queue.filter keep } : Inst) }
  let hits := d.col.inst.flatMap fun x => x.chunks.filterMap fun c => if c.2.saved.any fun s => decide (s.2.1 = p) then some (x.t, x.g, x.k, c.1) else none
  hits.foldl (fun d h => match d.instAt h.1 h.2.1 h.2.2.1 with | some x => d.unfoldChunk x p h.2.2.2 | none => d) d

end Sys2Proof.Machine
end

