-- ==== Sys2Proof/Machine/Switch.lean ====
section
/-! DEFINITION. The switch (11): packets that arrive, neighbours, congestion and fabric time. -/

namespace Sys2Proof.Machine

/-- PACKET_FORWARD (R463, R464, R473). -/
def execPacketForward (t : PType) (k : Pkt) (s : State) : R := s.intake true (.transit t k) fun d =>
  (if k.bad then { d with fab.malformed := satAdd 0x3FF d.fab.malformed } else if d.isMine k then d else d.relay t k .none).settle

/-- PKT_RD (09 R347). -/
def execPktRd (k : Pkt) (s : State) : R := s.intake true (.request .rd k { op := 0, aop := 0, cond := 0, operand := 0, compare := 0 }) fun d => (d.request .rd k).settle

/-- PKT_WR (09 R348). -/
def execPktWr (k : Pkt) (s : State) : R := s.intake true (.request .wr k { op := 0, aop := 0, cond := 0, operand := 0, compare := 0 }) fun d => (d.request .wr k).settle

/-- PKT_WRP (09 R348). -/
def execPktWrp (k : Pkt) (s : State) : R := s.intake true (.request .wrp k { op := 0, aop := 0, cond := 0, operand := 0, compare := 0 }) fun d => (d.request .wrp k).settle

/-- PKT_ATOM (09 R353). -/
def execPktAtom (k : Pkt) (s : State) : R := s.intake true (.request .atom k { op := 0, aop := 0, cond := 0, operand := 0, compare := 0 }) fun d => (d.request .atom k).settle

/-- PKT_ATOMP (09 R353). -/
def execPktAtomp (k : Pkt) (s : State) : R := s.intake true (.request .atomp k { op := 0, aop := 0, cond := 0, operand := 0, compare := 0 }) fun d => (d.request .atomp k).settle

/-- PKT_RSP (07 R288, R292). -/
def execPktRsp (k : Pkt) (status : Nat) (s : State) : R := s.intake true (.response k status) fun d => (d.response k status).settle

/-- A semaphore packet. -/
def Dev.semPacket (d : Dev) (k : Pkt) (r : SemReq) : Dev := d.arrive .sem k (.sem r) fun d k => d.serveSem k r

/-- PKT_SEM (10 R427). -/
def execPktSem (k : Pkt) (r : SemReq) (s : State) : R := s.intake true (.request .sem k r) fun d => (d.semPacket k r).settle

/-- A STEER for this device (R458): the side cache of the sender's package. -/
def Dev.steer (d : Dev) (k : Pkt) (tenant : Nat) (side : Bool) : Dev :=
  d.arrive .steer { k with alias_ := false } (.steer tenant side) fun d _ =>
    { d with fab.side := Tab.put false (16 * (k.src / 2) + tenant % 16) side d.fab.side }

/-- PKT_STEER (R458). -/
def execPktSteer (k : Pkt) (tenant : Nat) (side : Bool) (s : State) : R := s.intake true (.steer k tenant side) fun d => (d.steer k tenant side).settle

/-- A CNP for this device (R487). -/
def Dev.cnp (d : Dev) (k : Pkt) (gq : Nat) : Dev := d.arrive .cnp { k with alias_ := false } (.cnp gq) fun d _ => d.congest gq k.src

/-- PKT_CNP (R487). -/
def execPktCnp (k : Pkt) (gq : Nat) (s : State) : R := s.intake true (.cnp k gq) fun d => (d.cnp k gq).settle

/-! ### Neighbours and the time tree (R448, R489, R490, R500, R501) -/

/-- This device's grandmaster priority (R489). -/
def Dev.ownPri (d : Dev) : Nat :=
  if d.fab.ppsEn && !(d.flt.log.any fun r => decide (r.src = Src.ppsFault) && !r.acked) then 2 else if d.fab.timeSet then 1 else 0

/-- This device's node ID as a claim; a device without one claims below every other. -/
def Dev.claimId (d : Dev) : Nat := d.fab.node.getD 4096

/-- A claim (priority, grandmaster) is better than another (R489). -/
def betterClaim (a b : Nat × Nat) : Bool := decide (b.1 < a.1) || (decide (a.1 = b.1) && decide (a.2 < b.2))

/-- The neighbour port to follow: best grandmaster, fewest hops, lowest node ID (R490). -/
def Dev.bestParent (d : Dev) : Option Nat :=
  ((List.range 64).filter fun p => let n := Tab.look {} p d.fab.nbr; n.valid && decide (n.gmHops < 16)).foldl (fun (m : Option Nat) p =>
    match m with
    | none => some p
    | some q =>
      let a := Tab.look {} p d.fab.nbr
      let b := Tab.look {} q d.fab.nbr
      if betterClaim (a.gmPri, a.gm) (b.gmPri, b.gm)
        || (decide (a.gmPri = b.gmPri) && decide (a.gm = b.gm) && (decide (a.gmHops < b.gmHops) || (decide (a.gmHops = b.gmHops) && decide (a.node < b.node))))
      then some p else m) none

/-- The device takes its time parent again: none when its own claim is best (R489, R490); a grandmaster follows nobody, so it is not locked
(log 162). -/
def Dev.reparent (d : Dev) : Dev :=
  let own := (d.ownPri, d.claimId)
  let lead := { d with fab.parent := none, fab.gm := d.fab.node.getD 0, fab.gmPri := d.ownPri, fab.gmHops := 0, fab.good := 0, fab.t1 := none, fab.locked := false }
  match d.bestParent with
  | none => lead
  | some p =>
    let n := Tab.look {} p d.fab.nbr
    if betterClaim (n.gmPri, n.gm) own && decide (n.gm ≠ d.claimId) then
      { d with fab.parent := some p, fab.gm := n.gm, fab.gmPri := n.gmPri, fab.gmHops := n.gmHops + 1
               fab.good := if d.fab.parent = some p then d.fab.good else 0 }
    else lead

/-- The HELLO this device sends on port `p` (R449). -/
def Dev.helloOf (d : Dev) (p : Nat) : Hello :=
  { ident := d.fuses.dsn, node := d.fab.node.getD 0, valid := d.fab.node.isSome, port := p, trunk := d.trunkOf p,
    gm := d.fab.gm, gmPri := d.fab.gmPri, gmHops := d.fab.gmHops }

/-- A HELLO leaves on a port (R448, R449). -/
def Dev.sendHello (d : Dev) (p : Nat) : Dev := d.sendOn p .hello 32 (.hello (d.helloOf p))

/-- HELLO_SEND (R448): every port whose link is up, on VC0, with this device's present claim (R489, R490). -/
def execHelloSend (s : State) : R := s.run fun d =>
  let d := d.reparent
  ((List.range 64).filter fun p => decide ((d.lport p).st = .active)).foldl Dev.sendHello d

/-- A port loses its neighbour (R448, R466, R501). -/
def Dev.loseNeighbour (d : Dev) (p : Nat) : Dev :=
  if (Tab.look {} p d.fab.nbr).valid then
    let d := { d with fab.nbr := Tab.put {} p {} d.fab.nbr }
    (d.postIf (d.trunkOf p).isSome Src.fabTrunkMember p).reparent.retryFab
  else { d with fab.nbr := Tab.put {} p {} d.fab.nbr }

/-- The neighbour of a port has sent no HELLO for 3 ms (R448). -/
def Dev.silent (d : Dev) (p : Nat) : Bool := decide ((Tab.look {} p d.fab.nbr).last + 3000000 ≤ d.now)

/-- NEIGHBOUR_TIMEOUT (R448, R501). -/
def execNeighbourTimeout (p : Nat) (s : State) : R := s.runIf (Unit.optPort p) fun d => if d.silent p then (d.loseNeighbour p).settle else d

/-- What a HELLO of port p tells of its neighbour (R449, R500): a node ID of this node's own from another package is a duplicate; the other
node of this node's package is its partner. -/
def Dev.nbrOf (d : Dev) (h : Hello) : Nbr :=
  let dup := h.valid && decide (d.fab.node = some h.node) && decide (h.ident ≠ d.fuses.dsn)
  { valid := true, node := h.node, port := h.port, dup, ident := h.ident, last := d.now, gm := h.gm, gmPri := h.gmPri, gmHops := h.gmHops,
    partner := h.valid && decide (d.fab.node.map (· / 2) = some (h.node / 2)) && !dup }

/-- PKT_HELLO (R449, R490, R500). -/
def execPktHello (p : Nat) (h : Hello) (s : State) : R := s.runIf (Unit.optPort p) fun d =>
  if (d.lport p).st ≠ .active then d
  else
    let n := d.nbrOf h
    ((({ d with fab.nbr := Tab.put {} p n d.fab.nbr }).postIf (n.dup && !(Tab.look ({} : Nbr) p d.fab.nbr).dup) Src.fabDupId p).reparent.retryFab).settle

/-! ### Waiting packets and limits -/

/-- ESC_NS of FAB_CFG in ns; 0 acts as 1 (R470). -/
def Dev.escNs (d : Dev) : Nat := 10 * max 1 (d.fab.cfg.toNat / 2 ^ 24 % 256)

/-- Entry n of the waiting list, which no adaptive candidate has taken within ESC_NS (R470), while the device is not stopped. -/
def Dev.waiter (d : Dev) (n : Nat) : Option WPkt :=
  if d.stopped then none else (d.fab.wait[n]?).filter fun x => x.via.isNone && decide (x.since + d.escNs ≤ d.now)

/-- ESCAPE_TIMEOUT (R470): the n-th waiting packet moves to the escape VC. -/
def execEscapeTimeout (n : Nat) (s : State) : R := s.run fun d =>
  match d.waiter n with
  | none => d
  | some x =>
    match d.forward x.t x.pkt x.body true with
    | (e, .sent) => (e.putWait (d.fab.wait.eraseIdx n)).settle
    | (e, .waits) => (e.putWait (d.fab.wait.set n { x with escape := true })).settle
    | (e, .noRoute) => (((e.putWait (d.fab.wait.eraseIdx n)).countNoRoute x.pkt.port).refuse x.t x.pkt .pathFailure).settle

/-- A pair without a mark for 10 µs, nor a rise in them, sends 2 GB/s more (R487). -/
def Pair.recover (p : Pair) (now : Nat) : Pair :=
  if p.mark + 10000 ≤ now && p.rise + 10000 ≤ now then { p with limit := p.limit + 2000, rise := now } else p

/-- CONGESTION_RECOVERY (R487): 10 µs have passed; pairs not marked in them rise by 2 GB/s and are released at 64 GB/s. -/
def execCongestionRecovery (s : State) : R := s.run fun d =>
  { d with fab.pairs := (d.fab.pairs.map (Pair.recover · d.now)).filter fun p => decide (p.limit < 64000) }

/-! ### Fabric time (R488 to R495) -/

/-- Fabric time becomes unlocked (R495). -/
def Dev.unlock (d : Dev) : Dev :=
  if d.fab.locked then ({ d with fab.locked := false, fab.good := 0 }).post Src.fabTimeLost 0 else { d with fab.good := 0 }

/-- TSYNC_EXCHANGE (R493). -/
def execTsyncExchange (s : State) : R := s.run fun d =>
  match d.fab.parent with
  | some p => { d.sendOn p .tsync 8 (.tsync d.fab.time none) with fab.t1 := some d.fab.time }
  | none => d

/-- A follower's offset from an exchange, with its effect (R493 to R495). -/
def Dev.offsetFound (d : Dev) (off : Int) : Dev :=
  let d := { d.applyOffset off with fab.offset := off, fab.lastEx := d.now, fab.t1 := none }
  if 100 < off.natAbs then d.unlock
  else if off.natAbs ≤ 4 then { d with fab.good := min 10 (d.fab.good + 1), fab.locked := d.fab.locked || decide (10 ≤ d.fab.good + 1) }
  else { d with fab.good := 0 }

/-- PKT_TSYNC (R493): the parent answers with T1, T2 and T3; the follower computes its offset. -/
def execPktTsync (p : Nat) (t1 : W64) (reply : Option (W64 × W64)) (s : State) : R := s.runIf (Unit.optPort p) fun d =>
  match reply with
  | none => d.sendOn p .tsync 24 (.tsync t1.toNat (some (d.fab.time, d.fab.time)))
  | some (t2, t3) =>
    if d.fab.parent = some p && d.fab.t1 = some t1.toNat then
      (d.offsetFound ((((t2.toNat : Int) - t1.toNat) - ((d.fab.time : Int) - t3.toNat)) / 2)).settle
    else d

/-- A follower has had no exchange for 1 ms (R495). -/
def Dev.noExchange (d : Dev) : Bool := d.fab.parent.isSome && decide (d.fab.lastEx + 1000000 ≤ d.now)

/-- TIME_LOCK_LOSS (R495). -/
def execTimeLockLoss (s : State) : R := s.run fun d => if d.noExchange then d.unlock.settle else d

/-- FABRIC_READY's conditions (R450; 03 R101): a node ID, a port that is up, and time that is locked where the node has a parent. -/
def Dev.fabricMay (d : Dev) : Bool :=
  decide (d.boot.stage = .hostReady) && (decide (Tab.look .notStarted 8 d.boot.items = .running) || decide (Tab.look .notStarted 8 d.boot.items = .up)) && d.fab.node.isSome && (List.range 64).any (fun p => d.portUp p) && (d.fab.parent.isNone || d.fab.locked)

/-- FABRIC_READY_ENTRY (R450; 03 R104): item 8, which has started, completes. -/
def execFabricReadyEntry (s : State) : R := s.run fun d =>
  if d.fabricMay then
    { d with boot.stage := .fabricReady, boot.items := Tab.put .notStarted 8 .up d.boot.items }
  else d

/-- FAB_TIME_LO_READ (R502): reading LO latches HI. -/
def execFabTimeLoRead (s : State) : R := s.run fun d => d.mmio 0 fun d => { d with fab.latched := BitVec.ofNat 32 (d.fab.time / 2 ^ 32) }

/-- FAB_CNT_CLR (R502): FAB_CNT0 or FAB_CNT1. -/
def execFabCntClr (which : Nat) (s : State) : R := s.run fun d => d.mmio 0 fun d =>
  if which = 0 then { d with fab.retractTx := 0, fab.retractRx := 0, fab.stale := 0 } else { d with fab.noroute := 0, fab.malformed := 0, fab.unserved := 0 }

end Sys2Proof.Machine
end

