-- ==== Sys2Proof/Machine/OpsOpt.lean ====
section
/-! DEFINITION. Operations shared by optical links, rings, lasers, the wavelength allocator and calibration (12 to 15): heater codes, ring states, ends of polishes, moves of lanes and link reset. Rings and channels are numbered 36·port + 18·direction + position, which is 576b + r of Beryl b. -/

namespace Sys2Proof.Machine

/-! ### Units -/

def Dev.brl (d : Dev) (b : Nat) : Brl := Tab.look {} b d.opt.brl
def Dev.ring (d : Dev) (x : Nat) : Ring := Tab.look {} x d.opt.rings
def Dev.setRing (d : Dev) (x : Nat) (f : Ring → Ring) : Dev := { d with opt.rings := Tab.upd {} x f d.opt.rings }
def Dev.laser (d : Dev) (j : Nat) : Laser := Tab.look {} j d.las.las
def Dev.setLaser (d : Dev) (j : Nat) (f : Laser → Laser) : Dev := { d with las.las := Tab.upd {} j f d.las.las }
def Dev.posn (d : Dev) (i : Nat) : Pos := Tab.look {} i d.las.pos
def Dev.setPosn (d : Dev) (i : Nat) (f : Pos → Pos) : Dev := { d with las.pos := Tab.upd {} i f d.las.pos }
def Dev.wport (d : Dev) (p : Nat) : WPort := Tab.look {} p d.las.ports
def Dev.setWport (d : Dev) (p : Nat) (f : WPort → WPort) : Dev := { d with las.ports := Tab.upd {} p f d.las.ports }
def Dev.chan (d : Dev) (x : Nat) : Chan := Tab.look {} x d.cal.chans
def Dev.setChan (d : Dev) (x : Nat) (f : Chan → Chan) : Dev := { d with cal.chans := Tab.upd {} x f d.cal.chans }

/-- Ring and channel of wavelength `k` of a port, transmit (0) or receive (1) (13, Model). -/
def ringNo (p dir k : Nat) : Nat := 36 * p + 18 * dir + k

/-- The port is ACTIVE. -/
def Dev.active (d : Dev) (p : Nat) : Bool := decide ((d.lport p).st = .active)

/-- Entry of a map at a wavelength (14 R595). -/
def mapAt (m : List Nat) (k : Nat) : Nat := m.getD k 0xFF

/-- The wavelength that carries a lane. -/
def laneAt (m : List Nat) (l : Nat) : Option Nat := (List.range 18).find? fun k => decide (mapAt m k = l)

/-- The calibration record of a ring, if a copy is valid. -/
def Dev.ringRec (d : Dev) (x : Nat) : Option RingRec := ((Tab.look {} x d.calNv.ring).newer (ringId x)).map ringOf

/-- Quartz temperature of tile `b` (16 R658). -/
def Dev.quartz (d : Dev) (b : Nat) : Int := Tab.look 0 b d.thm.qtemp

/-! ### Heaters (13 R558, R563, R568, R569) -/

/-- The largest single change of a code: MAXSTEP × 4 (13 R558; 0 acts as 1). -/
def Brl.limit (b : Brl) : Int := 4 * max 1 (b.lcfg.toNat / 2 ^ 26 : Nat)

/-- A code held to the 14-bit range of the DAC. -/
def clampCode (c : Int) : Nat := (max 0 (min c 16383)).toNat

/-- The feedforward a ring receives when a neighbour's code changes by `delta` (13 R568), whatever its state; the fraction stays. -/
def Ring.feed (g : Ring) (coef delta : Int) : Ring :=
  let total := g.ffRem - coef * delta
  let whole := Int.tdiv total 256
  { g with code := clampCode (g.code + whole), ffRem := total - 256 * whole }

/-- The heater DACs of a ring's Beryl are in RETAIN: every heater holds its last code and the loop is stopped (02 R61). -/
def Dev.heatersHeld (d : Dev) (x : Nat) : Bool := decide (d.domain (56 + 11 * (x / 576)) = 1)

/-- Sets a ring's code; every ring that lists it receives its feedforward in the same update (13 R568). In RETAIN no code changes (02 R61). -/
def Dev.setCode (d : Dev) (x : Nat) (c : Int) : Dev :=
  if d.heatersHeld x then d else
  let new := clampCode c
  let delta : Int := (new : Int) - (d.ring x).code
  let d := d.setRing x fun g => { g with code := new }
  if delta = 0 then d
  else
    (d.opt.rings.filter fun e => decide (e.1 / 576 = x / 576) && e.2.nbrs.any fun n => decide (n.1 = x % 576)).foldl (fun (d : Dev) e =>
      (e.2.nbrs.filter fun n => decide (n.1 = x % 576)).foldl (fun (d : Dev) n => d.setRing e.1 fun g => g.feed n.2 delta) d) d

/-- A commanded code: at once within one step limit, else as a ramp (13 R569), which waits while the heaters are in RETAIN (02 R61). -/
def Dev.moveCode (d : Dev) (x : Nat) (c : Int) : Dev :=
  let new := clampCode c
  if !d.heatersHeld x && decide (((new : Int) - (d.ring x).code).natAbs ≤ ((d.brl (x / 576)).limit).natAbs) then (d.setCode x new).setRing x fun g => { g with target := none }
  else d.setRing x fun g => { g with target := some new }

/-- DRVCOMP is added to or removed from a ring's code, or from the code it ramps to, in the same update (13 R563, R569). -/
def Dev.compensate (d : Dev) (x : Nat) (on : Bool) : Dev :=
  let g := d.ring x
  if g.comped = on then d
  else
    let base : Int := (g.target.getD g.code : Nat)
    (d.moveCode x (if on then base + g.drvcomp else base - g.drvcomp)).setRing x fun g => { g with comped := on }

/-- The ring's driver starts or stops carrying a lane, with DRVCOMP (13 R563). -/
def Dev.drive (d : Dev) (x : Nat) (on : Bool) : Dev := (d.compensate x on).setRing x fun g => { g with driving := on }

/-! ### Dither (13 R555, R556) -/

/-- The decimation D = 128 × DEC (13 R555; 0 acts as 1). -/
def Brl.decim (b : Brl) : Nat := 128 * max 1 (b.lcfg.toNat % 16)

/-- DBASE, from 2 to 59 (13 R556). -/
def Brl.dbase (b : Brl) : Nat := min 59 (max 2 (b.lcfg.toNat / 2 ^ 4 % 64))

/-- DAMP in codes (13 R556). -/
def Brl.damp (b : Brl) : Nat := b.lcfg2.toNat % 256

/-- The frequency a ring dithers at, in Hz: (DBASE + s) × 1 MHz ÷ D (13 R556). -/
def Dev.ditherHz (d : Dev) (x : Nat) : ℚ := (((d.brl (x / 576)).dbase + (d.ring x).slot : Nat) : ℚ) * 1000000 / ((d.brl (x / 576)).decim : ℚ)

/-- The code the DAC has at a sign of the dither, which no code change of the loop contains (13 R556). -/
def Dev.ditherCode (d : Dev) (x : Nat) (up : Bool) : Nat :=
  clampCode (((d.ring x).code : Int) + if up then ((d.brl (x / 576)).damp : Int) else -((d.brl (x / 576)).damp : Int))

/-- One stage of the decimating filter: sums over the last `n` samples. -/
def boxcar (n : Nat) (xs : List Int) : List Int := (List.range (xs.length + 1 - n)).map fun i => ((xs.drop i).take n).sum

/-- The third-order cascaded-integrator-comb filter over the samples of one output, scaled to the average (13 R555). -/
def cic3 (n : Nat) (xs : List Int) : Int := Int.tdiv ((boxcar n (boxcar n (boxcar n xs))).headD 0) ((n : Int) ^ 3)

/-- A filter output from monitor samples and the dither reference (13 R555): the in-phase first harmonic and the average. -/
def lockIn (b : Brl) (samples reference : List Int) : FilterOut :=
  { x1 := cic3 b.decim (List.zipWith (· * ·) samples reference), p0 := (cic3 b.decim samples).toNat }

/-- Rings that stand in a ring's neighbour table, or name it in theirs. -/
def Dev.nearRings (d : Dev) (x : Nat) : List Ring :=
  ((d.ring x).nbrs.map fun n => d.ring (576 * (x / 576) + n.1))
    ++ ((d.opt.rings.filter fun e => decide (e.1 / 576 = x / 576) && decide (e.1 ≠ x) && e.2.nbrs.any fun n => decide (n.1 = x % 576)).map (·.2))

/-- A ring takes a dither slot that no ring near it has (13 R556): its position modulo 4 where that is free, else the lowest free (log 164). -/
def Dev.takeDither (d : Dev) (x : Nat) : Dev :=
  let used := ((d.nearRings x).filter fun g => decide (g.st ≠ .off)).map (·.slot)
  d.setRing x fun g => { g with slot := (([x % 18 % 4, 0, 1, 2, 3]).find? fun s => !used.contains s).getD (x % 18 % 4) }

/-! ### Ring states (13 R552, R559 to R561) -/

/-- A synchronising reset of one ring (13 R559, R576). -/
def Ring.sync (g : Ring) : Ring := { g with invalid := 3, valid := false }

/-- Entry into TRACK (13 R552, R559). -/
def Ring.toTrack (now : Nat) (g : Ring) : Ring := { g.sync with st := .track, good := 0, bad := 0, rail := 0, weak := 0, since := now }

/-- A seek starts from the code the ring holds (13 R552). -/
def Dev.seek (d : Dev) (x : Nat) : Dev := d.setRing x fun g => { g with st := .seek, tries := 0, valid := false, since := d.now }

/-- The code a seek starts from: the record's, corrected for temperature (13 R553). -/
def Dev.predicted (d : Dev) (x : Nat) : Option Int :=
  (d.ringRec x).map fun r => (r.code : Int) + Int.tdiv (r.tc * (d.quartz (x / 576) - r.temp)) 256

/-- The loop freezes (13 R552). -/
def Dev.holdRing (d : Dev) (x : Nat) : Dev :=
  d.setRing x fun g => if g.st = .track || g.st = .locked then { g with st := .hold } else g

/-- A ring leaves HOLD once light is there and neither a calibration step nor Dark holds it (13 R552). -/
def Dev.unhold (d : Dev) (x : Nat) : Dev :=
  let g := d.ring x
  if g.st = .hold && g.lit && !g.calHold && !g.darkHold then d.setRing x (Ring.toTrack d.now) else d

/-- Every ring of a Beryl takes a synchronising reset (13 R559). -/
def Dev.syncAll (d : Dev) (b : Nat) : Dev :=
  { d with opt.rings := Tab.updAll {} ((List.range 576).map (576 * b + ·)) (fun _ g => g.sync) d.opt.rings }

/-! ### Allocator items (14 R601) -/

/-- Transmit LSLOT: non-skip slots since flit slot 0, of 4.25 ns at width 16 and 8.5 ns at width 8 (12 R515, R516). -/
def Dev.lslot (d : Dev) (p : Nat) : Nat :=
  let l := d.lport p
  (d.now - l.slot0) * 1000 * 2048 / (2049 * (if l.txw8 then 8500 else 4250))

/-- The first slot at or after the present one with given low bits (14 R601). -/
def lowSlot (slot : Nat) : Nat := slot % 2 ^ 24

/-- Sends a WAL item on an ACTIVE port: subtype, LANE, FROM, TO, SLOT. -/
def Dev.wal (d : Dev) (p sub lane a b slot : Nat) : Dev :=
  if d.active p then d.linkItem p (.lmgt p sub [lane, a, b, lowSlot slot]) else d

/-- The receive channel of a wavelength is locked and usable: its ring carries on its held code while it tracks (14 R601, 13 R560),
unless a full polish of it is in progress (15 R636). -/
def Dev.rxUsable (d : Dev) (p k : Nat) : Bool :=
  let g := d.ring (ringNo p 1 k)
  (g.st = .track || g.st = .locked) && !((d.chan (ringNo p 1 k)).polish.any fun q => q.full && decide (q.step ≠ .reserve))

/-- The bitmap of RXUSE. -/
def Dev.rxBits (d : Dev) (p : Nat) : BitVec 18 := BitVec.ofNat 18 (((List.range 18).filter (d.rxUsable p)).map fun k => 2 ^ k).sum

/-- Sends RXUSE when the bitmap has changed since the last one (14 R602). -/
def Dev.sendRxuse (d : Dev) (p : Nat) : Dev :=
  let v := d.rxBits p
  if d.active p && decide ((d.wport p).rxuseSent ≠ v) then
    (d.linkItem p (.lmgt p 9 [v.toNat])).setWport p fun w => { w with rxuseSent := v }
  else d

/-- The position that feeds wavelength `k` of a port is lit (14 R578). -/
def Dev.posLit (d : Dev) (p k : Nat) : Bool := (d.posn (18 * (p / 32) + k)).lit

/-- A usable free spare of the transmit direction (14 R599); the target of the move in progress is none. -/
def Dev.usable (d : Dev) (p k : Nat) : Bool :=
  let w := d.wport p
  decide (mapAt w.tx k = 0xFE) && d.posLit p k && decide ((d.ring (ringNo p 0 k)).st = .locked) && w.rxuse.getLsbD k
    && decide (w.reserved ≠ some k) && !(w.move.any fun m => decide (m.dest = k) && decide (m.kind ≠ .brk))

/-- The usable free spares, lowest first. -/
def Dev.spares (d : Dev) (p : Nat) : List Nat := (List.range 18).filter (d.usable p)

/-- Chooses the designated spare anew and announces a change with NEXT (14 R600); `taken` reports the loss of the last (R614). -/
def Dev.designate (d : Dev) (p : Nat) (taken : Bool) : Dev :=
  let old := (d.wport p).txNext
  let new := (d.spares p).head?
  let had := (d.wport p).noSpare
  let d := d.setWport p fun w => { w with txNext := new, noSpare := new.isNone, nextAcked := if new = old then w.nextAcked else false }
  let d := if new ≠ old then d.wal p 1 0 0x1F (new.getD 0x1F) 0 else d
  d.postIf (taken && new.isNone && !had) Src.walNospare p

/-! ### Polishes that end (15 R652 to R654) -/

/-- A polish ends without a record; its channel is due again. -/
def Dev.endPolish (d : Dev) (x : Nat) : Dev :=
  match (d.chan x).polish with
  | none => d
  | some q =>
    let b := x / 576
    let p := x / 36
    let d := d.setChan x fun c => { c with polish := none, due := true }
    let d := { d with
      cal.ended := satAdd 0xFFFF d.cal.ended
      cal.held := if Tab.look none b d.cal.held = some x then Tab.put none b none d.cal.held else d.cal.held }
    let d := (d.setRing x fun g => { g with calHold := false }).unhold x
    if q.resv && decide (x / 18 % 2 = 0) && decide ((d.wport p).reserved = some (x % 18)) then
      (d.setWport p fun w => { w with reserved := none }).designate p false
    else d

/-- The channels of a port with a polish in progress. -/
def Dev.polishing (d : Dev) (p : Nat) : List Nat :=
  ((List.range 36).map (36 * p + ·)).filter fun x => (d.chan x).polish.isSome

/-- Every polish of a port ends; an OPT_POLISH of it ends with it. -/
def Dev.endPolishes (d : Dev) (p : Nat) : Dev :=
  let b := p / 16
  let d := (d.polishing p).foldl Dev.endPolish d
  match Tab.look none b d.cal.cmd with
  | some (l, _) =>
    if l.any fun x => decide (x / 36 = p) then
      ({ d with cal.cmd := Tab.put none b none d.cal.cmd }).finishAccs (fun a => decide (a.opcode = 0x0B00) && decide (a.arg / 256 / 16 = b)) .aborted []
    else d
  | none => d

/-- A held step is ready to begin: SCAN or PEAK, and OFFSET. -/
def heldStep (q : Polish) : Bool := decide (q.step = .scan) || decide (q.step = .offset)

/-- The tile begins the next held step when none is in progress (R637): the ring of a SCAN or PEAK goes to HOLD. -/
def Dev.beginHeld (d : Dev) (b : Nat) : Dev :=
  if (Tab.look none b d.cal.held).isSome then d
  else
    match ((List.range 576).map (576 * b + ·)).find? fun x => (d.chan x).polish.any heldStep with
    | none => d
    | some x =>
      let d := { d with cal.held := Tab.put none b (some x) d.cal.held }
      if (d.chan x).polish.any fun q => decide (q.step = .scan) then (d.setRing x fun g => { g with calHold := true }).holdRing x else d

/-! ### Link training and reset (12 R522, R541 to R545) -/

/-- A transmit channel's polish no longer holds its port in DOWN: it has ended, or 6 ms have gone by (15 R635). -/
def Dev.polishWaited (d : Dev) (x : Nat) : Bool := (d.chan x).polish.all fun q => !q.full || decide (q.since + 6000000 ≤ d.now)

/-- The port may leave DOWN: its bring-up item has started (the Twin port: TWN_ENABLE), its tile is in service (04 R157), it is not darkened, and no full transmit
polish of its direction still holds it (12 R522, 15 R635, 16 R684, 18 R757). -/
def Dev.mayTrain (d : Dev) (p : Nat) : Bool :=
  if p = 64 then d.twn.enabled
  else !d.sec.tileOut.getLsbD (p / 16) && !(Tab.look {} (2 + p / 16) d.boot.dies).held && !(Tab.look {} (p / 16) d.fct.inner).lost.getLsbD (p % 16) && decide (Tab.look .notStarted 4 d.boot.items ≠ .notStarted) && !(d.lport p).dark && (List.range 18).all fun k => d.polishWaited (ringNo p 0 k)

/-- A training word of this end. -/
def Dev.train (d : Dev) (p kind : Nat) (w : TrainWord) : Dev := d.emit (.train p kind w)

/-- TS1 with the present round (12 R519). -/
def Dev.sendTs1 (d : Dev) (p : Nat) : Dev :=
  d.train p 1 { copies := 18, ident := d.fuses.dsn, port := p, round := (d.lport p).round }

/-- A port in DOWN goes to LIGHT when it may: the wavelengths of its transmit map carry training words (12 R522). -/
def Dev.tryLight (d : Dev) (p : Nat) : Dev :=
  if (d.lport p).st = .down && d.mayTrain p then
    let d := d.setLport p fun l => { l with st := .light, stAt := d.now, round := 0, count := 7, farTs3 := false }
    let d := if p < 64 then (List.range 18).foldl (fun (d : Dev) k => if mapAt (d.wport p).tx k < 16 then d.drive (ringNo p 0 k) true else d) d else d
    d.sendTs1 p
  else d

/-- The TX group domain of a port; its RX group's is 4 on (02 R58). -/
def groupDomain (p : Nat) : Nat := 54 + 11 * (p / 16) + 3 + p % 16 / 4

/-- A port that has been lit again leaves DOWN once its group domains are ON and its transmit rings with light are LOCKED (16 R685). -/
def Dev.releasePort (d : Dev) (p : Nat) : Dev :=
  if (d.lport p).dark && !d.pwr.dark.getLsbD p && decide (d.domain (groupDomain p) = 3) && decide (d.domain (groupDomain p + 4) = 3) && (List.range 18).all fun k =>
      let g := d.ring (ringNo p 0 k)
      decide (g.st = .locked) || decide (g.st = .failed) || !g.lit
  then (d.setLport p fun l => { l with dark := false }).tryLight p else d

/-- LINK_RESET of the port, or of a trunk whose members have all settled, ends (12 R541). -/
def Dev.settleReset (d : Dev) (p : Nat) : Dev :=
  let quiet (p : Nat) : Bool := (d.lport p).st = .active || (d.lport p).st = .failed || (d.lport p).dark
  d.finishAccs (fun a => decide (a.opcode = 0x0505) && a.objs.any fun o => match o with
    | .port q => decide (q = p) && quiet p
    | .trunk k => (d.members k).contains p && (d.members k).all quiet
    | _ => false) .ok []

/-- A packet sent and not acknowledged when its port goes down (12 R545). -/
def Dev.failUnacked (d : Dev) (x : PType × Pkt × Body) : Dev :=
  match clsOf x.1 x.2.2 with
  | .control => d
  | .request => d.answer x.2.1 .pathFailure
  | .response =>
    d.sendAway .rsp { x.2.1 with src := d.fab.node.getD 0, aux := Status.pathFailure.code, data := [], len := 0, hops := 0, ce := false, bad := false }

/-- The retraction of one forwarded packet (11 R481 to R483): its record goes, with its transit units and what it added to the egress queue, and a
retract follows its flits. -/
def Dev.retractOut (d : Dev) (u : Undo) : Dev :=
  let d := (d.dropUndo u).setLport u.outPort fun l => { l with queued := Tab.upd 0 u.vc (fun q => q - pktBytes u.pkt.1 u.pkt.2) l.queued }
  { d.linkItem u.outPort (.retract u.outPort u.vc u.outSeq) with fab.retractTx := satAdd 0x3FF d.fab.retractTx }

/-- Partly received packets of a port that a test names are retracted wherever they have been forwarded (11 R482, R483). -/
def Dev.retractIn (d : Dev) (p : Nat) (sel : Undo → Bool) : Dev :=
  (d.fab.undo.filter fun u => decide (u.inPort = p) && sel u).foldl Dev.retractOut d

/-- The packets this port was forwarding or receiving in cut-through, and those sent and unacknowledged, are settled (12 R544, R545, R527). -/
def Dev.settlePackets (d : Dev) (p : Nat) : Dev :=
  let d := (d.retractIn p fun _ => true).unfold p
  let cut := d.fab.undo.filter fun u => decide (u.outPort = p)
  let d := cut.foldl Dev.dropUndo d
  let sent := ((d.lport p).unacked.filterMap (·.whole)).filter fun x => !(cut.any fun u => decide (u.pkt.1 = x.1) && decide (u.pkt.2 = x.2.1))
  let d := d.setLport p fun l => { l with unacked := [] }
  sent.foldl Dev.failUnacked d

/-- Moves at LR (14 R621, R613): the lane stays where it was, or on the new wavelength once READY had come. -/
def Dev.endMoves (d : Dev) (p : Nat) : Dev :=
  let w := d.wport p
  let had := w.move.toList ++ w.waiting
  let d := match w.move with
    | some m =>
      if decide (m.kind ≠ MoveKind.brk) && m.ready then
        d.setWport p fun w => { w with tx := (w.tx.set m.from_ 0xFE).set m.dest m.lane }
      else if decide (m.kind ≠ MoveKind.brk) then d.drive (ringNo p 0 m.dest) false else d
    | none => d
  let d := d.setWport p fun w => { w with move := none, waiting := [], rxMove := none, reserved := none, nextAcked := false }
  let d := { d with cal.rsvAt := Tab.put 0 p 0 d.cal.rsvAt }
  if had.any fun m => decide (m.kind = .cmd) then
    d.finishAccs (fun a => decide (a.opcode = 0x0B03) && a.objs.contains (.port p)) .aborted []
  else d

/-- The port leaves ACTIVE: what is reported (12 R543, 11 R466, 21 R862). -/
def Dev.reportDown (d : Dev) (p : Nat) : Dev :=
  let covered := (d.trunkOf p).any fun k => (d.members k).any fun q => decide (q ≠ p) && d.active q
  let d := d.notice 0 { opcode := 0x05F0, notice := true, data := [p, 0] }
  (d.postIf (!covered) Src.lnkDown p).trace 0x0D 0xFF p 0xFFFF 0 none 0

/-- What LR leaves of a port: its counts, configuration and results of the last training (12, registers). -/
def LPort.cleared (l : LPort) : LPort :=
  { tries := if l.st = LSt.failed then 0 else l.tries, everUp := l.everUp, cfg := l.cfg, replays := l.replays, downs := l.downs, lastAtt := l.lastAtt,
    leftAt := l.leftAt, uncorr := l.uncorr, authfail := l.authfail, rxGood := l.rxGood, txGood := l.txGood, feccor := l.feccor, dark := l.dark }

/-- LR of a port (12 R542): both directions restart and the packets in flight are settled; it trains again when it may. -/
def Dev.linkReset (d : Dev) (p : Nat) : Dev :=
  let l := d.lport p
  let d := if p < 64 then (d.endPolishes p).endMoves p else d
  let d := (d.setLport p fun l => { l with st := .down, stAt := d.now }).settlePackets p
  let d := { d.setLport p fun _ => { l.cleared with leftAt := if l.st = .active then d.now else l.leftAt } with sec.keyx := Tab.put {} p {} d.sec.keyx }
  let d := if l.st = .active then d.reportDown p else d
  let d := d.finishAccs (fun a => decide (a.opcode = 0x0903) && a.objs.contains (.port p)) .aborted []
  ((d.loseNeighbour p).tryLight p).retryFab

/-! ### Moves (14 R603 to R620) -/

/-- The command of a move ends (14 R613). -/
def Dev.moveCmd (d : Dev) (p : Nat) (m : Move) (st : Status) : Dev :=
  if m.kind = .cmd then d.finishAccs (fun a => decide (a.opcode = 0x0B03) && a.objs.contains (.port p)) st [] else d

/-- The order in which waiting moves are taken (14 R616). -/
def MoveKind.rank : MoveKind → Nat
  | .brk => 0
  | .vacate => 1
  | .req => 1
  | .cmd => 2
  | .swap => 2

/-- A hitless move is withdrawn with CANCEL (14 R605, R618, R619). -/
def Dev.cancelMove (d : Dev) (p : Nat) (m : Move) : Dev :=
  let d := d.drive (ringNo p 0 m.dest) false
  (d.wal p 8 m.lane m.from_ m.dest 0).setWport p fun w => { w with move := none, cancels := satAdd 0x7F w.cancels }

/-- A lane goes to `dest` at once (14 R606): the map is marked, the new ring driven, a new spare chosen; the move lasts until READY. -/
def Dev.startBreak (d : Dev) (p : Nat) (m : Move) (dest : Nat) : Dev :=
  let d := d.setWport p fun w => { w with
    tx := w.tx.set dest m.lane, move := some { m with dest, dual := true, startAt := d.now } }
  ((d.drive (ringNo p 0 m.from_) false).drive (ringNo p 0 dest) true).designate p true

/-- A break move finds its spare (14 R600, R614): the designated one once its NEXT is acknowledged; without any usable spare the link
is told, and enters LR. -/
def Dev.breakNow (d : Dev) (p : Nat) (m : Move) : Dev :=
  let w := d.wport p
  match w.txNext with
  | some k =>
    if w.nextAcked && d.usable p k then d.startBreak p m k
    else if (d.spares p).isEmpty then d.linkReset p
    else d.setWport p fun w => { w with waiting := m :: w.waiting }
  | none => if (d.spares p).isEmpty then d.linkReset p else d.setWport p fun w => { w with waiting := m :: w.waiting }

/-- The wavelength `k` of a transmit direction is lost (14 R597, R606, R618, R619): `mark` is what its map entry becomes:
0xFF failed, or 0xFE while its position is only dark, where a port that is not ACTIVE keeps its map. -/
def Dev.loseWave (d : Dev) (p k mark : Nat) : Dev :=
  let w := d.wport p
  let lane := mapAt w.tx k
  let d := if lane = 0xFF || (decide (mark = 0xFE) && !d.active p) then d else d.setWport p fun w => { w with tx := w.tx.set k mark }
  if !d.active p || 16 ≤ lane then
    match w.move with
    | some m => if decide (m.kind ≠ .brk) && decide (m.dest = k) && d.active p then (d.cancelMove p m).moveCmd p m .aborted else d.designate p true
    | none => if d.active p then d.designate p true else d
  else
    let b : Move := { kind := .brk, lane, from_ := k, dest := 0x1F }
    match w.move with
    | none => d.breakNow p b
    | some m =>
      if m.kind = .brk then d.setWport p fun w => { w with waiting := w.waiting ++ [b] }
      else if m.from_ = k then (d.startBreak p { b with kind := .brk } m.dest).moveCmd p m .ok
      else
        let d := (d.cancelMove p m).setWport p fun w => { w with waiting := { m with slotN := none, slotM := none, ready := false, dual := false } :: w.waiting }
        d.breakNow p b

/-- A commanded channel has ended (15 R641): with the last, OPT_POLISH ends, OK when every polish was full. A channel whose ring fails ends
without one (log 40). -/
def Dev.endCmd (d : Dev) (x : Nat) (full : Bool) : Dev :=
  let b := x / 576
  match Tab.look none b d.cal.cmd with
  | some (l, all) =>
    if l.contains x then
      let rest := without x l
      let all := all && full
      let d := d.setChan x fun c => { c with cmd := false }
      if rest.isEmpty then
        ({ d with cal.cmd := Tab.put none b none d.cal.cmd }).finishAccs (fun a => decide (a.opcode = 0x0B00) && decide (a.arg / 256 / 16 = b))
          (if all then .ok else .noResource) []
      else { d with cal.cmd := Tab.put none b (some (rest, all)) d.cal.cmd }
    else d
  | none => d

/-- A ring becomes FAILED (13 R552, R554): its polish ends, and the allocator or the far end acts. -/
def Dev.failRing (d : Dev) (x cause src : Nat) : Dev :=
  let p := x / 36
  let k := x % 18
  let d := d.setRing x fun g => { g with st := .failed, cause, valid := false, target := none, calHold := false }
  let d := ((d.post src (x / 18)).endPolish x).endCmd x false
  if x / 18 % 2 = 0 then d.loseWave p k 0xFF
  else
    let lane := mapAt (d.wport p).rx k
    let d := d.sendRxuse p
    if lane < 16 then d.wal p 6 lane k 0x1F 0 else d

/-- A ring loses its light (13 R561, 15 R653). -/
def Dev.ringDark (d : Dev) (x : Nat) : Dev :=
  let d := (d.setRing x fun g => { g with lit := false }).holdRing x
  let d := d.endPolish x
  if x / 18 % 2 = 1 then d.sendRxuse (x / 36) else d

/-- A ring has light again. -/
def Dev.ringLight (d : Dev) (x : Nat) : Dev :=
  let d := (d.setRing x fun g => { g with lit := true }).unhold x
  if x / 18 % 2 = 1 then d.sendRxuse (x / 36) else d

/-- The 32 ports a Ruby feeds (14 R578). -/
def feeds (n : Nat) : List Nat := (List.range 32).map (32 * n + ·)

/-- A position is not lit any more (13 R561, 14 R606): its transmit rings hold, and its lanes take break moves. -/
def Dev.posDark (d : Dev) (n k mark : Nat) : Dev :=
  let d := d.setPosn (18 * n + k) fun q => { q with lit := false }
  let d := (feeds n).foldl (fun (d : Dev) p => d.ringDark (ringNo p 0 k)) d
  (feeds n).foldl (fun (d : Dev) p => d.loseWave p k mark) d

end Sys2Proof.Machine
end

