-- ==== Sys2Proof/Machine/Link.lean ====
section
/-! DEFINITION. Optical links (12), and the Twin port, which runs the same link layer (18 R751). -/

namespace Sys2Proof.Machine

/-! ### Keys (19 R797, R798; 12 R536, R537) -/

/-- MODE of the security module (19, mode table). -/
def SMode.code : SMode → Nat
  | .approved => 0
  | .nonApproved => 1
  | .error => 2

/-- Keys can be made: the module is not in error mode, and the DRBG runs (19 R818). -/
def Dev.keyService (d : Dev) : Bool := decide (d.sec.mode ≠ .error) && !d.sec.drbgHalt

/-- The device's chain leaves in its fragments (19 R797, R798). -/
def Dev.sendChain (d : Dev) (p : Nat) : Dev :=
  let fs := fragments 10 Config.chain
  fs.zipIdx.foldl (fun (d : Dev) x => d.linkItem p (.keymsg p 2 x.2 fs.length x.1)) d

/-- On entering KEYING each end sends HELLO and then CERT (19 R798); in error mode no key service runs. -/
def Dev.keyStart (d : Dev) (p : Nat) : Dev :=
  if !d.keyService then d
  else
    let (nonce, d) := d.rand 256
    let (priv, d) := d.rand 384
    let h : KeyHello := { nonce, eph := Config.ecPublic priv, ident := d.fuses.dsn, port := p, mode := d.sec.mode.code, fschk := fsCheck d.secNv.fs }
    let d := { d with sec.keyx := Tab.put {} p { own := h, priv, sent := true } d.sec.keyx }
    (d.linkItem p (.keymsg p 1 0 1 (helloData h))).sendChain p

/-- A direction starts to rekey: REKEY goes out under the current key (12 R537, 19 R800). -/
def Dev.rekey (d : Dev) (p : Nat) : Dev :=
  if d.active p && !(d.lport p).rekeying && d.keyService then
    let (nonce, d) := d.rand 256
    let (priv, d) := d.rand 384
    let d := { d with sec.keyx := Tab.upd {} p (fun x => { x with rekeyTx := some (nonce, priv) }) d.sec.keyx }
    (d.setLport p fun l => { l with rekeying := true }).linkItem p (.keymsg p 5 0 1 (rekeyData nonce (Config.ecPublic priv)))
  else d

/-- SEC_REKEY of a port ends once both directions have switched since it began (19 R794). -/
def Dev.checkRekeyed (d : Dev) (p : Nat) : Dev :=
  let x := Tab.look {} p d.sec.keyx
  d.finishAccs (fun a => decide (a.opcode = 0x0903) && a.objs.contains (.port p)
    && decide (a.arg / 2 ^ 32 < x.genTx) && decide (a.arg % 2 ^ 32 < x.genRx)) .ok []

/-! ### Retry (R524 to R530) -/

/-- ACK_TO in ns (LNK_CFG; 0 acts as 1). -/
def LPort.ackTo (l : LPort) : Nat := 1000 * max 1 (l.cfg.toNat / 4 % 64)

/-- The port is down under R530. -/
def Dev.budgetDown (d : Dev) (p : Nat) : Dev := (d.setLport p fun l => { l with downs := satAdd 0xFF l.downs }).linkReset p

/-- Replays every unacknowledged flit (R529); the ninth replay of an episode takes the port down (R530). -/
def Dev.replay (d : Dev) (p : Nat) : Dev :=
  let l := d.lport p
  match l.unacked with
  | [] => d
  | f :: _ =>
    let (start, first, n) := match l.episode with | some (t, s, n) => (t, s, n + 1) | none => (d.now, f.seq, 1)
    if 9 ≤ n then d.budgetDown p
    else
      (d.setLport p fun l => { l with
        replays := satAdd 0xFFFF l.replays, lastAtt := n, episode := some (start, first, n)
        unacked := l.unacked.map fun x => { x with sentAt := d.now } }).emit (.linkResend p f.seq)

/-- Items that waited for room in the retry buffer leave. -/
def Dev.flushItems (d : Dev) (p : Nat) : Dev :=
  let q := (d.lport p).lmq
  q.foldl (fun (d : Dev) o => d.linkItem p o) (d.setLport p fun l => { l with lmq := [] })

/-- The flits an ACK covers leave the retry buffer (R524). -/
def afterAck (a : Nat) (l : List LTx) : List LTx :=
  match l.findIdx? fun x => decide (x.seq = a) with
  | some i => l.drop (i + 1)
  | none => l

/-- A NEXT item has been acknowledged: the designated spare may serve break moves, and one that waits for it goes (14 R600). -/
def Dev.nextAck (d : Dev) (p : Nat) (gone : List LTx) : Dev :=
  let w := d.wport p
  if gone.any fun x => decide (x.item = some (.lmgt p 1 [0, 0x1F, w.txNext.getD 0x1F, 0])) then
    let d := d.setWport p fun w => { w with nextAcked := true }
    match w.move, w.waiting with
    | none, m :: r => if m.kind = .brk then (d.setWport p fun w => { w with waiting := r }).breakNow p m else d
    | _, _ => d
  else d

/-- An ACK (R524, R530). -/
def Dev.takeAck (d : Dev) (p a : Nat) : Dev :=
  let old := (d.lport p).unacked
  let rest := afterAck a old
  let d := d.setLport p fun l => { l with
    unacked := rest
    episode := l.episode.filter fun e => rest.any fun x => decide (x.seq = e.2.1) }
  ((d.nextAck p (old.take (old.length - rest.length))).flushItems p)

/-- A NAK (R529): ignored while a replay for the same ACK is younger than ACK_TO. -/
def Dev.takeNak (d : Dev) (p a : Nat) : Dev :=
  let l := d.lport p
  if l.nakAt.any fun x => decide (x.1 = a) && decide (d.now < x.2 + l.ackTo) then d
  else (d.setLport p fun l => { l with nakAt := some (a, d.now) }).replay p

/-- A flit has been unacknowledged for ACK_TO (R529). -/
def Dev.ackLate (d : Dev) (p : Nat) : Bool := (d.lport p).unacked.head?.any fun x => decide (x.sentAt + (d.lport p).ackTo ≤ d.now)

/-- LINK_ACK_TIMEOUT (R529). -/
def execLinkAckTimeout (p : Nat) (s : State) : R := s.runIf (Unit.linkPort p) fun d => if d.ackLate p then (d.replay p).settle else d

/-- The retry episode of a port has lasted 50 µs (R530). -/
def Dev.budgetSpent (d : Dev) (p : Nat) : Bool := (d.lport p).episode.any fun e => decide (e.1 + 50000 ≤ d.now)

/-- RETRY_BUDGET_EXPIRY (R530). -/
def execRetryBudgetExpiry (p : Nat) (s : State) : R := s.runIf (Unit.linkPort p) fun d => if d.budgetSpent p then (d.budgetDown p).settle else d

/-! ### Reception (R505 to R508, R512, R517, R526 to R528, R532, R538, R540) -/

/-- ACK of this end: the last SEQ accepted, held before the first flit of the oldest packet partly received (R526). -/
def LPort.ackSeq (l : LPort) : Nat :=
  let age := (l.parts.map fun x => (l.rxNext + 4096 - x.2) % 4096).foldl max 0
  (l.rxNext + 8191 - age) % 4096

/-- A flit is bad or out of sequence (R527): partial packets go, with what was forwarded of them, and NAK is sent until the expected
SEQ arrives. They keep their buffer units, so that their replay uses no credits again; packets accepted whole since are remembered (R528). -/
def Dev.badFlit (d : Dev) (p : Nat) : Dev :=
  let l := d.lport p
  let d := (d.retractIn p fun _ => true).unfold p
  let d := d.setLport p fun l => { l with rxNext := (l.ackSeq + 1) % 4096, parts := [], kept := l.kept ++ l.parts.map (fun x => 4096 * x.1 + x.2), nak := true }
  if l.nak then d else d.emit (.linkNak p l.ackSeq)

/-- A packet's bytes in an accepted DATA flit (R505, R526, R528); its credits are used by its first flit (R532). -/
def LPort.takeData (l : LPort) (f : LinkFlit) : LPort :=
  let open_ := l.parts.find? fun x => decide (x.1 = f.vc)
  let parts := if 0 < f.data.ends then l.parts.filter fun x => decide (x.1 ≠ f.vc) else l.parts
  let done := match open_ with | some x => if 0 < f.data.ends then [4096 * x.1 + x.2] else [] | none => []
  let accepted := l.accepted ++ done
  let key := 4096 * f.vc + f.seq
  let fresh := f.data.starts && !accepted.contains key
  let parts := if fresh && !(parts.any fun x => decide (x.1 = f.vc)) then parts ++ [(f.vc, f.seq)] else parts
  { l with parts, accepted := if parts.isEmpty then [] else accepted, kept := without key l.kept
           rxCons := if fresh && !l.kept.contains key then Tab.upd 0 f.vc (fun c => (c + f.data.credits) % 4096) l.rxCons else l.rxCons }

/-- Entry into ACTIVE (R522, R543; 11 R448, 14 R600, R602, 15 R631). -/
def Dev.goActive (d : Dev) (p : Nat) : Dev :=
  let d := d.setLport p fun l => { l with st := .active, stAt := d.now, everUp := true, tries := 0 }
  let d := (d.notice 0 { opcode := 0x05F0, notice := true, data := [p, 1] }).trace 0x0D 0xFF p 0xFFFF 0 none 1
  let d := if p < 64 then
      let d := d.sendHello p
      let v := d.rxBits p
      let d := (d.linkItem p (.lmgt p 9 [v.toNat])).setWport p fun w => { w with rxuseSent := v }
      let d := d.wal p 1 0 0x1F ((d.wport p).txNext.getD 0x1F) 0
      (List.range 18).foldl (fun (d : Dev) k => d.setChan (ringNo p 1 k) fun c => if c.temp.isNone then { c with due := true } else c) d
    else d
  d.settleReset p

/-- Corrected symbols count, and against the wavelength of their lane (LNK_FECCOR; 15 R643). -/
def Dev.countFec (d : Dev) (p : Nat) (bytes : List Nat) : Dev :=
  let l := d.lport p
  let d := d.setLport p fun l => { l with feccor := min (2 ^ 31 - 1) (l.feccor + bytes.length) }
  if p = 64 then d
  else bytes.foldl (fun (d : Dev) b =>
    match laneAt (d.wport p).rx (if l.rxw8 then b / 34 else b / 17) with
    | some k => d.setChan (ringNo p 1 k) fun c => { c with fec := c.fec + 1 }
    | none => d) d

/-- LEN of a Twin message is right for its MTYPE, and the MTYPE is known (18 R753, R754). -/
def twinLenOk (m : Nat × Nat) : Bool :=
  match m.1 with
  | 0x01 => decide (m.2 = 64)
  | 0x02 | 0x03 | 0x11 | 0x24 => decide (m.2 = 0)
  | 0x10 => decide (m.2 % 16 = 0) && decide (m.2 ≤ 4104)
  | 0x12 => decide (m.2 ≤ 4096)
  | 0x20 | 0x26 => decide (m.2 = 4104)
  | 0x21 | 0x23 | 0x25 => decide (m.2 = 8)
  | 0x22 => decide (m.2 ≤ 4104)
  | _ => false

/-- A flit that passed its checks (R526, R532, R535, R536, R538). A message of an unknown type or a wrong length takes the Twin port down (18 R754). -/
def Dev.goodFlit (d : Dev) (p : Nat) (f : LinkFlit) (switch : Bool) : Dev :=
  let d := if switch then
      ({ d.setLport p fun l => { l with kgenRx := f.kgen, rxc := f.txc8 + 1, nextKey := false } with
        sec.keyx := Tab.upd {} p (fun x => { x with keyRx := x.nextRx, genRx := x.genRx + 1 }) d.sec.keyx }).checkRekeyed p
    else d
  let d := d.setLport p fun l => { l with encRx := l.encRx || f.enc, ccum := Tab.put 0 f.cvc f.ccum l.ccum }
  let d := d.takeAck p f.ack
  let d := if f.nak then d.takeNak p f.ack else d
  let l := d.lport p
  let d := if decide (l.st = .keying) && l.encTx && l.encRx then d.goActive p else d
  let d := if f.ftype = 1 || ((d.lport p).st ≠ .active && (d.lport p).st ≠ .keying) then d
    else if f.seq = (d.lport p).rxNext then
      let d := d.setLport p fun l =>
        let l := if f.ftype = 0 then l.takeData f else l
        { l with rxNext := (l.rxNext + 1) % 4096, nak := false }
      let d := d.postIf (decide (f.ftype = 2) && f.items.contains .undefined) Src.lnkProto p
      if decide (p = 64) && decide (f.ftype = 0) && !f.data.msgs.all twinLenOk then (d.post Src.twnProto 0).linkReset 64 else d
    else d.badFlit p
  (d.advertise p).retryFab

/-- A tag or CRC failure after clean FEC; sixteen tag failures in 1 ms cause LR (R540). -/
def Dev.tagFail (d : Dev) (p : Nat) (enc : Bool) : Dev :=
  let d := d.setLport p fun l => { l with
    authfail := satAdd 0xFFF l.authfail
    authAt := if enc then (l.authAt.filter fun t => decide (d.now < t + 1000000)) ++ [d.now] else l.authAt }
  if enc && decide (16 ≤ (d.lport p).authAt.length) then (d.post Src.lnkAuth p).linkReset p else d.badFlit p

/-- A flit in KEYING or ACTIVE: FEC, then the counter, the tag, the header and what it carries. -/
def Dev.linkFlit (d : Dev) (p : Nat) (f : LinkFlit) : Dev :=
  let l := d.lport p
  let d := d.setLport p fun l => { l with lslotRx := (l.lslotRx + 1) % 2 ^ 48, rxc := if l.encRx || f.enc then l.rxc + 1 else l.rxc }
  if !f.fecOk then (d.setLport p fun l => { l with uncorr := satAdd 0xFFFF l.uncorr }).badFlit p
  else
    let d := d.countFec p f.corrected
    let switch := f.enc && l.encRx && decide (f.kgen ≠ l.kgenRx) && l.nextKey
    if f.enc && !switch && decide (f.txc8 ≠ l.rxc % 256) then (d.post Src.lnkAlign p).linkReset p
    else if !f.tagOk || (f.enc && !(Tab.look {} p d.sec.keyx).installed) || (f.enc && !switch && decide (f.kgen ≠ l.kgenRx)) then d.tagFail p f.enc
    else if decide (2 < f.ftype) || (decide (f.ftype = 0) && !f.enc) || (l.encRx && !f.enc) then d.badFlit p
    else d.goodFlit p f switch

/-- LINK_FLIT_RX (R504 to R508, R512, R517, R526 to R528, R532, R535, R536, R538, R540). -/
def execLinkFlitRx (p : Nat) (f : LinkFlit) (s : State) : R := s.runIf (Unit.linkPort p) fun d =>
  if (d.lport p).st ≠ .keying && (d.lport p).st ≠ .active then d else (d.linkFlit p f).settle

/-- Lanes of a skip slot that name another lane than the map has, but for the designated spare and a move's new wavelength (R517, 14 R604). -/
def Dev.wrongLanes (d : Dev) (p : Nat) (lanes : List (Nat × Nat)) : List (Nat × Nat) :=
  let w := d.wport p
  lanes.filter fun x =>
    if p = 64 then decide (x.1 ≠ x.2)
    else decide (mapAt w.rx x.1 ≠ x.2) && decide (w.rxNext ≠ some x.1) && !(w.rxMove.any fun m => decide (m.2.2.1 = x.1))

/-- A lane found on the designated spare: a break move of the far end (14 R607). -/
def Dev.foundBreak (d : Dev) (p : Nat) (lanes : List (Nat × Nat)) : Option (Nat × Nat) :=
  let w := d.wport p
  if p = 64 then none else lanes.find? fun x => decide (w.rxNext = some x.1) && decide (mapAt w.rx x.1 ≠ x.2) && decide (x.2 < 16)

/-- The port's lanes are not where its map has them: LR, and each such ring seeks again (R517; 13 R552). -/
def Dev.mapFault (d : Dev) (p : Nat) (wrong : List (Nat × Nat)) : Dev :=
  let d := (d.post Src.lnkMap p).linkReset p
  if p = 64 then d
  else wrong.foldl (fun (d : Dev) x =>
    let n := ringNo p 1 x.1
    if (d.ring n).st = .track || (d.ring n).st = .locked then
      (match d.predicted n with | some c => d.moveCode n c | none => d).seek n
    else d) d

/-- The receiver takes a lane from the designated spare (14 R607). -/
def Dev.takeBreak (d : Dev) (p k lane : Nat) : Dev :=
  let d := d.setWport p fun w => { w with
    rx := (match laneAt w.rx lane with | some o => w.rx.set o 0xFE | none => w.rx).set k lane, rxNext := none }
  d.wal p 3 lane 0x1F k ((d.lport p).lslotRx + 1)

/-- Skip slots in a row that three quarters of the lanes or more missed, this one included (R517). -/
def LPort.skipRun (l : LPort) (n : Nat) : Nat :=
  let width := if l.rxw8 then 8 else 16
  if width * 3 / 4 ≤ width - n then l.skipMiss + 1 else 0

/-- SKIP_SLOT_RX (R515, R517, R518; 14 R604, R607; 13, a ring locked to a neighbour). -/
def execSkipSlotRx (p : Nat) (lanes : List (Nat × Nat)) (s : State) : R := s.runIf (Unit.linkPort p) fun d =>
  if (d.lport p).st ≠ .keying && (d.lport p).st ≠ .active then d
  else
    let miss := (d.lport p).skipRun lanes.length
    let d := d.setLport p fun l => { l with skipMiss := miss }
    (if 2 ≤ miss then (d.post Src.lnkAlign p).linkReset p
    else if !(d.wrongLanes p lanes).isEmpty then d.mapFault p (d.wrongLanes p lanes)
    else match d.foundBreak p lanes with | some (k, lane) => d.takeBreak p k lane | none => d).settle

/-! ### Training (R519 to R522) -/

/-- A training word is accepted when at least four wavelengths carry it alike (R520). -/
def TrainOk (w : TrainWord) : Bool := decide (4 ≤ w.copies)

/-- The port's failure to train is reported: while EXPECT is 1, and always for the Twin port, which has no LNK_CFG (R522, 18 R751). -/
def Dev.failTrain (d : Dev) (p : Nat) : Dev :=
  let d := d.setLport p fun l => { l.cleared with st := .failed, stAt := d.now, tries := l.tries }
  let d := { d with sec.keyx := Tab.put {} p {} d.sec.keyx }
  (d.postIf (decide (p = 64) || (d.lport p).cfg.getLsbD 1) Src.lnkTrain p).settleReset p

/-- The receive map as a training word's lane identifiers show it (R519, 14 Model): 0x1E a free spare, 0x1F not carrying. -/
def Dev.learnMap (d : Dev) (p : Nat) (w : TrainWord) : Dev :=
  d.setWport p fun x => { x with rx := w.map.foldl (fun m e => m.set e.1 (if e.2 < 16 then e.2 else if e.2 = 0x1E then 0xFE else 0xFF)) x.rx }

/-- The port enters IDENT (R521, R522). -/
def Dev.toIdent (d : Dev) (p : Nat) (w : TrainWord) : Dev :=
  let d := d.setLport p fun l => { l with st := .ident, stAt := d.now, peerPort := w.port, peerId := w.ident, round := w.round, count := 7, farTs3 := false }
  if p < 64 then d.learnMap p w else d

/-- LINK_LIGHT_LOCK (R522): eight or more wavelengths lock and TS1 is accepted. -/
def execLinkLightLock (p locked copies : Nat) (w : TrainWord) (s : State) : R := s.runIf (Unit.linkPort p) fun d =>
  if decide ((d.lport p).st = .light) && decide (8 ≤ locked) && decide (4 ≤ copies) then d.toIdent p { w with round := max w.round (d.lport p).round } else d

/-- Wavelengths that pass: at most 32 bit errors, and every training word intact (R521). -/
def passed (checks : List (Nat × Nat × Bool)) : BitVec 18 :=
  let good := checks.filter fun c => decide (c.2.1 ≤ 32) && c.2.2
  BitVec.ofNat 18 ((List.range 18).map fun k => if good.any fun c => decide (c.1 = k) then 2 ^ k else 0).sum

/-- IDENT_CHECK_DONE (R521): wavelengths pass with at most 32 bit errors and every training word intact; on the Twin port a lane that
fails fails the port (18 R751). -/
def execIdentCheckDone (p : Nat) (checks : List (Nat × Nat × Bool)) (s : State) : R := s.runIf (Unit.linkPort p) fun d =>
  if (d.lport p).st ≠ .ident then d
  else
    let bits := passed checks
    let d := d.setLport p fun l => { l with rxGood := bits }
    if p = 64 && !((List.range 8).all fun k => bits.getLsbD k) then (d.failTrain p).settle
    else (d.setLport p fun l => { l with st := .report, stAt := d.now }).train p 2 { copies := 18, round := (d.lport p).round, rxgood := bits }

/-- A passed wavelength a lane can go to in a direction of `n` lanes: a free one, else, at width 8, that of a lane the width leaves out
(R522; log 45). -/
def freeWave (n : Nat) (good : BitVec 18) (m : List Nat) : Option Nat :=
  ((List.range 18).find? fun k => decide (mapAt m k = 0xFE) && good.getLsbD k).or
    ((List.range 18).find? fun k => decide (n ≤ mapAt m k) && decide (mapAt m k < 16) && good.getLsbD k)

/-- Puts the lanes of a list on passed wavelengths (R522). -/
def placeLanes (n : Nat) (good : BitVec 18) : List Nat → List Nat → Option (List Nat)
  | m, [] => some m
  | m, l :: r =>
    match laneAt m l with
    | some k =>
      if good.getLsbD k then placeLanes n good m r
      else match freeWave n good m with | some q => placeLanes n good ((m.set k 0xFE).set q l) r | none => none
    | none => match freeWave n good m with | some q => placeLanes n good (m.set q l) r | none => none

/-- The map with the wavelengths marked that this end lights but the far end reports failed (14 R597; log 45). -/
def Dev.markWaves (d : Dev) (p : Nat) (good : BitVec 18) (m : List Nat) : List Nat :=
  (List.range 18).foldl (fun m k =>
    if !good.getLsbD k && d.posLit p k && decide ((d.ring (ringNo p 0 k)).st = .locked) then m.set k 0xFF else m) m

/-- The transmit map of a port with its failed wavelengths marked. -/
def Dev.putMap (d : Dev) (p : Nat) (good : BitVec 18) (m : List Nat) : Dev :=
  d.setWport p fun w => { w with tx := d.markWaves p good m }

/-- The port enters READY: TS3 with COUNT 7 (R522). -/
def Dev.toReady (d : Dev) (p : Nat) (w8 : Bool) : Dev :=
  let d := d.setLport p fun l => { l with st := .ready, stAt := d.now, txw8 := w8, count := 7, farTs3 := false }
  d.train p 3 { copies := 18, count := 7, width := if w8 then 8 else 16, rxgood := (d.lport p).rxGood, round := (d.lport p).round }

/-- The far end's report decides (R522). -/
def Dev.decideWidth (d : Dev) (p : Nat) (good : BitVec 18) : Dev :=
  let d := d.setLport p fun l => { l with txGood := good }
  if p = 64 then
    if (List.range 8).all fun k => good.getLsbD k then d.toReady p true else d.failTrain p
  else
    let m := (d.wport p).tx
    if (List.range 16).all fun l => (laneAt m l).any fun k => good.getLsbD k then (d.putMap p good m).toReady p false
    else
      match (if (d.lport p).round < 2 then placeLanes 16 good m (List.range 16) else none) with
      | some m' => ((d.putMap p good m').setLport p fun l => { l with st := .light, stAt := d.now, round := l.round + 1 }).sendTs1 p
      | none =>
        match placeLanes 8 good m (List.range 8) with
        | some m' => ((d.putMap p good m').post Src.lnkNarrow p).toReady p true
        | none => (d.putMap p good m).failTrain p

/-- A training word in KEYING or ACTIVE causes LR (R541). A TS3 with COUNT 0 that still arrives in KEYING belongs to the countdown. -/
def Dev.strayWord (d : Dev) (p : Nat) : Dev :=
  if (d.lport p).st = .keying || (d.lport p).st = .active then d.linkReset p else d

/-- TS1_RX (R522, R541). -/
def execTs1Rx (p : Nat) (w : TrainWord) (s : State) : R := s.runIf (Unit.linkPort p) fun d =>
  let l := d.lport p
  if !TrainOk w then d
  else if decide (l.round < w.round) && (decide (l.st = .light) || decide (l.st = .ident) || decide (l.st = .report) || decide (l.st = .ready)) then
    (d.toIdent p w).sendTs1 p
  else (d.strayWord p).settle

/-- TS2_RX (R522, R541). -/
def execTs2Rx (p : Nat) (w : TrainWord) (s : State) : R := s.runIf (Unit.linkPort p) fun d =>
  let l := d.lport p
  if !TrainOk w then d
  else if decide (l.st = .report) && decide (l.round = w.round) then (d.decideWidth p w.rxgood).settle
  else (d.strayWord p).settle

/-- KEYING: flit slot 0 in each direction (R516, R522, R532, R536). -/
def Dev.toKeying (d : Dev) (p : Nat) : Dev :=
  (d.setLport p fun l => { l with
    st := .keying, stAt := d.now, encTx := false, encRx := false, slot0 := d.now, keyAt := d.now, rxc := 0, lslotRx := 0, txNext := 0, rxNext := 0, unacked := [], lmq := [],
    cons := [], ccum := creditStart p, released := creditStart p, rxCons := [], kept := [], queued := [], kgenTx := false, kgenRx := false, skipMiss := 0 }).keyStart p

/-- The countdown in READY (R522): the far end's first TS3 starts it, its COUNT 0 ends it. -/
def Dev.countdown (d : Dev) (p : Nat) (w : TrainWord) : Dev :=
  let l := d.lport p
  let d := d.setLport p fun l => { l with rxw8 := decide (w.width = 8), farTs3 := true, count := 0 }
  let d := if l.farTs3 then d
    else [6, 5, 4, 3, 2, 1, 0].foldl (fun (d : Dev) c =>
      d.train p 3 { copies := 18, count := c, width := if l.txw8 then 8 else 16, rxgood := l.rxGood, round := l.round }) d
  if w.count = 0 then d.toKeying p else d

/-- TS3_RX (R522, R541). -/
def execTs3Rx (p : Nat) (w : TrainWord) (s : State) : R := s.runIf (Unit.linkPort p) fun d =>
  let l := d.lport p
  if !TrainOk w then d
  else if decide (l.st = .report) && decide (l.round = w.round) then
    let d := d.decideWidth p w.rxgood
    (if (d.lport p).st = .ready then d.countdown p w else d).settle
  else if l.st = .ready then d.countdown p w
  else if decide (l.st = .keying) && decide (w.count = 0) then d
  else (d.strayWord p).settle

/-- How long a training state may last, in ns (R522); the others have no limit. -/
def stateLimit : LSt → Option Nat
  | .light => some 2000000
  | .ident => some 200000
  | .report => some 1000000
  | .ready => some 100000
  | .keying => some 3000000
  | _ => none

/-- The time in its state exceeds the limit of R522. -/
def Dev.stateLate (d : Dev) (p : Nat) : Bool := (stateLimit (d.lport p).st).any fun n => decide ((d.lport p).stAt + n < d.now)

/-- LINK_STATE_TIMEOUT (R522). -/
def execLinkStateTimeout (p : Nat) (s : State) : R := s.runIf (Unit.linkPort p) fun d =>
  let l := d.lport p
  if !d.stateLate p then d
  else
    let d := d.setLport p fun l => { l with tries := min 3 (l.tries + 1) }
    if 3 ≤ l.tries + 1 then (d.failTrain p).settle
    else (({ d with sec.keyx := Tab.put {} p {} d.sec.keyx }.setLport p LPort.cleared).tryLight p).settle

/-- LINK_FAILED_RETRY (R522): 1 s in FAILED with AUTO. -/
def execLinkFailedRetry (p : Nat) (s : State) : R := s.runIf (Unit.linkPort p) fun d =>
  if decide ((d.lport p).st = .failed) && (d.lport p).cfg.getLsbD 0 && decide ((d.lport p).stAt + 1000000000 ≤ d.now) then
    (d.setLport p fun l => { l with st := .down, stAt := d.now, tries := 0 }).tryLight p
  else d

/-- LINK_RESET_EVENT (R541 to R545). -/
def execLinkResetEvent (p : Nat) (s : State) : R := s.runIf (Unit.linkPort p) fun d => (d.linkReset p).settle

/-! ### Items (R534 to R539) -/

/-- The packet of an undo record came in on a VC from a link sequence on (11 R481); a record without one is known by its VC, which carries one
packet at a time (R505). -/
def Undo.cameAs (u : Undo) (vc seq : Nat) : Bool := decide (u.inVc = vc) && u.inSeq.all fun s => decide (s = seq)

/-- LMGT_RETRACT (R534; 11 R483, 10 R435). -/
def execLmgtRetract (p vc seq : Nat) (s : State) : R := s.runIf (Unit.linkPort p) fun d =>
  if (d.lport p).parts.contains (vc, seq) || d.fab.undo.any fun u => decide (u.inPort = p) && u.cameAs vc seq then
    let d := d.setLport p fun l => { l with parts := l.parts.filter fun x => decide (x ≠ (vc, seq)) }
    let d := { d.retractIn p (fun u => u.cameAs vc seq) with fab.retractRx := satAdd 0x3FF d.fab.retractRx }
    ((if vcClass vc = .request then d.unfold p else d).advertise p).settle
  else { d with fab.stale := satAdd 0x3FF d.fab.stale }

/-- LMGT_REKEY_READY (R536, R537): in KEYING the next flit is encrypted under generation 0; later the next generation is used. -/
def execLmgtRekeyReady (p : Nat) (par : Bool) (s : State) : R := s.runIf (Unit.linkPort p) fun d =>
  let l := d.lport p
  if l.st = .keying then
    if par then d
    else
      let d := d.setLport p fun l => { l with encTx := true, kgenTx := false, keyAt := d.now }
      (if (d.lport p).encRx then d.goActive p else d).settle
  else if decide (l.st = .active) && l.rekeying && decide (par ≠ l.kgenTx) then
    ({ d.setLport p fun l => { l with kgenTx := par, rekeying := false, keyAt := d.now } with
      sec.keyx := Tab.upd {} p (fun x => { x with keyTx := x.nextTx, genTx := x.genTx + 1 }) d.sec.keyx }).checkRekeyed p
  else d

/-- TXC (R508): flit slots sent under the present key, skip slots not among them; it counts replays and IDLE flits too. -/
def Dev.txc (d : Dev) (p : Nat) : Nat :=
  let l := d.lport p
  (d.now - l.keyAt) * 1000 * 2048 / (2049 * (if l.txw8 then 8500 else 4250))

/-- REKEY_LOG2 of LNK_CFG, from 32 to 40 (R537). -/
def LPort.rekeyLog2 (l : LPort) : Nat := min 40 (max 32 (l.cfg.toNat / 2 ^ 8 % 64))

/-- REKEY_THRESHOLD (R537). -/
def execRekeyThreshold (p : Nat) (s : State) : R := s.runIf (Unit.linkPort p) fun d =>
  if 2 ^ (d.lport p).rekeyLog2 ≤ d.txc p then d.rekey p else d

/-- REKEY_OVERDUE (R539): the switch has not been made when TXC reaches twice the threshold's power. -/
def execRekeyOverdue (p : Nat) (s : State) : R := s.runIf (Unit.linkPort p) fun d =>
  if d.active p && (d.lport p).rekeying && decide (2 ^ ((d.lport p).rekeyLog2 + 1) ≤ d.txc p) then ((d.post Src.lnkRekey p).linkReset p).settle else d

/-! ### Counters (R546) -/

/-- LNK_RETRY_CLR. -/
def execLnkRetryClr (p : Nat) (s : State) : R := s.runIf (Unit.linkPort p) fun d => d.mmio 0 fun d => d.setLport p fun l => { l with replays := 0, downs := 0 }

/-- LNK_ERR_CLR. -/
def execLnkErrClr (p : Nat) (s : State) : R := s.runIf (Unit.linkPort p) fun d => d.mmio 0 fun d => d.setLport p fun l => { l with uncorr := 0, authfail := 0 }

/-- LNK_FECCOR_CLR. -/
def execLnkFeccorClr (p : Nat) (s : State) : R := s.runIf (Unit.linkPort p) fun d => d.mmio 0 fun d => d.setLport p fun l => { l with feccor := 0 }

end Sys2Proof.Machine
end

