-- ==== Sys2Proof/Machine/Rings.lean ====
section
/-! DEFINITION. Rings, heaters and receive correction (13). -/

namespace Sys2Proof.Machine

/-- Ring number of ring r of Beryl b. -/
def berylRing (b r : Nat) : Nat := 576 * b + r

/-- A ring that is OFF takes its dither slot and seeks from the predicted code; without a record from its present code (R552, R553, R556; 15 R650). -/
def Dev.enableRing (d : Dev) (x : Nat) : Dev :=
  if (d.ring x).st = .off then ((match d.predicted x with | some c => d.moveCode x c | none => d).takeDither x).seek x else d

/-- RING_ENABLE (R552, R553); while its tile is being warmed no ring seeks (16 R697). -/
def execRingEnable (b r : Nat) (s : State) : R := s.runIf (Unit.tile b && Unit.ring r) fun d =>
  if Tab.look false b d.thm.warming then d else d.enableRing (berylRing b r)

/-- The half-window of a seek in GHz: SEEK_WIN × 4, and half as wide again at the second attempt (R552, R553). -/
def Dev.seekGhz (d : Dev) (x : Nat) : Nat :=
  let w := 4 * ((d.brl (x / 576)).lcfg2.toNat / 2 ^ 16 % 256)
  if (d.ring x).tries = 0 then w else w + w / 2

/-- RING_SEEK_DONE (R552, R553): one resonance gives TRACK at its code; else a wider search, then FAILED. -/
def execRingSeekDone (b r found code : Nat) (s : State) : R := s.runIf (Unit.tile b && Unit.ring r) fun d =>
  let x := berylRing b r
  let g := d.ring x
  if decide (g.st ≠ .seek) || d.heatersHeld x then d
  else if found = 1 then
    let d := (d.moveCode x code).setRing x fun g => { (g.toTrack d.now) with tries := 0 }
    let d := if (d.ring x).lit && !(d.ring x).calHold && !(d.ring x).darkHold then d else d.holdRing x
    if x / 18 % 2 = 1 then (d.sendRxuse (x / 36)).settle else d
  else if g.tries = 0 then d.setRing x fun g => { g with tries := 1 }
  else (d.failRing x 1 Src.ringSeek).settle

/-- The normalised error of an output (R557), toward zero; with P0 = 0 it is a value the spec does not state (log 6). -/
def Dev.ringError (d : Dev) (g : Ring) (o : FilterOut) : Int × Dev :=
  if o.p0 = 0 then let (v, d) := d.draw 16; (v.toInt, d)
  else (Int.tdiv (256 * o.x1 - g.setpt * o.p0) o.p0, d)

/-- The loop's step before its limit (R558). -/
def loopStep (b : Brl) (e prev : Int) : Int :=
  Int.tdiv ((b.lcfg.toNat / 2 ^ 10 % 256 : Nat) * e + (b.lcfg.toNat / 2 ^ 18 % 256 : Nat) * (e - prev)) 64

/-- LOCK_THR (BRL_LCFG2; 0 acts as 1). -/
def Brl.lockThr (b : Brl) : Nat := max 1 (b.lcfg2.toNat / 2 ^ 8 % 256)

/-- The state after a valid output of error `e` and raw step `raw` (R552): lock, loss of lock, and the outputs in a row at an end of the range. -/
def Ring.judge (g : Ring) (thr now : Nat) (e raw : Int) : Ring :=
  let rail := if (g.code = 0 && decide (raw < 0)) || (g.code = 16383 && decide (0 < raw)) then g.rail + 1 else 0
  match g.st with
  | .track =>
    if e.natAbs ≤ thr then
      if 4 ≤ g.good + 1 then { g with st := .locked, good := 0, bad := 0, rail } else { g with good := g.good + 1, rail }
    else { g with good := 0, rail }
  | .locked =>
    if 4 * thr < e.natAbs then
      if 2 ≤ g.bad + 1 then { (g.toTrack now) with unlocks := satAdd 0xFFFF g.unlocks } else { g with bad := g.bad + 1, rail }
    else { g with bad := 0, rail }
  | _ => g

/-- What a valid output adds where the ring was and stays LOCKED: one more in a row, to 8 (15 R630), and the code, which DRVCOMP averages (15 R624). -/
def Dev.countLocked (d : Dev) (x : Nat) (was : Bool) : Dev :=
  let on := was && decide ((d.ring x).st = .locked)
  let d := d.setRing x fun g => { g with run := if on then min 8 (g.run + 1) else 0 }
  if on && (d.chan x).polish.any (fun q => decide (q.step = .drvcomp)) then
    d.setChan x fun c => { c with polish := c.polish.map fun q => { q with outs := (q.outs ++ [(d.ring x).code]).take 16 } }
  else d

/-- A valid output (R552, R557, R558, R561). -/
def Dev.ringOutput (d : Dev) (x : Nat) (o : FilterOut) : Dev :=
  let (e, d) := d.ringError (d.ring x) o
  let b := d.brl (x / 576)
  let d := d.setRing x fun g => { g with valid := true, err := e, p0 := o.p0 }
  let g := d.ring x
  if g.st ≠ .track && g.st ≠ .locked then d
  else
    let raw := loopStep b e g.ePrev
    let judged := g.judge b.lockThr d.now e raw
    let weak := if (d.ringRec x).any fun r => decide (o.p0 * 16 < r.p0) then g.weak + 1 else 0
    let d := d.setRing x fun _ => { judged with ePrev := e, weak }
    let d := d.setCode x ((d.ring x).code + max (-b.limit) (min b.limit raw))
    let d := d.countLocked x (decide (g.st = .locked))
    if 10 ≤ judged.rail then d.failRing x 2 Src.ringRange
    else if decide (4 ≤ weak) && g.lit then (d.endPolish x).seek x
    else d

/-- RING_FILTER_OUTPUT (R552, R556 to R561, R606, 16 R685): the first three outputs after a synchronising reset are invalid. -/
def execRingFilterOutput (b r : Nat) (o : FilterOut) (s : State) : R := s.runIf (Unit.tile b && Unit.ring r) fun d =>
  let x := berylRing b r
  let g := d.ring x
  if g.st = .off || g.st = .failed || d.heatersHeld x then d
  else if 0 < g.invalid then d.setRing x fun g => { g with invalid := g.invalid - 1, run := 0 }
  else
    let d := d.ringOutput x o
    let p := x / 36
    (if x / 18 % 2 = 1 then d.sendRxuse p
    else if g.st = (d.ring x).st then d
    else if d.active p then d.designate p false else d.releasePort p).settle

/-- RING_TRACK_TIMEOUT (R552): 10 ms in TRACK without lock. -/
def execRingTrackTimeout (b r : Nat) (s : State) : R := s.runIf (Unit.tile b && Unit.ring r) fun d =>
  let x := berylRing b r
  if decide ((d.ring x).st = .track) && decide ((d.ring x).since + 10000000 ≤ d.now) then
    let d := d.seek x
    if x / 18 % 2 = 1 then (d.sendRxuse (x / 36)).settle else d
  else d

/-- TAP_THR in µA (BRL_LCFG2; 0 acts as 1). -/
def Brl.tapThr (b : Brl) : Nat := max 1 (b.lcfg2.toNat / 2 ^ 24)

/-- A ring has light (R561): a receive ring while its port's tap photodiode reads at least TAP_THR, a transmit ring while its wavelength position is
lit and not in a swap. -/
def Dev.hasLight (d : Dev) (x tap : Nat) : Bool :=
  if x / 18 % 2 = 1 then decide ((d.brl (x / 576)).tapThr ≤ tap)
  else d.posLit (x / 36) (x % 18) && (d.posn (18 * (x / 36 / 32) + x % 18)).swap.isNone

/-- RING_LIGHT_CHANGE (R561, R552; 15 R653): `tap` is the tap photodiode's current in µA. -/
def execRingLightChange (b r : Nat) (tap : Nat) (s : State) : R := s.runIf (Unit.tile b && Unit.ring r) fun d =>
  (if d.hasLight (berylRing b r) tap then d.ringLight (berylRing b r) else d.ringDark (berylRing b r)).settle

/-- BRL_SYNC_GO (R559). -/
def execBrlSyncGo (b : Nat) (s : State) : R := s.runIf (Unit.tile b) fun d => d.mmio 0 fun d => d.syncAll b

/-- BRL_LCFG_WRITE (R555, R556, R559): a changed DEC or DBASE resets every ring. -/
def execBrlLcfgWrite (b : Nat) (val : W32) (s : State) : R := s.runIf (Unit.tile b) fun d => d.mmio 0 fun d =>
  let old := (d.brl b).lcfg
  let d := { d with opt.brl := Tab.upd {} b (fun x => { x with lcfg := val }) d.opt.brl }
  if old.toNat % 2 ^ 10 = val.toNat % 2 ^ 10 then d else d.syncAll b

/-! ### Grid, heaters, drivers and receivers (R547, R550, R562 to R566) -/

/-- Nominal frequency of wavelength position `n` in GHz (R547). -/
def gridGhz (n : Nat) : Nat := 230600 - 200 * n

/-- Heater power of a code in nW: 16 mW at code 16,383 (R550). -/
def heaterNw (code : Nat) : Nat := code * 16000000 / 16383

/-- Peak-to-peak swing of a driver in mV (R562). -/
def Ring.swingMv (g : Ring) : Nat := 500 + 50 * g.swing

/-- A driver's output level for a bit after another, in 1/64 mV about its middle (R562): half the swing, and the pre-emphasis tap for one UI after a change; a
driver without a lane holds the level of bit 0. -/
def Ring.level (g : Ring) (carries prev bit : Bool) : Int :=
  let half : Int := 32 * (g.swingMv : Int)
  let tap : Int := 2 * (g.pre : Int) * (g.swingMv : Int)
  let bit := carries && bit
  let prev := carries && prev
  (if bit then half else -half) + (if bit = prev then 0 else if bit then tap else -tap)

/-- The integrator slice of a UI (R564). -/
def sliceOf (u : Nat) : Nat := u % 4

/-- The window of a channel in eighths of a UI (R564; BRL_RXC1: INT_LEN + 1, values below 2 acting as 2). -/
def Rxc.window (c : Rxc) : Nat := max 2 c.intLen + 1

/-- The corrected sample in 1/1,024 LSB, before the decision (R566): GAIN × (x − OFS_s), less PV for the bit decided before. -/
def Rxc.correct (c : Rxc) (slice x : Nat) (prev : Bool) : Int :=
  (c.gain : Int) * (8 * (x : Int) - c.ofs.getD slice 0) - (if prev then 256 * (c.post : Int) else -(256 * (c.post : Int)))

/-- The decided bit of a 6-bit sample (R566). -/
def Rxc.decide (c : Rxc) (slice x : Nat) (prev : Bool) : Bool := Decidable.decide (1024 * (c.thr : Int) ≤ c.correct slice x prev)

/-- The bits of a run of samples that begins in a slice (R564, R566). -/
def Rxc.bits (c : Rxc) : Nat → Bool → List Nat → List Bool
  | _, _, [] => []
  | u, prev, x :: r => c.decide (sliceOf u) x prev :: c.bits (u + 1) (c.decide (sliceOf u) x prev) r

/-! ### Heater sense (R570 to R574) -/

/-- Rings of group g of Beryl b: ring 18g + k. -/
def groupRing (b g k : Nat) : Nat := 576 * b + 18 * g + k

/-- What two agreeing scans decide (R571). -/
inductive HeaterVerdict where
  | none | healthy | open_ (ks : List Nat) | group | fallback | bias
  deriving DecidableEq, Repr

/-- The decision table of R571. `held` are the rings LOCKED in both scans, `lost` those with light that lose lock, `quiet` that no
ring of the group holds lock because all are in HOLD, OFF or SEEK (R574). -/
def judgeGroup (s : ScanView) (held lost : List Nat) (quiet : Bool) : HeaterVerdict :=
  let all := BitVec.allOnes 18
  if s.nearZero ≠ 0 && quiet then .none
  else if !s.open_ && !s.intact then .none
  else if s.open_ then
    if s.nearZero = all then
      if !held.isEmpty && lost.isEmpty then .fallback else if held.isEmpty && !lost.isEmpty then .group else .none
    else if s.inTol = all then .bias else .none
  else if s.nearZero = all && held.isEmpty && !lost.isEmpty then .group
  else if s.nearZero ≠ 0 then .open_ (lost.filter fun k => s.nearZero.getLsbD k)
  else if s.inTol = all then .healthy else .none

/-- Rings of the group that are LOCKED. -/
def Dev.lockedOf (d : Dev) (b g : Nat) : BitVec 18 :=
  BitVec.ofNat 18 ((List.range 18).map fun k => if (d.ring (groupRing b g k)).st = .locked then 2 ^ k else 0).sum

/-- A heater reads near zero: below 10 % of a commanded power above 0.5 mW (R570). -/
def nearZero (code readback : Nat) : Bool := decide (10 * readback < code) && decide (500000 < heaterNw code)

/-- A heater reads within ±(10 % + 0.2 mW) of its commanded power (R570). -/
def inTolerance (code readback : Nat) : Bool := decide (160000 * ((readback : Int) - code).natAbs ≤ 16000 * code + 2000 * 16383)

/-- Bit k for each of 18 heaters that a test names. -/
def bits18 (f : Nat → Bool) : BitVec 18 := BitVec.ofNat 18 ((List.range 18).map fun k => if f k then 2 ^ k else 0).sum

/-- A scan as the codes in force judge it (R570): an intact line's idle slot reads below 20 mV, a broken one above 200 mV; between them neither
holds (log 165). A heater without a readback reads its commanded power. -/
def Dev.viewScan (d : Dev) (b g : Nat) (s : SenseScan) : ScanView :=
  let code := fun k => (d.ring (groupRing b g k)).code
  let rb := fun k => (s.readback[k]?).getD (code k)
  { open_ := decide (200 < s.idleMv), intact := decide (s.idleMv < 20), nearZero := bits18 fun k => nearZero (code k) (rb k)
    inTol := bits18 fun k => inTolerance (code k) (rb k), limited := s.limited }

/-- Readback of a scan (R570, R573): in fallback the driver's codes stand for it, until 100 scans in a row are intact. -/
def Dev.readScan (d : Dev) (b g : Nat) (s : SenseScan) : Dev :=
  let i := 32 * b + g
  let z := Tab.look ({} : Sense) i d.opt.sense
  let v := d.viewScan b g s
  let run := if z.fallback && v.intact && decide (v.inTol = BitVec.allOnes 18) then z.run + 1 else 0
  let fallback := z.fallback && decide (run < 100)
  let d := { d with opt.sense := Tab.put {} i { z with open_ := v.open_, run := if fallback then run else 0, fallback, prev := some (v, d.lockedOf b g) } d.opt.sense }
  (List.range 18).foldl (fun (d : Dev) k => d.setRing (groupRing b g k) fun x => (
    if fallback then { x with readback := x.code, rbValid := false }
    else { x with readback := (s.readback[k]?).getD x.code, rbValid := true } : Ring)) d

/-- Two scans agree (R571). -/
def scansAgree (a b : ScanView) : Bool :=
  decide (a.open_ = b.open_) && decide (a.intact = b.intact) && decide (a.nearZero = b.nearZero) && decide (a.inTol = b.inTol) && decide (a.limited = b.limited)

/-- What the scan decides where the one before agreed, `before` being the rings LOCKED then: nothing in fallback. -/
def Dev.verdict (d : Dev) (b g : Nat) (s : ScanView) (before : BitVec 18) (fallback : Bool) : HeaterVerdict :=
  let now := d.lockedOf b g
  let ks := List.range 18
  let held := ks.filter fun k => before.getLsbD k && now.getLsbD k
  let lost := ks.filter fun k =>
    let x := d.ring (groupRing b g k)
    x.lit && (decide (x.st = .track) || decide (x.st = .locked)) && !(before.getLsbD k && now.getLsbD k)
  let quiet := ks.all fun k =>
    let x := d.ring (groupRing b g k)
    decide (x.st = .hold) || decide (x.st = .off) || decide (x.st = .seek) || decide (x.st = .failed)
  if fallback then .none else judgeGroup s held lost quiet

/-- Rings of the group in use. -/
def Dev.liveOf (d : Dev) (b g : Nat) : List Nat :=
  (List.range 18).filter fun k => let x := d.ring (groupRing b g k); decide (x.st ≠ .off) && decide (x.st ≠ .failed)

/-- The driver's current limit fails a ring at once (R571). -/
def Dev.failShort (d : Dev) (b g : Nat) (s : ScanView) : Dev :=
  ((d.liveOf b g).filter fun k => s.limited.getLsbD k).foldl (fun (d : Dev) k => d.failRing (groupRing b g k) 4 Src.htrShort) d

/-- The consequence of a verdict (R571 to R573). -/
def Dev.applyVerdict (d : Dev) (b g : Nat) (v : HeaterVerdict) : Dev :=
  let i := 32 * b + g
  match v with
  | .open_ l => l.foldl (fun (d : Dev) k => d.failRing (groupRing b g k) 3 Src.htrOpen) d
  | .group =>
    let d := { d with opt.sense := Tab.upd {} i (fun q => { q with groupFail := true }) d.opt.sense }
    (d.liveOf b g).foldl (fun (d : Dev) k => d.failRing (groupRing b g k) 5 Src.htrGroup) d
  | .fallback =>
    let d := { d with opt.sense := Tab.upd {} i (fun q => { q with fallback := true, run := 0 }) d.opt.sense }
    let d := (List.range 18).foldl (fun (d : Dev) k => d.setRing (groupRing b g k) fun x => { x with readback := x.code, rbValid := false }) d
    d.post Src.htrSenseOpen i
  | .bias => d.post Src.senseBias i
  | .healthy => d
  | .none => d

/-- HEATER_SCAN_DONE (R570 to R574): readback, the driver's current limit, and the judgement of two agreeing scans. -/
def execHeaterScanDone (b g : Nat) (s' : SenseScan) (s : State) : R := s.runIf (Unit.tile b && Unit.group g) fun d =>
  let z := Tab.look ({} : Sense) (32 * b + g) d.opt.sense
  let v := d.viewScan b g s'
  let d := d.readScan b g s'
  match z.prev with
  | some (o, before) =>
    if scansAgree o v then ((d.failShort b g v).applyVerdict b g (d.verdict b g v before z.fallback)).settle else d
  | none => d

/-- A ring's code goes one step of at most MAXSTEP × 4 towards its target, with its feedforward (R569). -/
def Dev.rampStep (d : Dev) (b x t : Nat) : Dev :=
  let lim := (d.brl b).limit
  let d := d.setCode x ((d.ring x).code + max (-lim) (min lim ((t : Int) - (d.ring x).code)))
  if (d.ring x).code = t then d.setRing x fun g => { g with target := none } else d

/-- HEATER_RAMP_STEP (R569): one step towards the target. -/
def execHeaterRampStep (b r : Nat) (s : State) : R := s.runIf (Unit.tile b && Unit.ring r) fun d =>
  match (d.ring (berylRing b r)).target with
  | none => d
  | some t => if d.heatersHeld (berylRing b r) then d else d.rampStep b (berylRing b r) t

end Sys2Proof.Machine
end

