-- ==== Sys2Proof/Machine/Laser.lean ====
section
/-! DEFINITION. Lasers and wavelength allocation (14). Laser 36n + j is laser j of Ruby n, at position j ÷ 2; position 18n + k is position k of Ruby n. -/

namespace Sys2Proof.Machine

/-! ### Lasers (R578 to R590) -/

/-- Position index and Ruby of a laser (R578). -/
def laserPos (j : Nat) : Nat := 18 * (j / 36) + j % 36 / 2
def laserRuby (j : Nat) : Nat := j / 36

/-- The other laser of a position: primaries are even, spares odd (R578). -/
def otherLaser (j : Nat) : Nat := if j % 2 = 0 then j + 1 else j - 1

/-- The Ruby's current while disabled by its wire stays off (01 R20). -/
def Dev.disabled (d : Dev) (n : Nat) : Bool := d.jad.laserDis.getLsbD n

/-- The spare bank is ON while a spare ramps or is lit (R590): RBY_STAT.SPARE_ON, and its domain, 100 or 103 (02 R58). -/
def Dev.spareBank (d : Dev) (n : Nat) : Dev :=
  let on := (List.range 18).any fun k =>
    let l := d.laser (36 * n + 2 * k + 1)
    decide (l.st = .lit) || (decide (l.st = .ramp) && !l.toHold)
  let dom := 100 + 3 * n
  { d with
    las.ruby := Tab.upd {} n (fun r => { r with spareOn := on }) d.las.ruby
    pwr.dom := if d.domain dom = 0 then d.pwr.dom else Tab.put 0 dom (if on then 3 else 1) d.pwr.dom }

/-- A laser starts its ramp (R582): to hold bias, or to its start current, from 0 or from hold bias. -/
def Dev.startLaser (d : Dev) (j : Nat) (toHold fromHold : Bool) : Dev :=
  if d.disabled (laserRuby j) then d
  else (d.setLaser j fun l => { l with st := .ramp, toHold, fromHold, shortRun := 0, openRun := 0, lowRun := 0, rampAt := d.now, current := if fromHold then 100 else 0 }).spareBank (laserRuby j)

/-- The bank of laser `j` is a primary bank in RETAIN: its lasers stay at hold bias (02 R60). -/
def Dev.retained (d : Dev) (j : Nat) : Bool := decide (j % 2 = 0) && decide (d.domain (99 + 3 * laserRuby j) = 1)

/-- The primaries of a Ruby start once every spare is at hold bias or FAILED (R585); those of a bank in RETAIN only to hold bias, and for
light once it leaves RETAIN (02 R60). -/
def Dev.startPrimaries (d : Dev) (n : Nat) : Dev :=
  let spares := (List.range 18).map fun k => 36 * n + 2 * k + 1
  if spares.all fun j => decide ((d.laser j).st = .hold) || decide ((d.laser j).st = .failed) then
    (List.range 18).foldl (fun (d : Dev) k => if (d.laser (36 * n + 2 * k)).st = .off then
      (d.setLaser (36 * n + 2 * k) fun l => { l with resume := d.retained (36 * n + 2 * k) }).startLaser (36 * n + 2 * k) (d.retained (36 * n + 2 * k)) false
    else d) d
  else d

/-- LAS_SWAP, or the swap of R588, begins at step 1 (R592): each ACTIVE port with a lane on the position moves it hitlessly. -/
def Dev.startSwap (d : Dev) (n k : Nat) (req : Option Nat) : Dev :=
  let i := 18 * n + k
  let inc := if (d.laser (36 * n + 2 * k)).st = .lit then 36 * n + 2 * k + 1 else 36 * n + 2 * k
  let d := d.setPosn i fun q => { q with swap := some { step := 1, inc, req } }
  (feeds n).foldl (fun (d : Dev) p =>
    let lane := mapAt (d.wport p).tx k
    if d.active p && decide (lane < 16) && !(d.spares p).isEmpty then
      d.setWport p fun w => { w with waiting := w.waiting ++ [{ kind := .swap, lane, from_ := k, dest := 0x1F }] }
    else d) d

/-- LAS_SWAP of a position ends (06 0x0B04). -/
def Dev.endSwap (d : Dev) (n k : Nat) (st : Status) : Dev :=
  (d.setPosn (18 * n + k) fun q => { q with swap := none }).finishAccs
    (fun a => decide (a.opcode = 0x0B04) && a.objs.contains (.laser n k)) st []

/-- A position has no working laser (R589, R597): it reads 0xFF on all 32 ports, and lanes on it break away. -/
def Dev.losePosition (d : Dev) (n k : Nat) : Dev :=
  let d := (d.setPosn (18 * n + k) fun q => { q with lost := true }).post Src.lasPosLost (36 * n + 2 * k)
  d.posDark n k 0xFF

/-- The fault of a laser decision: 1 short, 2 open, 3 dark (R584). -/
def laserSrc (cause : Nat) : Nat := if cause = 1 then Src.lasShort else if cause = 2 then Src.lasOpen else Src.lasDark

/-- A laser is FAILED (R584, R587, R589, R594): the other laser of its position takes over, unless it is lit already or a swap puts the
old one back. -/
def Dev.failLaser (d : Dev) (j cause : Nat) : Dev :=
  let n := laserRuby j
  let k := j % 36 / 2
  let i := laserPos j
  let o := otherLaser j
  let d := (d.setLaser j fun l => { l with st := .failed, fcause := cause, current := 0 }).post (laserSrc cause) j
  let swap := (d.posn i).swap
  let d := d.spareBank n
  match swap with
  | some w =>
    if w.inc = j then
      let d := d.endSwap n k .aborted
      if (d.laser o).st = .hold then d.startLaser o false true else d
    else
      let d := (d.endSwap n k .aborted).posDark n k 0xFE
      if (d.laser o).st = .hold then d.startLaser o false true else d
  | none =>
    match (d.laser o).st with
    | .lit => d
    | .ramp | .wait => if (d.laser o).toHold then d.setLaser o fun l => { l with toHold := false } else if (d.posn i).lit then d.posDark n k 0xFE else d
    | .hold => if d.retained j then d.setLaser o fun l => { l with resume := true } else (d.posDark n k 0xFE).startLaser o false true
    | .off => if j % 2 = 0 then d.losePosition n k else d
    | .failed => d.losePosition n k

/-- A start attempt fails (R584, R589, R594): another follows 10 ms later, the third is the last, and an incoming laser of a planned swap
has one only. -/
def Dev.failAttempt (d : Dev) (j cause : Nat) : Dev :=
  let n := (d.laser j).retries + 1
  let d := d.setLaser j fun l => { l with retries := min 3 n, lastDec := cause, fcause := cause, current := 0, shortRun := 0, openRun := 0 }
  let swapIn := (d.posn (laserPos j)).swap.any fun w => decide (w.inc = j)
  let d := if decide (3 ≤ n) || swapIn then d.failLaser j cause
    else (d.setLaser j fun l => { l with st := .wait, retryAt := d.now + 10000000 }).spareBank (laserRuby j)
  if j % 2 = 1 then d.startPrimaries (laserRuby j) else d

/-- How long a laser's ramp lasts, in ns (R582). -/
def Laser.rampNs (l : Laser) : Nat := if l.fromHold then 200000 else 2000000

/-- LASER_RAMP_END (R582, R583, R585, R589): hold bias is reached, or the dark check decides. -/
def execLaserRampEnd (j mpd : Nat) (s : State) : R := s.runIf (Unit.laser j) fun d =>
  let l := d.laser j
  if decide (l.st ≠ .ramp) || decide (d.now < l.rampAt + l.rampNs) then d
  else if l.toHold then
    ((d.setLaser j fun l => { l with st := .hold, current := 100, retries := 0, fcause := 0, mpd }).startPrimaries (laserRuby j)).settle
  else if mpd * 4 < l.target then ((d.setLaser j fun l => { l with mpd }).failAttempt j 3).settle
  else (d.setLaser j fun l => { l with st := .lit, current := min 1500 l.startI, retries := 0, fcause := 0, mpd, lowRun := 0, litAt := d.now }).spareBank (laserRuby j)

/-- Target current of a laser now, in 0.1 mA: along its linear ramp, or its operating current (R581, R582). -/
def Laser.goal (l : Laser) (now : Nat) : Nat :=
  if l.st = .ramp then
    let start := if l.fromHold then 100 else 0
    let stop := if l.toHold then 100 else min 1500 l.startI
    start + (stop - start) * min l.rampNs (now - l.rampAt) / l.rampNs
  else l.current

/-- The driver's current limit, in 0.1 mA: the target plus 5 mA throughout a ramp, never above 180 mA (R581, R582). -/
def Laser.limit (l : Laser) (now : Nat) : Nat := if l.st = .ramp then min 1800 (l.goal now + 50) else 1800

/-- A laser is judged while it ramps beyond hold bias, to hold bias, or is lit (R583, R587). -/
def Dev.laserJudged (d : Dev) (j : Nat) : Bool :=
  let l := d.laser j
  (decide (l.st = .ramp) || decide (l.st = .lit)) && !(decide (l.goal d.now ≤ 100) && !l.toHold)

/-- The runs of bad samples after a sample (R583, R587). -/
def Laser.sample (l : Laser) (now : Nat) (m : LasSample) : Laser :=
  { l with
    shortRun := if m.mv < 600 && decide (l.limit now ≤ m.current) then l.shortRun + 1 else 0
    openRun := if m.vddMv < m.mv + 300 && decide (m.current * 2 < l.goal now) then l.openRun + 1 else 0
    lowRun := if l.st = .lit && decide (m.mpd * 2 < l.target) then l.lowRun + 1 else 0
    mpd := m.mpd }

/-- What the runs decide: 1 short, 2 open, 3 dark, 0 nothing (R583, R587). -/
def Laser.verdict (l : Laser) : Nat := if 4 ≤ l.shortRun then 1 else if 4 ≤ l.openRun then 2 else if 2 ≤ l.lowRun then 3 else 0

/-- The consequence of a verdict: a lit laser fails, a ramp is a failed attempt (R584, R587). -/
def Dev.laserVerdict (d : Dev) (j cause : Nat) : Dev :=
  if cause = 0 then d else if (d.laser j).st = .lit then d.failLaser j cause else d.failAttempt j cause

/-- LASER_MONITOR_SAMPLE (R583, R584, R587): four samples in a row decide short or open; monitor power below half its target on two
samples in a row, 2 µs, is dark. A lit laser fails at once. -/
def execLaserMonitorSample (j : Nat) (m : LasSample) (s : State) : R := s.runIf (Unit.laser j) fun d =>
  if d.laserJudged j then ((d.setLaser j fun l => l.sample d.now m).laserVerdict j ((d.laser j).sample d.now m).verdict).settle else d

/-- LASER_RETRY_TIMER (R584): the current was removed, so the ramp starts from 0; to hold bias only while its bank is in RETAIN (02 R60). -/
def execLaserRetryTimer (j : Nat) (s : State) : R := s.runIf (Unit.laser j) fun d =>
  if decide ((d.laser j).st = .wait) && decide ((d.laser j).retryAt ≤ d.now) then
    if d.retained j && !(d.laser j).toHold then (d.setLaser j fun l => { l with resume := true }).startLaser j true false
    else d.startLaser j (d.laser j).toHold false
  else d

/-- AGE_WARN and AGE_EOL of a Ruby (RBY_CFG; values below 101 act as 101). -/
def Ruby.ageWarn (r : Ruby) : Nat := max 101 (r.cfg.toNat % 256)
def Ruby.ageEol (r : Ruby) : Nat := max 101 (r.cfg.toNat / 256 % 256)

/-- A lit laser after a turn of its power loop (R581, R586, R588): the current follows the loop, never above 150 mA; ageing and end of life
are judged, the latter also after 1 s at 150 mA below target. -/
def Laser.loop (l : Laser) (r : Ruby) (now : Nat) (m : LasSample) : Laser :=
  let cur := min 1500 m.current
  let since := if decide (1500 ≤ cur) && decide (m.mpd < l.target) then some (l.maxSince.getD now) else none
  let warn := decide (0 < l.ibol) && decide (r.ageWarn * l.ibol ≤ cur * 100)
  let eol := (decide (0 < l.ibol) && decide (r.ageEol * l.ibol ≤ cur * 100)) || since.any fun t => decide (t + 1000000000 ≤ now)
  { l with
    current := cur, mpd := m.mpd, maxSince := since, ageWarned := l.ageWarned || warn, eolRaised := l.eolRaised || eol
    fcause := if eol then 4 else l.fcause }

/-- The swap of R588 may begin: it is enabled, the other laser is at hold bias, and none is in progress. -/
def Dev.autoSwap (d : Dev) (j : Nat) : Bool :=
  let r := Tab.look ({} : Ruby) (laserRuby j) d.las.ruby
  r.cfg.getLsbD 16 && decide ((d.laser (otherLaser j)).st = .hold) && (d.posn (laserPos j)).swap.isNone && r.linkOk

/-- What a turn of the loop reports: ageing once, and end of life once, which starts a swap where it may (R588). -/
def Dev.ageReport (d : Dev) (j : Nat) (old new : Laser) : Dev :=
  let d := d.postIf (new.ageWarned && !old.ageWarned) Src.lasAgeing j
  if new.eolRaised && !old.eolRaised then
    let d := d.post Src.lasEol j
    if d.autoSwap j then d.startSwap (laserRuby j) (j % 36 / 2) none else d
  else d

/-- LASER_POWER_LOOP (R586, R588). -/
def execLaserPowerLoop (j : Nat) (m : LasSample) (s : State) : R := s.runIf (Unit.laser j) fun d =>
  if (d.laser j).st ≠ .lit then d
  else
    let l' := (d.laser j).loop (Tab.look ({} : Ruby) (laserRuby j) d.las.ruby) d.now m
    ((d.setLaser j fun _ => l').ageReport j (d.laser j) l').settle

/-- A laser is lit and its ramp ended 300 µs ago (R589). -/
def Dev.settledLit (d : Dev) (j : Nat) : Bool := decide ((d.laser j).st = .lit) && decide ((d.laser j).litAt + 300000 ≤ d.now)

/-- LASER_POSITION_LIT (R589, R615, 13 R561): 300 µs after its ramp a laser's position is lit, and its transmit rings leave HOLD. -/
def execLaserPositionLit (n k : Nat) (s : State) : R := s.runIf (Unit.ruby n && Unit.channel k) fun d =>
  if d.settledLit (36 * n + 2 * k) || d.settledLit (36 * n + 2 * k + 1) then
    let d := d.setPosn (18 * n + k) fun q => { q with lit := true }
    ((feeds n).foldl (fun (d : Dev) p => d.ringLight (ringNo p 0 k)) d).settle
  else d

/-- Some port still moves a lane for the swap of position `k`. -/
def Dev.swapMoves (d : Dev) (n k : Nat) : Bool :=
  (feeds n).any fun p => ((d.wport p).move.toList ++ (d.wport p).waiting).any fun m => decide (m.kind = .swap) && decide (m.from_ = k)

/-- The swap's lasers are still as they must be (R592, R594). -/
def Dev.swapStands (d : Dev) (n : Nat) (w : Swap) : Bool :=
  (Tab.look ({} : Ruby) n d.las.ruby).linkOk && decide ((d.laser w.inc).st = .hold) && decide ((d.laser (otherLaser w.inc)).st = .lit)

/-- Step 2 (R593): the lit laser goes to hold bias and the incoming one ramps; a port whose lane is still on the position resets. -/
def Dev.swapLasers (d : Dev) (n k : Nat) (w : Swap) : Dev :=
  let d := d.setLaser (otherLaser w.inc) fun l => { l with st := .hold, current := 100 }
  let d := d.setPosn (18 * n + k) fun q => { q with lit := false, swap := some { w with step := 3 } }
  let d := (feeds n).foldl (fun (d : Dev) p => d.ringDark (ringNo p 0 k)) d
  let d := (feeds n).foldl (fun (d : Dev) p => if d.active p && decide (mapAt (d.wport p).tx k < 16) then d.linkReset p else d) d
  d.startLaser w.inc false true

/-- The incoming laser is lit and no ring of the position still looks for its lock (R592). -/
def Dev.swapRelocked (d : Dev) (n k : Nat) : Bool :=
  (d.posn (18 * n + k)).lit && !((feeds n).any fun p => decide ((d.ring (ringNo p 0 k)).st = .track) || decide ((d.ring (ringNo p 0 k)).st = .seek))

/-- The swap has ended; ACTIVE ports may have a better spare to designate (R600). -/
def Dev.swapDone (d : Dev) (n k : Nat) : Dev :=
  (feeds n).foldl (fun (d : Dev) p => if d.active p then d.designate p false else d) (d.endSwap n k .ok)

/-- LASER_SWAP_ADVANCE (R592 to R594, R622): once step 1's moves are done the lit laser goes to hold bias and the incoming one ramps; once
the rings have relocked the swap ends. The swap is judged again before step 2. -/
def execLaserSwapAdvance (n k : Nat) (s : State) : R := s.runIf (Unit.ruby n && Unit.channel k) fun d =>
  match (d.posn (18 * n + k)).swap with
  | none => d
  | some w =>
    if w.step = 1 then
      if d.swapMoves n k then d
      else if d.swapStands n w then (d.swapLasers n k w).settle
      else (d.endSwap n k .aborted).settle
    else if d.swapRelocked n k then (d.swapDone n k).settle
    else d

/-- LASER_DISABLE_WIRE (01 R20; 14, laser-disable): every laser of the Ruby that is not FAILED reads OFF, and none is marked. -/
def execLaserDisableWire (n : Nat) (s : State) : R := s.runIf (Unit.ruby n) fun d =>
  let d := d.lasersOff [n]
  let d := (List.range 18).foldl (fun (d : Dev) k => d.posDark n k 0xFE) d
  (d.spareBank n).settle

/-- RUBY_LINK_SILENT (R622): RBY_LINK; planned swaps of the Ruby end ABORTED, their lasers go on by themselves. -/
def execRubyLinkSilent (n : Nat) (s : State) : R := s.runIf (Unit.ruby n) fun d =>
  let d := ({ d with las.ruby := Tab.upd {} n (fun r => { r with linkOk := false }) d.las.ruby }).post Src.rbyLink (10 + n)
  ((List.range 18).foldl (fun (d : Dev) k => if (d.posn (18 * n + k)).swap.isSome then d.endSwap n k .aborted else d) d).settle

/-- RUBY_LINK_RETURN (R622). -/
def execRubyLinkReturn (n : Nat) (s : State) : R := s.runIf (Unit.ruby n) fun d =>
  { d with las.ruby := Tab.upd {} n (fun r => { r with linkOk := true }) d.las.ruby }

/-! ### Moves (R603 to R621) -/

/-- Slots a DRVCOMP ramp of a ring takes where it exceeds one step (R620): one step per f_out period of 128 × DEC µs. -/
def Dev.rampSlots (d : Dev) (p k : Nat) : Nat :=
  let b := d.brl (p / 16)
  let n := (d.ring (ringNo p 0 k)).drvcomp.natAbs
  let lim := b.limit.natAbs
  if n ≤ lim then 0 else (n + lim - 1) / lim * (128 * max 1 (b.lcfg.toNat % 16)) * 1000 * 1000 / (if (d.lport p).txw8 then 8500 else 4250)

/-- The next waiting move by R616: lowest rank first, then arrival. -/
def nextMove (l : List Move) : Option Move :=
  l.foldl (fun b m => match b with | none => some m | some x => if m.kind.rank < x.kind.rank then some m else some x) none

/-- A hitless move starts (R603): MOVE_AT names slot N, at least 1,024 slots on, and after the ramp of a DRVCOMP change that exceeds one step,
which begins now (R620). -/
def Dev.startMove (d : Dev) (p : Nat) (m : Move) (dest : Nat) : Dev :=
  let n := d.lslot p + 1024 + d.rampSlots p dest
  let d := if d.rampSlots p dest = 0 then d else d.compensate (ringNo p 0 dest) true
  ((d.wal p 2 m.lane m.from_ dest n).setWport p fun w => { w with move := some { m with dest, slotN := some n, startAt := d.now } }).designate p true

/-- A move that finds no usable free spare: a command is answered, a polish becomes light, a REQ is refused, a swap goes on (R592, R610). -/
def Dev.noMove (d : Dev) (p : Nat) (m : Move) : Dev :=
  match m.kind with
  | .cmd => d.moveCmd p m .noResource
  | .vacate => d.setChan (ringNo p 0 m.from_) fun c => { c with polish := some { full := false, step := .light, cmd := c.cmd }, fullPend := true }
  | .req => d.wal p 7 m.lane m.from_ 1 0
  | _ => d

/-- Where a move goes: the spare it names, where that is usable; else, unless a command named it, the first usable spare (R610). -/
def Dev.moveDest (d : Dev) (p : Nat) (m : Move) : Option Nat :=
  if m.dest < 18 && d.usable p m.dest then some m.dest else if m.dest < 18 && decide (m.kind = .cmd) then none else (d.spares p).head?

/-- A waiting move begins: a break at once, a hitless one from a lane that is still there to a usable spare (R603, R606). -/
def Dev.beginMove (d : Dev) (p : Nat) (m : Move) : Dev :=
  if m.kind = .brk then d.breakNow p m
  else if mapAt (d.wport p).tx m.from_ ≠ m.lane then d.noMove p m
  else match d.moveDest p m with | some k => d.startMove p m k | none => d.noMove p m

/-- MOVE_START (R603, R606, R616): the next waiting move of a direction. -/
def execMoveStart (p : Nat) (s : State) : R := s.runIf (Unit.optPort p) fun d =>
  match (d.wport p).move, nextMove (d.wport p).waiting with
  | none, some m => ((d.setWport p fun w => { w with waiting := without m w.waiting }).beginMove p m).settle
  | _, _ => d

/-- WAL_NEXT (R600). -/
def execWalNext (p dest : Nat) (s : State) : R := s.runIf (Unit.optPort p) fun d =>
  d.setWport p fun w => { w with rxNext := if dest < 18 then some dest else none }

/-- WAL_MOVE_AT (R603): the receiver deskews the new wavelength against the lane. -/
def execWalMoveAt (p lane from_ dest slot : Nat) (s : State) : R := s.runIf (Unit.optPort p) fun d =>
  d.setWport p fun w => { w with rxMove := some (lane, from_, dest, slot) }

/-- MOVE_SLOT_N (R603, 13 R563): from slot N both rings carry the lane. -/
def execMoveSlotN (p : Nat) (s : State) : R := s.runIf (Unit.optPort p) fun d =>
  match (d.wport p).move with
  | some m =>
    if decide (m.kind ≠ .brk) && !m.dual && m.slotN.all (fun n => decide (n ≤ d.lslot p)) then
      (d.drive (ringNo p 0 m.dest) true).setWport p fun w => { w with move := some { m with dual := true, startAt := d.now } }
    else d
  | none => d

/-- MOVE_ALIGN_DONE (R603): after 256 matching slots the receiver takes the lane from the new wavelength and says so. -/
def execMoveAlignDone (p slot : Nat) (s : State) : R := s.runIf (Unit.optPort p) fun d =>
  match (d.wport p).rxMove with
  | some (lane, _, dest, _) => (d.setWport p fun w => { w with rx := w.rx.set dest lane }).wal p 3 lane 0x1F dest slot
  | none => d

/-- WAL_READY (R603, R606): a hitless move schedules slot M, at least 64 slots on; a break move is complete. -/
def execWalReady (p lane dest slot : Nat) (s : State) : R := s.runIf (Unit.optPort p) fun d =>
  match (d.wport p).move with
  | some m =>
    if decide (m.lane = lane) && decide (m.dest = dest) && m.dual then
      if m.kind = .brk then d.setWport p fun w => { w with move := none, breaks := satAdd 0xFF w.breaks }
      else d.setWport p fun w => { w with move := some { m with ready := true, slotM := some (max (d.lslot p) slot + 64) } }
    else d
  | none => d

/-- What a completed move was for (R592, R610, R613, 15 R636). -/
def Dev.moveDone (d : Dev) (p : Nat) (m : Move) : Dev :=
  match m.kind with
  | .cmd => d.moveCmd p m .ok
  | .vacate =>
    (((d.setWport p fun w => { w with reserved := some m.from_ }).setChan (ringNo p 0 m.from_) fun c =>
      { c with polish := c.polish.map fun q => { q with step := .scan, resv := true } }).designate p true).beginHeld (p / 16)
  | .req =>
    let d := (d.setWport p fun w => { w with reserved := some m.from_ }).designate p true
    { d with cal.rsvAt := Tab.put 0 p (d.now + 1) d.cal.rsvAt }
  | _ => d

/-- At slot M the old wavelength is released with DONE; it is a free spare, or reserved (R603, R613). -/
def Dev.releaseMove (d : Dev) (p : Nat) (m : Move) (slot : Nat) : Dev :=
  let d := (d.wal p 4 m.lane m.from_ m.dest slot).drive (ringNo p 0 m.from_) false
  let d := d.setWport p fun w => { w with tx := (w.tx.set m.from_ 0xFE).set m.dest m.lane, move := none, moves := satAdd 0xFFFF w.moves }
  (d.designate p false).moveDone p m

/-- MOVE_RELEASE_SLOT (R603). -/
def execMoveReleaseSlot (p : Nat) (s : State) : R := s.runIf (Unit.optPort p) fun d =>
  match (d.wport p).move with
  | some m => match m.slotM with | some slot => if slot ≤ d.lslot p then (d.releaseMove p m slot).settle else d | none => d
  | none => d

/-- The receiver takes a lane off a wavelength (R603). -/
def WPort.laneGone (w : WPort) (lane from_ : Nat) : WPort :=
  { w with
    rx := if mapAt w.rx from_ = lane then w.rx.set from_ 0xFE else w.rx
    rxMove := if w.rxMove.any fun m => decide (m.1 = lane) && decide (m.2.1 = from_) then none else w.rxMove }

/-- The channel's full polish waits for its wavelength (15 R636). -/
def Chan.awaits (c : Chan) : Option Polish := c.polish.filter fun q => q.full && decide (q.step = .reserve)

/-- WAL_DONE (R603; 15 R636): the receive map is updated; a full receive polish that waits for the wavelength may start its PEAK. -/
def execWalDone (p lane from_ _slot : Nat) (s : State) : R := s.runIf (Unit.optPort p) fun d =>
  let d := d.setWport p fun w => w.laneGone lane from_
  match (d.chan (ringNo p 1 from_)).awaits with
  | some q => ((d.setChan (ringNo p 1 from_) fun c => { c with polish := some { q with step := .scan, resv := true } }).beginHeld (p / 16)).sendRxuse p
  | none => d

/-- A wavelength that is free already is reserved, and DONE says so (R611; 15 R636). -/
def Dev.reserveFree (d : Dev) (p lane from_ : Nat) : Dev :=
  let x := ((d.setWport p fun w => { w with reserved := some from_ }).designate p true).wal p 4 lane from_ 0x1F (d.lslot p)
  { x with cal.rsvAt := Tab.put 0 p (x.now + 1) x.cal.rsvAt }

/-- WAL_REQ (R610, R611; 15 R636): the wavelength is vacated and reserved, reserved at once when free, or refused. -/
def execWalReq (p lane from_ dest : Nat) (s : State) : R := s.runIf (Unit.optPort p) fun d =>
  let w := d.wport p
  let e := mapAt w.tx from_
  let others := (d.spares p).filter fun k => decide (k ≠ from_)
  if w.reserved.isSome || (w.waiting.any fun m => decide (m.kind = .req)) || e = 0xFF then d.wal p 7 lane from_ 1 0
  else if e = 0xFE then (d.reserveFree p lane from_).settle
  else if others.isEmpty then d.wal p 7 lane from_ 1 0
  else d.setWport p fun w => { w with waiting := w.waiting ++ [{ kind := .req, lane := e, from_, dest := if others.contains dest then dest else 0x1F }] }

/-- WAL_REQ_NOW (R608, R597): the far end's receive channel has failed; its lane breaks away and FROM is marked 0xFF. -/
def execWalReqNow (p lane from_ : Nat) (s : State) : R := s.runIf (Unit.optPort p) fun d =>
  (if mapAt (d.wport p).tx from_ = lane || 16 ≤ mapAt (d.wport p).tx from_ then d.loseWave p from_ 0xFF else d).settle

/-- WAL_NAK (15 R636): the polish of that receive channel becomes a light one. -/
def execWalNak (p _lane from_ _reason : Nat) (s : State) : R := s.runIf (Unit.optPort p) fun d =>
  let x := ringNo p 1 from_
  if ((d.chan x).polish.any fun q => q.full && decide (q.step = .reserve)) then
    d.setChan x fun c => { c with polish := c.polish.map fun q => { q with full := false, step := .light }, fullPend := true }
  else d

/-- WAL_CANCEL (R605). -/
def execWalCancel (p lane : Nat) (s : State) : R := s.runIf (Unit.optPort p) fun d =>
  match (d.wport p).rxMove with
  | some (l, from_, dest, _) =>
    if l = lane then d.setWport p fun w => { w with rxMove := none, rx := if mapAt w.rx dest = l && mapAt w.rx from_ = l then w.rx.set dest 0xFE else w.rx } else d
  | none => d

/-- A reserved wavelength whose channel the far end has polished is usable there again (R602; 15 R636). -/
def Dev.reserveBack (d : Dev) (p : Nat) (bitmap : BitVec 18) : Bool :=
  let w := d.wport p
  w.reserved.any fun k => decide (0 < Tab.look 0 p d.cal.rsvAt) && !w.rxuse.getLsbD k && bitmap.getLsbD k

/-- The far end's usable channels are taken over, and a reservation that was for its polish ends (R599, R602). -/
def Dev.takeRxuse (d : Dev) (p : Nat) (bitmap : BitVec 18) : Dev :=
  let back := d.reserveBack p bitmap
  let d := d.setWport p fun w => { w with rxuse := bitmap, reserved := if back then none else w.reserved }
  let d := if back then { d with cal.rsvAt := Tab.put 0 p 0 d.cal.rsvAt } else d
  d.designate p false

/-- WAL_RXUSE (R599, R602; 15 R636). -/
def execWalRxuse (p : Nat) (bitmap : BitVec 18) (s : State) : R := s.runIf (Unit.optPort p) fun d => (d.takeRxuse p bitmap).settle

/-- The move is given up: CANCEL and WAL_CANCEL, and the lane stays (R605); its command ends ABORTED, and a polish that wanted it becomes light. -/
def Dev.abandonMove (d : Dev) (p : Nat) (m : Move) : Dev :=
  let d := ((d.cancelMove p m).post Src.walCancel p).designate p false
  match m.kind with
  | .cmd => d.moveCmd p m .aborted
  | .vacate => d.noMove p m
  | .req => d.noMove p m
  | _ => d

/-- ABANDON_US in ns (WAL_CFG; values below 20 act as 20). -/
def Dev.abandonNs (d : Dev) : Nat := 1000 * max 20 (d.las.walCfg.toNat % 256)

/-- MOVE_ABANDON (R605): no READY came within ABANDON_US of slot N. -/
def execMoveAbandon (p : Nat) (s : State) : R := s.runIf (Unit.optPort p) fun d =>
  match (d.wport p).move with
  | some m => if decide (m.kind ≠ .brk) && m.dual && !m.ready && decide (m.startAt + d.abandonNs ≤ d.now) then (d.abandonMove p m).settle else d
  | none => d

/-- WAL_CNT_CLR (R623). -/
def execWalCntClr (p : Nat) (s : State) : R := s.runIf (Unit.optPort p) fun d => d.mmio 0 fun d =>
  d.setWport p fun w => { w with moves := 0, breaks := 0, cancels := 0 }

end Sys2Proof.Machine
end

