-- ==== Sys2Proof/Machine/LinkWire.lean ====
section
/-! DEFINITION. What an optical link carries (12 R503 to R519, R533; 14 R601): the bytes of a flit, its encryption, the Reed–Solomon code, stripes, scrambling,
skip slots, training words and link-management items. -/

namespace Sys2Proof.Machine

/-! ### The flit (R503 to R506) -/

/-- The header of a flit as a number (R504). PSTART 0xFF: no packet starts. -/
def linkHeader (f : LinkFlit) (pstart : Nat) : Nat :=
  f.ftype % 4 + 4 * (f.vc % 8) + 0x20 * bNat f.enc + 0x40 * bNat f.kgen + 0x80 * bNat f.nak + 2 ^ 8 * (f.seq % 4096) + 2 ^ 20 * (f.ack % 4096)
    + 2 ^ 32 * (f.cvc % 8) + 2 ^ 35 * (f.ccum % 4096) + 2 ^ 47 * pstart + 2 ^ 55 * (f.txc8 % 256)

/-- The 236 bytes of payload, with zeros after what it carries. -/
def payload236 (l : List Byte) : List Byte := (l ++ List.replicate 236 0).take 236

/-- The IV of a flit (R509): SALT, then TXC, most significant byte first. -/
def flitIv (salt : List Byte) (txc : Nat) : List Byte := salt.take 4 ++ beBytes 8 txc

/-- The 256 bytes of a flit (R503, R509): with ENC the payload encrypted under the direction's key and SALT, and 96 bits of tag; without, a CRC. -/
def linkFlitBytes (key salt : List Byte) (txc : Nat) (f : LinkFlit) (pstart : Nat) (payload : List Byte) : List Byte :=
  let h := leBytes 8 (linkHeader f pstart)
  let p := payload236 payload
  if f.enc then
    let x := gcmEnc key (flitIv salt txc) h p
    h ++ x.1 ++ x.2.take 12
  else
    let b := h ++ p
    b ++ leBytes 4 (crc32c b).toNat ++ leBytes 8 0

/-- The checks on 256 received bytes (R512): the tag under ENC, the CRC without; with the plaintext where they pass. -/
def openFlit (key salt : List Byte) (txc : Nat) (b : List Byte) : Option (List Byte) :=
  let h := b.take 8
  let body := (b.drop 8).take 236
  if leNat h / 0x20 % 2 = 1 then gcmDec key (flitIv salt txc) h body (b.drop 244) 12
  else if leNat ((b.drop 244).take 4) = (crc32c (b.take 244)).toNat then some body else none

/-- The header fields of a flit as read from its bytes (R504); what the checks and the payload say is added by the receiver. -/
def readLinkFlit (b : List Byte) : LinkFlit × Nat :=
  let h := leNat (b.take 8)
  ({ ftype := h % 4, vc := h / 4 % 8, enc := decide (h / 0x20 % 2 = 1), kgen := decide (h / 0x40 % 2 = 1), nak := decide (h / 0x80 % 2 = 1)
     seq := h / 2 ^ 8 % 4096, ack := h / 2 ^ 20 % 4096, cvc := h / 2 ^ 32 % 8, ccum := h / 2 ^ 35 % 4096, txc8 := h / 2 ^ 55 % 256 }, h / 2 ^ 47 % 256)

/-- The flit this end sends next on a port with a given FTYPE, VC and SEQ (R504, R506, R508, R526, R532): acknowledgement, NAK, the credits of
VC CVC, the key's parity and TXC are the port's present ones. -/
def Dev.flitNow (d : Dev) (p ftype vc seq cvc : Nat) : LinkFlit :=
  let l := d.lport p
  { ftype, vc, seq, enc := l.encTx, kgen := l.kgenTx, nak := l.nak, ack := l.ackSeq, cvc, ccum := Tab.look 0 cvc l.released, txc8 := d.txc p % 256 }

/-- An IDLE flit carries the next number to be assigned and uses none (R506). -/
def Dev.idleFlit (d : Dev) (p cvc : Nat) : LinkFlit := d.flitNow p 1 0 (d.lport p).txNext cvc

/-- CVC of the n-th flit: 0 to 4 in turn (R532). -/
def cvcAt (n : Nat) : Nat := n % 5

/-- What an egress sends next (R531): a replay, then link management, then data, then IDLE. -/
inductive SlotUse where
  | replay | lmgt | data | idle
  deriving DecidableEq, Repr, Inhabited

/-- The order of R531, from what the egress has to send. -/
def slotUse (replaying lmgt data : Bool) : SlotUse := if replaying then .replay else if lmgt then .lmgt else if data then .data else .idle

/-! ### Payload of a DATA flit (R505) -/

/-- The pieces of 236 bytes that a packet fills. -/
def pieces236 : Nat → List Byte → List (List Byte)
  | 0, _ => []
  | n + 1, l => if l.isEmpty then [] else payload236 l :: pieces236 n (l.drop 236)

/-- The payloads of a packet that starts at offset 0 of a flit, with PSTART of each (R505). -/
def packetPieces (b : List Byte) : List (List Byte × Nat) :=
  ((pieces236 b.length b).zipIdx).map fun x => (x.1, if x.2 = 0 then 0 else 0xFF)

/-- Length of a packet from its first bytes, as a receiver finds the next one (R505; 11 R451). -/
def packetSpan (b : List Byte) : Nat :=
  32 + (if leNat (b.take 1) = 0x10 then 8 else 0) + (if leNat ((b.drop 1).take 1) / 0x80 = 1 then 8 else 0) + leNat ((b.drop 10).take 2) + 4

/-- Offsets at which packets start in a payload, from PSTART on: a zero byte where a header would start ends them (R505). -/
def packetStarts : Nat → List Byte → Nat → List Nat
  | 0, _, _ => []
  | n + 1, pl, off => if 236 ≤ off || pl.getD off 0 = 0 then [] else off :: packetStarts n pl (off + packetSpan (pl.drop off))

/-! ### Forward error correction (R510, R511) -/

/-- The code's field polynomial, x^8 + x^4 + x^3 + x^2 + 1. -/
def rsPoly : Byte := 0x1D

/-- α^i. -/
def rsAlpha (i : Nat) : Byte := gfPow rsPoly 2 (i % 255)

/-- The generator's coefficients, highest first: (x - α^0) … (x - α^7). -/
def rsGen : List Byte :=
  (List.range 8).foldl (fun g i => List.zipWith (· ^^^ ·) (g ++ [0]) (0 :: g.map (gfMul rsPoly (rsAlpha i)))) [1]

/-- x^8·m(x) mod g(x), highest coefficient first: the eight parity symbols of a message (R511). -/
def rsParity (m : List Byte) : List Byte :=
  m.foldl (fun r s =>
    let q := s ^^^ r.headD 0
    List.zipWith (· ^^^ ·) (r.drop 1 ++ [0]) ((rsGen.drop 1).map (gfMul rsPoly q))) (List.replicate 8 0)

/-- Codeword k of a flit's message bytes: every second byte (R511). -/
def rsMessage (k : Nat) (flit : List Byte) : List Byte := (List.range 128).map fun i => flit.getD (2 * i + k) 0

/-- The 272 coded bytes of a flit (R511). -/
def rsEncode (flit : List Byte) : List Byte :=
  let p0 := rsParity (rsMessage 0 flit)
  let p1 := rsParity (rsMessage 1 flit)
  flit.take 256 ++ (List.range 16).map fun i => (if i % 2 = 0 then p0 else p1).getD (i / 2) 0

/-- Coded byte positions of codeword k. -/
def rsWord (k : Nat) (coded : List Byte) : List Byte := (List.range 136).map fun i => coded.getD (2 * i + k) 0

/-- The value of a word, highest coefficient first, at a point. -/
def rsEval (x : Byte) (w : List Byte) : Byte := w.foldl (fun a s => gfMul rsPoly a x ^^^ s) 0

/-- The word is a codeword: its eight syndromes are zero (R510). -/
def rsValid (w : List Byte) : Bool := (List.range 8).all fun i => decide (rsEval (rsAlpha i) w = 0)

/-- Positions in which two words differ. -/
def rsDiff (a b : List Byte) : List Nat := (List.range a.length).filter fun i => decide (a.getD i 0 ≠ b.getD i 0)

/-- FEC of received coded bytes gives a flit (R510, R512): each of its codewords is within four symbols of what was received. The code's distance
of 9 leaves at most one such flit; where there is none, a codeword is uncorrectable. -/
def fecGives (received flit : List Byte) : Bool :=
  [0, 1].all fun k => decide ((rsDiff (rsWord k received) (rsWord k (rsEncode flit))).length ≤ 4)

/-- The coded byte positions that FEC corrects. -/
def fecCorrected (received flit : List Byte) : List Nat := rsDiff received (rsEncode flit)

/-! ### Stripes and scrambling (R513 to R515) -/

/-- The coded bytes of logical lane `l` at width `w` (R513). -/
def stripe (w l : Nat) (coded : List Byte) : List Byte := (coded.drop (272 / w * l)).take (272 / w)

/-- Bit `u` of a lane's bytes, each least significant bit first. -/
def stripeBit (bytes : List Byte) (u : Nat) : Bool := (bytes.getD (u / 8) 0).getLsbD (u % 8)

/-- One UI of PRBS-31, x^31 + x^28 + 1, shifted towards bit 30, which is the bit sent. DESIGN CHOICE (log 163). -/
def prbs31 (s : BitVec 31) : BitVec 31 := (s <<< 1) ||| (if s.getLsbD 30 != s.getLsbD 27 then 1#31 else 0#31)

/-- The seed of logical lane `l` at the first UI of flit slot 0 (R514). -/
def prbs31Seed (l : Nat) : BitVec 31 := BitVec.ofNat 31 (0x5A5A5A5A ^^^ (l + 1))

/-- The sequence's state after `n` UI of non-skip slots. -/
def prbs31At (l n : Nat) : BitVec 31 := Nat.repeat prbs31 n (prbs31Seed l)

/-- UI of a slot: 136 at width 16, 272 at width 8 (R513). -/
def slotUi (w : Nat) : Nat := 272 / w * 8

/-- What logical lane `l` carries in UI `u` of non-skip slot `n` (R513, R514). -/
def scrambledBit (w l n u : Nat) (coded : List Byte) : Bool := stripeBit (stripe w l coded) u != (prbs31At l (n * slotUi w + u)).getLsbD 30

/-- The wavelength that carries logical lane `l` on a port (R514; 14 Model). -/
def Dev.laneWave (d : Dev) (p l : Nat) : Option Nat := if p = 64 then some l else laneAt (d.wport p).tx l

/-- The bytes of a skip slot on logical lane `l`, unscrambled (R515). -/
def skipBytes (w l : Nat) : List Byte := (List.replicate (if w = 8 then 2 else 1) (List.replicate 16 (0x3C : Byte) ++ [BitVec.ofNat 8 (0xA0 ||| l)])).flatten

/-- A skip slot follows every 2,048 non-skip slots (R515): slots sent before non-skip slot `n`. -/
def slotsBefore (n : Nat) : Nat := n + n / 2048

/-! ### Training words (R519) -/

/-- The lane identifier a training word carries for a wavelength of a port: its lane, 0x1E for a free spare, 0x1F where it carries nothing. -/
def Dev.lidOf (d : Dev) (p k : Nat) : Nat :=
  let e := if p = 64 then k else mapAt (d.wport p).tx k
  if e < 16 then e else if e = 0xFE then 0x1E else 0x1F

/-- The 17 bytes of a training word of type 1, 2 or 3 on wavelength `k` (R519). -/
def trainBytes (kind lid k : Nat) (w : TrainWord) : List Byte :=
  let body := match kind with
    | 1 => leBytes 8 w.ident.toNat ++ leBytes 1 w.port ++ leBytes 1 w.round ++ leBytes 2 0
    | 2 => leBytes 3 w.rxgood.toNat ++ leBytes 1 w.round ++ leBytes 8 0
    | _ => leBytes 1 w.count ++ leBytes 1 w.width ++ leBytes 3 w.rxgood.toNat ++ leBytes 1 w.round ++ leBytes 6 0
  let b := [0xB5, BitVec.ofNat 8 kind, BitVec.ofNat 8 lid, BitVec.ofNat 8 k] ++ body
  b ++ [crc8 b]

/-- A training word is intact: its SYNC and its CHECK (R519). -/
def trainIntact (b : List Byte) : Bool := decide (b.headD 0 = 0xB5) && decide (b.getD 16 0 = crc8 (b.take 16))

/-- Words of one type that arrive alike: bytes 1 and 4 to 15 (R520); the number of wavelengths that carry a word intact and so. -/
def trainCopies (words : List (List Byte)) (b : List Byte) : Nat :=
  (words.filter fun x => trainIntact x && decide (x.getD 1 0 = b.getD 1 0) && decide ((x.drop 4).take 12 = (b.drop 4).take 12)).length

/-! ### Link-management items (R533; 14 R601) -/

/-- The eight bytes of an item of this end; the SEQ of a retract is the packet's first on this link. -/
def itemBytes : Out → List Byte
  | .retract _ vc seq => [0x01] ++ leBytes 1 vc ++ leBytes 2 seq ++ leBytes 4 0
  | .lmgt _ 0x102 args => [0x02] ++ leBytes 1 (args.getD 0 0) ++ leBytes 6 0
  | .lmgt _ 9 args =>
    let v := args.getD 0 0
    [0x03, 9] ++ leBytes 1 (v % 256) ++ leBytes 1 (v / 256 % 256) ++ leBytes 1 (v / 65536 % 4) ++ leBytes 3 0
  | .lmgt _ sub args => [0x03] ++ leBytes 1 sub ++ leBytes 1 (args.getD 0 0) ++ leBytes 1 (args.getD 1 0) ++ leBytes 1 (args.getD 2 0) ++ leBytes 3 (args.getD 3 0)
  | _ => leBytes 8 0

/-- The payload of an LMGT flit of items: at most 29, then END and zeros. -/
def itemPayload (items : List Out) : List Byte := payload236 ((items.take 29).flatMap itemBytes)

/-- A KEYMSG item fills the flit (R533): type, body length, body. -/
def keymsgPayload (body : List Byte) : List Byte := payload236 ([0x10] ++ leBytes 2 (min 228 body.length) ++ List.replicate 5 0 ++ body.take 228)

/-- The items a receiver takes from a payload, up to END or an undefined type (R533, R535). -/
def readItems : Nat → List Byte → List LItem
  | 0, _ => []
  | n + 1, b =>
    let at_ : Nat → Nat → Nat := fun i k => leNat ((b.drop i).take k)
    match at_ 0 1 with
    | 0 => []
    | 1 => .retract (at_ 1 1) (at_ 2 2 % 4096) :: readItems n (b.drop 8)
    | 2 => .rekeyReady (decide (at_ 1 1 % 2 = 1)) :: readItems n (b.drop 8)
    | 3 => .wal :: readItems n (b.drop 8)
    | 0x10 => [.keymsg]
    | _ => [.undefined]

/-! ### The flits of a port, with its keys (R508 to R512, R538; 19 R799) -/

/-- The coded bytes of the flit a port sends now (R503, R509 to R511), under the key and SALT of its transmit direction. -/
def Dev.sentFlit (d : Dev) (p : Nat) (f : LinkFlit) (pstart : Nat) (payload : List Byte) : List Byte :=
  let k := (Tab.look {} p d.sec.keyx).keyTx
  rsEncode (linkFlitBytes (k.take 32) (k.drop 32) (d.txc p) f pstart payload)

/-- A received flit changes to the next key (R538): the other parity, once the next key is ready. -/
def Dev.switches (d : Dev) (p : Nat) (f : LinkFlit) : Bool :=
  let l := d.lport p
  f.enc && l.encRx && decide (f.kgen ≠ l.kgenRx) && l.nextKey

/-- The TXC of the flit a port receives now (R508, R538): its own count, or, where the flit switches the key, the count the flit names. -/
def Dev.rxTxc (d : Dev) (p : Nat) (f : LinkFlit) : Nat := if d.switches p f then f.txc8 else (d.lport p).rxc

/-- What the receiver of a port makes of coded bytes (R504, R508 to R512): `flit` is what FEC gives of them, or none where a codeword cannot be
corrected; `data` is what the packets of a DATA flit's payload are to the port's open packets. -/
def Dev.receivedFlit (d : Dev) (p : Nat) (received : List Byte) (flit : Option (List Byte)) (data : FlitData) : LinkFlit :=
  match flit.filter (fecGives received) with
  | none => { ftype := 0, seq := 0, ack := 0, fecOk := false }
  | some b =>
    let f := (readLinkFlit b).1
    let x := Tab.look {} p d.sec.keyx
    let k := if d.switches p f then x.nextRx else x.keyRx
    match openFlit (k.take 32) (k.drop 32) (d.rxTxc p f) b with
    | some body => { f with corrected := fecCorrected received b, items := if f.ftype = 2 then readItems 29 body else [], data }
    | none => { f with corrected := fecCorrected received b, tagOk := false }

end Sys2Proof.Machine
end

