-- ==== Sys2Proof/Machine/Calib.lean ====
section
/-! DEFINITION. Calibration (15). A channel has the number of its ring: 36·port + 18·direction + position. -/

namespace Sys2Proof.Machine

/-! ### Corrections (R628) -/

/-- A quotient rounded to the nearest integer, halves upward; the divisor is positive. -/
def roundDiv (a : Int) (b : Nat) : Int := (2 * a + b).fdiv (2 * b)

/-- A value held to a range. -/
def clampNat (lo hi : Nat) (v : Int) : Nat := (max (lo : Int) (min v hi)).toNat

/-- GAIN, POST and THR from the statistics, in units of 1/64 LSB (R628). A quotient by zero is a value the spec does not state (log 6). -/
def Dev.corrections (d : Dev) (m : LevelStats) : (Nat × Nat × Nat) × Dev :=
  let e := m.m11 + m.m10 - m.m01 - m.m00
  let (gv, d) := if e = 0 then (let (v, d) := d.draw 8; (clampNat 64 255 v.toNat, d)) else (if 0 < e then clampNat 64 255 (roundDiv 655360 e.toNat) else 64, d)
  let h := m.m11 + m.m01 - m.m10 - m.m00
  let post := clampNat 0 63 (roundDiv (gv * h) 8192)
  let one := m.m11 + m.m10
  let zero := m.m01 + m.m00
  let s := m.s0 + m.s1
  let (thr, d) := if s = 0 then (let (v, d) := d.draw 6; (v.toNat, d)) else (clampNat 0 63 (roundDiv (gv * (zero * s + (one - zero) * m.s0)) (16384 * s)), d)
  ((gv, post, thr), d)

/-- Whether round(320 log10 (a ÷ b)) is at least v, for v at least 1 (R642): 10^(2v − 1) · b^640 ≤ a^640. -/
def lustreAtLeast (a b v : Nat) : Bool := decide (10 ^ (2 * v - 1) * b ^ 640 ≤ a ^ 640)

/-- The largest value that qualifies, found bit by bit from bit n − 1. -/
def lustreBits (a b : Nat) : Nat → Nat → Nat
  | 0, v => v
  | n + 1, v => if lustreAtLeast a b (v + 2 ^ n) then lustreBits a b n (v + 2 ^ n) else lustreBits a b n v

/-- Lustre of q = (μ1 − μ0) ÷ (g (σ1 + σ0)) (R628, R642), limited to 0 to 4,095. With σ1 + σ0 = 0 the spec states no value (log 6). -/
def Dev.lustreOf (d : Dev) (m : LevelStats) : Nat × Dev :=
  let num := m.m11 + m.m10 - m.m01 - m.m00
  let den := 2 * (m.s1 + m.s0)
  if den = 0 then let (v, d) := d.draw 12; (v.toNat, d)
  else (if 0 < num then lustreBits num.toNat den 12 0 else 0, d)

/-! ### Configuration -/

def Cal.drift (c : Cal) : Nat := max 1 (c.cfg.toNat % 64)
def Cal.keepSpare (c : Cal) : Bool := c.cfg.getLsbD 6
def Cal.ltrig (c : Cal) : Bool := c.cfg.getLsbD 7
def Cal.maxPar (c : Cal) : Nat := max 1 (c.cfg.toNat / 2 ^ 8 % 8)
def Cal.lustreMin (c : Cal) : Nat := c.cfg.toNat / 2 ^ 11 % 4096
def Cal.fecWarn (c : Cal) : Nat := c.cfg.toNat / 2 ^ 23 % 16

/-! ### What a channel is due for (R631, R632) -/

/-- Difference of the Quartz temperature from that of the last polish, in 1/16 °C. -/
def Dev.driftOf (d : Dev) (x : Nat) : Nat := match (d.chan x).temp with | some t => (d.quartz (x / 576) - t).natAbs | none => 0

/-- A channel's direction is transmit. -/
def isTx (x : Nat) : Bool := decide (x / 18 % 2 = 0)

/-- The channels of tile b become due whose temperature has drifted beyond DRIFT, or that were never polished (R631); in Dark none
(R654). -/
def Dev.evalDrift (d : Dev) (b : Nat) : Dev :=
  if d.pwr.state = 2 then d
  else ((List.range 576).map (576 * b + ·)).foldl (fun (d : Dev) x =>
    let c := d.chan x
    if c.polish.isNone && !c.due && c.temp.isSome && decide (4 * d.cal.drift < d.driftOf x) && decide ((d.ring x).st ≠ .off) then
      d.setChan x fun c => { c with due := true }
    else d) d

/-- Lane the channel carries in its map; 16 or more means none. -/
def Dev.laneOf (d : Dev) (x : Nat) : Nat := mapAt (if isTx x then (d.wport (x / 36)).tx else (d.wport (x / 36)).rx) (x % 18)

/-- A receive-side free spare as the receive map shows it (R632). -/
def Dev.rxSpares (d : Dev) (p : Nat) : Nat := ((List.range 18).filter fun k => decide (mapAt (d.wport p).rx k = 0xFE) && d.rxUsable p k).length

/-- Another full receive polish of the port holds or asks for a reservation (R611). -/
def Dev.rxBusy (d : Dev) (p : Nat) : Bool := (List.range 18).any fun k => (d.chan (ringNo p 1 k)).polish.any fun q => q.full

/-- A full polish can be given now (R632, R635, R611): KEEP_SPARE leaves one usable free spare after the reservation and its move. -/
def Dev.canReserve (d : Dev) (x : Nat) : Bool :=
  let p := x / 36
  let need := if d.cal.keepSpare then 2 else 1
  if isTx x then
    if !d.active p then true
    else
      (d.wport p).reserved.isNone && !((d.wport p).waiting.any fun m => decide (m.kind = .vacate)) &&
        !((d.wport p).move.any fun m => decide (m.kind = .vacate) || decide (m.kind = .req)) &&
        (if d.laneOf x < 16 then decide (need ≤ (d.spares p).length)
          else d.usable p (x % 18) && (!d.cal.keepSpare || decide (need ≤ (d.spares p).length)))
  else
    d.active p && !d.rxBusy p && (if d.laneOf x < 16 then decide (need ≤ d.rxSpares p)
      else decide (d.laneOf x = 0xFE) && (!d.cal.keepSpare || decide (need ≤ d.rxSpares p)))

/-- A light polish can run: live data on a carried lane, or a locked transmit ring (R629, R630). -/
def Dev.canLight (d : Dev) (x : Nat) : Bool :=
  if isTx x then decide ((d.ring x).st = .locked) else d.active (x / 36) && decide (d.laneOf x < 16)

/-- The channel may be started: due or full-pending, its ring locked, nothing in progress. -/
def Dev.startable (d : Dev) (x : Nat) : Bool :=
  let c := d.chan x
  c.polish.isNone && decide ((d.ring x).st = .locked) && decide (d.laneOf x ≠ 0xFF) &&
    ((c.due && (d.canReserve x || (d.canLight x && !(c.fullPend && !c.due)))) || (c.fullPend && d.canReserve x))

/-- The order of R637: commanded, then full-pending that can reserve, then largest drift and lowest ring. -/
def Dev.betterStart (d : Dev) (x y : Nat) : Bool :=
  let rank := fun z => let c := d.chan z; if c.due && c.cmd then 0 else if c.fullPend && d.canReserve z then 1 else 2
  decide (rank x < rank y) || (decide (rank x = rank y) && (decide (d.driftOf y < d.driftOf x) || (decide (d.driftOf x = d.driftOf y) && decide (x < y))))

/-- The channel a Beryl starts next. -/
def Dev.nextPolish (d : Dev) (b : Nat) : Option Nat :=
  (((List.range 576).map (576 * b + ·)).filter d.startable).foldl (fun m x => match m with | none => some x | some y => if d.betterStart x y then some x else some y) none

/-! ### Steps (R624, R627, R637, R638) -/

/-- The tile's held step ends. -/
def Dev.endHeld (d : Dev) (b : Nat) : Dev := { d with cal.held := Tab.put none b none d.cal.held }

/-- A polish has completed (R633, R634, R636): counts, the release of its reservation, and the end of its command; the third light
polish of a channel in a row raises CAL_FULL_PEND. -/
def Dev.finishPolish (d : Dev) (x : Nat) (full : Bool) (write : Bool) : Dev :=
  let p := x / 36
  let q := (d.chan x).polish
  let n := if full then 0 else (d.chan x).lightRun + 1
  let d := d.setChan x fun c => { c with
    polish := none, temp := some (d.quartz (x / 576)), fullPend := if full then false else true, lightRun := n, wpend := c.wpend || write, wring := c.wring || (write && full) }
  let d := { d with
    cal.full := if full then satAdd 0xFFFF d.cal.full else d.cal.full
    cal.light := if full then d.cal.light else satAdd 0x7FFF d.cal.light }
  let d := d.postIf (decide (n = 3)) Src.calFullPend p
  let d := if isTx x then
      if q.any fun q => q.resv then (d.setWport p fun w => { w with reserved := if w.reserved = some (x % 18) then none else w.reserved }).designate p false else d
    else d.sendRxuse p
  ((d.endCmd x full).tryLight p)

/-- The ring record as it stands now: the valid copy, or what the ring holds. -/
def Dev.baseRec (d : Dev) (x : Nat) : RingRec :=
  let g := d.ring x
  (d.ringRec x).getD { setpt := g.setpt, drvcomp := g.drvcomp, swing := g.swing, pre := g.pre, nbrs := g.nbrs }

/-- The ring record after a full polish (R633): TC moves by an eighth when the temperature differs by 4 °C or more. -/
def Dev.fullRec (d : Dev) (x code p0 : Nat) : RingRec :=
  let r := d.baseRec x
  let g := d.ring x
  let dt := d.quartz (x / 576) - r.temp
  let tc := if 64 ≤ dt.natAbs then Int.tdiv (7 * r.tc + Int.tdiv (256 * ((code : Int) - r.code)) dt) 8 else r.tc
  { r with code, temp := d.quartz (x / 576), tc, setpt := g.setpt, p0, drvcomp := g.drvcomp, full := true, flank := decide (g.setpt < 0) }

/-- Writes a channel's correction fields into the shadow copy (13 R567). -/
def Dev.shadow (d : Dev) (x : Nat) (v : Rxc) : Dev :=
  { d with opt.shadow := Tab.put none (18 * (x / 36) + x % 18) (some v) d.opt.shadow }

/-- The correction fields of a receive channel. -/
def Dev.rxcOf (d : Dev) (x : Nat) : Rxc := Tab.look {} (18 * (x / 36) + x % 18) d.opt.rxc

/-- A receive channel takes a lustre value (R642, R644); below LUSTRE_MIN it is reported, and is due with LTRIG. -/
def Dev.setLustre (d : Dev) (x v : Nat) (live : Bool) : Dev :=
  let low := decide (v < d.cal.lustreMin)
  let d := d.setChan x fun c => { c with lustre := v, live, polished := if live then c.polished else v, due := c.due || (low && d.cal.ltrig && c.polish.isNone) }
  d.postIf low Src.calLustre (x / 36)

/-- A polish of a channel begins (R632, R635, R636): light where no full polish can be given, which stays pending; a receive channel's full
polish asks for its wavelength; a transmit channel's starts at once on a port that is not ACTIVE or on a free wavelength, else its lane is
moved off first. -/
def Dev.startPolish (d : Dev) (b x : Nat) : Dev :=
  let p := x / 36
  let k := x % 18
  let lane := d.laneOf x
  let d := d.setChan x fun c => { c with due := false }
  let set := fun (d : Dev) (q : Polish) => d.setChan x fun c => { c with polish := some { q with since := d.now } }
  if !d.canReserve x then (set d { full := false, step := .light, cmd := (d.chan x).cmd }).setChan x fun c => { c with fullPend := true }
  else if !isTx x then
    (set d { full := true, step := .reserve, cmd := (d.chan x).cmd }).wal p 5 lane k 0x1F 0
  else if !d.active p then (set d { full := true, step := .scan, cmd := (d.chan x).cmd }).beginHeld b
  else if lane < 16 then
    (set d { full := true, step := .reserve, cmd := (d.chan x).cmd }).setWport p fun w => { w with
      waiting := w.waiting ++ [{ kind := .vacate, lane, from_ := k, dest := 0x1F }] }
  else
    (((set d { full := true, step := .scan, resv := true, cmd := (d.chan x).cmd }).setWport p fun w => { w with reserved := some k }).designate p true).beginHeld b

/-- Polishes in progress in tile b. -/
def Dev.polishesIn (d : Dev) (b : Nat) : Nat := (((List.range 576).map (576 * b + ·)).filter fun x => (d.chan x).polish.isSome).length

/-- POLISH_START (R631, R632, R635 to R637, R640): none in Dark, nor beyond MAX_PAR. -/
def execPolishStart (b : Nat) (s : State) : R := s.runIf (Unit.tile b) fun d =>
  if d.pwr.state = 2 || decide (min 7 d.cal.maxPar ≤ d.polishesIn b) then d
  else
    match d.nextPolish b with
    | none => d
    | some x => (d.wake.startPolish b x).settle

/-- The codes of a sweep about the present code: up 200, down 400 and up 200, in steps of 8 (R624, R627), within the DAC's range. -/
def sweepCodes (c : Nat) : List Nat :=
  ((List.range 26).map fun i => clampCode ((c : Int) + 8 * i)) ++ ((List.range 51).map fun i => clampCode ((c : Int) + 200 - 8 * i))
    ++ ((List.range 26).map fun i => clampCode ((c : Int) - 200 + 8 * i))

/-- The codes from one to another in steps of at most 8. -/
def stepsTo (a b : Nat) : List Nat :=
  (List.range (((b : Int) - a).natAbs / 8 + 1)).map fun i => if a ≤ b then min b (a + 8 * (i + 1)) else max b (a - 8 * (i + 1))

/-- The heater follows codes one after another, each at once with its feedforward to the neighbours (R625; 13 R568, R569). -/
def Dev.walkCode (d : Dev) (x : Nat) (cs : List Nat) : Dev := cs.foldl (fun (d : Dev) c => d.setCode x c) d

/-- SETPT at the point found: 256 × X1 ÷ P0, on the flank whose sign the record holds (R624); no value is stated for P0 = 0 (log 6). -/
def Dev.scanSetpt (d : Dev) (ch : Nat) (r : ScanRes) : Int × Dev :=
  let (v, d) := if r.p0 = 0 then (let (v, d) := d.draw 16; (v.toInt, d)) else (Int.tdiv (256 * r.x1) r.p0, d)
  (match d.ringRec ch with | some c => if c.flank then -(v.natAbs : Int) else v.natAbs | none => v, d)

/-- The point found, which lies on the sweep. -/
def Dev.scanCode (d : Dev) (ch : Nat) (r : ScanRes) : Nat :=
  let c := (d.ring ch).code
  max (clampCode ((c : Int) - 200)) (min (clampCode ((c : Int) + 200)) r.code)

/-- The sweep has ended: every step of it, and of the way from its end to the code found, was a step of at most 8 codes; the ring leaves HOLD with
a synchronising reset (R624, R625, R627). -/
def Dev.scanFound (d : Dev) (ch : Nat) (q : Polish) (r : ScanRes) : Dev :=
  let (setpt, d) := if isTx ch then d.scanSetpt ch r else (0, d)
  let code := d.scanCode ch r
  let d := d.walkCode ch (sweepCodes (d.ring ch).code)
  let d := d.walkCode ch (stepsTo (d.ring ch).code code)
  let d := d.setChan ch fun c => { c with polish := some { q with step := .relock, newCode := code } }
  let d := d.setRing ch fun g => { g with setpt, calHold := false, target := none }
  ((d.unhold ch).endHeld (ch / 576)).beginHeld (ch / 576)

/-- POLISH_SCAN_DONE (R624, R625, R627): the sweep of SCAN or PEAK ends, and the ring leaves HOLD with a synchronising reset. -/
def execPolishScanDone (ch : Nat) (r : ScanRes) (s : State) : R := s.runIf (Unit.calChannel ch) fun d =>
  let b := ch / 576
  match (d.chan ch).polish with
  | some q =>
    if decide (q.step = .scan) && decide (Tab.look none b d.cal.held = some ch) then
      (d.scanFound ch q r).settle
    else d.beginHeld b
  | none => d

/-- POLISH_RELOCK_DONE (R624, R627): once the ring is LOCKED, DRVCOMP or OFFSET follows. -/
def execPolishRelockDone (ch : Nat) (s : State) : R := s.runIf (Unit.calChannel ch) fun d =>
  match (d.chan ch).polish with
  | some q =>
    if decide (q.step = .relock) && decide ((d.ring ch).st = .locked) then
      (d.setChan ch fun c => { c with polish := some { q with step := if isTx ch then .drvcomp else .offset } }).beginHeld (ch / 576)
    else d
  | none => d

/-- The average of codes, to the nearest, halves upward (log 168). -/
def meanCode (l : List Nat) : Nat := (2 * l.sum + l.length) / (2 * l.length)

/-- The driver compensation is measured, DRVCOMP = B − A within −64 to 63; the transmit channel's full polish is complete (R624, R633). -/
def Dev.drvcompFound (d : Dev) (ch : Nat) (outs : List Nat) : Dev :=
  let a := meanCode (outs.take 8)
  let b := meanCode (outs.drop 8)
  let d := d.setRing ch fun g => { g with drvcomp := max (-64) (min 63 ((b : Int) - a)) }
  let r := d.fullRec ch a (d.ring ch).p0
  (d.setChan ch fun c => { c with newRec := r }).finishPolish ch true true

/-- POLISH_DRVCOMP_DONE (R624, R633): after 8 valid outputs with the driver idle and 8 under the pattern; CODE is A. -/
def execPolishDrvcompDone (ch : Nat) (s : State) : R := s.runIf (Unit.calChannel ch) fun d =>
  match (d.chan ch).polish with
  | some q =>
    if decide (q.step = .drvcomp) && decide (16 ≤ q.outs.length) then
      (d.drvcompFound ch q.outs).settle
    else d
  | none => d

/-! ### The polish pattern (R626) -/

/-- The transmitter drives the polish pattern on a wavelength: it is reserved, or a polish of it has come to the pattern; not in its own SCAN and not
in the idle part of DRVCOMP. -/
def Dev.patternOn (d : Dev) (x : Nat) : Bool :=
  let q := (d.chan x).polish
  let idle := q.any fun q => decide (q.step = .scan) || (decide (q.step = .drvcomp) && decide (q.outs.length < 8))
  isTx x && !idle && (decide ((d.wport (x / 36)).reserved = some (x % 18)) || q.any fun q => decide (q.step = .drvcomp))

/-- The bit of the polish pattern in UI `u` of non-skip slot `n`: the sequence of logical lane 16, seed 0x5A5A5A5A XOR 17, with no data under it. -/
def patternBit (w n u : Nat) : Bool := (prbs31At 16 (n * slotUi w + u)).getLsbD 30

/-- What a transmit ring's driver is given in UI `u`: its lane's line bit, the polish pattern in non-skip slots, else the idle level of bit 0 (R626; 13 R562). -/
def Dev.driverBit (d : Dev) (x : Nat) (lane : Bool) (slot : Option Nat) (u : Nat) : Bool :=
  if (d.ring x).driving then lane
  else match slot with
    | some n => d.patternOn x && patternBit (if (d.lport (x / 36)).txw8 then 8 else 16) n u
    | none => false

/-- POLISH_OFFSET_DONE (R627): the offset of each slice, in 1/8 LSB. -/
def execPolishOffsetDone (ch : Nat) (ofs : List Int) (s : State) : R := s.runIf (Unit.calChannel ch) fun d =>
  let b := ch / 576
  match (d.chan ch).polish with
  | some q =>
    if decide (q.step = .offset) && decide (Tab.look none b d.cal.held = some ch) then
      ((d.setChan ch fun c => { c with polish := some { q with step := .levels, ofs } }).endHeld b).beginHeld b
    else d.beginHeld b
  | none => d

/-- The levels are measured: corrections to the shadow copy, and the lustre (R627, R628). -/
def Dev.levelsFound (d : Dev) (ch : Nat) (q : Polish) (m : LevelStats) : Dev :=
  let ((gain, post, thr), d) := d.corrections m
  let (v, d) := d.lustreOf m
  let d := d.shadow ch { d.rxcOf ch with ofs := q.ofs, gain, post, thr }
  let d := d.setChan ch fun c => { c with polish := some { q with step := .apply } }
  d.setLustre ch v false

/-- POLISH_LEVELS_DONE (R627, R628): the corrections go to the shadow copy; APPLY follows at the next LSLOT boundary. -/
def execPolishLevelsDone (ch : Nat) (m : LevelStats) (s : State) : R := s.runIf (Unit.calChannel ch) fun d =>
  match (d.chan ch).polish with
  | some q =>
    if q.step = .levels then
      (d.levelsFound ch q m).settle
    else d
  | none => d

/-- The shadow copy of entry i takes effect (13 R567). -/
def Dev.applyShadow (d : Dev) (i : Nat) (v : Rxc) : Dev :=
  { d with opt.rxc := Tab.put {} i v d.opt.rxc, opt.shadow := Tab.put none i none d.opt.shadow }

/-- APPLY of a receive channel's full polish: it is complete (R627, R633). -/
def Dev.rxPolished (d : Dev) (x : Nat) (q : Polish) : Dev :=
  let r := d.fullRec x q.newCode (d.ring x).p0
  (d.setChan x fun c => { c with newRec := r }).finishPolish x true true

/-- RX_CORRECTION_APPLY (13 R567; R627 APPLY): the shadow copy takes effect at the LSLOT boundary; a full receive polish is complete. -/
def execRxCorrectionApply (p k : Nat) (s : State) : R := s.runIf (Unit.optPort p && Unit.channel k) fun d =>
  let i := 18 * p + k
  match Tab.look none i d.opt.shadow with
  | none => d
  | some v =>
    let d := d.applyShadow i v
    let x := ringNo p 1 k
    match (d.chan x).polish with
    | some q =>
      if q.step = .apply then (d.rxPolished x q).settle
      else d
    | none => d

/-- A value moved towards another by at most a limit (R629). -/
def stepTo (lim old new : Nat) : Nat := max (old - lim) (min new (old + lim))

/-- A light polish of a transmit ring: CODE, less its driver compensation, and TEMP (R630); written when CODE moved more than 16 (R648). -/
def Dev.lightTx (d : Dev) (ch : Nat) : Dev :=
  let g := d.ring ch
  let old := d.baseRec ch
  let code := clampCode ((g.code : Int) - (if g.comped then g.drvcomp else 0))
  let d := d.setChan ch fun c => { c with newRec := { old with code, temp := d.quartz (ch / 576) } }
  d.finishPolish ch false (decide (16 < ((code : Int) - old.code).natAbs))

/-- A light polish of a receive channel: GAIN moves by at most 8, POST by 2, THR by 1 (R629); written when one moved (R648). -/
def Dev.lightRx (d : Dev) (ch : Nat) (m : LevelStats) : Dev :=
  let old := d.rxcOf ch
  let ((gain, post, thr), d) := d.corrections m
  let new : Rxc := { old with gain := stepTo 8 old.gain gain, post := stepTo 2 old.post post, thr := stepTo 1 old.thr thr }
  let r := d.baseRec ch
  let d := (d.shadow ch new).setChan ch fun c => { c with newRec := r }
  d.finishPolish ch false (decide (new ≠ old))

/-- LIGHT_POLISH_DONE (R629, R630, R648): limited corrections of a receive channel, or CODE and TEMP of a transmit ring that has been LOCKED for 8
valid outputs in a row. -/
def execLightPolishDone (ch : Nat) (m : LevelStats) (s : State) : R := s.runIf (Unit.calChannel ch) fun d =>
  match (d.chan ch).polish with
  | some q =>
    if q.full || decide (q.step ≠ .light) then d
    else if isTx ch then
      if (d.ring ch).run < 8 then d else (d.lightTx ch).settle
    else (d.lightRx ch m).settle
  | none => d

/-- A lustre sample of a live channel (R642 to R644). -/
def Dev.sampled (d : Dev) (ch : Nat) (m : LevelStats) : Dev :=
  let (v, d) := d.lustreOf m
  let d := d.setChan ch fun c => { c with fecHot := decide (2 ^ d.cal.fecWarn < c.fec), fec := 0 }
  d.setLustre ch v true

/-- LUSTRE_SAMPLE (R642 to R644): a channel that carries a lane takes its lustre, and the corrected symbols of the last 1 ms. -/
def execLustreSample (ch : Nat) (m : LevelStats) (s : State) : R := s.runIf (Unit.calChannel ch) fun d =>
  if !isTx ch && d.active (ch / 36) && decide (d.laneOf ch < 16) then (d.sampled ch m).settle else d

/-- The latest record of a channel is written (R648): of a transmit channel its ring's, of a receive channel its own, and its ring's after a full polish. -/
def Dev.saveRecord (d : Dev) (ch : Nat) : Dev :=
  let c := d.chan ch
  let i := 18 * (ch / 36) + ch % 18
  let v := match Tab.look none i d.opt.shadow with | some v => v | none => d.rxcOf ch
  let body : RxRec := { rxc := v, lustre := c.lustre, temp := c.temp.getD 0 }
  let nv := d.calNv
  let nv := if isTx ch || c.wring then { nv with ring := Tab.upd {} ch (fun e => e.write (ringId ch) c.newRec.bytes) nv.ring } else nv
  let nv := if isTx ch then nv else { nv with rx := Tab.upd {} i (fun e => e.write (rxId i) body.bytes) nv.rx }
  { d.setChan ch fun c => { c with wpend := false, wring := false, wroteAt := some d.now } with calNv := nv }

/-- The channel's record may be written: at most once per 60 s (R648). -/
def Dev.mayWrite (d : Dev) (ch : Nat) : Bool := (d.chan ch).wpend && ((d.chan ch).wroteAt.all fun t => decide (t + 60000000000 ≤ d.now))

/-- CAL_RECORD_WRITE (R645 to R649). -/
def execCalRecordWrite (ch : Nat) (s : State) : R := s.runIf (Unit.calChannel ch) fun d =>
  if d.mayWrite ch then d.saveRecord ch else d

/-- RSV_TO in ns (CAL_CFG; 0 acts as 1 ms). -/
def Cal.rsvNs (c : Cal) : Nat := 1000000 * max 1 (c.cfg.toNat / 2 ^ 27 % 32)

/-- RESERVATION_TIMEOUT (R636): RSV_TO after DONE, whose time is kept as one more than it was. -/
def execReservationTimeout (p : Nat) (s : State) : R := s.runIf (Unit.optPort p) fun d =>
  if decide (0 < Tab.look 0 p d.cal.rsvAt) && decide (Tab.look 0 p d.cal.rsvAt + d.cal.rsvNs ≤ d.now + 1) then
    let d := { d.setWport p fun w => { w with reserved := none } with cal.rsvAt := Tab.put 0 p 0 d.cal.rsvAt }
    (d.designate p false).settle
  else d

/-- Ports held in DOWN for a polish that has taken 6 ms wait no longer (R635). -/
def Dev.endPolishWait (d : Dev) : Dev :=
  (d.cal.chans.filter fun c => decide (c.1 / 36 < 64) && isTx c.1 && c.2.polish.any fun q => q.full && decide (q.since + 6000000 ≤ d.now)).foldl
    (fun (d : Dev) c => d.tryLight (c.1 / 36)) d

/-- CAL_CNT_CLR. -/
def execCalCntClr (s : State) : R := s.run fun d => d.mmio 0 fun d => { d with cal.full := 0, cal.light := 0 }

/-- CAL_CNT2_CLR. -/
def execCalCnt2Clr (s : State) : R := s.run fun d => d.mmio 0 fun d => { d with cal.ended := 0 }

end Sys2Proof.Machine
end

