-- ==== Sys2Proof/Machine/Vault.lean ====
section
/-! DEFINITION. The Vault (17): blocks and bands, versions, captures, seals, mirroring, restore and epoch reads, mount and lost dies. -/

namespace Sys2Proof.Machine

/-! ### Blocks, bands and capacity (R700 to R706) -/

def Dev.blk (d : Dev) (i : Nat) : Blk := Tab.look {} i d.onyx.blks
def Dev.setBlk (d : Dev) (i : Nat) (f : Blk → Blk) : Dev := { d with onyx.blks := Tab.upd {} i f d.onyx.blks }

/-- A test block, which the page manager never maps (R702). -/
def isTest (i : Nat) : Bool := decide (4092 ≤ i % 4096)

/-- The die of a block is present (R745). -/
def Dev.dieIn (d : Dev) (i : Nat) : Bool := !d.vlt.out.getLsbD (i / 4096)

/-- A listed block that is not good. -/
def Blk.bad (b : Blk) : Bool := decide (b.st = .retired) || decide (b.st = .factory)

/-- G: good blocks outside the test blocks (R704, R745). -/
def Dev.goodBlocks (d : Dev) : Nat :=
  4092 * ((List.range 8).filter fun k => !d.vlt.out.getLsbD k).length
    - (d.onyx.blks.filter fun x => x.2.bad && !isTest x.1 && d.dieIn x.1).length

/-- Usable capacity in GiB (R704). -/
def Dev.usableGib (d : Dev) : Nat := min 448 ((d.goodBlocks - 1152) / 64)

/-- Average erase count of the good blocks (VLT_WEAR). -/
def Dev.avgErases (d : Dev) : Nat :=
  ((d.onyx.blks.filter fun x => !x.2.bad && !isTest x.1 && d.dieIn x.1).map (·.2.erases)).foldl (· + ·) 0 / max 1 d.goodBlocks

/-- GiB assigned to tenants. -/
def Dev.vaultAssigned (d : Dev) : Nat := ((List.range 16).map fun t => ((d.ten t).assign.getD {}).vaultGib).foldl (· + ·) 0

/-- VLT_CAPACITY when usable capacity falls below the slices (R746), VLT_WEAR when the average erase count reaches 27,000 (R706). -/
def Dev.checkVault (d : Dev) : Dev :=
  let low := decide (d.usableGib < d.vaultAssigned)
  let worn := decide (27000 ≤ d.avgErases)
  let d := (d.postIf (low && !d.vlt.capRaised) Src.vltCapacity 0).postIf (worn && !d.vlt.wearRaised) Src.vltWear 0
  { d with vlt.capRaised := low, vlt.wearRaised := worn }

/-- A grown bad block (R705). -/
def Dev.retireBlk (d : Dev) (i : Nat) : Dev :=
  let open_ := match d.vlt.band with | some (b, _) => (Tab.look [] b d.onyx.bands).contains i | none => false
  let d := d.setBlk i fun b => { b with st := .retired }
  ((({ d with vlt.band := if open_ then none else d.vlt.band }).vlog (.retired i)).post Src.vltBlock 0).checkVault

/-- The free block with the lowest erase count of a plane of a die, but for those the metadata log takes (R704, R706). -/
def Dev.pickBlock (d : Dev) (die plane : Nat) : Option Nat :=
  (List.range 1019).foldl (fun (best : Option Nat) n =>
    let i := 4096 * die + 4 * n + plane
    if (d.blk i).st ≠ .free then best
    else match best with | some j => if (d.blk i).erases < (d.blk j).erases then some i else best | none => some i) none

/-- A place for a version: four stripes of the open band, or of a new one with a free block of each plane present (R703, R706). -/
def Dev.takeSlot (d : Dev) : Dev × Option (Nat × Nat) :=
  let fresh : Dev × Option (Nat × Nat) :=
    let bs := ((List.range 8).filter fun k => !d.vlt.out.getLsbD k).flatMap fun k => (List.range 4).filterMap fun p => d.pickBlock k p
    if bs.isEmpty then (d, none)
    else
      let n := d.onyx.nextBand
      let d := bs.foldl (fun d i => d.setBlk i fun b => { b with st := .mapped }) d
      ({ d with onyx.bands := Tab.put [] n bs d.onyx.bands, onyx.nextBand := n + 1, vlt.band := some (n, 1) }, some (n, 0))
  match d.vlt.band with
  | some (b, k) => if k < 256 then ({ d with vlt.band := some (b, k + 1) }, some (b, k)) else fresh
  | none => fresh

/-- A page of a block has been programmed: the pointer moves past it (R737). -/
def Blk.program (b : Blk) (page now : Nat) : Blk :=
  { b with written := max b.written (page + 1), born := if b.written = 0 then now else b.born }

/-- A version is programmed (R703): it replaces an earlier one of the granule in its epoch. The answer is false without a place for it. -/
def Dev.storeVer (d : Dev) (v : Ver) : Dev × Bool :=
  match d.takeSlot with
  | (d, none) => (d, false)
  | (d, some (b, k)) =>
    let d := (Tab.look [] b d.onyx.bands).foldl (fun d i => d.setBlk i fun x => x.program (4 * k + 3) d.now) d
    ({ d.vlog (.ver v.t v.region v.granule v.epoch b k) with onyx.vers := (d.onyx.vers.filter fun w =>
        !(decide (w.t = v.t) && decide (w.region = v.region) && decide (w.granule = v.granule) && decide (w.epoch = v.epoch)))
          ++ [{ v with band := b, slot := k }] }, true)

/-! ### Use (R734) -/

/-- Chains of a tenant's sealed epochs, of the one being sealed and of its open epoch. -/
def Dev.chains (d : Dev) (t : Nat) : List (List Nat) :=
  let c := Tab.look [] t d.onyx.chain
  ((d.onyx.seals.filter fun (s : Seal) => decide (s.t = t)).map fun s => s.chain) ++ [d.openEp t :: c, c]

/-- The versions that no epoch of the tenant needs are dropped (17, Model). -/
def Dev.prune (d : Dev) (t : Nat) : Dev :=
  let cs := d.chains t
  { d with onyx.vers := d.onyx.vers.filter fun v => decide (v.t ≠ t) || cs.any fun c => decide (d.verOf t v.region v.granule c = some v) }

/-- Granules in use by a tenant. -/
def Dev.vaultUse (d : Dev) (t : Nat) : Nat := (d.onyx.vers.filter fun v => decide (v.t = t)).length

/-- Granules in a GiB. -/
def gibGranules : Nat := 512

/-- The tenant's slice holds `n` more versions (R734). -/
def Dev.sliceHolds (d : Dev) (t n : Nat) : Bool := decide (d.vaultUse t + n ≤ gibGranules * ((d.ten t).assign.getD {}).vaultGib)

/-- The Vault holds one more version (R746). -/
def Dev.vaultHolds (d : Dev) : Bool := decide (d.onyx.vers.length < gibGranules * d.usableGib)

/-- An Onyx die that is present stands at its limit (16 R672). -/
def Dev.onyxHot (d : Dev) : Bool := (List.range 8).any fun k => !d.vlt.out.getLsbD k && (Tab.look {} (50 + k) d.thm.sens).limit

/-- The Vault serves: it is mounted, and the Security Module is not in error mode (19 R818). -/
def Dev.vaultServes (d : Dev) : Bool := decide (d.vlt.st = .ready) && decide (d.sec.mode ≠ .error)

/-- The controller may start programs and erases (R742, 16 R672, 21 R877). -/
def Dev.mayProgram (d : Dev) : Bool :=
  d.vaultServes && !d.vlt.closing && !d.stopped && !d.onyxHot && decide (d.pwr.state ≠ 2)

/-! ### Seals (R720 to R724) -/

/-- VLT_SEAL or VLT_RESTORE of a tenant ends. -/
def Dev.endVault (d : Dev) (t op : Nat) (st : Status) (data : List Nat) : Dev :=
  d.finishAccs (fun a => decide (a.opcode = op) && a.objs.contains (.tenant t)) st data

/-- MIRRORED reads 1 once every sealed epoch of the tenant, of which there is one, stands on both Vaults (R727). -/
def Dev.checkMirrored (d : Dev) (t : Nat) : Dev :=
  let ss := d.onyx.seals.filter fun s => decide (s.t = t)
  d.setVten t fun v => { v with mirrored := !ss.isEmpty && ss.all fun s => s.mirrored }

/-- A recorded seal is finished (R722). -/
def Dev.finishSeal (d : Dev) (t : Nat) : Dev :=
  match (d.vten t).sealing with
  | none => d
  | some s =>
    let d := (d.setVten t fun v => { v with sealing := none }).checkMirrored t
    (d.prune t).endVault t 0x0702 .ok [s.epoch, (((d.sealAt t s.epoch).map Seal.bytes).getD 0)]

/-- A granule's version is stored (17, Model): its mark goes, and the FLUSH operations it serves count it (R716, R719). -/
def Dev.stored (d : Dev) (t : Nat) (m : Mark) : Dev :=
  let d := (d.setVten t fun v => { v with marks := without m v.marks }).lagCheck t
  m.flush.foldl (fun d x => d.confirm x.1 x.2 granuleSize) d

/-- Mirroring of a tenant stops (R744): what the partner has not acknowledged is held for resync, a seal completes here alone, and
VLT_MIRROR is raised where anything waited. -/
def Dev.mirrorLost (d : Dev) (t : Nat) : Dev :=
  let ms := (d.vten t).marks.filter (·.mirrorWait)
  let rec_ := match (d.vten t).sealing with | some s => s.recorded | none => false
  let d := d.postIf ((d.vten t).sealing.isSome) Src.vltMirror 0
  let d := ms.foldl (fun d m => d.stored t m) d
  if rec_ then d.finishSeal t else d

/-- A sealing epoch whose marks are all captured and whose record is not programmed yet. -/
def Dev.sealReady (d : Dev) (t : Nat) : Option Sealing :=
  (d.vten t).sealing.filter fun x => !x.recorded && d.mayProgram && !(d.vten t).marks.any fun m => decide (m.epoch = x.epoch)

/-- The record of a sealed epoch in the log. -/
def Seal.record (x : Seal) : LogRec := .seal x.t x.epoch x.tag x.time x.regions x.chain

/-- A seal record is sent to the partner (R722, 18 R753). -/
def Dev.sendSeal (d : Dev) (x : Seal) : Dev := d.twin 0x22 x.t x.epoch x.record.bytes

/-- The seal record of an epoch is programmed; with mirroring it is final once the partner has it (R722, R724). -/
def Dev.recordSeal (d : Dev) (t : Nat) (x : Sealing) : Dev :=
  let n := (d.onyx.vers.filter fun v => decide (v.t = t) && decide (v.epoch = x.epoch)).length
  let e : Seal := { t, epoch := x.epoch, tag := x.tag, time := x.time, chain := Tab.look [] t d.onyx.chain, regions := x.regions, granules := n }
  let d := ({ d.vlog e.record with onyx.seals := d.onyx.seals ++ [e] }).setVten t fun v => { v with sealing := some { x with recorded := true } }
  if d.mirroring t then d.sendSeal e else d.finishSeal t

/-- VLT_SEAL_RECORD (R722, R724): every granule of E is stored. -/
def execVltSealRecord (t : Nat) (s : State) : R := s.runIf (Unit.tenant t) fun d =>
  match d.sealReady t with | some x => (d.recordSeal t x).settle | none => d

/-! ### Captures (R715 to R718) -/

/-- The tenant's captures may read and program now (05 R206, R734, R746). -/
def Dev.mayCapture (d : Dev) (t : Nat) : Bool :=
  d.mayProgram && (d.fn (t + 1)).bme && (d.ten t).served && !d.fenced t && d.sliceHolds t 1 && d.vaultHolds && d.takeSlot.2.isSome

/-- The mark a capture would take: the first of the granule, before any of it reads (R715). -/
def Dev.markOf (d : Dev) (t r g : Nat) : Option Mark :=
  ((d.vten t).marks.find? fun m => decide (m.region = r) && decide (m.granule = g)).filter fun m => !m.reading

/-- Packet buffer units a capture takes: up to 256 KiB, after the tenant's other traffic (R717). -/
def Dev.captureUnits (d : Dev) (t : Nat) : Option Nat :=
  if Tab.look 0 0 (d.ten t).waiting ≠ 0 then none
  else [1024, 16].find? fun n => d.grantable 0 t n

/-- A tenant has a mark whose capture could start now; `sealing` limits it to those of the epoch being sealed (R717, R722). -/
def Dev.captureWaits (d : Dev) (sealing : Bool) (t : Nat) : Bool :=
  d.mayCapture t && (d.captureUnits t).isSome && (d.vten t).marks.any fun m =>
    !m.reading && (Tab.look none m.region (d.vten t).regions).isSome && (!sealing || (d.vten t).sealing.any fun s => decide (s.epoch = m.epoch))

/-- The tenants whose captures compete: those with granules of an epoch being sealed, where there are any, else all that wait (R722). -/
def Dev.captureRivals (d : Dev) : List Nat :=
  let s := (List.range 16).filter (d.captureWaits true)
  if s.isEmpty then (List.range 16).filter (d.captureWaits false) else s

/-- Captures a tenant has started since the present rivals compete (R717). -/
def Dev.captureShare (d : Dev) (t : Nat) : Nat := if d.captureRivals = d.vlt.rivals then Tab.look 0 t d.vlt.share else 0

/-- It is the tenant's turn: captures of different tenants share the bandwidth in proportion to WEIGHT (R717). -/
def Dev.shareTurn (d : Dev) (t : Nat) : Bool :=
  let w : Nat → Nat := fun u => max 1 ((d.ten u).assign.getD {}).weight
  d.captureRivals.all fun u => decide ((d.captureShare t + 1) * w u ≤ (d.captureShare u + 1) * w t)

/-- The epoch a mark belongs to may be captured: granules of an epoch being sealed go before all others (R722), and tenants share by WEIGHT. -/
def Dev.captureTurn (d : Dev) (t : Nat) (m : Mark) : Bool :=
  ((d.vten t).sealing.any (fun s => decide (s.epoch = m.epoch)) || !(List.range 16).any (d.captureWaits true)) && d.shareTurn t

/-- A capture reads its granule from host memory (R717). -/
def Dev.beginCapture (d : Dev) (t region granule : Nat) (m : Mark) (reg : Region) (n : Nat) : Dev :=
  let rs := d.captureRivals
  let d := { d with vlt.share := Tab.put 0 t (d.captureShare t + 1) (if rs = d.vlt.rivals then d.vlt.share else []), vlt.rivals := rs }
  let d := (d.take 0 t n).setVten t fun v => { v with marks := v.marks.map fun (x : Mark) => if x = m then { m with reading := true, held := n, at_ := d.now } else x }
  d.runJob { for_ := .capture t region granule, fn := t + 1, pasid := some reg.pasid, iova := reg.base + BitVec.ofNat 64 (granuleSize * granule),
             len := granuleSize, engine := 16 }

/-- VLT_CAPTURE_START (R715, R717): the granule is read from host memory under the pinned-memory rule (R712). -/
def execVltCaptureStart (t region granule : Nat) (s : State) : R := s.runIf (Unit.tenant t && Unit.shadowRegion region) fun d =>
  match d.markOf t region granule, Tab.look none region (d.vten t).regions, d.captureUnits t with
  | some m, some reg, some n =>
    if d.mayCapture t && d.captureTurn t m then (d.beginCapture t region granule m reg n).settle else d
  | _, _, _ => d

/-! ### Versions to and from the partner (R726, 18 R753) -/

/-- AUX of a Vault message: REGION, then a PIECE or a STATUS, then GRANULE. -/
def vaultAux (region mid granule : Nat) : Nat := region + 2 ^ 16 * mid + 2 ^ 32 * granule

/-- A version leaves in its 512 pieces, as ciphertext. -/
def Dev.sendVer (d : Dev) (kind : Nat) (v : Ver) : Dev :=
  (List.range 512).foldl (fun d i => d.twin kind v.t (vaultAux v.region i v.granule) (leBytes 8 v.epoch ++ wordBytes (unitWords v.data i))) d

/-- Answers a version with VACK. -/
def Dev.sendVack (d : Dev) (v : Ver) (st : Status) : Dev := d.twin 0x21 v.t (vaultAux v.region st.code v.granule) (leBytes 8 v.epoch)

/-- A whole version of the partner is programmed: one that it mirrors here is acknowledged, and without room VACK carries NO_RESOURCE and VLT_MIRROR
is raised (R726, R744). -/
def Dev.takeVer (d : Dev) (ack : Bool) (v : Ver) : Dev :=
  let d := { d with vlt.lastMirror := true }
  match (if d.vaultHolds then d.storeVer v else (d, false)) with
  | (d, true) => if ack then d.sendVack v .ok else d
  | (d, false) => if ack then (d.sendVack v .noResource).post Src.vltMirror 0 else d

/-- A capture's data is here and waits to be programmed. -/
def Dev.programWaits (d : Dev) : Bool := d.vlt.ten.any fun x => x.2.marks.any fun m => m.read && !m.mirrorWait

/-- The partner's version that has waited longest is programmed, where a program may start: `turn` is false while a capture of this device goes
first (R717). -/
def Dev.programMirror (d : Dev) (turn : Bool) : Dev :=
  match d.vlt.mirq with
  | x :: r => if turn && d.mayProgram then Dev.takeVer { d with vlt.mirq := r } x.1 x.2 else d
  | [] => d

/-- A whole version has arrived: it is programmed at once unless programs wait, or it is a capture's turn (R717). -/
def Dev.queueVer (d : Dev) (ack : Bool) (v : Ver) : Dev :=
  Dev.programMirror { d with vlt.mirq := d.vlt.mirq ++ [(ack, v)] } (!(d.vlt.lastMirror && d.programWaits))

/-- The mark whose granule has been read and is not programmed yet. -/
def Dev.readMark (d : Dev) (t region granule : Nat) : Option Mark :=
  (d.vten t).marks.find? fun m => decide (m.region = region) && decide (m.granule = granule) && m.read && !m.mirrorWait

/-- The version a capture makes (R736). -/
def Dev.captureVer (d : Dev) (t : Nat) (m : Mark) : Ver :=
  { t, region := m.region, granule := m.granule, epoch := m.epoch, data := d.sealGranule t m.region m.granule m.data }

/-- A captured version has been programmed; with mirroring it goes to the partner and is stored once acknowledged (R716, R726). -/
def Dev.captured (d : Dev) (t : Nat) (m : Mark) (v : Ver) : Dev :=
  let d := Dev.prune { d with vlt.lastMirror := false } t
  let d := if d.mirroring t then
      (d.sendVer 0x20 v).setVten t fun y => { y with marks := y.marks.map fun (x : Mark) => if x = m then { m with mirrorWait := true, data := [] } else x }
    else d.stored t m
  d.vaultClosed

/-- VLT_CAPTURE_DONE (R716, R717, R726, R736): the version is programmed; with mirroring it is stored once the partner has acknowledged it. A version
of the partner that waits goes first where it is its turn. -/
def execVltCaptureDone (t region granule : Nat) (s : State) : R := s.runIf (Unit.tenant t && Unit.shadowRegion region) fun d =>
  match d.readMark t region granule with
  | none => d
  | some m =>
    let d := d.programMirror (!d.vlt.lastMirror)
    match d.storeVer (d.captureVer t m) with
    | (d, false) => d
    | (d, true) => ((d.captured t m (d.captureVer t m)).programMirror true).settle

/-! ### OP_FLUSH and OP_EPOCH_READ -/

/-- The granules of a range of a region. -/
def rangeGranules (region off len : Nat) : List (Nat × Nat) :=
  (List.range ((off + len - 1) / granuleSize - off / granuleSize + 1)).map fun i => (region, off / granuleSize + i)

/-- A FLUSH marks the granules of its range and waits for each (R713, R716). -/
def Dev.openFlush (d : Dev) (o : Op) : Dev :=
  match o.desc.body with
  | .vault _ _ off len region =>
    let t := o.gq / 64
    let gs := rangeGranules region off len
    let d := d.setOp { o with open_ := true, issued := true, total := granuleSize * gs.length }
    let d := gs.foldl (fun d g => d.journal 0x06 t (markRef g) (d.openEp t)) (d.mark t gs false)
    let e := d.openEp t
    let serve : Mark → Mark := fun m => if (gs.any fun g => m.pends g e) then { m with flush := m.flush ++ [(o.gq, o.idx)] } else m
    d.setVten t fun v => { v with marks := v.marks.map serve }
  | _ => d

/-- OP_FLUSH (R713, R716): its granules are marked, and it completes once each has been captured. -/
def execOpFlush (gq idx : Nat) (s : State) : R := s.runIf (Unit.queueNo gq) fun d =>
  match d.toOpen gq idx 0x40 with | some o => (d.openFlush o).settle | none => d

/-- The partner may be asked for a version: it holds it, and the pair is in Twin operation. -/
def Dev.partnerHas (d : Dev) (v : Ver) : Bool := v.mirrored && (decide (d.twn.st = .syncing) || decide (d.twn.st = .paired))

/-- Asks the partner for a version, once (R709, R745). -/
def Dev.askVer (d : Dev) (v : Ver) : Dev :=
  let k := (v.t, v.region, v.granule, v.epoch)
  if d.vlt.vget.contains k then d
  else ({ d with vlt.vget := d.vlt.vget ++ [k] }).twin 0x25 v.t (vaultAux v.region 0 v.granule) (leBytes 8 v.epoch)

/-- The damaged versions a read of an epoch needs. -/
def Dev.damagedIn (d : Dev) (t region off len e : Nat) : List Ver :=
  if region = 0xFF then [] else (rangeGranules region off len).filterMap fun g => (d.verAt t g.1 g.2 e).filter fun v => v.damaged

/-- An EPOCH_READ opens its bytes; it waits for the partner where a version is damaged here, and ends MEDIUM_ERROR where the partner
cannot supply it (R732). -/
def Dev.openEpochRead (d : Dev) (o : Op) : Dev :=
  match o.desc.body with
  | .vault e _ off len region =>
    let t := o.gq / 64
    let vs := d.damagedIn t region off len e.toNat
    if len = 0 then d.openBytes o 0
    else if vs.isEmpty then d.openBytes o len
    else if vs.all fun v => d.partnerHas v then vs.foldl Dev.askVer (d.setOp { o with arg := 1 })
    else d.decideOp o.gq o.idx .mediumError
  | _ => d

/-- OP_EPOCH_READ (R732, R733): it waits while the Vault serves nothing (19 R818). -/
def execOpEpochRead (gq idx : Nat) (s : State) : R := s.runIf (Unit.queueNo gq) fun d =>
  match d.toOpen gq idx 0x41 with
  | some o => if d.vaultServes then (d.openEpochRead o).settle else d
  | none => d

/-- EPOCH_READs that waited for the partner are tried again. -/
def Dev.retryReads41 (d : Dev) : Dev :=
  (d.tq.ops.filter fun o => decide (o.desc.op = 0x41) && !o.open_ && decide (o.arg = 1)).foldl (fun d o => d.openEpochRead o) d

/-! ### Mount (R741) -/

/-- The die is lost: versions with a page on it are damaged (R745). -/
def Dev.loseDie (d : Dev) (die : Nat) : Dev :=
  let on : Ver → Bool := fun v => (Tab.look [] v.band d.onyx.bands).any fun i => decide (i / 4096 = die)
  let d := { d with
    vlt.out := d.vlt.out ||| BitVec.ofNat 8 (2 ^ die)
    vlt.band := none
    onyx.vers := d.onyx.vers.map fun (v : Ver) => (if on v then { v with damaged := true } else v : Ver) }
  (d.post Src.vltDieLost (12 + die)).checkVault

/-- The dies of a stack that is held out of service are absent (R745, 01 R37). -/
def Dev.dropHeldDies (d : Dev) : Dev :=
  ((List.range 8).filter fun k => (Tab.look {} (12 + k) d.boot.dies).held && !d.vlt.out.getLsbD k).foldl Dev.loseDie d

/-- The mount fails: item 6 ends in an error. -/
def Dev.mountFails (d : Dev) : Dev :=
  ({ d with vlt.st := .failed, boot.items := Tab.put .notStarted 6 .down d.boot.items }).post Src.vltMount 0

/-- The maps are rebuilt (R741): versions no sealed epoch needs are discarded, and a block partly programmed or being erased is full. -/
def Dev.mounted (d : Dev) : Dev :=
  let d := if d.secNv.pvk.isSome then d else { (d.rand 256).2 with secNv.pvk := some (d.rand 256).1 }
  let d := { d with vlt.scrubAt := d.now }
  Dev.checkVault { d with
    vlt.st := .ready
    vlt.band := none
    boot.items := Tab.put .notStarted 6 .up d.boot.items
    onyx.vers := d.onyx.vers.filter fun v => d.sealed v
    onyx.blks := d.onyx.blks.map fun (x : Nat × Blk) =>
      (x.1, if (decide (0 < x.2.written) && decide (x.2.written < 1024)) || decide (x.2.st = BlkSt.erasing) then
        ({ x.2 with written := 1024, st := if x.2.st = BlkSt.erasing then BlkSt.mapped else x.2.st } : Blk) else x.2) }

/-- VLT_MOUNT (R741, R743, 19 R802): the maps are rebuilt, and versions no sealed epoch needs are discarded; a Vault without versions
has its root created where there is none, and one with versions fails without. -/
def execVltMount (ok : Bool) (s : State) : R := s.run fun d =>
  if d.vlt.st ≠ .mounting then d
  else if !ok || (!d.onyx.vers.isEmpty && d.secNv.pvk.isNone) then d.mountFails.settle
  else (d.dropHeldDies.mounted).settle

/-! ### Programs, erases and page reads -/

/-- A raw command on a block ends (06, Vault group). -/
def Dev.endRaw (d : Dev) (op i : Nat) (st : Status) : Dev :=
  d.finishAccs (fun a => decide (a.opcode = op) && a.objs.contains (.block (i / 4096) (i % 4096))) st []

/-- The raw program of a page that is in progress, with its pattern. -/
def Dev.rawProgram (d : Dev) (i page : Nat) : Option (Nat × Nat × W32) := d.vlt.raw.find? fun x => decide (x.1 = i) && decide (x.2.1 = page)

/-- A raw program has ended (R739): its page holds the pattern, or its block is retired. -/
def Dev.rawProgrammed (d : Dev) (i page : Nat) (x : Nat × Nat × W32) (ok : Bool) : Dev :=
  let d := { d with vlt.raw := without x d.vlt.raw }
  Dev.vaultClosed (
    if ok then (d.setBlk i fun b => { b.program page d.now with pattern := Tab.put none page (some x.2.2) b.pattern }).endRaw 0x0711 i .ok
    else (d.retireBlk i).endRaw 0x0711 i .mediumError)

/-- The versions with a page of a block. -/
def Dev.versOn (d : Dev) (i page : Nat) : List Ver :=
  d.onyx.vers.filter fun v => (Tab.look [] v.band d.onyx.bands).contains i && decide (v.slot = page / 4)

/-- A program of the page manager has failed (R705): the block is retired, and what the page was to hold is programmed in another band. -/
def Dev.programFailed (d : Dev) (i page : Nat) : Dev := (d.versOn i page).foldl (fun d v => (d.storeVer v).1) { d.retireBlk i with vlt.band := none }

/-- VLT_PROGRAM_DONE (R705, R737, R739): a raw program ends its command; a failed program retires the block, and what it held goes to
another band. -/
def execVltProgramDone (die block page : Nat) (ok : Bool) (s : State) : R := s.runIf (Unit.onyxDie die && Unit.onyxBlock block) fun d =>
  let i := 4096 * die + block
  match d.rawProgram i page with
  | some x => (d.rawProgrammed i page x ok).settle
  | none =>
    if isTest block || (d.blk i).bad then d
    else if ok then d.setBlk i fun b => b.program page d.now
    else (d.programFailed i page).settle

/-- A raw erase of the block is in progress. -/
def Dev.rawErasing (d : Dev) (die block : Nat) : Bool :=
  d.mbx.acc.any fun a => decide (a.opcode = 0x0710) && a.objs.contains (.block die block)

/-- A block has been erased, or its erase has failed (R705, R739). -/
def Dev.blockErased (d : Dev) (i : Nat) (raw ok : Bool) : Dev :=
  let b := d.blk i
  let b' : Blk := { st := if raw then b.st else .free, written := if ok then 0 else 1024, erases := b.erases + 1 }
  let d := (d.setBlk i fun _ => b').vlog (.erases i b'.erases)
  let worn := decide (30000 ≤ b'.erases) && !b'.bad
  let d := if !ok || worn then d.retireBlk i else d.checkVault
  if raw then d.endRaw 0x0710 i (if ok then .ok else .mediumError) else d

/-- VLT_ERASE_DONE (R705, R737, R739): the block is free again, retired at 30,000 cycles or when the erase fails; a raw erase returns no
block to service. -/
def execVltEraseDone (die block : Nat) (ok : Bool) (s : State) : R := s.runIf (Unit.onyxDie die && Unit.onyxBlock block) fun d =>
  let i := 4096 * die + block
  if !d.rawErasing die block && decide ((d.blk i).st ≠ .erasing) then d
  else (d.blockErased i (d.rawErasing die block) ok).settle

/-- Replaces a version. -/
def Dev.setVer (d : Dev) (v w : Ver) : Dev := { d with onyx.vers := d.onyx.vers.map fun x => if x = v then w else x }

/-- A version cannot be corrected here (R709): the partner is asked for it, else it is damaged. -/
def Dev.lostVer (d : Dev) (v : Ver) : Dev :=
  if d.partnerHas v then d.askVer v
  else if v.damaged then d
  else ({ d.setVer v { v with damaged := true } with vlt.uncorr := satAdd 0xFF d.vlt.uncorr }).post Src.vltUncorr 0

/-- Most bits a codeword's code corrects (R701). -/
def bchLimit : Nat := 40

/-- The reads of a page up to the first whose codewords can all be corrected: the first read, then up to seven with shifted levels (R709). `none` while
fewer than eight have been made and none is good. Answers how many were made, and the bit errors of the codewords of the last, with false where it
is not good. -/
def goodRead (reads : List (List Nat)) : Option (Nat × List Nat × Bool) :=
  match (reads.take 8).findIdx? fun r => r.all fun n => decide (n ≤ bchLimit) with
  | some i => some (i + 1, reads.getD i [], true)
  | none => if 8 ≤ reads.length then some (8, reads.getD 7 [], false) else none

/-- A page has been read (R708, R709): its block counts its reads and is due to be refreshed at its limits, codewords that needed more than 8 bits are
counted, and an uncorrectable page costs the versions on it. -/
def Dev.pageRead (d : Dev) (i page made : Nat) (errors : List Nat) (ok : Bool) : Dev :=
  let fixed := errors.filter fun n => decide (n ≤ bchLimit)
  let d := d.setBlk i fun b => { b with
    reads := b.reads + made
    refresh := b.refresh || ((fixed.any (fun n => decide (24 < n)) || decide (100000 ≤ b.reads + made)) && !isTest i && !b.bad) }
  let d := { d with vlt.corr := min 0xFFFF (d.vlt.corr + (fixed.filter fun n => decide (8 < n)).length) }
  if ok then d else (d.versOn i page).foldl Dev.lostVer d

/-- VLT_PAGE_READ_DONE (R701, R708, R709): `reads` are the bit errors of the page's codewords at each read level that was tried. -/
def execVltPageReadDone (die block page : Nat) (reads : List (List Nat)) (s : State) : R := s.runIf (Unit.onyxDie die && Unit.onyxBlock block) fun d =>
  match goodRead reads with
  | some (n, errors, ok) => (d.pageRead (4096 * die + block) page n errors ok).settle
  | none => d

/-- The programmed pages at or after a place, in order: the first of them. -/
def nextPage : List (Nat × Blk) → Nat → Nat → Option (Nat × Nat)
  | [], _, _ => none
  | (i, b) :: r, j, p =>
    if i < j then nextPage r j p
    else
      let q := if i = j then p else 0
      if q < b.written then some (i, q) else nextPage r j p

/-- 180 days in nanoseconds. -/
def days180 : Nat := 180 * 86400 * 1000000000

/-- A day in nanoseconds. -/
def dayNs : Nat := 86400 * 1000000000

/-- SCRUB_DAYS of VLT_CFG; 0 acts as 1 (R708). -/
def Vlt.scrubDays (v : Vlt) : Nat := max 1 (v.cfg.toNat / 2 ^ 16 % 256)

/-- A pass of the scrub is over: no programmed page follows the last one. -/
def Dev.passOver (d : Dev) : Bool := (nextPage d.onyx.blks d.vlt.scrub.1 d.vlt.scrub.2).isNone

/-- The page the scrub reads next (R708): the next of its pass, or, SCRUB_DAYS after that pass began, the first of another. -/
def Dev.scrubNext (d : Dev) : Option (Nat × Nat) :=
  if !d.passOver then nextPage d.onyx.blks d.vlt.scrub.1 d.vlt.scrub.2
  else if d.vlt.scrubAt + d.vlt.scrubDays * dayNs ≤ d.now then nextPage d.onyx.blks 0 0 else none

/-- Work of a higher rank than scrub, refresh, relocation and reclaim waits (R740). -/
def Dev.vaultBusier (d : Dev) : Bool :=
  !d.captureRivals.isEmpty || d.programWaits || !d.vlt.mirq.isEmpty || (List.range 16).any (fun t => (d.vten t).restoring.isSome)
    || (d.tq.ops.any fun o => decide (o.desc.op = 0x41) && o.open_ && !o.issued)

/-- VLT_SCRUB_TICK (R708): the scrub goes to the next programmed page, and a block whose data is 180 days old is to be refreshed. -/
def execVltScrubTick (s : State) : R := s.run fun d =>
  if !d.mayProgram || d.vaultBusier then d
  else
    match d.scrubNext with
    | none => d
    | some (i, p) =>
      ({ d with vlt.scrub := (i, p + 1), vlt.scrubAt := if d.passOver then d.now else d.vlt.scrubAt }).setBlk i fun b =>
        { b with refresh := b.refresh || (decide (b.born + days180 ≤ d.now) && decide (b.st = BlkSt.mapped)) }

/-- The live versions on a block's bands move to other bands, as far as there is room (R706). -/
def Dev.moveLive (d : Dev) (i : Nat) : Dev × Bool :=
  let bands := (d.onyx.bands.filter fun x => x.2.contains i).map (·.1)
  let d := { d with vlt.band := match d.vlt.band with | some (b, k) => if bands.contains b then none else some (b, k) | none => none }
  (d.onyx.vers.filter fun v => bands.contains v.band).foldl (fun (x : Dev × Bool) v => if x.2 then x.1.storeVer v else x) (d, true)

/-- A block without live versions is erased, and its bands are given up; a refresh is counted (R706, R708). -/
def Dev.eraseBands (d : Dev) (i : Nat) : Dev :=
  { d.setBlk i (fun b => { b with st := .erasing, refresh := false, written := 1024 }) with
    onyx.bands := ((d.onyx.bands.filter fun x => x.2.contains i).map (·.1)).foldl (fun l b => Tab.put [] b [] l) d.onyx.bands
    vlt.refresh := if (d.blk i).refresh then satAdd 0x7F d.vlt.refresh else d.vlt.refresh }

/-- Erased blocks: good blocks that no band holds and nothing has been programmed in (R740). -/
def Dev.erasedBlocks (d : Dev) : Nat :=
  d.goodBlocks - (d.onyx.blks.filter fun x => !x.2.bad && !isTest x.1 && d.dieIn x.1 && (decide (x.2.st ≠ BlkSt.free) || decide (x.2.written ≠ 0))).length

/-- Erase counts of a die's blocks outside the test blocks. -/
def Dev.dieErases (d : Dev) (die : Nat) : List Nat := (List.range 4092).map fun b => (d.blk (4096 * die + b)).erases

/-- A die's erase counts differ by more than 2,000, and the block's band holds the oldest data (R706). -/
def Dev.wornApart (d : Dev) (i : Nat) : Bool :=
  let es := d.dieErases (i / 4096)
  decide (2000 < es.foldl max 0 - es.foldl min (es.headD 0))
    && d.onyx.blks.all fun x => decide (x.2.st ≠ BlkSt.mapped) || decide (x.2.written = 0) || decide ((d.blk i).born ≤ x.2.born)

/-- A band other than the open one holds the block and has a place without a live version (17, Model). -/
def Dev.holdsDead (d : Dev) (i : Nat) : Bool :=
  d.onyx.bands.any fun b => b.2.contains i && d.vlt.band.all (fun o => decide (o.1 ≠ b.1)) && decide ((d.onyx.vers.filter fun v => decide (v.band = b.1)).length < 256)

/-- The block may be reclaimed now (R706, R708, R740): it is due to be refreshed, relocated or reclaimed, and nothing of a higher rank waits unless
fewer than 256 erased blocks remain. -/
def Dev.reclaimDue (d : Dev) (i : Nat) : Bool :=
  ((d.blk i).refresh || d.wornApart i || d.holdsDead i) && (!d.vaultBusier || decide (d.erasedBlocks < 256))

/-- VLT_RECLAIM (R706, R708, R740): the live versions of the block's band move to a new band, and the block is erased. -/
def execVltReclaim (die block : Nat) (s : State) : R := s.runIf (Unit.onyxDie die && Unit.onyxBlock block) fun d =>
  let i := 4096 * die + block
  if !d.mayProgram || isTest block || decide ((d.blk i).st ≠ .mapped) || !d.reclaimDue i then d
  else
    match d.moveLive i with
    | (d, true) => d.eraseBands i
    | (d, false) => d

/-- VLT_DIE_LOST (R745): epochs that need a version stored on the die are damaged, and new bands use the planes that remain. -/
def execVltDieLost (die : Nat) (s : State) : R := s.runIf (Unit.onyxDie die) fun d =>
  if d.vlt.out.getLsbD die then d else (d.loseDie die).settle

/-! ### Restore (R729 to R731) -/

/-- A granule of a region is written by a restore; the write marks nothing (R730, log 32). -/
def Dev.writeGranule (d : Dev) (t : Nat) (r : Region) (g : Nat) (ws : List W64) : Dev :=
  d.runJob { for_ := .restore t, fn := t + 1, pasid := some r.pasid, iova := r.base + BitVec.ofNat 64 (granuleSize * g), len := granuleSize,
             write := true, data := ws, engine := 16 }

/-- A granule of an epoch's image, from this Vault, or with `far` from the partner's: zeros where no version is (R730, R731). -/
def Dev.imageGranule (d : Dev) (t e : Nat) (far : Bool) (region : Nat) (r : Region) (g : Nat) : Dev :=
  match (if far then d.verAt t region g e else none) with
  | some v =>
    ({ d with vlt.vrest := d.vlt.vrest ++ [(t, region, g, v.epoch)] }).twin 0x25 t (vaultAux region 0 g) (leBytes 8 v.epoch)
  | none => d.writeGranule t r g (d.epochWords t region e (granuleSize * g) granuleSize)

/-- The regions are written with an epoch's image (R730). -/
def Dev.writeImage (d : Dev) (t e : Nat) (far : Bool) : Dev :=
  (d.vten t).regions.foldl (fun d x =>
    match x.2 with
    | none => d
    | some r => (List.range (r.size / granuleSize)).foldl (fun d g => d.imageGranule t e far x.1 r g) d) d

/-- Bytes of a tenant's declared regions. -/
def VTen.bytes (v : VTen) : Nat := (v.regions.map fun x => (x.2.map (·.size)).getD 0).foldl (· + ·) 0

/-- A restore has ended (R730, R731): the restored epoch is the base of the open one, and the command ends. -/
def Dev.restored (d : Dev) (t e : Nat) : Dev :=
  let d := match d.sealAt t e with
    | some x => { d with onyx.chain := Tab.put [] t x.chain d.onyx.chain }
    | none => d.mark t ((d.vten t).regions.flatMap fun (x : Nat × Option Region) => match x.2 with | some r => rangeGranules x.1 0 r.size | none => [])
  (d.prune t).endVault t 0x0703 .ok [(d.vten t).bytes]

/-- A restore of the tenant has writes or versions of the partner outstanding. -/
def Dev.restoreOpen (d : Dev) (t : Nat) : Bool :=
  (d.vlt.vrest.any fun k => decide (k.1 = t)) || d.mbx.jobs.any fun j => decide (j.for_ = .restore t)

/-- VLT_RESTORE_DONE (R730, R731): the last write has ended. E is the base of the new open epoch; where this Vault does not hold E, the restored image
is marked whole (log 33). A restore one of whose writes failed ends with that write's status. -/
def execVltRestoreDone (t : Nat) (ok : Bool) (s : State) : R := s.runIf (Unit.tenant t) fun d =>
  match (d.vten t).restoring with
  | none => d
  | some e =>
    if ok && d.restoreOpen t then d
    else
      let bad := (d.vten t).restoreBad
      let d := { d.setVten t (fun v => { v with restoring := none, restoreBad := none }) with vlt.vrest := d.vlt.vrest.filter fun k => decide (k.1 ≠ t) }
      (match bad with
        | some st => d.endVault t 0x0703 st []
        | none => if ok then d.restored t e else d.endVault t 0x0703 .mediumError []).settle

/-! ### Resync and healing (R727, R745) -/

/-- The partner is sent what it lacks of a tenant (R727): the drops it is owed, then the versions and seal records, oldest epoch first. -/
def Dev.resyncTenant (d : Dev) (t : Nat) : Dev :=
  let owed := d.onyx.dropRec.filter fun x => decide (x.1 = t)
  let d := owed.foldl (fun (d : Dev) x => d.twin 0x24 x.1 x.2) { d with onyx.dropRec := d.onyx.dropRec.filter fun x => decide (x.1 ≠ t) }
  let es := ((d.onyx.seals.filter fun (x : Seal) => decide (x.t = t)).flatMap fun x => x.chain).foldl (fun l e => insertNat e l) []
  (es.foldl (fun d e =>
    let d := (d.onyx.vers.filter fun v => decide (v.t = t) && decide (v.epoch = e) && !v.mirrored && !v.damaged).foldl
      (fun d v => d.sendVer 0x20 v) d
    match d.sealAt t e with | some x => if x.mirrored then d else d.sendSeal x | none => d) d).checkMirrored t

/-- VLT_RESYNC (R727): the partner is sent the drops it is owed, then every version and seal record it lacks, oldest epoch first. -/
def execVltResync (t : Nat) (s : State) : R := s.runIf (Unit.tenant t) fun d =>
  let d := d.setVten t fun v => { v with mirrorOff := false }
  if d.mirroring t && decide (d.vlt.st = .ready) then d.resyncTenant t else d

/-- VLT_HEAL (R745): the partner is asked for the tenant's damaged versions that it holds. -/
def execVltHeal (t : Nat) (s : State) : R := s.runIf (Unit.tenant t) fun d =>
  (d.onyx.vers.filter fun v => decide (v.t = t) && v.damaged && d.partnerHas v).foldl Dev.askVer d

/-! ### Messages of the partner (R726, 18 R753) -/

/-- The pieces received, with this one; a piece is kept once. -/
def withPiece (x : Piece) (ps : List Piece) : List Piece := if ps.contains x then ps else ps ++ [x]

/-- The piece belongs to a version. -/
def Piece.of (t region granule e : Nat) (x : Piece) : Bool :=
  decide (x.t = t) && decide (x.region = region) && decide (x.granule = granule) && decide (x.epoch = e)

/-- The ciphertext of a version from its pieces. -/
def joinPieces (ps : List Piece) : List W64 :=
  (List.range 512).flatMap fun i => unitWords (((ps.find? fun x => decide (x.piece = i)).map (·.data)).getD []) 0

/-- TWN_VPUT (R726, R744): a piece of a version; with the last of 512 the version is taken. A Vault that serves nothing answers NOT_READY. -/
def execTwnVput (t region granule piece : Nat) (epoch : W64) (data : List W64) (s : State) : R := s.runIf (Unit.tenant t) fun d =>
  let ps := withPiece { t, region, granule, epoch := epoch.toNat, piece, data } d.vlt.pieces
  let mine := Piece.of t region granule epoch.toNat
  if (ps.filter mine).length < 512 then { d with vlt.pieces := ps }
  else
    let v : Ver := { t, region, granule, epoch := epoch.toNat, mirrored := true, data := joinPieces (ps.filter mine) }
    let d := { d with vlt.pieces := ps.filter fun x => !mine x }
    (if d.vaultServes then d.queueVer true v else d.sendVack v .notReady).settle

/-- TWN_VACK (R722, R744): the partner stored a version, or has no room for it. -/
def execTwnVack (t region granule : Nat) (epoch : W64) (ok : Bool) (s : State) : R := s.runIf (Unit.tenant t) fun d =>
  let e := epoch.toNat
  if ok then
    let hit : Ver → Bool := fun v => decide (v.t = t) && decide (v.region = region) && decide (v.granule = granule) && decide (v.epoch = e)
    let d := { d with onyx.vers := d.onyx.vers.map fun (v : Ver) => if hit v then { v with mirrored := true } else v }
    match (d.vten t).marks.find? fun m => decide (m.region = region) && decide (m.granule = granule) && decide (m.epoch = e) && m.mirrorWait with
    | some m => (d.stored t m).settle
    | none => d
  else
    let d := (d.setVten t fun v => { v with mirrorOff := true }).post Src.vltMirror 0
    (d.mirrorLost t).settle

/-- The seal record of a partner's epoch (R722). -/
def Dev.sealOf (d : Dev) (t e : Nat) (x : SealMsg) : Seal :=
  { t, epoch := e, tag := x.tag, time := x.time.toNat, chain := e :: x.base.map (·.toNat), regions := x.regions.map fun r => (r.1, r.2.toNat), mirrored := true
    granules := (d.onyx.vers.filter fun v => decide (v.t = t) && decide (v.epoch = e)).length }

/-- Answers a seal record with VSEALACK. -/
def Dev.sendSealAck (d : Dev) (t e : Nat) (st : Status) : Dev := d.twin 0x23 t e (leBytes 2 st.code ++ zeros 6)

/-- A partner's seal record is programmed here and acknowledged (R722). -/
def Dev.takeSeal (d : Dev) (x : Seal) : Dev :=
  Dev.sendSealAck { d.vlog x.record with
    onyx.seals := (d.onyx.seals.filter fun (y : Seal) => !(decide (y.t = x.t) && decide (y.epoch = x.epoch))) ++ [x]
    onyx.chain := Tab.put [] x.t x.chain d.onyx.chain
    onyx.issued := Tab.upd 0 x.t (fun n => max n x.epoch) d.onyx.issued } x.t x.epoch .ok

/-- TWN_VSEAL (R722): the seal record is programmed here and acknowledged. -/
def execTwnVseal (t : Nat) (epoch : W64) (x : SealMsg) (s : State) : R := s.runIf (Unit.tenant t) fun d =>
  if !d.vaultServes then d.sendSealAck t epoch.toNat .notReady else d.takeSeal (d.sealOf t epoch.toNat x)

/-- TWN_VSEALACK (R722, R727). -/
def execTwnVsealack (t : Nat) (epoch : W64) (ok : Bool) (s : State) : R := s.runIf (Unit.tenant t) fun d =>
  let e := epoch.toNat
  let mine := match (d.vten t).sealing with | some x => x.recorded && decide (x.epoch = e) | none => false
  if ok then
    let d := ({ d with onyx.seals := d.onyx.seals.map fun (x : Seal) => if x.t = t && x.epoch = e then { x with mirrored := true } else x }).checkMirrored t
    (if mine then d.finishSeal t else d).settle
  else
    let d := d.post Src.vltMirror 0
    (if mine then d.finishSeal t else d).settle

/-- A sealed epoch goes; a version that no other epoch needs goes with it (R725). -/
def Dev.dropEpoch (d : Dev) (t e : Nat) : Dev :=
  (({ d.vlog (.drop t e) with onyx.seals := d.onyx.seals.filter fun x => !(decide (x.t = t) && decide (x.epoch = e)) }).prune t).checkMirrored t

/-- TWN_VDROP (R725, 19 R805): an epoch, or with EPOCH all ones all of them, goes here too. -/
def execTwnVdrop (t : Nat) (epoch : W64) (s : State) : R := s.runIf (Unit.tenant t) fun d =>
  if epoch.toNat = allEpochs then d.vaultRemove t else d.dropEpoch t epoch.toNat

/-- TWN_VREAD (R709, R731, R732): the version's data is sent, where it is held undamaged. -/
def execTwnVread (t region granule : Nat) (epoch : W64) (s : State) : R := s.runIf (Unit.tenant t) fun d =>
  match d.onyx.vers.find? fun v => decide (v.t = t) && decide (v.region = region) && decide (v.granule = granule) && decide (v.epoch = epoch.toNat) && !v.damaged with
  | some v => d.sendVer 0x26 v
  | none => d

/-- A version asked of the partner is here (R709, R731, R745): a restore writes it to its region; for a heal it is programmed here again, and reads that
waited for it go on. -/
def Dev.gotVer (d : Dev) (v : Ver) : Dev :=
  let k := (v.t, v.region, v.granule, v.epoch)
  let d :=
    if d.vlt.vrest.contains k then
      let d := { d with vlt.vrest := without k d.vlt.vrest }
      match Tab.look none v.region (d.vten v.t).regions with
      | some r => d.writeGranule v.t r v.granule ((List.range 512).flatMap fun u => d.openUnit v.t v.region v.granule v.data u)
      | none => d
    else d
  if d.vlt.vget.contains k then (Dev.queueVer { d with vlt.vget := without k d.vlt.vget } false { v with mirrored := true }).retryReads41 else d

/-- TWN_VDATA (R709, R731, R745): a piece of a version that was asked for; with the last of 512 it is here. -/
def execTwnVdata (t region granule piece : Nat) (epoch : W64) (data : List W64) (s : State) : R := s.runIf (Unit.tenant t) fun d =>
  let k := (t, region, granule, epoch.toNat)
  if !d.vlt.vget.contains k && !d.vlt.vrest.contains k then d
  else
    let ps := withPiece { t, region, granule, epoch := epoch.toNat, piece, data } d.vlt.vdata
    let mine := Piece.of t region granule epoch.toNat
    if (ps.filter mine).length < 512 then { d with vlt.vdata := ps }
    else (Dev.gotVer { d with vlt.vdata := ps.filter fun x => !mine x } { t, region, granule, epoch := epoch.toNat, data := joinPieces (ps.filter mine) }).settle

/-- VLT_CNT.CLR (R750). -/
def execVltCntClr (s : State) : R := s.run fun d => d.mmio 0 fun d => { d with vlt.corr := 0, vlt.uncorr := 0, vlt.refresh := 0 }

end Sys2Proof.Machine
end

