-- ==== Sys2Proof/Machine/Twin.lean ====
section
/-! DEFINITION. Twin operation (18): pairing, snapshots and the journal, guarded effects, failure of the partner, takeover, cleave and rejoin. -/

namespace Sys2Proof.Machine

/-! ### The mirrored state of a tenant (R758, R762) -/

/-- `n` bytes at offset `off` of a message's words, as a number. -/
def fieldAt (ws : List W64) (off n : Nat) : Nat := leNat (((ws.flatMap fun w => leBytes 8 w.toNat).drop off).take n)

/-- Semaphore blocks free on both devices, lowest first (R759). -/
def Dev.freeBlocks (d : Dev) : List Nat :=
  (List.range 256).filter fun b => decide (Tab.look 0 b d.col.owner = 0) && !d.twn.partnerSem.contains b

/-- A place of a group whose member has not been set yet. -/
def noMember : Nat := 0x10000

/-- The members of a group after a COL_GROUP_SET: those from FIRST on are replaced (06 R241). -/
def setMembers (old : List Nat) (total first : Nat) (new : List Nat) : List Nat :=
  (List.range total).map fun i =>
    if first ≤ i && i < first + new.length then new.getD (i - first) noMember
    else if old.length = total then old.getD i noMember else noMember

def snapQ (s : Snap) (q : Nat) (f : QSnap → QSnap) : Snap := { s with queues := s.queues.map fun x => if x.args.queue = q then f x else x }
def snapG (s : Snap) (g : Nat) (f : GSnap → GSnap) : Snap := { s with groups := s.groups.map fun x => if x.g = g then f x else x }

/-- A configuration entry (R762, CFG): the accepted command's payload. `blocks` are the semaphore blocks a TEN_ASSIGN takes. -/
def snapCfg (s : Snap) (op : Nat) (ws : List W64) (blocks : List Nat) : Snap :=
  let f := fieldAt ws
  let q := f 0 1
  match op with
  | 0x0200 =>
    { s with
      blocks
      assign := some { pktFloor := f 0 4, pktCeil := f 4 4, redFloor := f 8 4, redCeil := f 12 4, pgbFloor := f 16 4, pgbCeil := f 20 4,
                       semBlocks := f 24 2, queues := f 26 1, vaultGib := f 28 4, weight := f 32 2, rateGbps := f 36 4 } }
  | 0x0204 => { assign := s.assign, blocks := s.blocks, window := s.window }
  | 0x0210 => { s with window := (BitVec.ofNat 64 (f 0 8), BitVec.ofNat 64 (f 8 8), f 16 4, f 20 4) }
  | 0x0300 =>
    { s with queues := (s.queues.filter fun x => decide (x.args.queue ≠ q)) ++
        [{ args := { queue := q, qtype := f 1 1, ring := BitVec.ofNat 64 (f 4 8), log2 := f 12 1, vector := f 14 2, weight := f 16 2,
                     rate := f 20 4, timeout := f 24 4 } }] }
  | 0x0301 => { s with queues := s.queues.filter fun x => decide (x.args.queue ≠ q) }
  | 0x0410 => { s with streams := (s.streams.filter fun x => decide (x.1 ≠ q)) ++ [(q, BitVec.ofNat 64 (f 4 8), f 12 8, f 20 1, f 21 1)] }
  | 0x0411 => { s with streams := s.streams.filter fun x => decide (x.1 ≠ q) }
  | 0x0600 =>
    let g := f 0 2
    let old := s.groups.find? fun x => decide (x.g = g)
    let ms := setMembers ((old.map (·.members)).getD []) (f 2 2) (f 4 2) ((List.range (f 6 2)).map fun i => f (8 + 2 * i) 2)
    { s with groups := (s.groups.filter fun x => decide (x.g ≠ g)) ++
        [{ g, total := f 2 2, members := ms, counter := (old.map (·.counter)).getD 0, finalised := (old.map (·.finalised)).getD 0 }] }
  | 0x0601 => { s with groups := s.groups.filter fun x => decide (x.g ≠ f 0 2) }
  | 0x0700 => { s with regions := (s.regions.filter fun x => decide (x.1 ≠ q)) ++ [(q, BitVec.ofNat 64 (f 4 8), f 12 8, f 20 4)] }
  | 0x0701 => { s with regions := s.regions.filter fun x => decide (x.1 ≠ q), marks := s.marks.filter fun x => decide (x.1 ≠ q) }
  | _ => s

/-- A journal entry applied to the mirrored state (R762). -/
def snapEntry (s : Snap) (e : JEntry) (blocks : List Nat) : Snap :=
  let ref := e.ref.toNat
  let v := e.value.toNat
  match e.kind with
  | 0x01 => snapQ s (ref % 64) fun q => { q with tail := BitVec.ofNat 32 v }
  | 0x02 =>
    let s := snapQ s (ref % 64) fun q => { q with
      started := q.started ++ [v % 2 ^ 32]
      insts := match e.cont with | g :: k :: _ => q.insts ++ [(v % 2 ^ 32, g.toNat, k.toNat)] | _ => q.insts }
    match e.cont with | g :: k :: _ => snapG s g.toNat fun x => { x with counter := max x.counter k.toNat } | _ => s
  | 0x03 => snapQ s (ref % 64) fun q => { q with done := q.done ++ [(v % 2 ^ 32, e.cont.getD 0 0, e.cont.getD 1 0)] }
  | 0x04 => snapQ s (ref % 64) fun q => { q with
      head := BitVec.ofNat 32 v
      started := q.started.filter fun i => decide ((BitVec.ofNat 32 i - BitVec.ofNat 32 v : W32).toNat < 2 ^ 31)
      done := q.done.filter fun x => decide ((BitVec.ofNat 32 x.1 - BitVec.ofNat 32 v : W32).toNat < 2 ^ 31)
      insts := q.insts.filter fun x => decide ((BitVec.ofNat 32 x.1 - BitVec.ofNat 32 v : W32).toNat < 2 ^ 31) }
  | 0x05 => { s with sems := (s.sems.filter fun x => decide (x.1 ≠ ref)) ++ [(ref, e.value)] }
  | 0x06 => { s with marks := s.marks ++ [(ref / 2 ^ 28, ref % 2 ^ 19, v)] }
  | 0x07 => { s with rsps := s.rsps ++ [(ref % 256, e.cont)] }
  | 0x08 => snapG s ref fun g => { g with finalised := max g.finalised v, counter := max g.counter v }
  | 0x09 => snapCfg s ref e.cont blocks
  | _ => s

/-- A piece of a snapshot joins what came before it. -/
def snapMerge (s x : Snap) : Snap :=
  { assign := x.assign.or s.assign, blocks := s.blocks ++ x.blocks, window := if x.window = (0, 0, 0, 0) then s.window else x.window,
    queues := s.queues ++ x.queues, groups := s.groups ++ x.groups, sems := s.sems ++ x.sems, regions := s.regions ++ x.regions,
    streams := s.streams ++ x.streams, marks := s.marks ++ x.marks, rsps := s.rsps ++ x.rsps }

/-- Semaphore blocks of a tenant. -/
def Dev.blocksOf (d : Dev) (t : Nat) : List Nat := (List.range 256).filter fun b => decide (Tab.look 0 b d.col.owner = t + 1)

/-- Records of a queue that are decided at or above HEAD: written, held, or waiting for their JACK. -/
def Dev.openRecs (d : Dev) (gq : Nat) : List CRec :=
  (d.queue gq).written ++ (d.queue gq).held ++ d.twn.guards.filterMap fun g => match g.2 with | .record x r => if x = gq then some r else none | _ => none

/-- The mirrored state of a tenant served here. -/
def Dev.snapOf (d : Dev) (t : Nat) : Snap :=
  let x := d.ten t
  let bs := d.blocksOf t
  { assign := x.assign, blocks := bs, window := (x.winBase, x.winSize, x.winPasid, x.winFlags)
    queues := (List.range 64).filterMap fun q =>
      let gq := 64 * t + q
      let w := d.queue gq
      if w.st = .absent then none
      else some { args := { queue := q, qtype := w.qtype, ring := w.ring, log2 := w.log2, vector := w.vector, weight := w.weight, rate := w.rate, timeout := w.timeout },
                  head := w.head, tail := w.tail, started := (d.opsOf gq).map (·.idx), done := (d.openRecs gq).map fun r => (r.index, recWords r),
                  insts := (d.opsOf gq).filterMap fun o => match o.desc.body with | .coll _ _ _ g .. => some (o.idx, g, o.result.toNat) | _ => none }
    groups := (d.col.groups.filter fun g => decide (g.1 / 256 = t)).map fun g =>
      { g := g.1 % 256, total := g.2.total, members := g.2.members, counter := g.2.counter, finalised := g.2.finalised }
    sems := d.col.sem.filter fun w => bs.contains (w.1 / 1024)
    regions := (d.vten t).regions.filterMap fun r => r.2.map fun y => (r.1, y.base, y.size, y.pasid)
    streams := (d.rm.streams.filter fun y => decide (y.1 / 32 = t)).map fun y => (y.1 % 32, y.2.base, y.2.span, y.2.log2, y.2.depth)
    marks := (d.vten t).marks.map fun m => (m.region, m.granule, m.epoch)
    rsps := (d.fn (t + 1)).kept.map fun k => (pathKind k.1, replyWords k.2) }

/-! ### States (R755) -/

/-- The pair enters a state, and the PF is told (06, Twin group). -/
def Dev.setTst (d : Dev) (st : TSt) : Dev :=
  if d.twn.st = st then d
  else ({ d with twn.st := st }).notice 0 { opcode := 0x08F0, notice := true, data := [st.code] }

/-- TWN_ENABLE, TWN_REJOIN or TWN_TAKEOVER ends. -/
def Dev.endTwin (d : Dev) (op : Nat) (st : Status) : Dev := d.finishAccs (fun a => decide (a.opcode = op)) st []

/-- Tenants this device serves, as a bitmap. -/
def Dev.servedBits (d : Dev) : Nat := (((List.range 16).filter fun t => (d.ten t).served && (d.ten t).assign.isSome).map fun t => 2 ^ t).foldl (· + ·) 0

/-- Semaphore blocks in use here. -/
def Dev.usedBlocks (d : Dev) : List Nat := (List.range 256).filter fun b => decide (Tab.look 0 b d.col.owner ≠ 0)

/-- The body of PAIR (R753). -/
def Dev.pairBody (d : Dev) : List Byte :=
  leBytes 8 d.fuses.dsn.toNat ++ leBytes 2 (d.fab.pkgid.getD 0) ++ leBytes 1 (bNat d.jad.straps.side) ++ leBytes 1 d.boot.oxMaj.toNat
    ++ leBytes 4 d.boot.fwVer.toNat ++ leBytes 2 d.servedBits ++ memberBits 256 d.usedBlocks ++ zeros 14

/-- Sends PAIR (R753). -/
def Dev.sendPair (d : Dev) : Dev := d.twin 0x01 0xFF 0 d.pairBody

/-! ### Guarded effects (R763, R764) -/

/-- A guarded effect becomes visible. -/
def Dev.release (d : Dev) : Guard → Dev
  | .record gq r => d.writeRecord gq r
  | .sem i v => d.semApply i v
  | .reply n path r => d.send path (decide (n = 1)) r
  | .mark t r g => d.mark t [(r, g)]

/-- Writes that waited for marks are tried again. -/
def Dev.retryHeld (d : Dev) : Dev :=
  let ps := d.vlt.heldPut
  let qs := d.vlt.heldPeer
  let ms := d.vlt.heldDie
  let d := { d with vlt.heldPut := [], vlt.heldPeer := [], vlt.heldDie := [] }
  let d := ps.foldl (fun d h => match d.opAt h.gq h.idx with | some o => d.putLocal o h.iova h.off h.len h.data h.fault | none => d) d
  let d := qs.foldl (fun d x => d.serveReq x.1 x.2) d
  ms.foldl (fun d x => d.dieHost x.1 x.2.1 x.2.2) d

/-- Entries that waited for room in the journal are sent. -/
def Dev.retryJournal (d : Dev) : Dev :=
  let w := d.twn.jwait
  w.foldl (fun d e => d.jsend e.1 e.2) { d with twn.jwait := [] }

/-- Every guarded effect goes, in order: guarded effects no longer wait (R773). -/
def Dev.releaseAll (d : Dev) : Dev :=
  let gs := d.twn.guards.map (·.2) ++ d.twn.jwait.filterMap (·.2)
  (gs.foldl Dev.release { d with twn.guards := [], twn.jwait := [], twn.snapSent := [] }).retryHeld

/-- Nothing guarded is outstanding. -/
def Dev.unguarded (d : Dev) : Bool := d.twn.guards.isEmpty && d.twn.jwait.isEmpty

/-- A tenant leaves this device for its partner, which ends what it had in progress (R755, R769): it ends here as if scrubbed. -/
def Dev.handOver (d : Dev) (t : Nat) : Dev :=
  let d := { d with tq.ops := d.tq.ops.filter fun o => decide (o.gq / 64 ≠ t), mbx.acc := d.mbx.acc.filter fun a => decide (pathFn a.req.path ≠ t + 1) }
  let d := (d.scrub t).unassign t false
  (d.setTen t fun x => { x with rst := 0 }).setFn (t + 1) fun g => { (Fn.mailboxReset g) with kept := [] }

/-- Twin operation ends here (R755, TWN_ENABLE with ON 0). -/
def Dev.twinOff (d : Dev) : Dev :=
  let d := (d.setTst .off).setLport 64 fun l => { cfg := l.cfg }
  { d with twn.enabled := false, twn.aliveOut := false, twn.leaving := none, twn.mirrors := [], twn.partnerServed := 0, twn.partnerSem := [], twn.failedNode := none,
           twn.jnext := 1, twn.jacked := 0, twn.japplied := 0 }

/-- A device that leaves has no guarded effect outstanding any more (R755, R765): DOWN goes out. Synced tenants are the partner's from
now on; unsynced ones stay (R778). -/
def Dev.finishLeaving (d : Dev) : Dev :=
  match d.twn.leaving with
  | none => d
  | some c =>
    if !d.unguarded then d
    else if c = 3 then ({ d with twn.leaving := none }.twinDown 3).loseMain
    else
      let synced := (List.range 16).filter fun t => d.guards t && decide (Tab.look 0 t d.twn.snapSent ≠ 0) && decide (Tab.look 0 t d.twn.snapSent ≤ d.twn.jacked)
      let d := if (d.lport 64).st = .active then d.twin 0x03 0xFF 4 else d
      let d := { d with twn.enabled := false, twn.st := .off, twn.snapSent := [] }
      let d := synced.foldl Dev.handOver d
      ((d.notice 0 { opcode := 0x08F0, notice := true, data := [0] }).twinOff).endTwin 0x0800 .ok

/-! ### Pairing and synchronisation (R756 to R758) -/

/-- Every tenant of both sides is synced: the pair is PAIRED (R755, R758), and a TWN_REJOIN ends (R774). -/
def Dev.checkPaired (d : Dev) : Dev :=
  let mine := (List.range 16).all fun t =>
    !((d.ten t).served && (d.ten t).assign.isSome) || (decide (Tab.look 0 t d.twn.snapSent ≠ 0) && decide (Tab.look 0 t d.twn.snapSent ≤ d.twn.jacked))
  let theirs := (List.range 16).all fun t => !d.twn.partnerServed.getLsbD t || d.twn.mirrors.any fun m => decide (m.t = t) && m.synced
  if decide (d.twn.st = .syncing) && mine && theirs then (d.setTst .paired).endTwin 0x0802 .ok else d

/-- The snapshot of a tenant leaves, at a JSEQ of its own (log 34). -/
def Dev.sendSnap (d : Dev) (t : Nat) : Dev :=
  { d.emit (.snap t (d.snapOf t)) with
    twn.snapSent := Tab.put 0 t d.twn.jnext d.twn.snapSent
    twn.jnext := d.twn.jnext + 1 }

/-- The checks of R756, but for the package IDs. -/
def Dev.pairOk (d : Dev) (m : PairMsg) : Bool :=
  decide (m.side ≠ d.jad.straps.side) && decide (m.oxMaj = d.boot.oxMaj) && decide (m.served.toNat &&& d.servedBits = 0)
    && !(m.semuse.any fun b => d.usedBlocks.contains b) && m.fits

/-- The packages agree, or this one has no package ID yet. -/
def Dev.samePkg (d : Dev) (m : PairMsg) : Bool := match d.fab.pkgid with | some n => decide (n = m.pkgid) | none => true

/-- A pairing accepted: the journal starts anew, and a snapshot of every tenant served here goes to the partner. -/
def Dev.pairAccept (d : Dev) (m : PairMsg) : Dev :=
  let d := { d with
    twn.partnerSide := m.side, twn.partnerServed := m.served, twn.partnerSem := m.semuse, twn.mirrors := [], twn.snapSent := []
    twn.jnext := 1, twn.jacked := 0, twn.japplied := 0, twn.failedNode := none, twn.holdAt := none }
  let d := (d.setTst .syncing).endTwin 0x0800 .ok
  let d := ((List.range 16).filter fun t => (d.ten t).served && (d.ten t).assign.isSome).foldl Dev.sendSnap d
  d.checkPaired

/-- A pairing refused (R755, R756): from PAIRING the pair is REFUSED, a survivor stays in SOLO; two devices of one side raise
SIDE_CONFLICT too (01 R43). -/
def Dev.pairRefuse (d : Dev) (m : PairMsg) : Dev :=
  let d := { d.postIf (decide (m.side = d.jad.straps.side)) Src.sideConflict 0 with twn.partnerSide := m.side }
  let d := if d.twn.st = .pairing then (d.post Src.twnRefused 0).setTst .refused else d
  (d.endTwin 0x0800 .badState).endTwin 0x0802 .badState

/-- TWN_PAIR (R756, R757, 11 R446). A package ID that is not set here cannot differ (log 36). -/
def execTwnPair (m : PairMsg) (s : State) : R := s.run fun d =>
  if d.twn.st ≠ .pairing && d.twn.st ≠ .solo then d
  else
    let e := d.postIf (!d.samePkg m) Src.fabPkgMismatch 0
    if d.samePkg m && e.pairOk m then (e.pairAccept m).settle else (e.pairRefuse m).settle

/-- A part of a tenant's snapshot joins its mirror; the last makes it whole. -/
def Dev.takeSnap (d : Dev) (t off : Nat) (last : Bool) (a : Snap) : Dev :=
  let old := ((d.twn.mirrors.find? fun m => decide (m.t = t)).map (·.snap)).getD {}
  let x : Mirror := { t, snap := if off = 0 then a else snapMerge old a, synced := last }
  { d with twn.mirrors := (d.twn.mirrors.filter fun m => decide (m.t ≠ t)) ++ [x], twn.partnerServed := d.twn.partnerServed ||| BitVec.ofNat 16 (2 ^ t) }

/-- The journal has been applied up to n; the partner is told. -/
def Dev.jack (d : Dev) (n : Nat) : Dev := (({ d with twn.japplied := n }).twin 0x11 0xFF n).checkPaired

/-- TWN_SNAP (R758): a piece of a snapshot of a tenant the partner serves; with the last one it is applied, and acknowledged. -/
def execTwnSnap (t off : Nat) (last : Bool) (a : Snap) (s : State) : R := s.runIf (Unit.tenant t) fun d =>
  if d.twn.st ≠ .syncing && d.twn.st ≠ .paired then d
  else if last then ((d.takeSnap t off last a).jack (d.twn.japplied + 1)).settle
  else d.takeSnap t off last a

/-! ### Journal (R762 to R764) -/

/-- One entry of the partner's journal. -/
def Dev.applyEntry (d : Dev) (e : JEntry) : Dev :=
  let t := e.tenant
  let cfg := decide (e.kind = 0x09)
  if cfg && decide (e.ref.toNat = 0x0201) then
    let bs := ((d.twn.mirrors.find? fun m => decide (m.t = t)).map (·.snap.blocks)).getD []
    { d with
      twn.mirrors := d.twn.mirrors.filter fun m => decide (m.t ≠ t)
      twn.partnerServed := d.twn.partnerServed &&& ~~~ BitVec.ofNat 16 (2 ^ t)
      twn.partnerSem := d.twn.partnerSem.filter fun b => !bs.contains b }
  else
    let d := if cfg && decide (e.ref.toNat = 0x0200) && !d.twn.mirrors.any (fun m => decide (m.t = t)) then
        { d with twn.mirrors := d.twn.mirrors ++ [{ t, synced := true }], twn.partnerServed := d.twn.partnerServed ||| BitVec.ofNat 16 (2 ^ t) }
      else d
    let old := ((d.twn.mirrors.find? fun m => decide (m.t = t)).map (·.snap.blocks)).getD []
    let n := fieldAt e.cont 24 2
    let blocks := if cfg && decide (e.ref.toNat = 0x0200) then (old ++ d.freeBlocks.take (n - old.length)).take n else old
    { d with
      twn.partnerSem := d.twn.partnerSem.filter (fun b => !old.contains b) ++ blocks
      twn.mirrors := d.twn.mirrors.map fun m => if m.t = t then { m with snap := snapEntry m.snap e blocks } else m }

/-- The entries of a journal message that have not been applied yet. -/
def Dev.newEntries (d : Dev) (jseq : Nat) (es : List JEntry) : List JEntry := es.drop (d.twn.japplied + 1 - jseq)

/-- TWN_JRNL (R762): entries the standby has not applied yet are applied in order, and acknowledged. -/
def execTwnJrnl (jseq : Nat) (es : List JEntry) (s : State) : R := s.run fun d =>
  if (d.twn.st ≠ .syncing && d.twn.st ≠ .paired) || decide (d.twn.japplied + 1 < jseq) then d
  else
    let new := d.newEntries jseq es
    ((new.foldl Dev.applyEntry d).jack (d.twn.japplied + new.length)).settle

/-- The partner has applied the journal up to jseq: what waited for it goes on. -/
def Dev.journalAcked (d : Dev) (jseq : Nat) : Dev :=
  let go := d.twn.guards.filter fun g => decide (g.1 ≤ jseq)
  let d := { d with twn.jacked := jseq, twn.guards := d.twn.guards.filter fun g => decide (jseq < g.1) }
  ((go.foldl (fun d g => d.release g.2) d).retryHeld).retryJournal.checkPaired.finishLeaving

/-- TWN_JACK (R763, R764): guarded effects up to the sequence number become visible, and waiting entries go out. -/
def execTwnJack (jseq : Nat) (s : State) : R := s.run fun d =>
  if d.twn.jacked < jseq && jseq < d.twn.jnext then (d.journalAcked jseq).settle else d

/-- TWN_BEAT (R768): the link and the partner are alive. -/
def execTwnBeat (tstate jseq : Nat) (s : State) : R := s.run fun d => { d with twn.beat := some (d.now, tstate, jseq) }

/-- TWN_BEAT_SEND (R768): every 10 µs on a port that is up. -/
def execTwnBeatSend (s : State) : R := s.run fun d =>
  if d.twn.enabled && decide ((d.lport 64).st = .active) then d.twin 0x02 0xFF (d.twn.st.code + 2 ^ 32 * d.twn.japplied) else d

/-! ### Takeover (R769 to R776) -/

/-- The status with a code (05 R200). -/
def statusOf (c : Nat) : Status :=
  ([Status.ok, .accepted, .notReady, .busy, .unsupported, .badLength, .badField, .badTenant, .badState, .accessDenied, .tenantFenced,
    .recoveryRefused, .conflict, .noResource, .alreadyComplete, .aborted, .targetUnavailable, .pathFailure, .timeout, .masterDisabled,
    .mediumError, .notErased, .authFailed, .integrity, .internal].find? fun s => decide (s.code = c)).getD .internal

/-- A record from its two words (07 R270); the journal carries no IRQ flag, so it signals no vector. -/
def recOf (w : W64 × W64) : CRec :=
  { index := w.1.toNat % 2 ^ 32, status := statusOf (w.1.toNat / 2 ^ 32 % 2 ^ 16), phase := w.1.getLsbD 48, partial_ := w.1.getLsbD 49, result := w.2.toNat }

/-- A response from the words of the journal. -/
def replyOf (ws : List W64) : Reply :=
  let b := wordBytes ws
  let (r, st) := readReply (b.take (16 + field b 4 2))
  { r with status := statusOf st, replayed := false }

/-- Steps 3 to 6 for a queue: STOPPED with its HEAD and TAIL; started descriptors without DONE end ABORTED; the records of each slot
wait for Bus Master Enable (R770); members leave their open instances (10 R440). -/
def Dev.adoptQueue (d : Dev) (t : Nat) (q : QSnap) : Dev :=
  let gq := 64 * t + q.args.queue
  let ahead : Nat → Bool := fun i => decide ((BitVec.ofNat 32 i - q.head : W32).toNat < 2 ^ 31)
  let done := (q.done.filter fun x => ahead x.1).map fun x => recOf x.2
  let lost := q.started.filter fun i => ahead i && !done.any fun r => decide (r.index = i)
  let recs := done ++ lost.map fun i => ({ index := i, status := .aborted, phase := phaseOf i q.args.log2, partial_ := true, result := 0 } : CRec)
  let top := recs.filter fun r => !recs.any fun x => decide (x.index % 2 ^ q.args.log2 = r.index % 2 ^ q.args.log2) && decide (r.index < x.index)
  let old := recs.filter fun r => !top.contains r
  let d := d.setQueue gq fun w =>
    { st := .stopped, qtype := q.args.qtype, ring := q.args.ring, log2 := q.args.log2, vector := q.args.vector, weight := q.args.weight,
      rate := q.args.rate, timeout := q.args.timeout, head := q.head, tail := q.tail, next := q.head, recs := recs.map (·.index), written := old, held := top, serial := w.serial, retired := w.retired }
  let d := d.putFlag gq (BitVec.ofNat 64 q.head.toNat)
  let d := if (d.fn (t + 1)).bme then d.flushRecords gq else d
  (q.insts.filter fun x => lost.contains x.1).foldl (fun d x =>
    if d.self t x.2.1 = 0 then let (d, i) := d.openInst t x.2.1 x.2.2; d.failInst i .targetUnavailable
    else (d.collSend t x.2.1 0 6 { bareMsg x.2.2 with chunk := Status.aborted.code }).1) d

/-- A tenant of the partner is served here (R769, R776): from its whole mirror after a failure, from its configuration out of a cleave. -/
def Dev.adopt (d : Dev) (full : Bool) (m : Mirror) : Dev :=
  let t := m.t
  let x := m.snap
  let ports := (Tab.look 0 t d.twn.sbind).toNat % 256
  let d := d.setTen t fun y => { y with
    assign := x.assign, served := true, rst := 0, rstCause := if full then y.rstCause else 2
    winBase := x.window.1, winSize := x.window.2.1, winPasid := x.window.2.2.1, winFlags := x.window.2.2.2 }
  let d := ((List.range 8).filter fun p => ports / 2 ^ p % 2 = 1).foldl (fun d p => d.setHport p fun h => { h with bind := h.bind ||| BitVec.ofNat 16 (2 ^ t) }) d
  let d := x.groups.foldl (fun d g => d.setGroup t g.g fun _ =>
    { total := g.total, members := g.members, complete := decide (g.total ≠ 0) && !g.members.contains noMember, counter := g.counter, finalised := g.finalised }) d
  let d := { d with
    col.owner := x.blocks.foldl (fun o b => Tab.put 0 b (t + 1) o) d.col.owner
    rm.hold := Tab.put 0 t (d.now + 101000) d.rm.hold
    twn.partnerServed := d.twn.partnerServed &&& ~~~ BitVec.ofNat 16 (2 ^ t)
    twn.partnerSem := d.twn.partnerSem.filter fun b => !x.blocks.contains b }
  if !full then d
  else
    let d := { d with col.sem := x.sems.foldl (fun (o : Tab W64) (w : Nat × W64) => Tab.put 0 w.1 w.2 o) d.col.sem }
    let d := d.setVten t fun v => { v with regions := x.regions.foldl (fun (l : Tab (Option Region)) (r : Nat × W64 × Nat × Nat) =>
      Tab.put none r.1 (some { base := r.2.1, size := r.2.2.1, pasid := r.2.2.2 }) l) v.regions }
    let d := d.putMarks t (x.marks.map fun (k : Nat × Nat × Nat) => (k.1, k.2.1)) true
    let d := x.streams.foldl (fun d y => (d.setStream t y.1 fun _ =>
      { base := y.2.1, span := y.2.2.1, log2 := y.2.2.2.1, depth := y.2.2.2.2 }).subscribe t y.1) d
    let d := x.queues.foldl (fun d q => d.adoptQueue t q) d
    let paths : Nat → List Path := fun k => if k = 0 then [.pcie (t + 1)]
      else ((List.range 8).filter fun p => ports / 2 ^ p % 2 = 1).map fun p => .sideband p (t + 1)
    d.setFn (t + 1) fun g => { g with kept := x.rsps.foldl (fun (ks : List (Path × Reply)) (r : Nat × List W64) => (paths r.1).foldl (fun ks p => keepReply p (replyOf r.2) ks) ks) g.kept }

/-- What the partner holds or owes here is out of reach: seals complete on this Vault (17 R744), versions asked of it are damaged
(17 R709), restores from it cannot end well, and EPOCH_READs that waited end (17 R732). -/
def Dev.partnerGone (d : Dev) : Dev :=
  let d := (List.range 16).foldl (fun d t => if (d.ten t).served && (d.ten t).assign.isSome then d.mirrorLost t else d) d
  let asked := d.vlt.vget
  let d := d.vlt.vrest.foldl (fun (d : Dev) k => d.setVten k.1 fun v => { v with restoreBad := v.restoreBad.or (some .mediumError) }) d
  let d := { d with vlt.vget := [], vlt.vrest := [], vlt.vdata := [], vlt.pieces := [], vlt.mirq := d.vlt.mirq.filter fun x => !x.1 }
  let d := asked.foldl (fun d k =>
    match d.onyx.vers.find? fun v => decide ((v.t, v.region, v.granule, v.epoch) = k) with
    | some v => d.lostVer v
    | none => d) d
  d.retryReads41

/-- The survivor takes the partner's tenants over (R769). `full` is false out of a cleave (R776). -/
def Dev.takeover (d : Dev) (full : Bool) : Dev :=
  let d := (d.setTst .solo).releaseAll.partnerGone
  let ms := d.twn.mirrors.filter fun m => !full || m.synced
  let lost := full && (List.range 16).any fun t => d.twn.partnerServed.getLsbD t && !ms.any fun m => decide (m.t = t)
  let d := { d with
    twn.failedNode := if d.fab.node.isSome then some d.partnerNode else none
    twn.mirrors := []
    twn.holdAt := none
    twnPr.takeovers := satAdd 0xFF d.twnPr.takeovers }
  let d := ms.foldl (fun d m => d.adopt full m) d
  let d := { d with twn.partnerServed := 0, twn.partnerSem := [] }
  let d := (d.post Src.twnTakeover 0).postIf lost Src.twnUnsynced 0
  ms.foldl (fun d m => (d.notice (m.t + 1) { opcode := 0x08F0, tenant := m.t, notice := true, data := [5] }).lagCheck m.t) d

/-- The partner is failed (R766, R779): takeover, or TWN_PARTNER_LOST in CLEAVE. -/
def Dev.partnerFailed (d : Dev) : Dev :=
  match d.twn.st with
  | .syncing | .paired => ((d.takeover true).endTwin 0x0802 .badState).finishLeaving
  | .cleave => d.post Src.twnPartnerLost 0
  | _ => d

/-- The pair enters CLEAVE (R768, R773). -/
def Dev.enterCleave (d : Dev) : Dev :=
  let d := (d.setTst .cleave).releaseAll.partnerGone
  ((({ d with twn.holdAt := none, twnPr.cleaves := satAdd 0x7F d.twnPr.cleaves }).post Src.twnCleave 0).endTwin 0x0802 .badState).finishLeaving

/-- TWN_DOWN (R766): DOWN of the partner. -/
def execTwnDown (_cause : Nat) (s : State) : R := s.run fun d => d.partnerFailed.settle

/-- Local times of the HELLOs that came from the partner as a fabric neighbour (R767). -/
def Dev.partnerHellos (d : Dev) : List Nat := (d.fab.nbr.filter fun x => x.2.valid && x.2.partner).map fun x => x.2.last

/-- TWIN_ALIVE has been lost and the Twin port down for 20 µs, both at once (R766). -/
def Dev.partnerSilent (d : Dev) : Bool :=
  !d.twn.aliveIn && decide ((d.lport 64).st ≠ .active) && decide (max d.twn.aliveLost (d.lport 64).leftAt + 20000 ≤ d.now)

/-- TWN_FAILURE_TIMER (R766, R767): TWIN_ALIVE lost and the port down, both for 20 µs. -/
def execTwnFailureTimer (s : State) : R := s.run fun d =>
  if !d.partnerSilent || !d.twn.enabled then d
  else if (decide (d.twn.st = .syncing) || decide (d.twn.st = .paired)) && d.partnerHellos.any fun a => decide (d.now < a + 3000000) then
    { d with twn.holdAt := some d.now }
  else d.partnerFailed.settle

/-- TWN_HELLO_HOLD (R767): a HELLO since the hold began makes it a cleave; 3 ms without one make it a failure. -/
def execTwnHelloHold (s : State) : R := s.run fun d =>
  match d.twn.holdAt with
  | none => d
  | some a =>
    if d.partnerHellos.any fun b => decide (a < b) then d.enterCleave.settle
    else if d.partnerHellos.all fun b => decide (b + 3000000 ≤ d.now) then ({ d with twn.holdAt := none }.partnerFailed).settle
    else d

/-- TWN_PORT_LOST (R752, R768): the Twin port goes down; while TWIN_ALIVE toggles that is cleave. -/
def execTwnPortLost (s : State) : R := s.run fun d =>
  let d := if (d.lport 64).st = .active then d.setLport 64 fun l => { l with st := .down, stAt := d.now, leftAt := d.now } else d
  if d.twn.aliveIn && (decide (d.twn.st = .syncing) || decide (d.twn.st = .paired)) then d.enterCleave.settle else d

/-- TWN_PORT_ACTIVE (R755): PAIR is exchanged. -/
def execTwnPortActive (s : State) : R := s.run fun d =>
  if (d.lport 64).st ≠ .active then d
  else
    match d.twn.st with
    | .pairing | .solo => d.sendPair
    | .cleave => if d.twn.cfg.getLsbD 0 then ((d.setTst .pairing).sendPair).settle else d
    | _ => d

/-- TWN_PAIRING_TIMEOUT (R757): 100 ms in PAIRING. -/
def execTwnPairingTimeout (s : State) : R := s.run fun d =>
  if d.twn.st = .pairing then (d.endTwin 0x0800 .timeout).settle else d

/-- TWN_CNT.CLR (R780). -/
def execTwnCntClr (s : State) : R := s.run fun d => d.mmio 0 fun d => { d with twn.stale := 0 }

end Sys2Proof.Machine
end

