-- ==== Sys2Proof/Machine/Facet.lean ====
section
/-! DEFINITION. Host Facet ports (04): flits, host-port reset, training, repair and masking, the messages of compute dies, and the coherence
channel (09 R378 to R392); Inner Facet clusters. -/

namespace Sys2Proof.Machine

/-! ### Clusters -/

/-- Clusters of a direction: 32 on a Host Facet port, 72 on an Inner Facet (R155). -/
def clusters (p : Nat) : List Nat := List.range (if p < 8 then 32 else 72)

/-- Good clusters of a port. -/
def HPort.goodClus (h : HPort) : Nat := ((List.range 32).filter fun c => !(Tab.look {} c h.clus).masked).length

/-- LANE_THR; 0 acts as 1 (FCT_PCFG). -/
def HPort.laneThr (h : HPort) : Nat := max 1 (h.cfg.toNat % 256)

/-- A feature is in use when its bit is agreed, at a lower revision too (R146, log 140). -/
def HPort.uses (h : HPort) (bit : Nat) : Bool := h.feat.getLsbD bit

/-- Parity and in-service repair are in use (R146, R147): a 1.0 compute die runs without. -/
def HPort.parity (h : HPort) : Bool := decide (0x11 ≤ h.rev) && h.uses 0

/-- Clusters are masked in service (R150, R152). -/
def HPort.masks (h : HPort) : Bool := h.uses 1 && h.cfg.getLsbD 9

/-- The Facet cycle now (R140). -/
def Dev.facetCycle (d : Dev) (p : Nat) : Nat := (d.now - (d.hport p).cycle0) / 4

/-- The spare that carries a lane, and a spare that is free and not bad. -/
def Lrep.carrier (l : Lrep) (lane : Nat) : Option Nat := if l.s0 = some lane then some 0 else if l.s1 = some lane then some 1 else none
def Lrep.spare (l : Lrep) : Option Nat := if l.s0.isNone && !l.s0Bad then some 0 else if l.s1.isNone && !l.s1Bad then some 1 else none

/-- A lane goes to the lowest spare that is free; `none` where there is none. -/
def Lrep.add (l : Lrep) (lane : Nat) : Option Lrep :=
  match l.spare with
  | some 0 => some { l with s0 := some lane }
  | some _ => some { l with s1 := some lane }
  | none => none

/-- Lanes of a cluster that fail, S0 and S1 at 32 and 33, give the spares' use: failing lanes in ascending order take the free spares, S0
first, and a failing spare is never used; `none` when they are not enough (R143). `l` is what fused repairs have placed already (23 R918). -/
def mapLanes (l : Lrep) (bad : BitVec 34) : Option Lrep :=
  let l' : Lrep := { s0 := if bad.getLsbD 32 then none else l.s0, s0Bad := l.s0Bad || bad.getLsbD 32, s1 := if bad.getLsbD 33 then none else l.s1, s1Bad := l.s1Bad || bad.getLsbD 33 }
  ((List.range 32).filter fun i => (bad.getLsbD i || decide (l.carrier i ≠ none)) && (l'.carrier i).isNone).foldl (fun o i => o.bind (·.add i)) (some l')

/-- A lane moves to a spare; the spare that carried it is bad (R149, R160). -/
def Lrep.take (l : Lrep) (lane sp : Nat) : Lrep :=
  let l := match l.carrier lane with
    | some 0 => { l with s0 := none, s0Bad := true }
    | some _ => { l with s1 := none, s1Bad := true }
    | none => l
  if sp = 0 then { l with s0 := some lane } else { l with s1 := some lane }

/-- A link-management message: REPAIR_REQ 1, REPAIR_AT 2, MASK_REQ 3, MASK_AT 4; an Inner Facet has no channels. -/
def Dev.linkMsg (d : Dev) (p kind c a b : Nat) : Dev :=
  if p < 8 then d.facet p 3 1 (.facetLink p kind c a b) else d.emit (.facetLink p kind c a b)

/-! ### Leaving ACTIVE (R153, R154) -/

/-- A notice lost on the way is held again, ahead of later ones (05 R190). -/
def Dev.holdAgain (d : Dev) (f : Nat) (r : Reply) : Dev :=
  if (d.fn f).held.length < 64 then d.setFn f fun g => { g with held := r :: g.held }
  else d.setFn f fun g => { g with ntcLost := satAdd 0xFFFF g.ntcLost, lostNow := g.lostNow + 1 }

/-- Requests of this device over the port end with PATH_FAILURE, but those whose message has not left (R154). -/
def Dev.endPortReads (d : Dev) (p : Nat) (unsent : List Nat) : Dev :=
  let rs := d.mbx.reads.filter fun r => decide (r.port = some p) && !unsent.contains r.tag
  rs.foldl (fun d r => let (d, js) := d.readEnded r .pathFailure []; d.jobsDone js) d

/-- The new value of a cached word is visible to every reader (09 R381). -/
def Dev.publish (d : Dev) (e : DirEnt) : Dev :=
  let d := { d with rm.dir := d.rm.dir.filter fun x => decide (x.word ≠ e.word) }
  match e.newVal with
  | some v => if e.word.sem then d.semShow e.word.index v else d.putFlag e.word.index v
  | none => d

/-- A port holds no copy of a word any more, or has acknowledged its invalidation. -/
def Dev.dropCopy (d : Dev) (p : Nat) (ack : Bool) (e : DirEnt) : Dev :=
  let e' := { e with holders := without p e.holders, acks := if ack then without p e.acks else e.acks }
  if e'.newVal.isSome && e'.acks.isEmpty then d.publish e'
  else if e'.holders.isEmpty && e'.acks.isEmpty then { d with rm.dir := d.rm.dir.filter fun x => decide (x.word ≠ e.word) }
  else { d with rm.dir := d.rm.dir.map fun x => if x.word = e.word then e' else x }

/-- Every directory entry loses the port (09 R383). -/
def Dev.dropCopies (d : Dev) (p : Nat) : Dev :=
  (d.rm.dir.filter fun e => e.holders.contains p || e.acks.contains p).foldl (fun d e =>
    match d.rm.dir.find? fun x => decide (x.word = e.word) with
    | some x => d.dropCopy p true x
    | none => d) d

/-- Tags of the requests whose message still waits. -/
def HPort.unsentTags (h : HPort) : List Nat :=
  h.queue.filterMap fun m => match m.msg with | .facetMem _ k tag .. => if m.part || 8 ≤ k then none else some tag | _ => none

/-- The port leaves ACTIVE or training for a state: unacknowledged flits and messages partly sent are discarded, the others wait; notices
among them are held again; the compute die's copies go (R153, 05 R190, 09 R383). -/
def Dev.dropPort (d : Dev) (p : Nat) (st : PState) : Dev :=
  let h := d.hport p
  let gone := h.unacked.filterMap (·.msg) ++ (h.queue.filter (·.part)).map (·.msg)
  let stay := h.queue.filter fun m => !m.part && (match m.msg with | .facetReply _ _ r => !r.notice | _ => true)
  let back := (gone.filterMap fun o => match o with | .facetReply _ f r => if r.notice then some (f, { r with replayed := true }) else none | _ => none)
    ++ h.queue.filterMap fun m => match m.msg with | .facetReply _ f r => if r.notice && !m.part then some (f, r) else none | _ => none
  let d := d.setHport p fun h => { h with
    st, rev := 0, good := 0, feat := 0, peerRev := 0, peerFeat := 0, negSeen := false, crdSeen := false, txNext := 0, unacked := [], rxNext := 0,
    parts := [], cred := [], memHeld := 0, queue := stay, ctlGap := 7, share := 0, owed := [], ackOwed := false, nakOwed := false, hrAt := some d.now,
    clus := h.clus.filterMap fun c => if c.2.errs = 0 && c.2.lastLane = 0 then none else some (c.1, ({ errs := c.2.errs, lastLane := c.2.lastLane } : Clus)) }
  let d := back.reverse.foldl (fun d x => d.holdAgain x.1 x.2) d
  (d.endPortReads p (d.hport p).unsentTags).dropCopies p

/-- HR (R140, R153): confined to one port whose training has begun; FAILED leaves only by command. -/
def Dev.enterHr (d : Dev) (p : Nat) (byCmd : Bool) : Dev :=
  if Tab.look .notStarted 5 d.boot.items = .notStarted || (decide ((d.hport p).st = .failed) && !byCmd) then d
  else
    let d := if (d.hport p).st = .failed then d.setHport p fun h => { h with tries := 0 } else d
    d.dropPort p .clock

/-- A port left with too few clusters is taken down (R151). -/
def Dev.takeDown (d : Dev) (p : Nat) : Dev :=
  let others := (List.range 8).any fun q => decide (q ≠ p) && decide ((d.hport q).st = .active)
  (d.dropPort p .down).post (if others then Src.facetDown3 else Src.facetDown4) p

/-! ### Flits (R128 to R133) -/

/-- Resends every unacknowledged flit (R130); one resent 16 times already takes the port into HR (R131). -/
def Dev.facetReplay (d : Dev) (p : Nat) : Dev :=
  let h := d.hport p
  if h.unacked.any fun f => decide (16 ≤ f.resent) then (d.enterHr p false).post Src.facetReplay p
  else
    let n := h.unacked.length
    (d.setHport p fun h => { h with
      unacked := h.unacked.map fun f => { f with resent := f.resent + 1 }
      replays := min 0xFFFF (h.replays + n) }).emits (h.unacked.map fun f => Out.facetResend p f.seq)

/-- The flits an ACK covers leave the replay buffer (R129). -/
def ackedFlits (a : Nat) (l : List TxFlit) : List TxFlit :=
  if l.any fun f => decide (f.seq = a) then (l.dropWhile fun f => decide (f.seq ≠ a)).drop 1 else l

/-- This end asks for a mask of a cluster; where masking is not in use the lanes stay, below revision 2.0 the port enters HR (R150, R152, R161). -/
def Dev.askMask (d : Dev) (p c : Nat) : Dev :=
  let h := d.hport p
  if !h.uses 1 then d.enterHr p false
  else if !h.masks then d.post Src.facetLane2 p
  else
    match (d.clus p c).change with
    | some x => if x.mask then d else (d.setClus p c fun y => { y with change := some { mask := true, rx := true } }).linkMsg p 3 c 0 0
    | none => (d.setClus p c fun y => { y with change := some { mask := true, rx := true } }).linkMsg p 3 c 0 0

/-- A memory message with an opcode outside the table (R136): completed with status 1 unless it is posted, and FACET_PROTO. -/
def Dev.unknownOpc (d : Dev) (p : Nat) (u : Option (Nat × Nat × Bool)) : Dev :=
  match u with
  | some (tag, t, posted) => ((if posted then d else d.facetCpl p tag t 1 []).post Src.facetProto p).returnCredit p 0 1
  | none => d

/-- What a flit accepted in sequence changes of its port: ACK and credits are taken; its own credit returns at once but on the memory channel,
and it is to be acknowledged (R129 to R133). -/
def HPort.accept (h : HPort) (f : FacetFlit) : HPort :=
  { h with
    rxNext := (h.rxNext + 1) % 1024
    unacked := ackedFlits f.ack h.unacked
    cred := Tab.upd 0 f.crdCh (· + f.crdCnt) h.cred
    memHeld := if f.ch = 0 && !f.null && f.unsup.isNone then h.memHeld + 1 else h.memHeld
    owed := if f.null || f.ch = 0 then h.owed else Tab.upd 0 f.ch (· + 1) h.owed
    ackOwed := true
    parts := if f.null then h.parts else if f.last then without f.ch h.parts else insertNat f.ch h.parts }

/-- A flit that fails its CRC or its sequence is dropped, and NAK goes with ACK at the last good one (R130). -/
def Dev.nakFlit (d : Dev) (p : Nat) : Dev := (d.setHport p fun h => { h with nakOwed := true }).drainPort p

/-- FACET_FLIT_RX (R128 to R133, R136, R137, R161): CRC and sequence first; then ACK, NAK and credits, and the credit of its own channel. -/
def execFacetFlitRx (p : Nat) (f : FacetFlit) (s : State) : R := s.runIf (Unit.hostPort p) fun d =>
  if (d.hport p).st ≠ .active then d
  else
    let d := f.trackErrs.foldl (fun (d : Dev) e =>
      if decide (8 ≤ e.2) && (d.hport p).parity && !(d.clus p e.1).masked && decide ((d.hport p).st = .active) then d.askMask p e.1 else d) d
    if (d.hport p).st ≠ .active then d.settle
    else if !f.crcOk || f.seq ≠ (d.hport p).rxNext then (d.nakFlit p).settle
    else
      let d := d.setHport p fun h => h.accept f
      let d := d.postIf (!f.null && decide (f.ch = 2)) Src.facetProto p
      let d := if f.nak then d.facetReplay p else d
      ((d.unknownOpc p f.unsup).drainPort p).settle

/-- FACET_ACK_TIMEOUT (R130). -/
def execFacetAckTimeout (p : Nat) (s : State) : R := s.runIf (Unit.hostPort p) fun d =>
  if (d.hport p).st = .active && !(d.hport p).unacked.isEmpty then (d.facetReplay p).settle else d

/-- FACET_HR (R153): the compute die restarts training. -/
def execFacetHr (p : Nat) (s : State) : R := s.runIf (Unit.hostPort p) fun d => (d.enterHr p false).settle

/-- FACET_HR_HOLD_EXPIRY (R154): what the port holds is discarded; what comes to be held later in the same HR waits 2 ms in its turn. -/
def execFacetHrHoldExpiry (p : Nat) (s : State) : R := s.runIf (Unit.hostPort p) fun d =>
  let h := d.hport p
  if h.hrAt.isSome && decide (h.st ≠ .active) then
    ((d.setHport p fun h => { h with queue := [], hrAt := some d.now, discard := min 0x7FFF (h.discard + h.queue.length) }).endPortReads p []).settle
  else d

/-! ### Inner Facet clusters (R155 to R157) -/

/-- The role a cluster has: its own, or the one a spare carries. -/
def InnerDir.role (x : InnerDir) (c : Nat) : Option Nat :=
  if c < 68 then some c else match Tab.look 0 (c - 68) x.spare with | 0 => none | r + 1 => some r

/-- A cluster has failed; a spare that fails carries nothing any more. -/
def InnerDir.fallen (x : InnerDir) (c : Nat) : InnerDir :=
  { x with failed := x.failed ||| BitVec.ofNat 72 (2 ^ c), spare := if c < 68 then x.spare else Tab.put 0 (c - 68) 0 x.spare }

/-- The lowest spare that is free and has not failed (R156). -/
def InnerDir.freeSpare (x : InnerDir) : Option Nat := (List.range 4).find? fun k => decide (Tab.look 0 k x.spare = 0) && !x.failed.getLsbD (68 + k)

/-- A spare takes a role from Facet cycle `n` (R156). -/
def InnerDir.carry (x : InnerDir) (k r n : Nat) : InnerDir := { x with spare := Tab.put 0 k (r + 1) x.spare, since := Tab.put 0 k n x.since }

/-- The cluster that carries a role in a Facet cycle: the spare that took it, from its cycle on, else the role's own cluster. -/
def InnerDir.carrier (x : InnerDir) (r n : Nat) : Nat :=
  match (List.range 4).find? fun k => decide (Tab.look 0 k x.spare = r + 1) && decide (Tab.look 0 k x.since ≤ n) with
  | some k => 68 + k
  | none => r

/-- No cluster and no spare carries control traffic any more (R157). -/
def InnerDir.noControl (x : InnerDir) : Bool :=
  (List.range 4).all fun k => x.failed.getLsbD (64 + k) && !(List.range 4).any fun j => decide (Tab.look 0 j x.spare = 64 + k + 1)

def Inner.dir (x : Inner) (toDie : Bool) : InnerDir := if toDie then x.tx else x.rx
def Inner.setDir (x : Inner) (toDie : Bool) (y : InnerDir) : Inner := if toDie then { x with tx := y } else { x with rx := y }

def Dev.inner (d : Dev) (n : Nat) : Inner := Tab.look {} n d.fct.inner
def Dev.setInner (d : Dev) (n : Nat) (f : Inner → Inner) : Dev := { d with fct.inner := Tab.upd {} n f d.fct.inner }

/-- A tile is held out in service (R157, 01 R36): its optical ports go down with it. -/
def Dev.holdTile (d : Dev) (n : Nat) (mark : Die → Die) : Dev :=
  ((List.range 16).map (16 * n + ·)).foldl Dev.linkReset (d.holdSlots (2 + n) mark)

/-- The role of a failed cluster goes to a spare from a cycle at least 32 on (R150, R156), or is lost: an optical port goes down, or, with
all control clusters gone, the tile is held out (R157). -/
def Dev.innerRole (d : Dev) (n r : Nat) (toDie : Bool) (x : InnerDir) : Dev :=
  match x.freeSpare with
  | some k => d.setInner n fun y => y.setDir toDie (x.carry k r (d.facetCycle (8 + n) + 32))
  | none =>
    let d := d.setInner n fun y => y.setDir toDie x
    if r < 64 then
      let port := 16 * n + r / 4
      ((d.setInner n fun y => { y with lost := y.lost ||| BitVec.ofNat 16 (2 ^ (r / 4)) }).linkReset port).post Src.facetInner port
    else if x.noControl then d.holdTile n id
    else d

/-- An Inner Facet cluster fails in one direction (R156, R157). -/
def Dev.innerFail (d : Dev) (n c : Nat) (toDie : Bool) : Dev :=
  let x := (d.inner n).dir toDie
  if x.failed.getLsbD c then d
  else
    match x.role c with
    | none => d.setInner n fun y => y.setDir toDie (x.fallen c)
    | some r => d.innerRole n r toDie (x.fallen c)

/-- INNER_CLUSTER_FAIL (R156, R157): the lowest free spare takes the cluster's role; without one the optical port goes down, or, with all
four control clusters gone, the tile is held out. -/
def execInnerClusterFail (n c : Nat) (toDie : Bool) (s : State) : R := s.runIf (Unit.bridge n && Unit.innerCluster c) fun d =>
  (d.innerFail n c toDie).settle

/-! ### Training (R139 to R145); link 8 + n is the Inner Facet of tile n -/

/-- FACET_K_LOCK (R140). -/
def execFacetKLock (p : Nat) (s : State) : R := s.runIf (Unit.facetLink p) fun d =>
  if (d.hport p).st = .clock then d.setHport p fun h => { h with st := .ident } else d

/-- The receiver can deskew the lanes: within 8 UI in a cluster and 16 UI in the port (R141). -/
def skewWithin (k : FacetSkew) : Bool :=
  k.lanes.all (fun x => decide (-8 ≤ x.2.2) && decide (x.2.2 ≤ 8)) && k.clusters.all (fun x => decide (-16 ≤ x.2) && decide (x.2 ≤ 16))

/-- Lanes of clusters fail (R142, R143, R158). -/
def Dev.failLanes (d : Dev) (p : Nat) (l : List (Nat × Nat)) : Dev :=
  l.foldl (fun d x => d.setClus p x.1 fun y => { y with failRx := y.failRx ||| BitVec.ofNat 34 (2 ^ x.2) }) d

/-- FACET_LANES_IDENTIFIED (R141, R158): a lane that names another lane or cluster fails; lanes beyond the deskew range leave the port in
IDENT. On an Inner Facet the designator and the lane order are checked (01 R36). -/
def execFacetLanesIdentified (p desig : Nat) (reversed : Bool) (misid : List (Nat × Nat)) (skew : FacetSkew) (s : State) : R := s.runIf (Unit.facetLink p) fun d =>
  if (d.hport p).st ≠ .ident then d
  else if 8 ≤ p && (decide (desig ≠ p - 8) || reversed) then
    ((d.holdTile (p - 8) fun x => { x with mismatch := true }).setHport p fun h => { h with st := .failed }).settle
  else if skewWithin skew then (d.setHport p fun h => { h with st := .centre }).failLanes p misid
  else d

/-- A cluster's lanes after the sweep: the spares this end receives on, or a masked cluster (R143). -/
def Clus.judge (y : Clus) : Clus := match mapLanes y.rx y.failRx with | some l => { y with rx := l } | none => { y with masked := true }

/-- A cluster after the far end's LANE_RES: the spares this end drives, or a masked cluster (R143). -/
def Clus.adopt (y : Clus) (bad : BitVec 34) : Clus := match mapLanes y.tx bad with | some l => { y with tx := l } | none => { y with masked := true }

/-- A failing Inner Facet cluster is not masked: a spare cluster takes its role in that direction (R156). -/
def Dev.innerMasked (d : Dev) (p : Nat) (toDie : Bool) (c : Nat) : Dev :=
  if 8 ≤ p && (d.clus p c).masked then (d.setClus p c fun y => { y with masked := false }).innerFail (p - 8) c toDie else d

/-- Every cluster is judged, and LANE_RES goes out for each (R142, R143). -/
def Dev.judgeLanes (d : Dev) (p : Nat) : Dev :=
  let d := (clusters p).foldl (fun (d : Dev) c => (d.setClus p c Clus.judge).innerMasked p false c) d
  (d.setHport p fun h => { h with st := .repair }).emits ((clusters p).map fun c => Out.facetTrain p 1 [c, (d.clus p c).failRx.toNat])

/-- FACET_CENTRE_DONE (R142, R143): the lanes this end receives are judged and LANE_RES goes out for every cluster. -/
def execFacetCentreDone (p : Nat) (sweeps : List LaneSweep) (badKT : List Nat) (s : State) : R := s.runIf (Unit.facetLink p) fun d =>
  if (d.hport p).st = .centre then
    let d := d.failLanes p ((sweeps.filter fun w => decide (w.steps < 20) || decide (0 < w.errors)).map fun w => (w.cluster, w.lane))
    let d := badKT.foldl (fun (d : Dev) c => d.setClus p c fun y => { y with failRx := BitVec.allOnes 34 }) d
    (d.judgeLanes p).settle
  else d

/-- The port fails to train (R140); an Inner Facet that does leaves its tile without control, which is held out (R157, log 141). -/
def Dev.failFacet (d : Dev) (p : Nat) : Dev :=
  let d := d.setHport p fun h => { h with st := .failed }
  if p < 8 then d.post Src.facetTrain p else d.holdTile (p - 8) id

/-- CRD with this end's pools divided by 8 (channel table; R139): the coherence pool is 16 flits below revision 2.1. -/
def crdArgs (rev : Nat) : List Nat := [64, if rev < 0x21 then 2 else 8, 4, 4]

/-- An Inner Facet has adopted its lane results: it has no negotiation. Garnet B0, which stands in combination 2, makes a second centring pass
once the Beryl's microcode is loaded (04, Inner Facet; 01 R35). -/
def Dev.innerTrained (d : Dev) (n : Nat) : Dev :=
  let second := decide (d.boot.combo = 2) && !(d.inner n).ucode
  let d := d.setInner n fun y => { y with ucode := y.ucode || d.boot.sram.any fun c => decide (c.1 = 2) }
  d.setHport (8 + n) fun h =>
    if second && (d.inner n).ucode then { h with st := .centre }
    else { h with st := .active, rev := 0x21, feat := 0x3, tries := 0, cycle0 := d.now }

/-- FACET_LANE_RES (R139, R140, R143, R156, 23 R918). -/
def execFacetLaneRes (p copies : Nat) (maps : List (Nat × BitVec 34)) (s : State) : R := s.runIf (Unit.facetLink p) fun d =>
  if (d.hport p).st = .repair && decide (16 ≤ copies) && (clusters p).all (fun c => maps.any fun m => decide (m.1 = c)) then
    let d := maps.foldl (fun (d : Dev) m => (d.setClus p m.1 (·.adopt m.2)).innerMasked p true m.1) d
    if 8 ≤ p then (if (Tab.look {} (p - 6) d.boot.dies).held then d else d.innerTrained (p - 8)).settle
    else
      let n := (d.hport p).goodClus
      let d := d.setHport p fun h => { h with good := n }
      if n < 24 then (d.failFacet p).settle
      else (d.setHport p fun h => { h with st := .negotiate }).emits [.facetTrain p 2 [0x21, 0x300F], .facetTrain p 3 (crdArgs 0x21)]
  else d

/-- The revision and features agreed with an offer (R145). -/
def agreedRev (offer : Nat) : Nat := min offer 0x21
def agreedFeat (offer : W32) : W32 := offer &&& 0x300F

/-- FACET_NEG (R140, R145): the reply carries what is agreed, and at a lower revision the smaller coherence pool. -/
def execFacetNeg (p copies rev : Nat) (feat : W32) (s : State) : R := s.runIf (Unit.hostPort p) fun d =>
  if (d.hport p).st = .negotiate && decide (16 ≤ copies) then
    let d := d.setHport p fun h => { h with peerRev := rev, peerFeat := feat, negSeen := true }
    if rev < 0x10 then (d.failFacet p).settle
    else
      let d := d.emits [.facetTrain p 2 [agreedRev rev, (agreedFeat feat).toNat], .facetTrain p 3 (crdArgs (agreedRev rev))]
      if (d.hport p).crdSeen then d.emit (.facetTrain p 4 []) else d
  else d

/-- FACET_CRD (R139, R140): the fields are the pools divided by 8. -/
def execFacetCrd (p copies mem coh irq dbg : Nat) (s : State) : R := s.runIf (Unit.hostPort p) fun d =>
  if (d.hport p).st = .negotiate && decide (16 ≤ copies) then
    let d := d.setHport p fun h => { h with crdSeen := true, cred := Tab.put 0 0 (8 * mem) (Tab.put 0 1 (8 * coh) (Tab.put 0 2 (8 * irq) (Tab.put 0 3 (8 * dbg) []))) }
    if (d.hport p).negSeen then d.emit (.facetTrain p 4 []) else d
  else d

/-- What waited for the port goes out (05 R179, R190). -/
def Dev.portOpened (d : Dev) (p : Nat) : Dev :=
  let d := d.drainPort p
  (List.range 17).foldl (fun d f =>
    let d := if (d.fn f).irqDest = p + 1 then d.flushVecs f else d
    if (d.fn f).ntcDest = p + 1 then d.flushHeld f else d) d

/-- FACET_READY (R140): ACTIVE; Facet cycle 0 is four cycles of 4 ns on. -/
def execFacetReady (p copies : Nat) (s : State) : R := s.runIf (Unit.hostPort p) fun d =>
  let h := d.hport p
  if h.st = .negotiate && decide (16 ≤ copies) && h.negSeen && h.crdSeen then
    (d.setHport p fun h => { h with st := .active, rev := agreedRev h.peerRev, feat := agreedFeat h.peerFeat, tries := 0, cycle0 := d.now + 16, hrAt := none }).portOpened p
  else d

/-- A port whose attempt has failed begins again: what training found is forgotten, but for the counts and fused repairs. -/
def HPort.retry (p : Nat) (h : HPort) : HPort :=
  { h with
    st := .down, peerRev := 0, peerFeat := 0, negSeen := false, crdSeen := false, cred := [], good := 0
    clus := Tab.mapv {} (fun _ c => if 8 ≤ p then { c with failRx := 0 } else ({ errs := c.errs, lastLane := c.lastLane } : Clus)) h.clus }

/-- FACET_TRAIN_TIMEOUT (R140): the attempt is counted and the port is DOWN, or, at the third, FAILED. -/
def execFacetTrainTimeout (p : Nat) (s : State) : R := s.runIf (Unit.facetLink p) fun d =>
  let h := d.hport p
  if [PState.clock, .ident, .centre, .repair, .negotiate].contains h.st then
    let d := d.setHport p fun h => { h with tries := h.tries + 1 }
    if 3 ≤ h.tries + 1 then (d.failFacet p).settle else d.setHport p (HPort.retry p)
  else d

/-- The next attempt of a port whose last one failed begins of itself (R140, log 142). -/
def Dev.retrain (d : Dev) : Dev :=
  (List.range 12).foldl (fun d p =>
    if decide ((d.hport p).st = .down) && decide (0 < (d.hport p).tries) then d.setHport p fun h => { h with st := .clock } else d) d

/-! ### Lane health in service (R147 to R152, R159, R160) -/

/-- A lane is declared failing (R148 to R152, R160): it moves to a spare, or its cluster is masked, or it stays in use. -/
def Dev.laneFails (d : Dev) (p c lane : Nat) : Dev :=
  let y := d.clus p c
  let h := d.hport p
  if y.masked then d
  else if y.change.isSome then d.setClus p c fun y => { y with waiting := if y.waiting.contains lane then y.waiting else y.waiting ++ [lane] }
  else if !h.cfg.getLsbD 8 then d.post Src.facetLane2 p
  else
    match y.rx.spare with
    | some sp => (d.setClus p c fun y => { y with change := some { mask := false, rx := true, lane, spare := sp } }).linkMsg p 1 c lane sp
    | none => if 8 ≤ p then d.innerFail (p - 8) c false else if h.masks then d.askMask p c else d.post Src.facetLane2 p

/-- FACET_LANE_WINDOW (R148): cluster, lane index and errors of each lane with any; the spares at 32 and 33 while they carry no lane. -/
def execFacetLaneWindow (p : Nat) (errs : List (Nat × Nat × Nat)) (s : State) : R := s.runIf (Unit.facetLink p) fun d =>
  let h := d.hport p
  if h.st = .active && h.parity then
    (errs.foldl (fun (d : Dev) e =>
      let (c, lane, n) := e
      if n = 0 || (d.clus p c).masked || !(clusters p).contains c then d
      else
        let d := d.setClus p c fun y => { y with errs := min 0xFFFF (y.errs + n), lastLane := lane }
        if n < h.laneThr then d
        else if lane = 32 then d.setClus p c fun y => { y with rx := if y.rx.s0.isNone then { y.rx with s0Bad := true } else y.rx }
        else if lane = 33 then d.setClus p c fun y => { y with rx := if y.rx.s1.isNone then { y.rx with s1Bad := true } else y.rx }
        else d.laneFails p c lane) d).settle
  else d

/-- Answers a repair the far end asked for: cycle N is at least 32 on (R149). -/
def Dev.answerRepair (d : Dev) (p c lane spare : Nat) : Dev :=
  let n := d.facetCycle p + 32
  (d.setClus p c fun y => { y with change := some { mask := false, rx := false, lane, spare, cyc := some n }, asked := none }).linkMsg p 2 c n 0

/-- What waited while the cluster had a change in progress goes on (R159). -/
def Dev.nextChange (d : Dev) (p c : Nat) : Dev :=
  let y := d.clus p c
  if y.change.isSome || y.masked then d
  else
    match y.asked, y.waiting with
    | some (l, sp), _ => d.answerRepair p c l sp
    | none, l :: r => (d.setClus p c fun y => { y with waiting := r }).laneFails p c l
    | none, [] => d

/-- FACET_REPAIR_REQ (R149, R159): this end transmits the lane; where repair is not agreed the request is discarded (R136, R146). -/
def execFacetRepairReq (p c lane spare : Nat) (s : State) : R := s.runIf (Unit.facetCluster p c) fun d =>
  let y := d.clus p c
  if decide ((d.hport p).st ≠ .active) || y.masked then d
  else if !(d.hport p).parity then (d.post Src.facetProto p).settle
  else
    match y.change with
    | some x => if x.mask then d else d.setClus p c fun y => { y with asked := some (lane, spare) }
    | none => (d.answerRepair p c lane spare).settle

/-- FACET_REPAIR_AT (R149). -/
def execFacetRepairAt (p c n : Nat) (s : State) : R := s.runIf (Unit.facetCluster p c) fun d =>
  match (d.clus p c).change with
  | some x => if !x.mask && x.rx && x.cyc.isNone then d.setClus p c fun y => { y with change := some { x with cyc := some n } } else d
  | none => d

/-- FACET_REPAIR_CYCLE_N (R149): the transmitter drives the lane on both. -/
def execFacetRepairCycleN (p c : Nat) (s : State) : R := s.runIf (Unit.facetCluster p c) fun d =>
  match (d.clus p c).change with
  | some x =>
    if !x.mask && !x.rx && x.cyc.isSome && !x.dual then
      ((d.setClus p c fun y => { y with change := some { x with dual := true }, tx := y.tx.take x.lane x.spare }).post Src.facetLane1 p).settle
    else d
  | none => d

/-- FACET_REPAIR_TAKE (R149): at N + 16 the receiver takes the spare. -/
def execFacetRepairTake (p c : Nat) (s : State) : R := s.runIf (Unit.facetCluster p c) fun d =>
  match (d.clus p c).change with
  | some x =>
    if !x.mask && x.rx && x.cyc.isSome && !x.taken then
      ((d.setClus p c fun y => { y with change := some { x with taken := true }, rx := y.rx.take x.lane x.spare }).post Src.facetLane1 p).settle
    else d
  | none => d

/-- FACET_REPAIR_RELEASE (R149, R159): at N + 64 the repair is over. -/
def execFacetRepairRelease (p c : Nat) (s : State) : R := s.runIf (Unit.facetCluster p c) fun d =>
  match (d.clus p c).change with
  | some x => if x.dual || x.taken then ((d.setClus p c fun y => { y with change := none }).nextChange p c).settle else d
  | none => d

/-- FACET_MASK_REQ (R150, R159): a repair of the cluster is abandoned; where masking is not agreed the request is discarded (R136, R146). -/
def execFacetMaskReq (p c : Nat) (s : State) : R := s.runIf (Unit.hostPort p && Unit.cluster c) fun d =>
  let y := d.clus p c
  if decide ((d.hport p).st ≠ .active) || y.masked then d
  else if !(d.hport p).uses 1 then (d.post Src.facetProto p).settle
  else
    let m := match y.change with | some x => if x.mask then x.cyc.getD (d.facetCycle p + 32) else d.facetCycle p + 32 | none => d.facetCycle p + 32
    ((d.setClus p c fun y => { y with change := some { mask := true, rx := false, cyc := some m }, asked := none }).linkMsg p 4 c m 0).settle

/-- FACET_MASK_AT (R150). -/
def execFacetMaskAt (p c m : Nat) (s : State) : R := s.runIf (Unit.hostPort p && Unit.cluster c) fun d =>
  match (d.clus p c).change with
  | some x => if x.mask && x.cyc.isNone then d.setClus p c fun y => { y with change := some { x with cyc := some m } } else d
  | none => d

/-- A cluster carries nothing from now on (R150); what waited for its repair is forgotten. -/
def Dev.maskNow (d : Dev) (p c : Nat) : Dev :=
  let d := d.setClus p c fun y => { y with masked := true, change := none, waiting := [], asked := none }
  (d.setHport p fun h => { h with good := h.goodClus }).post Src.facetMask p

/-- FACET_MASK_CYCLE (R150, R151). -/
def execFacetMaskCycle (p c : Nat) (s : State) : R := s.runIf (Unit.hostPort p && Unit.cluster c) fun d =>
  match (d.clus p c).change with
  | some x =>
    if x.mask && x.cyc.isSome then
      let d := d.maskNow p c
      (if (d.hport p).good < 24 then d.takeDown p else d).settle
    else d
  | none => d

/-- FCT_RETRY_CLR (R154). -/
def execFctRetryClr (p : Nat) (s : State) : R := s.runIf (Unit.hostPort p) fun d => d.mmio 0 fun d => d.setHport p fun h => { h with replays := 0, discard := 0 }

/-- FCT_PERR_CLR (R148): COUNT only. -/
def execFctPerrClr (p c : Nat) (s : State) : R := s.runIf (Unit.hostPort p && Unit.cluster c) fun d => d.mmio 0 fun d => d.setClus p c fun y => { y with errs := 0 }

/-! ### Memory messages of compute dies (R136; 07 R263, 08 R301, 09 R351 to R357, R384, 10 R431) -/

/-- Completes a compute die's request with a status, unless it is posted. -/
def Dev.dieStatus (d : Dev) (p : Nat) (m : MemMsg) (posted : Bool) (st : Nat) : Dev := if posted then d else d.facetCpl p m.tag m.tenant st []

/-- A request that is not supported, or uses a feature not agreed (R136). -/
def Dev.dieRefuse (d : Dev) (p : Nat) (m : MemMsg) (posted : Bool) (st : Nat := 1) : Dev := (d.dieStatus p m posted st).post Src.facetProto p

/-- LEN, the data carried and, for atomics, the code and alignment fit the message (04, memory message header; 09 R351, R352). -/
def memOk (kind : Nat) (m : MemMsg) : Bool :=
  let lenOk := decide (8 ≤ m.len) && decide (m.len ≤ 256) && decide (m.len % 8 = 0)
  decide (m.tenant < 16) &&
    if kind = 1 then lenOk && m.data.isEmpty
    else if kind ≤ 3 then lenOk && decide (m.data.length * 8 = m.len)
    else decide (m.aop ≤ 9) && decide (m.addr.toNat % 8 = 0) && decide (m.data.length = if m.aop = 5 then 2 else 1)

/-- A doorbell address (07 R263), and the address of a semaphore (10 R431). -/
def isDoorbell (a : W64) : Bool := decide (a.toNat / 2 ^ 18 = 2 ^ 46 - 1)
def isSemAddr (a : W64) : Bool := decide (a.toNat / 2 ^ 24 = 2 ^ 40 - 1) && decide (a.toNat / 2 ^ 21 % 8 = 0) && decide (a.toNat % 8 = 0)

/-- An access in the doorbell region: a doorbell, or a read of an ordering flag (07 R263, 09 R384). -/
def Dev.dieDoorbell (d : Dev) (kind p : Nat) (m : MemMsg) : Dev :=
  let gq := 64 * m.tenant + m.addr.toNat / 4096 % 64
  let off := m.addr.toNat % 4096
  let bound := (d.hport p).bind.getLsbD m.tenant
  if kind = 3 && off = 0 && m.len = 8 then
    if bound then d.doorbell gq (BitVec.ofNat 32 (m.data.getD 0 0).toNat) else d.post Src.facetProto p
  else if kind = 1 && off = 8 && m.len = 8 then
    if bound then d.facetCpl p m.tag m.tenant 0 [Tab.look 0 (gq % 64) (d.ten m.tenant).qflag] else d.facetCpl p m.tag m.tenant 5 []
  else d.dieRefuse p m (kind = 3 || kind = 5)

/-- An uncached access to a semaphore (10 R431). -/
def Dev.dieSem (d : Dev) (kind p : Nat) (m : MemMsg) : Dev :=
  let posted := decide (kind = 3) || decide (kind = 5)
  let i := m.addr.toNat / 8 % 2 ^ 18
  if d.semOwner i ≠ m.tenant + 1 then d.dieRefuse p m posted 5
  else if kind ≤ 3 && m.len ≠ 8 then d.dieRefuse p m posted
  else if kind = 1 then d.facetCpl p m.tag m.tenant 0 [d.semSeen i]
  else if kind ≤ 3 then (d.semSet i (m.data.getD 0 0)).dieStatus p m posted 0
  else
    match d.semDo i { op := 0x30, aop := m.aop, cond := 0, operand := m.data.getD 0 0, compare := m.data.getD 1 0 } with
    | (d, some old) => if posted then d else d.facetCpl p m.tag m.tenant 0 [old]
    | (d, none) => d

/-- A request with a fabric address: one transaction per 4 KiB-aligned piece (09 R355, R361). -/
def Dev.dieFabric (d : Dev) (kind p : Nat) (m : MemMsg) : Dev :=
  let t := m.tenant
  let id := d.rm.nextDie
  let len := if 4 ≤ kind then 8 else m.len
  let ps := pieces m.addr.toNat len
  let r : DieReq := { id, p, tag := m.tag, tenant := t, posted := decide (kind = 3) || decide (kind = 5), read := decide (kind = 1) || decide (kind = 4), pieces := ps.length, units := 1 }
  let d := { d with rm.nextDie := id + 1, rm.die := d.rm.die ++ [r] }
  ps.zipIdx.foldl (fun (d : Dev) x =>
    let ((off, n), i) := x
    let a := m.addr.toNat + off
    if kind = 1 then d.readPiece t id i a n m.telem m.relaxed
    else
      let k : Pkt := { d.faPkt t a with telem := m.telem, relaxed := m.relaxed, len := n, data := (m.data.drop (off / 8)).take (n / 8) }
      if kind ≤ 3 then d.issuePiece id i .wr k
      else d.issuePiece id i .atom { k with aux := m.aop, data := m.data, len := 8 * m.data.length }) d

/-- The port and the agreed features allow a request (R136). -/
def HPort.allows (h : HPort) (kind : Nat) (m : MemMsg) : Bool :=
  memOk kind m && (m.telem.isNone || h.feat.getLsbD 2) && (decide (kind ≠ 5) || h.feat.getLsbD 12) && (!m.hint || h.feat.getLsbD 13)

/-- A request that the packet buffer has accepted: its credits return and it takes its effect; one with a fabric address keeps its unit until
its last piece has ended (R133, 07 R257). -/
def Dev.dieRun (d : Dev) (kind p : Nat) (m : MemMsg) : Dev :=
  let d := d.memCredit p m
  if m.fabric then (d.count m.tenant (if kind = 1 then 56 else if kind ≤ 3 then 57 else 58) 1).dieFabric kind p m
  else (if isDoorbell m.addr then d.dieDoorbell kind p m else if isSemAddr m.addr then d.dieSem kind p m else d.dieHost kind p m).give 0 m.tenant 1

/-- A memory request of a compute die: RD 1, WR 2, WRP 3, ATOM 4, ATOMP 5. It waits, with its credits withheld, for its packet buffer unit and
behind the tenant's requests that wait on the port (R133, 07 R257; log 151). -/
def Dev.dieMsg (d : Dev) (kind p : Nat) (m : MemMsg) : Dev :=
  let d := d.wake
  let h := d.hport p
  if h.st ≠ .active then d
  else if !h.allows kind m then (d.memCredit p m).dieRefuse p m (kind = 3 || kind = 5)
  else
    let wait := fun (d : Dev) => d.setHport p fun h => { h with memWait := h.memWait ++ [(kind, m)] }
    if h.memWait.any fun x => decide (x.2.tenant = m.tenant) then wait d
    else
      match d.claim 0 m.tenant 1 with
      | (d, true) => d.dieRun kind p m
      | (d, false) => wait d

/-- The first request of a tenant that waits on a port for units is tried again. -/
def Dev.retryPort (d : Dev) (t p : Nat) : Dev :=
  match (d.hport p).memWait.find? fun x => decide (x.2.tenant = t) with
  | none => d
  | some x =>
    match d.claim 0 t 1 with
    | (d, true) => (d.setHport p fun h => { h with memWait := without x h.memWait }).dieRun x.1 p x.2
    | (d, false) => d

/-- BUFFER_UNIT_FREE (07 R258): the freed units go to the tenant they are for, whose waiting requests of compute dies are tried again. -/
def execBufferUnitFree (pool t : Nat) (s : State) : R := s.runIf (Unit.bufferPool pool && Unit.tenant t) fun d =>
  match d.grantFreed pool t with
  | (d, some u) => if pool = 0 then ((List.range 12).foldl (fun d p => d.retryPort u p) d).settle else d
  | (d, none) => d

/-- FACET_MSG_RD (09 R355). -/
def execFacetMsgRd (p : Nat) (m : MemMsg) (s : State) : R := s.intake (Unit.hostPort p) (.die 1 p m) fun d => (d.dieMsg 1 p m).settle

/-- FACET_MSG_WR (09 R355). -/
def execFacetMsgWr (p : Nat) (m : MemMsg) (s : State) : R := s.intake (Unit.hostPort p) (.die 2 p m) fun d => (d.dieMsg 2 p m).settle

/-- FACET_MSG_WRP (09 R355, 07 R263). -/
def execFacetMsgWrp (p : Nat) (m : MemMsg) (s : State) : R := s.intake (Unit.hostPort p) (.die 3 p m) fun d => (d.dieMsg 3 p m).settle

/-- FACET_MSG_ATOM (09 R350, R351). -/
def execFacetMsgAtom (p : Nat) (m : MemMsg) (s : State) : R := s.intake (Unit.hostPort p) (.die 4 p m) fun d => (d.dieMsg 4 p m).settle

/-- FACET_MSG_ATOMP (R145; feature table): executed as ATOM, its completion dropped. -/
def execFacetMsgAtomp (p : Nat) (m : MemMsg) (s : State) : R := s.intake (Unit.hostPort p) (.die 5 p m) fun d => (d.dieMsg 5 p m).settle

/-! ### Completions of compute dies -/

/-- The status a Facet completion code names (04, completion status codes). -/
def facetStatus : Nat → Status
  | 0 => .ok | 1 => .unsupported | 2 => .targetUnavailable | 3 => .pathFailure | 4 => .timeout | 5 => .accessDenied | 6 => .masterDisabled | _ => .internal

/-- A completion of a request of this device; one that answers nothing raises FACET_PROTO. -/
def Dev.dieCpl (d : Dev) (p tag tenant status : Nat) (data : List W64) : Dev :=
  if (d.hport p).st ≠ .active then d
  else
    let d := d.memCredit p { fabric := false, tag, tenant, len := 0, addr := 0, data }
    match d.mbx.reads.find? fun r => decide (r.port = some p) && decide (r.tag = tag) && decide (fnTenant r.fn % 16 = tenant % 16) with
    | some r => let (d, js) := d.readEnded r (facetStatus status) data; d.jobsDone js
    | none => d.post Src.facetProto p

/-- FACET_MSG_CPL (R135): a read that is answered without data although OK has none to deliver. -/
def execFacetMsgCpl (p tag tenant status : Nat) (s : State) : R :=
  s.intake (Unit.hostPort p) (.dieCpl p tag tenant status []) fun d => (d.dieCpl p tag tenant status []).settle

/-- FACET_MSG_CPLD (R135). -/
def execFacetMsgCpld (p tag tenant status : Nat) (data : List W64) (s : State) : R :=
  s.intake (Unit.hostPort p) (.dieCpl p tag tenant status data) fun d => (d.dieCpl p tag tenant status data).settle

/-! ### The coherence channel (09 R378 to R383, R392) -/

/-- Why a C_GET is refused: 2 denied, 3 no such word, 1 directory full. -/
def Dev.cohRefused (d : Dev) (p : Nat) (w : CohWord) : Option Nat :=
  if decide (w.index ≥ if w.sem then 2 ^ 18 else 1024) then some 3
  else if !(decide (w.tenant < 16) && (d.hport p).bind.getLsbD w.tenant) then some 2
  else if (if w.sem then decide (d.semOwner w.index ≠ w.tenant + 1) else decide (w.index / 64 ≠ w.tenant)) then some 2
  else if (d.rm.dir.all fun e => decide (e.word ≠ w)) && decide (4096 ≤ d.rm.dir.length) then some 1
  else none

/-- The present value of a word. -/
def Dev.cohValue (d : Dev) (w : CohWord) : W64 := if w.sem then d.semSeen w.index else Tab.look 0 (w.index % 64) (d.ten (w.index / 64)).qflag

/-- C_GET (R380): while a change of the word waits for acknowledgements the new copy is invalidated at once (R381). -/
def Dev.cohGet (d : Dev) (p : Nat) (w : CohWord) : Dev :=
  match d.cohRefused p w with
  | some r => d.facet p 1 1 (.facetCoh p 6 w (BitVec.ofNat 64 r))
  | none =>
    let e := (d.rm.dir.find? fun e => decide (e.word = w)).getD { word := w }
    let e' := { e with holders := insertNat p e.holders, acks := if e.newVal.isSome then insertNat p e.acks else e.acks }
    let dir := if d.rm.dir.any fun x => decide (x.word = w) then d.rm.dir.map (fun x => if x.word = w then e' else x) else d.rm.dir ++ [e']
    let d := { d with rm.dir := dir }.facet p 1 1 (.facetCoh p 2 w (d.cohValue w))
    if e.newVal.isSome then d.facet p 1 1 (.facetCoh p 3 w 0) else d

/-- A coherence message of a compute die: C_GET 1, C_INVACK 4, C_DROP 5. -/
def Dev.cohMsg (d : Dev) (kind p : Nat) (w : CohWord) : Dev :=
  if (d.hport p).st ≠ .active then d
  else if kind = 1 then d.cohGet p w
  else
    match d.rm.dir.find? fun e => decide (e.word = w) with
    | some e => d.dropCopy p (kind = 4) e
    | none => d

/-- FACET_COH_GET (09 R380). -/
def execFacetCohGet (p : Nat) (w : CohWord) (s : State) : R := s.intake (Unit.hostPort p) (.coh 1 p w) fun d => (d.cohMsg 1 p w).settle

/-- FACET_COH_INVACK (09 R381). -/
def execFacetCohInvack (p : Nat) (w : CohWord) (s : State) : R := s.intake (Unit.hostPort p) (.coh 4 p w) fun d => (d.cohMsg 4 p w).settle

/-- FACET_COH_DROP (09 R379). -/
def execFacetCohDrop (p : Nat) (w : CohWord) (s : State) : R := s.intake (Unit.hostPort p) (.coh 5 p w) fun d => (d.cohMsg 5 p w).settle

/-- COH_INVACK_TIMEOUT (09 R392); acknowledgements wait while the device is stopped (21 R877). -/
def execCohInvackTimeout (p : Nat) (w : CohWord) (s : State) : R := s.runIf (Unit.hostPort p) fun d =>
  if !d.stopped && d.rm.dir.any fun e => decide (e.word = w) && e.acks.contains p then ((d.enterHr p false).post Src.facetCoh p).settle else d

/-- FACET_TIMESTAMP_RX (21 R866): only where FEAT bit 3 is agreed; else FACET_PROTO (R136). -/
def execFacetTimestampRx (p : Nat) (ftime : W64) (valid : Bool) (s : State) : R := s.runIf (Unit.hostPort p) fun d =>
  if (d.hport p).st ≠ .active then d
  else if !valid || !(d.hport p).feat.getLsbD 3 then (d.post Src.facetProto p).settle
  else d.trace 0x0A 0xFF 0 0xFFFF 0 none ftime.toNat

end Sys2Proof.Machine
end

