-- ==== Sys2Proof/Machine/Thermal.lean ====
section
/-! DEFINITION. Sensors, throttling, power states and the domain sequencer (16, 02 R58 to R62). -/

namespace Sys2Proof.Machine

/-! ### Sensors (R656 to R664) -/

/-- WARN and RISE at reset, in 1/16 °C (R660). -/
def warnReset (s : Nat) : Int := if 50 ≤ s then 1440 else if 42 ≤ s then 1200 else 1600
def riseReset (s : Nat) : Int := if 42 ≤ s && s < 50 then 32 else 80

def Dev.sensor (d : Dev) (s : Nat) : Sensor := Tab.look {} s d.thm.sens
def Dev.setSensor (d : Dev) (s : Nat) (f : Sensor → Sensor) : Dev := { d with thm.sens := Tab.upd {} s f d.thm.sens }
def Dev.warnOf (d : Dev) (s : Nat) : Int := (d.sensor s).warn.getD (warnReset s)
def Dev.riseOf (d : Dev) (s : Nat) : Int := (d.sensor s).rise.getD (riseReset s)

/-- Sensors of a die slot. -/
def slotSensors (n : Nat) : List Nat := (List.range 58).filter fun s => decide (sensorSlot s = n)

/-- Mean of readings; 0 for none. -/
def meanOf (l : List Int) : Int := if l.isEmpty then 0 else Int.tdiv l.sum l.length

/-- Readings of the valid sensors of a slot. -/
def Dev.validTemps (d : Dev) (n : Nat) (but : Nat) : List Int :=
  ((slotSensors n).filter fun s => decide (s ≠ but) && (d.sensor s).valid && !(d.sensor s).invalid).map fun s => (d.sensor s).temp

/-- Takes a new reading (R657, R658). -/
def Sensor.take (g : Sensor) (t : Int) : Sensor :=
  { g with temp := t, valid := !g.invalid, hist := if g.valid then (g.temp :: g.hist).take 10 else [] }

/-- The operating limit of a sensor's die, in 1/16 °C (R660). -/
def limitOf (s : Nat) : Int := if 42 ≤ s && s < 50 then 80 * 16 else if 50 ≤ s then 95 * 16 else 105 * 16

/-- The shutdown level of a sensor's die, in 1/16 °C (R660). -/
def tripOf (s : Nat) : Int := if 42 ≤ s && s < 50 then 95 * 16 else if 50 ≤ s then 110 * 16 else 125 * 16

/-- A sensor becomes invalid until DR (R695). -/
def Dev.sensorBad (d : Dev) (s : Nat) : Dev := (d.setSensor s fun g => { g with invalid := true, valid := false }).post Src.thmSensor s

/-- A reading outside the range of a valid sensor (R657, R695). -/
def Dev.outOfRange (d : Dev) (s : Nat) : Bool := !(d.sensor s).invalid && (decide ((d.sensor s).temp < -640) || decide (2400 < (d.sensor s).temp))

/-- A valid sensor's reading is more than 15 °C from the mean of its die's other valid sensors (R695). -/
def Dev.strays (d : Dev) (s : Nat) : Bool :=
  let l := d.validTemps (sensorSlot s) s
  !(d.sensor s).invalid && !l.isEmpty && decide (240 < ((d.sensor s).temp - meanOf l).natAbs)

/-- The sensors read in a round are judged (R695): a reading outside the range at once, then all the rest beside one another, each invalid after the
third round in a row in which it strays (log 169). -/
def Dev.judgeSensors (d : Dev) (ss : List Nat) : Dev :=
  let d := (ss.filter d.outOfRange).foldl Dev.sensorBad d
  let strays := ss.filter d.strays
  let bad := strays.filter fun s => decide (3 ≤ (d.sensor s).off + 1)
  let d := ss.foldl (fun (d : Dev) s => d.setSensor s fun g => { g with off := if strays.contains s then g.off + 1 else 0 }) d
  bad.foldl Dev.sensorBad d

/-- WARN and RISE of a valid sensor (R662, R663). -/
def Dev.checkSensor (d : Dev) (s : Nat) : Dev :=
  let g := d.sensor s
  if !g.valid then d.setSensor s fun g => { g with warnHit := false, riseHit := false }
  else
    let hit := decide (d.warnOf s ≤ g.temp)
    let rise := g.hist.length = 10 && decide (d.riseOf s < g.temp - g.hist.getD 9 g.temp)
    let d := d.setSensor s fun g => { g with
      warnHit := hit, riseHit := rise, warned := if hit then true else if g.temp < d.warnOf s - 32 then false else g.warned }
    (d.postIf (hit && !g.warned) Src.thmWarn s).postIf rise Src.thmRise s

/-- Dies without a valid sensor raise THM_BLIND when they become so (R696). -/
def Dev.checkBlind (d : Dev) : Dev :=
  let now := (List.range 20).filter fun n => (slotSensors n).all fun s => (d.sensor s).invalid
  let new := now.filter fun n => !(d.thm.blind.contains n)
  new.foldl (fun (d : Dev) n => d.post Src.thmBlind n) { d with thm.blind := now }

/-- Quartz temperature of tile `n` (R658, R696). -/
def Dev.tileTemp (d : Dev) (n : Nat) : Int :=
  match d.validTemps (6 + n) 58 with
  | [] => meanOf (d.validTemps (2 + n) 58) - 48
  | l => meanOf l

/-- Each tile's Quartz temperature; below 40 °C in service it is reported once (R658, R697). -/
def Dev.quartzRound (d : Dev) : Dev :=
  (List.range 4).foldl (fun (d : Dev) n =>
    let t := d.tileTemp n
    let cold := decide (t < 640)
    let was := Tab.look false n d.thm.cold
    let serving := decide (Tab.look .notStarted 3 d.boot.items ≠ .notStarted) && !(Tab.look false n d.thm.warming)
    ({ d with thm.qtemp := Tab.put 0 n t d.thm.qtemp, thm.cold := Tab.put false n cold d.thm.cold }).postIf (cold && !was && serving) Src.thmCold (6 + n)) d

/-! ### Governor (R668, R669, R673, R674) -/

/-- g after a round (R668): Onyx sensors and invalid ones take no part; a blind die other than Onyx counts as hot and rising (R696). -/
def Dev.governor (d : Dev) : Dev :=
  let ss := (List.range 50).filter fun s => (d.sensor s).valid
  let blind := d.thm.blind.any fun n => decide (n < 12)
  let hot := blind || ss.any fun s => decide (d.warnOf s ≤ (d.sensor s).temp) && decide ((d.sensor s).hist.headD (d.sensor s).temp < (d.sensor s).temp)
  let cool := !blind && ss.all fun s => decide ((d.sensor s).temp < d.warnOf s - 32)
  let rise := ss.any fun s => (d.sensor s).riseHit
  let (g, calm) :=
    if hot && d.thm.cfg.getLsbD 3 then (min (d.thm.g + 1) 7, 0)
    else if cool then (d.thm.g, d.thm.calm + 1)
    else (d.thm.g, 0)
  let (g, calm) := if 10 ≤ calm then (g - 1, 0) else (g, calm)
  let g := if rise then min (g + 2) 7 else g
  { d with thm.g := g, thm.calm := calm, thm.riseLeft := if (List.range 58).any fun s => (d.sensor s).riseHit then 10 else d.thm.riseLeft - 1 }

/-- Power reports, GRANT and b (R668, R673, R674). -/
def Dev.budget (d : Dev) (power : List Nat) : Dev :=
  let rep := fun n => if 6 ≤ n && n < 10 then 0 else power.getD n 0
  let d := { d with pwr.diePwr := (List.range 20).foldl (fun l n => Tab.put 0 n (rep n) l) d.pwr.diePwr }
  let others := ((List.range 20).filter (· ≠ 0)).map rep |>.sum
  let grant : Int := (max 0x3C0 (d.pwr.budget.toNat % 65536) : Nat) - (others : Int) - 32
  let own : Int := rep 0
  let (b, low) :=
    if d.thm.cfg.getLsbD 4 && decide (grant < own) then (min (d.thm.b + 1) 7, 0)
    else if 10 * own < 9 * grant then (d.thm.b, d.thm.low + 1)
    else (d.thm.b, 0)
  let (b, low) := if 10 ≤ low then (b - 1, 0) else (b, low)
  { d with thm.b := b, thm.low := low, pwr.grant := grant }

/-- One round: readings taken and judged, reports, governors, THROTTLE and drift (R658, R662, R663, R668, R673, R674, R695 to R697; 15 R631). -/
def Dev.thermalRound (d : Dev) (temps : List (Option Int)) (power : List Nat) : Dev :=
  let d := (List.range 58).foldl (fun (d : Dev) i => match temps.getD i none with | some t => d.setSensor i fun g => g.take t | none => d) d
  let d := d.judgeSensors ((List.range 58).filter fun i => (temps.getD i none).isSome)
  let d := (List.range 58).foldl Dev.checkSensor d
  let d := ((d.checkBlind).quartzRound).governor
  let d := (d.budget power).relevel
  (List.range 4).foldl Dev.evalDrift d

/-- THERMAL_ROUND (R658). -/
def execThermalRound (temps : List (Option Int)) (power : List Nat) (s : State) : R := s.run fun d => (d.thermalRound temps power).settle

/-- LIMIT_COMPARATOR (R659, R660, R669, R670, R672): `temp` is the temperature behind the comparator's 4 µs filter, in 1/16 °C; it is active at or above
the operating limit, whatever the sensor's reading. -/
def execLimitComparator (n : Nat) (temp : Int) (s : State) : R := s.runIf (Unit.sensor n) fun d =>
  let active := decide (limitOf n ≤ temp)
  let was := (d.sensor n).limit
  (((d.setSensor n fun g => { g with limit := active }).relevel).postIf (active && !was) Src.thmLimit n).settle

/-- The device is cut off by a trip (R675): laser-disable and power loss at once; THM_TRIP latches, its inclusion naming the last reading. -/
def Dev.tripped (d : Dev) (n : Nat) : Dev :=
  ((d.setSensor n fun g => { g with trip := true }).loseMain).post Src.thmTrip n none ((d.sensor n).temp % 65536).toNat

/-- TRIP_COMPARATOR (R659, R660, R675, R676, R698): it fires at or above the shutdown level, behind its 4 µs filter. -/
def execTripComparator (n : Nat) (temp : Int) (s : State) : R := s.runIf (Unit.sensor n) fun d =>
  if tripOf n ≤ temp then (d.tripped n).settle else d.setSensor n fun g => { g with trip := false }

/-- The rings of a tile begin their seek from the predicted codes (R697). -/
def Dev.seekTile (d : Dev) (b : Nat) : Dev := ((List.range 576).map (576 * b + ·)).foldl Dev.enableRing d

/-- A tile's warming is over: its Quartz is at 40 °C, or 1.5 s have passed (R697). -/
def Dev.warmed (d : Dev) (b : Nat) : Bool := decide (640 ≤ d.quartz b) || decide (Tab.look 0 b d.thm.warmAt + 1500000000 ≤ d.now)

/-- COLD_WARM_TIMEOUT (R697): the Quartz has reached 40 °C or 1.5 s have passed, and the tile's rings seek. -/
def execColdWarmTimeout (b : Nat) (s : State) : R := s.runIf (Unit.tile b) fun d =>
  if Tab.look false b d.thm.warming && d.warmed b then
    ((({ d with thm.warming := Tab.put false b false d.thm.warming }).postIf (decide (d.quartz b < 640)) Src.thmCold (6 + b)).seekTile b).settle
  else d

/-! ### The throttled core clock (R665, R666) -/

/-- Of every 8 cycles those skipped, and the divider, at a level (R665). -/
def throttleSkip (l : Nat) : Nat := if l ≤ 3 then l else if l = 5 then 2 else 0
def throttleDiv (l : Nat) : Nat := if l ≤ 3 then 1 else if l ≤ 5 then 2 else if l = 6 then 4 else 8

/-- The domains a level slows (R665); every other keeps its clock (R666). -/
def throttled (n : Nat) : Bool := decide (5 ≤ n) && decide (n ≤ 22)

/-- Whether the clock of a domain on the core clock runs in core cycle `c`, the level having taken effect on a 64-cycle boundary (R665 to R667). -/
def Dev.clocked (d : Dev) (n c : Nat) : Bool :=
  decide (d.domain n = 3) && (!throttled n
    || (decide (c % throttleDiv d.thm.level = 0) && decide (throttleSkip d.thm.level ≤ c / throttleDiv d.thm.level % 8)))

/-! ### Darkened ports (R683 to R686) -/

/-- All four ports of a port's group are dark. -/
def groupDark (m : BitVec 64) (p : Nat) : Bool := (List.range 4).all fun i => m.getLsbD (p / 4 * 4 + i)

/-- Every port a Ruby feeds is dark. -/
def rubyDark (m : BitVec 64) (n : Nat) : Bool := (feeds n).all fun p => m.getLsbD p

/-- A port goes dark (R684): held in DOWN, its rings in HOLD and its drivers idle. -/
def Dev.darken (d : Dev) (p : Nat) : Dev :=
  let d := (d.setLport p fun l => { l with dark := true }).linkReset p
  let d := (List.range 36).foldl (fun (d : Dev) i =>
    let x := 36 * p + i
    let d := if i < 18 then d.drive x false else d
    (d.setRing x fun g => { g with darkHold := true }).holdRing x) d
  d.settleReset p

/-- A port is lit again (R685): its rings leave HOLD once their position is lit, and it is released once they are LOCKED. -/
def Dev.light (d : Dev) (p : Nat) : Dev :=
  let d := (List.range 36).foldl (fun (d : Dev) i => (d.setRing (36 * p + i) fun g => { g with darkHold := false }).unhold (36 * p + i)) d
  d.releasePort p

/-- Domain steps a darkened set asks for: group domains OFF or ON, primary banks RETAIN or ON (R615, R684, R685). -/
def Dev.darkSteps (d : Dev) (m : BitVec 64) : List (Nat × Nat) :=
  let groups := ((List.range 16).flatMap fun g =>
    let v := if groupDark m (4 * g) then 0 else 3
    let a := groupDomain (4 * g)
    [(a, v), (a + 4, v)])
  let banks := (List.range 2).map fun n => (99 + 3 * n, if rubyDark m n then 1 else 3)
  (banks ++ groups).filter fun e => decide (d.domain e.1 ≠ e.2) && !(Tab.look false e.1 d.pwr.heldOff)

/-- The sequencer takes up steps; where it was idle the first begins now (R679). -/
def Dev.sequence (d : Dev) (l : List (Nat × Nat)) : Dev :=
  { d with pwr.seq := d.pwr.seq ++ l, pwr.stepAt := if d.pwr.seq.isEmpty then d.now else d.pwr.stepAt }

/-- The time of a step in ns (R679). -/
def stepNs (old v : Nat) : Nat := if v = 3 && old = 0 then 10000 else 4000

/-- The darkened set becomes `m` (R683 to R685); the sequencer makes the steps. -/
def Dev.setDark (d : Dev) (m : BitVec 64) : Dev :=
  let old := d.pwr.dark
  let d := { d with pwr.dark := m }
  let d := (List.range 64).foldl (fun (d : Dev) p =>
    if m.getLsbD p && !old.getLsbD p then d.darken p else if old.getLsbD p && !m.getLsbD p then d.light p else d) d
  d.sequence (d.darkSteps m)

/-! ### Power states (R679 to R694) -/

/-- Domains sequenced to RETAIN (1) or OFF (0) for Dark, and those clock-gated together (02 R58). -/
def darkSeq : List (Nat × Nat) :=
  [(99, 1), (102, 1), (2, 1)] ++ (List.range 10).map (fun i => (5 + i, 1)) ++ (List.range 8).map (fun i => (15 + i, 0))
    ++ (List.range 12).map (fun i => (23 + i, 1)) ++ (List.range 8).map (fun i => (39 + i, 1))
    ++ (List.range 4).flatMap (fun n => (56 + 11 * n, 1) :: (List.range 8).map fun i => (57 + 11 * n + i, 0))
    ++ (List.range 8).map (fun i => (104 + i, 1))
def darkGated : List Nat := [3, 35, 36, 37, 38, 50, 52, 55, 66, 77, 88]

/-- Steps still to make, leaving out domains held off and those there already. -/
def Dev.steps (d : Dev) (l : List (Nat × Nat)) : List (Nat × Nat) :=
  l.filter fun e => decide (d.domain e.1 ≠ e.2) && !(Tab.look false e.1 d.pwr.heldOff)

/-- PWR_SET of a state ends. -/
def Dev.endPwrSet (d : Dev) (v : Nat) : Dev := d.finishAccs (fun a => decide (a.opcode = 0x0C00) && decide (a.arg = v)) .ok []

/-- Leaves Dark (R689): lasers first, then each Beryl's heaters and groups, then the rest. The darkened set from before entry returns. -/
def Dev.leaveDark (d : Dev) : Dev :=
  let back := d.pwr.darkSaved
  let groups := (List.range 16).flatMap fun g => if groupDark back (4 * g) then [] else [(groupDomain (4 * g), 3), (groupDomain (4 * g) + 4, 3)]
  let banks := (List.range 2).flatMap fun n => if rubyDark back n then [] else [(99 + 3 * n, 3)]
  let heat := (List.range 4).map fun n => (56 + 11 * n, 3)
  let rest := (darkSeq.map fun e => (e.1, 3)).filter fun e => decide (e.1 < 54) || decide (103 < e.1)
  let d := (d.gate darkGated 3)
  { d with pwr.target := 0, pwr.busy := true, pwr.seq := [] }.sequence (d.steps (banks ++ heat ++ groups ++ rest))

/-- Enters Dark (R687): every port is darkened, the clock-gated domains change together, the rest step by step. -/
def Dev.enterDark (d : Dev) : Dev :=
  let saved := d.pwr.dark
  let d := (List.range 64).foldl (fun (d : Dev) p => if saved.getLsbD p then d else d.darken p) { d with pwr.darkSaved := saved, pwr.dark := BitVec.allOnes 64 }
  let d := d.gate darkGated 2
  { d with pwr.target := 2, pwr.busy := true, pwr.seq := [] }.sequence (d.steps darkSeq)

/-- A primary bank enters RETAIN: its lit lasers stand at hold bias, and their positions are dark (02 R60, R615). -/
def Dev.retainBank (d : Dev) (n : Nat) : Dev :=
  let d := (List.range 36).foldl (fun (d : Dev) i => d.setLaser (36 * n + i) fun l =>
    if l.st = .lit || (decide (l.st = .ramp) && !l.toHold) then { l with st := .hold, current := 100, resume := true }
    else if l.st = .wait && !l.toHold then { l with toHold := true, resume := true } else l) d
  let d := (List.range 18).foldl (fun (d : Dev) k => d.setPosn (18 * n + k) fun q => { q with lit := false }) d
  ((feeds n).foldl (fun (d : Dev) p => (List.range 18).foldl (fun (d : Dev) k => d.ringDark (ringNo p 0 k)) d) d).spareBank n

/-- A primary bank leaves RETAIN: its lasers ramp from hold bias (R615, R689). -/
def Dev.resumeBank (d : Dev) (n : Nat) : Dev :=
  (List.range 36).foldl (fun (d : Dev) i =>
    let j := 36 * n + i
    if (d.laser j).resume then
      let d := d.setLaser j fun l => { l with resume := false, toHold := false }
      if (d.laser j).st = .hold then d.startLaser j false true else d
    else d) d

/-- What a change of one domain does besides (13 R559, R61; 14 R615). -/
def Dev.domainEffect (d : Dev) (n old v : Nat) : Dev :=
  if n = 99 || n = 102 then
    let r := (n - 99) / 3
    if v = 1 && old = 3 then d.retainBank r else if v = 3 && old = 1 then d.resumeBank r else d
  else if n = 47 && decide (v ≠ 3) then { d with twn.aliveOut := false }
  else if 57 ≤ n && n < 98 && 3 ≤ (n - 54) % 11 && v = 3 then
    (List.range 4).foldl (fun (d : Dev) i => d.releasePort (16 * ((n - 54) / 11) + 4 * (((n - 54) % 11 - 3) % 4) + i)) d
  else if 54 ≤ n && n < 98 && (n - 54) % 11 = 0 && v = 3 && (old = 0 || old = 1) then d.syncAll ((n - 54) / 11)
  else d

/-- The sequencer has made its last step: the state is reached, the commands that waited end, and a wake held meanwhile begins (R80,
R684, R685, R693). -/
def Dev.seqDone (d : Dev) : Dev :=
  let was := d.pwr.state
  let d := { d with pwr.busy := false, pwr.state := d.pwr.target }
  let d := d.finishAccs (fun a => decide (a.opcode = 0x0C01)) .ok []
  if d.pwr.state = 2 && was ≠ 2 then
    let d := d.endPwrSet 2
    if d.mbx.acc.any fun a => decide (a.opcode = 0x0C00) && decide (a.arg = 0) then d.leaveDark else d
  else if was = 2 && d.pwr.state = 0 then
    let m := d.pwr.darkSaved
    let d := { d with pwr.dark := m }
    ((List.range 64).foldl (fun (d : Dev) p => if m.getLsbD p then d else d.light p) d).endPwrSet 0
  else if d.pwr.state = 0 then d.endPwrSet 0
  else d

/-- One change of a domain is made, unless it is held off (R679, 02 R62, R82). -/
def Dev.domainStep (d : Dev) (n v : Nat) : Dev :=
  if Tab.look false n d.pwr.heldOff then d else ({ d with pwr.dom := Tab.put 0 n v d.pwr.dom }).domainEffect n (d.domain n) v

/-- DOMAIN_STEP_DONE (R679, 02 R62, R82): one change is made once its step time has passed, and the next begins; a domain held off stays OFF. -/
def execDomainStepDone (s : State) : R := s.run fun d =>
  match d.pwr.seq with
  | [] => d
  | (n, v) :: r =>
    if d.pwr.stepAt + stepNs (d.domain n) v ≤ d.now then
      let d := ({ d with pwr.seq := r, pwr.stepAt := d.now }).domainStep n v
      (if r.isEmpty then d.seqDone else d).settle
    else d

/-- Nothing that R680 names is pending. -/
def Dev.quiet (d : Dev) : Bool :=
  d.tq.ops.isEmpty && d.tq.q.all (fun e => decide (e.2.head = e.2.tail)) && d.mbx.cur.isNone && d.mbx.fns.all (fun f => f.2.stream.isEmpty)
    && d.fab.wait.isEmpty && d.tq.ten.all (fun t => decide (t.2.pkt = 0)) && d.vlt.pieces.isEmpty && d.vlt.vget.isEmpty
    && d.cal.chans.all (fun c => c.2.polish.isNone) && d.las.pos.all (fun q => q.2.swap.isNone)
    && (List.range 64).all fun p => (d.wport p).move.isNone && (d.wport p).waiting.isEmpty
      && (!d.active p || (List.range 18).all fun k => decide (16 ≤ mapAt (d.wport p).tx k) || decide ((d.ring (ringNo p 0 k)).st = .locked))

/-- IDLE_DELAY in ns (PWR_CFG; 0 acts as 1). -/
def Dev.idleNs (d : Dev) : Nat := 100 * max 1 (d.pwr.cfg.toNat / 2 ^ 8 % 256)

/-- Nothing has been pending for IDLE_DELAY, as the ticks saw it (R680, log 169). -/
def Dev.quietLong (d : Dev) : Bool := d.quiet && d.pwr.quietAt.any fun t => decide (t + d.idleNs ≤ d.now)

/-- What a tick sees of R680: since when nothing has been pending; in Idle, work that has come ends it (R682). -/
def Dev.watchQuiet (d : Dev) : Dev :=
  if d.quiet then { d with pwr.quietAt := some (d.pwr.quietAt.getD d.now) } else { d.wake with pwr.quietAt := none }

/-- IDLE_ENTRY (R680). -/
def execIdleEntry (s : State) : R := s.run fun d =>
  if d.up && decide (d.pwr.state = 0) && !d.pwr.busy && d.pwr.cfg.getLsbD 0 && d.quietLong then
    { d.gate idleGated 2 with pwr.state := 1, pwr.target := 1 }
  else d

/-- IDLE_WAKE (R682). -/
def execIdleWake (s : State) : R := s.run Dev.wake

/-- AO_WAKE (R692, 05 R197): PWR_REQ rises, the command is answered OK, and the device restarts as after a DR once PWR_OK is high; while
Always-on only is being entered the request is held (02 R80). -/
def execAoWake (req : Option Req) (s : State) : R := s.run fun d =>
  if decide (d.pwr.state = 3) && !d.jad.pwrReq && !d.jad.latched then
    (if d.jad.pwrOk then (d.aoWake req).restart else d.aoWake req).settle
  else if d.enteringAo then { d with pwr.wakeHeld := some req }
  else d

end Sys2Proof.Machine
end

