-- ==== Sys2Proof/Machine/OpsCmd.lean ====
section
/-! DEFINITION. What every Oxsum command shares (05 R180 to R193, 06 R213 to R225, R248, R249): the path it came on, the generic statuses in their order (log 8), objects and their generations, and the forms of an answer. -/

namespace Sys2Proof.Machine

/-! ### Objects (06 R225, R248) -/

/-- Number of an object in the table of generations. -/
def Obj.key : Obj → Nat
  | .none => 0
  | .tenant t => 1 + t
  | .queue t q => 0x10000 + 64 * t + q
  | .stream t s => 0x20000 + 32 * t + s
  | .group t g => 0x30000 + 256 * t + g
  | .region t r => 0x40000 + 16 * t + r
  | .port p => 0x50000 + p
  | .trunk k => 0x50100 + k
  | .block die b => 0x60000 + 4096 * die + b
  | .laser n k => 0x70000 + 18 * n + k
  | .flash => 0x80000

/-- The generation of an object. -/
def genOf (gens : List (Nat × Nat)) (o : Obj) : Nat := Tab.look 0 o.key gens

/-- Every shadow region of a tenant, which a seal and a restore act on. -/
def allRegions (t : Nat) : List Obj := (List.range 16).map fun r => .region t r

/-! ### Commands -/

/-- What the tables of 06 say of a command: its opcode, its issuers (PF, T, M, Rec), whether a PF command names a tenant in TENANT
(`named`), whether a T command of the PF may carry 0xFF (`dev`), its LENGTH, whether its fields are in range, the bring-up item it needs,
whether a tenant in TR stops it, whether it may answer ACCEPTED, whether a stopped device serves it (21 R881),
its minor version, the objects it names, and whether it changes them. -/
structure Cmd where
  op     : Nat
  pf     : Bool := true
  tn     : Bool := false
  m      : Bool := false
  rcv    : Bool := false
  named  : Bool := false
  dev    : Bool := false
  len    : Nat := 0
  ok     : Bool := true
  item   : Option Nat := none
  fence  : Bool := false
  acc    : Bool := false
  live   : Bool := false
  minor  : Nat := 0
  objs   : List Obj := []
  change : Bool := false
  /-- An absent opcode: its fields are not looked at (06 R220). -/
  blind  : Bool := false
  deriving DecidableEq, Repr, Inhabited

/-- 3 s have passed since HOST_READY: items 1 to 7 end, up or down (03 R103). -/
def Dev.itemsLate (d : Dev) : Bool := decide (d.boot.readyAt + 3000000000 ≤ d.now)

/-- What a bring-up item has come to (03 R102, R103): decided once, else by what its units show; an item that has not come up in 3 s is down. -/
def Dev.itemSt (d : Dev) (n : Nat) : ItemSt :=
  if decide (n = 6) && (decide (d.vlt.st = .failed) || decide (d.sec.mode = .error)) && decide (Tab.look .notStarted 6 d.boot.items ≠ .notStarted) then .down else
  match Tab.look .notStarted n d.boot.items with
  | .running =>
    let ended : ItemSt → ItemSt := fun x => if x = .running && decide (n ≤ 7) && d.itemsLate then .down else x
    ended <|
    let die : Nat → Bool := fun i => (Tab.look {} i d.boot.dies).held
    let unit : (Nat → Bool) → (Nat → Bool) → List Nat → ItemSt := fun done good l =>
      if l.all done then (if l.any good then .up else .down) else .running
    let facet : Nat → List Nat → ItemSt := fun k l =>
      unit (fun p => [PState.active, .failed].contains (d.hport (k + p)).st) (fun p => decide ((d.hport (k + p)).st = .active)) l
    match n with
    | 1 => facet 8 ((List.range 4).filter fun t => !die (2 + t))
    | 2 =>
      let ls := (List.range 72).filter fun j => !die (10 + j / 36)
      unit (fun j => [LasSt.hold, .lit, .failed].contains (d.laser j).st) (fun j => [LasSt.hold, .lit].contains (d.laser j).st) ls
    | 3 =>
      let rs := (List.range 64).flatMap fun p => if die (2 + p / 16) then [] else
        ((List.range 18).filter fun k => (d.posn (18 * (p / 32) + k)).lit).map fun k => ringNo p 0 k
      unit (fun x => [RSt.locked, .failed].contains (d.ring x).st) (fun x => decide ((d.ring x).st = .locked)) rs
    | 4 => if (List.range 64).any d.active then .up else if d.itemsLate then .down else .running
    | 5 => facet 0 (List.range 8)
    | 8 => if d.boot.stage = .fabricReady then .up else .running
    | _ => .running
  | s => s

/-- The device serves Oxsum on a function's PCIe and sideband paths: the PF from HOST_READY and in RECOVERY, a VF while it exists for an
assigned tenant or one in TR (03 R105, R100, 05 R164). -/
def Dev.servedFn (d : Dev) (f : Nat) : Bool :=
  if f = 0 then d.up || decide (d.boot.stage = .recovery)
  else d.up && decide (f < 17) && (d.fn 0).vfEnable && ((d.ten (f - 1)).assign.isSome || d.fenced (f - 1))

/-- The path of a command is served (05 R191, R197). -/
def Dev.servedPath (d : Dev) : Path → Bool
  | .mctp => d.jad.released
  | .sideband p f => d.up && d.servedFn f && decide ((d.hport p).st = .active)
  | .pcie f => d.servedFn f

/-- Same function's commands, those over MCTP apart (06 R224, 05 R193). -/
def sameSource (a b : Path) : Bool :=
  match a, b with
  | .mctp, .mctp => true
  | .mctp, _ => false
  | _, .mctp => false
  | a, b => decide (pathFn a = pathFn b)

/-- Commands that R225 exempts. -/
def busyExempt (op : Nat) : Bool := [0x0204, 0x0201, 0x0303, 0x0304, 0x0104, 0x0A01, 0x0902].contains op

/-- An ACCEPTED command in progress stands in the way of a command naming the same object (06 R225): a change by the PF does not wait for a
tenant's command, which R249 ends; the tenant as an object is that of the tenant group (log 8). -/
def Acc.blocks (a : Acc) (c : Cmd) (f : Nat) : Bool :=
  decide (a.opcode ≠ 0x0302) && !(c.change && decide (f = 0) && decide (pathFn a.req.path ≠ 0)) &&
    a.objs.any fun o => c.objs.contains o && (match o with | .tenant _ => decide (a.opcode / 256 = 2) | _ => true)

/-- TENANT is one the PF or MCTP may carry (05 R197, 06 R214). -/
def Cmd.tenantOk (c : Cmd) (mctp : Bool) (t : Nat) : Bool :=
  if mctp then decide (t = 0xFF)
  else if c.named then decide (t < 16)
  else if c.tn then decide (t < 16) || (c.dev && decide (t = 0xFF))
  else decide (t = 0xFF)

/-- The generic statuses, in the order of log 8 (05 R181, R182, R196, R197, R210; 06 R214, R218 to R225, R248; 21 R881). -/
def Dev.generic (d : Dev) (c : Cmd) (r : Req) (gens : List (Nat × Nat)) : Option Status :=
  let f := pathFn r.path
  let m := decide (r.path = .mctp)
  let t := r.tenant.toNat
  let item := c.item.map d.itemSt
  if decide (d.boot.stage = .recovery) && !c.rcv then some .recoveryRefused
  else if !d.up && decide (d.boot.stage ≠ .recovery) && decide (c.op ≠ 0x0102) && !(decide (c.op = 0x0C00) && decide (d.boot.stage = .dormant)) then
    some .notReady
  else if decide (f ≠ 0) && decide (t + 1 ≠ f) then some .badTenant
  else if decide (f ≠ 0) && d.fenced t then some .tenantFenced
  else if d.mbx.oxMin < c.minor then some .unsupported
  else if !(if f ≠ 0 then c.tn else if m then c.m else c.pf || c.tn) then some .accessDenied
  else if decide (f = 0) && !c.tenantOk m t then some .badTenant
  else if r.length ≠ c.len then some .badLength
  else if !c.blind && (r.rsvd || !c.ok) then some .badField
  else if item = some .notStarted || item = some .running then some .notReady
  else if item = some .down then some .badState
  else if d.stopped && !c.live then some .busy
  else if c.fence && d.fenced t then some .tenantFenced
  else if c.acc && decide (8 ≤ (d.mbx.acc.filter fun a => decide (a.opcode ≠ 0x0302) && sameSource a.req.path r.path).length) then some .busy
  else if !busyExempt c.op && d.mbx.acc.any (fun a => a.blocks c f) then some .busy
  else if decide (f ≠ 0) && (c.objs.any (fun o => decide (genOf gens o ≠ genOf d.mbx.gens o))
      || (!c.objs.isEmpty && decide (genOf gens (.tenant t) ≠ genOf d.mbx.gens (.tenant t)))) then some .conflict
  else if r.fwErr then some .internal
  else none

/-- The response to a command. Over MCTP the command stays outstanding until its final notice (05 R197). -/
def Dev.reply (d : Dev) (op : Nat) (r : Req) (st : Status) (data : List Nat := []) : Dev :=
  let d := if r.path = .mctp then { d with mbx.mctpBusy := decide (st = .accepted) } else d
  d.respond r.path r.noIrq { opcode := op, seq := r.seq, tenant := r.tenant.toNat, status := st, data }

/-- A tenant's ACCEPTED command ends because the PF changed its object (06 R249). -/
def Dev.abortAcc (d : Dev) (a : Acc) : Dev :=
  let t := pathFn a.req.path - 1
  let d := if a.opcode = 0x0702 || a.opcode = 0x0703 then d.endSeal t else d
  let d := if a.opcode = 0x0A04 then { d with dbg.dumps := Tab.put none a.arg none d.dbg.dumps } else d
  d.finishAcc a .aborted []

/-- A command of the PF has changed its objects: their generations rise, and tenants' commands in progress on them end (06 R248, R249). A
change of a tenant's assignment covers every object of the tenant; TEN_RESET in progress ends by its TR. -/
def Dev.changed (d : Dev) (c : Cmd) (r : Req) : Dev :=
  if c.change && decide (pathFn r.path = 0) then
    let whole := c.op = 0x0200 || c.op = 0x0201
    let hit : Obj → Bool := fun o => c.objs.contains o || (whole && decide (o.tenant? = some r.tenant.toNat))
    let d := { d with mbx.gens := c.objs.foldl (fun (g : List (Nat × Nat)) (o : Obj) => Tab.upd 0 o.key (· + 1) g) d.mbx.gens }
    (d.mbx.acc.filter fun (a : Acc) => decide (pathFn a.req.path ≠ 0) && decide (a.opcode ≠ 0x0204) && a.objs.any hit).foldl (fun d a => d.abortAcc a) d
  else d

/-- The command is done: OK with its payload. -/
def Dev.okay (d : Dev) (c : Cmd) (r : Req) (data : List Nat := []) : Dev := (d.changed c r).reply c.op r .ok data

/-- The command is refused or fails with a status. -/
def Dev.deny (d : Dev) (c : Cmd) (r : Req) (st : Status) : Dev := d.reply c.op r st

/-- The command goes on beyond its first step (05 R187). -/
def Dev.underWay (d : Dev) (c : Cmd) (r : Req) (objs : List Obj) (arg : Nat) : Dev :=
  { d with mbx.acc := d.mbx.acc ++ [{ opcode := c.op, req := r, objs, arg }] }

/-- ACCEPTED: the final status follows as a notice (05 R187). -/
def Dev.started (d : Dev) (c : Cmd) (r : Req) (objs : List Obj) (arg : Nat := 0) : Dev :=
  ((d.changed c r).reply c.op r .accepted).underWay c r objs arg

/-- A kept response answers the command (05 R193). -/
def Dev.keptFor (d : Dev) (r : Req) (op : Nat) : Option Reply :=
  ((d.fn (pathFn r.path)).kept.find? fun k => decide (k.1 = r.path) && decide (k.2.opcode = op) && decide (k.2.seq = r.seq)).map (·.2)

/-- The response to the command still waits for its JACK (18 R763). -/
def Dev.replyHeld (d : Dev) (r : Req) (op : Nat) : Bool :=
  let is : Guard → Bool := fun g => match g with
    | .reply _ p x => decide (p = r.path) && decide (x.opcode = op) && decide (x.seq = r.seq) && !x.notice
    | _ => false
  (d.twn.guards.any fun g => is g.2) || d.twn.jwait.any fun e => e.2.any is

/-- A command that repeats a completed one is answered with its kept response, marked REPLAYED, and not executed again (05 R193): in a
ring one response each stays due (R185), elsewhere one whose response still waits is discarded. -/
def Dev.again (d : Dev) (r : Req) (op : Nat) (k : Reply) : Dev :=
  let d := if r.path = .mctp then { d with mbx.mctpBusy := false } else d
  match r.path with
  | .pcie _ => d.respond r.path r.noIrq { k with replayed := true }
  | p => if d.replyHeld r op then d else d.respond p r.noIrq { k with replayed := true }

/-! ### Arrival (05 R185, R191 to R193, R197; 04 R138) -/

/-- The command is among those of its path that wait, or is being executed (05 R193). -/
def Dev.executing (d : Dev) (h : CmdHdr) : Bool :=
  let same : Wait → Bool := fun w => decide (w.hdr.req.path = h.req.path) && decide (w.hdr.opcode = h.opcode) && decide (w.hdr.req.seq = h.req.seq)
  (d.fn (pathFn h.req.path)).stream.any same || d.mbx.cur.any same
    || d.mbx.acc.any fun a => decide (a.req.path = h.req.path) && decide (a.opcode = h.opcode.toNat) && decide (a.req.seq = h.req.seq)

/-- Commands of a path that await their response. -/
def Dev.awaiting (d : Dev) (p : Path) : Nat :=
  (((d.fn (pathFn p)).stream ++ d.mbx.cur.toList).filter fun w => decide (w.hdr.req.path = p)).length

/-- A command joins its function's stream with the generations of its arrival (05 R191, 06 R248). -/
def Dev.enqueue (d : Dev) (h : CmdHdr) : Dev :=
  d.setFn (pathFn h.req.path) fun g => { g with stream := g.stream ++ [{ hdr := { h with req := { h.req with fwErr := false } }, gens := d.mbx.gens }] }

/-- A sideband command on port `p` (05 R191 to R193, 04 R138). -/
def Dev.sideband (d : Dev) (p f : Nat) (h : CmdHdr) : Dev :=
  let op := h.opcode.toNat
  if (d.hport p).st ≠ .active then d
  else if !d.sbAllowed f p then d.post Src.facetSbRefused p
  else if !d.servedFn f then d
  else
    match d.keptFor h.req op with
    | some k => d.again h.req op k
    | none =>
      if d.executing h then d
      else if 16 ≤ d.awaiting h.req.path then d.reply op h.req .busy
      else d.enqueue h

/-- An Oxsum command over MCTP (05 R193, R197). -/
def Dev.mctpCommand (d : Dev) (h : CmdHdr) : Dev :=
  let op := h.opcode.toNat
  if d.executing h then d
  else if d.mbx.mctpBusy then
    d.respond .mctp h.req.noIrq { opcode := op, seq := h.req.seq, tenant := h.req.tenant.toNat, status := .busy }
  else
    match d.keptFor h.req op with
    | some k => d.again h.req op k
    | none => ({ d with mbx.mctpBusy := true }).enqueue h

/-- A command of a function's ring is there: the function is served and its memory requests complete, and the ring has room (05 R176, R184). -/
def Dev.ringOpen (d : Dev) (f : Nat) : Bool :=
  d.linkUp && d.memReq f && d.servedFn f && decide (((d.fn f).cmdTail - (d.fn f).cmdHead).toNat < 16)

/-- A command arrives on its path: written to the ring with its doorbell, as a sideband message, or over MCTP. -/
def Dev.arrival (d : Dev) (h : CmdHdr) : Dev :=
  match h.req.path with
  | .mctp => if d.jad.released then d.mctpCommand h else d
  | .sideband p f => d.sideband p f h
  | .pcie f => if d.ringOpen f then (d.enqueue h).setFn f fun g => { g with cmdTail := g.cmdTail + 1 } else d

/-! ### Conik's choice (05 R185, R186, R191, R198, 06 R215) -/

/-- The command at the head of a stream must wait: the response ring is full (05 R186), or an earlier command of the function has not
answered yet (08 R344). -/
def Dev.headBlocked (d : Dev) (f : Nat) (w : Wait) : Bool :=
  (match w.hdr.req.path with | .pcie f => d.rspFull f || !(d.fn f).rspHeld.isEmpty | _ => false)
    || (d.mbx.acc.any fun a => decide (a.opcode = 0x0302) && decide (pathFn a.req.path = f))

/-- The P2 command to run next: the head of the PF's stream, or behind a blocked one the first over MCTP. While Conik is held Jade answers
MCTP alone. -/
def Dev.nextP2 (d : Dev) : Option Wait :=
  let l := (d.fn 0).stream
  let viaMctp := l.find? fun w => decide (w.hdr.req.path = .mctp)
  match l with
  | [] => none
  | w :: _ => if d.boot.conikHeld || !d.servedFn 0 || d.headBlocked 0 w then viaMctp else some w

/-- A tenant's command to run next: the head of its stream. -/
def Dev.nextP3 (d : Dev) (t : Nat) : Option Wait :=
  if d.boot.conikHeld || !d.servedFn (t + 1) then none
  else
    match (d.fn (t + 1)).stream with
    | [] => none
    | w :: _ => if d.headBlocked (t + 1) w then none else some w

/-- Conik takes a command out of its stream; a ring's head index moves on. -/
def Dev.take1 (d : Dev) (f : Nat) (w : Wait) : Dev :=
  let d := d.wake.setFn f fun g => { g with
    stream := g.stream.erase w
    cmdHead := match w.hdr.req.path with | .pcie _ => g.cmdHead + 1 | _ => g.cmdHead }
  { d with mbx.cur := some w }

/-- The tenant whose turn it is in the third priority, with its command. -/
def Dev.turnP3 (d : Dev) : Option (Nat × Wait) :=
  ((List.range 16).map fun i => (d.mbx.turn + i) % 16).findSome? fun t => (d.nextP3 t).map fun w => (t, w)

/-- The next step without firmware work: a P2 step unless the last was one and a P3 step waits, or the next tenant's step in round robin. -/
def Dev.select (d : Dev) : Dev :=
  match d.nextP2, d.turnP3 with
  | some w, none => { d.take1 0 w with mbx.lastP2 := true }
  | some w, some (t, v) =>
    if d.mbx.lastP2 then { d.take1 (t + 1) v with mbx.lastP2 := false, mbx.turn := (t + 1) % 16 }
    else { d.take1 0 w with mbx.lastP2 := true }
  | none, some (t, v) => { d.take1 (t + 1) v with mbx.lastP2 := false, mbx.turn := (t + 1) % 16 }
  | none, none => d

/-- No command has been chosen and none waits. -/
def Dev.idle (d : Dev) : Bool := d.mbx.cur.isNone && d.mbx.fns.all fun e => e.2.stream.isEmpty

/-! ### The first step -/

/-- The generations the first step of a command compares with, and the device with the command taken out of `cur`, where it is the command
Conik has chosen. -/
def Dev.taken (d : Dev) (op : Nat) (r : Req) : Option (List (Nat × Nat) × Dev) :=
  match d.mbx.cur with
  | some w =>
    if w.hdr.opcode.toNat = op && decide (w.hdr.req = { r with fwErr := false }) then some (w.gens, { d with mbx.cur := none })
    else none
  | none => none

/-- The first step of a command up to its own effect: `true` says that the command passes and its effect follows. -/
def Dev.firstStep (d : Dev) (c : Cmd) (r : Req) (gens : List (Nat × Nat)) : Dev × Bool :=
  if !d.servedPath r.path then (d, false)
  else
    match d.keptFor r c.op with
    | some k => (d.again r c.op k, false)
    | none =>
      match d.generic c r gens with
      | some st => (d.reply c.op r st, false)
      | none => (d, true)

/-- A command row: the first step of the command Conik has chosen. A row given for no such command is its arrival, and with nothing else
waiting Conik chooses it at once (05 R198; log 38). -/
def Dev.admits (d : Dev) (c : Cmd) (r : Req) : Dev × Bool :=
  match d.taken c.op r with
  | some (gens, d) => d.firstStep c r gens
  | none =>
    let e := d.arrival { opcode := BitVec.ofNat 16 c.op, req := r }
    if d.idle then
      match e.select.taken c.op r with
      | some (gens, e) => e.firstStep c r gens
      | none => (e, false)
    else (e, false)

/-- A command with its effect on the device. -/
def Dev.command (d : Dev) (c : Cmd) (r : Req) (body : Dev → Dev) : Dev :=
  ((if (d.admits c r).2 then body (d.admits c r).1 else (d.admits c r).1)).settle

/-- A command whose effect reads or writes the boot flash. -/
def Dev.commandMem (d : Dev) (m : Memory) (c : Cmd) (r : Req) (body : Dev → Dev × Memory) : Dev × Memory :=
  if (d.admits c r).2 then ((body (d.admits c r).1).1.settle, (body (d.admits c r).1).2) else ((d.admits c r).1.settle, m)

end Sys2Proof.Machine
end

