-- ==== Sys2Proof/Machine/BringUp.lean ====
section
/-! DEFINITION. The bring-up items after HOST_READY (03 R102 to R104, R108). -/

namespace Sys2Proof.Machine

/-- An item has been decided, up or down. -/
def Dev.itemDone (d : Dev) (n : Nat) : Bool := decide (d.itemSt n = .up) || decide (d.itemSt n = .down)

/-- A die slot is held out of service. -/
def Dev.slotHeld (d : Dev) (n : Nat) : Bool := (Tab.look {} n d.boot.dies).held

/-- The optical tiles in service. -/
def Dev.tiles (d : Dev) : List Nat := (List.range 4).filter fun n => !d.slotHeld (2 + n)

def Dev.setItem (d : Dev) (n : Nat) (st : ItemSt) : Dev := { d with boot.items := Tab.put .notStarted n st d.boot.items }

/-- Item 2 (14 R585): the control links of the Rubies in service come up, and every spare starts for hold bias. -/
def Dev.startLasers (d : Dev) : Dev :=
  ((List.range 2).filter fun n => !d.slotHeld (10 + n)).foldl (fun d n =>
    let d := { d with las.ruby := Tab.upd {} n (fun x => { x with linkOk := true }) d.las.ruby }
    (List.range 18).foldl (fun d k =>
      let j := 36 * n + 2 * k + 1
      if (d.laser j).st = .off then d.startLaser j true false else d) d) d

/-- Item 3 for a tile (16 R697, 15 R631): below 40 °C its heaters warm it first; every transmit channel not polished yet is due. -/
def Dev.startTile (d : Dev) (n : Nat) : Dev :=
  let xs := (List.range 576).map (576 * n + ·)
  let d := if d.quartz n < 640 then xs.foldl (fun d x => d.moveCode x 8192) { d with thm.warming := Tab.put false n true d.thm.warming, thm.warmAt := Tab.put 0 n d.now d.thm.warmAt }
    else xs.foldl Dev.enableRing d
  (xs.filter isTx).foldl (fun d x => d.setChan x fun ch => { ch with due := ch.due || ch.temp.isNone }) d

/-- Item 3 has ended for a tile: its lit transmit rings are LOCKED or FAILED (R102). -/
def Dev.tileDone (d : Dev) (n : Nat) : Bool :=
  decide (Tab.look .notStarted 3 d.boot.items ≠ .notStarted) && !(Tab.look false n d.thm.warming) &&
    (List.range 16).all fun i => (List.range 18).all fun k =>
      let g := d.ring (ringNo (16 * n + i) 0 k)
      !(d.posn (18 * ((16 * n + i) / 32) + k)).lit || decide (g.st = .locked) || decide (g.st = .failed)

/-- Item 4 (12 R522): the ports of the tiles whose item 3 has ended leave DOWN. -/
def Dev.startPorts (d : Dev) : Dev :=
  ((d.tiles.filter d.tileDone).flatMap fun n => (List.range 16).map (16 * n + ·)).foldl Dev.tryLight d

/-- What each item waits for (R102). -/
def Dev.mayStart (d : Dev) (n : Nat) : Bool :=
  let fresh := decide (Tab.look .notStarted n d.boot.items = .notStarted)
  d.up && match n with
    | 1 => fresh
    | 2 => fresh && d.itemDone 1
    | 3 => fresh && d.itemDone 2
    | 4 => d.tiles.any d.tileDone || (d.itemDone 3 && fresh)
    | 5 => fresh
    | 6 => fresh
    | 7 => fresh
    | 8 => fresh && decide (d.itemSt 4 = .up)
    | _ => false

/-- The work of an item begins. -/
def Dev.beginItem (d : Dev) (n : Nat) : Dev :=
  match n with
  | 1 => d.tiles.foldl (fun d t => if (d.hport (8 + t)).st = .down then d.setHport (8 + t) fun h => { h with st := .clock } else d) (d.setItem 1 .running)
  | 2 => (d.setItem 2 .running).startLasers
  | 3 => d.tiles.foldl Dev.startTile (d.setItem 3 .running)
  | 4 => (d.setItem 4 .running).startPorts
  | 5 => (List.range 8).foldl (fun d p => if (d.hport p).st = .down then d.setHport p fun h => { h with st := .clock } else d) (d.setItem 5 .running)
  | 6 => if d.vlt.st = .failed then d.setItem 6 .down else { d.setItem 6 .running with vlt.st := .mounting }
  | 7 => d.setItem 7 .up
  | _ => d.setItem 8 .running

/-- BRINGUP_ITEM_START (R102): an item starts once its prerequisites are decided. Item 4 starts for each tile in turn. -/
def execBringupItemStart (item : Nat) (s : State) : R := s.runIf (Unit.bringupItem item) fun d =>
  if d.mayStart item then (d.beginItem item).settle else d

end Sys2Proof.Machine
end

