-- ==== Sys2Proof/Machine/Account.lean ====
section
/-! DEFINITION. What each queue and each accounted unit does or waits for (21 R855 to R870): the account it stands in, the edge of the
wait-for graph that names it, the counter sets, and the queue-head snapshot. -/

namespace Sys2Proof.Machine

/-- A reason to wait: the account, and the edge's TKIND and TARGET (21 R857, R868). -/
structure Why where
  k      : Nat
  tkind  : Nat := 0
  target : Nat := 0
  deriving DecidableEq, Repr, Inhabited

/-- The head operation of a queue: its oldest operation in progress (21 R857). -/
def Dev.headOp (d : Dev) (gq : Nat) : Option Op := d.tq.ops.find? fun o => decide (o.gq = gq)

/-- A reason, where it holds. -/
def whyIf (c : Bool) (w : Why) : List Why := if c then [w] else []

/-- TARGET of TKIND 1: node and tenant as in a packet's DST. -/
def nodeTarget (node ten : Nat) : Nat := node % 4096 + 4096 * ten

/-- The jobs that serve an operation. -/
def Dev.jobsOf (d : Dev) (gq idx : Nat) : List Nat :=
  (d.mbx.jobs.filter fun j => match j.for_ with
    | .seg a b .. => decide (a = gq) && decide (b = idx)
    | .put a b .. => decide (a = gq) && decide (b = idx)
    | .carry a b .. => decide (a = gq) && decide (b = idx)
    | _ => false).map (·.id)

/-- An operation's waits on the host: message credits, reads beyond the limit, translations and page faults. -/
def Dev.hostWhy (d : Dev) (o : Op) : List Why :=
  let js := d.jobsOf o.gq o.idx
  let onPort := d.mbx.reads.findSome? fun r => match r.port with
    | some p => if js.contains r.job && ((d.hport p).queue.any fun m => match m.msg with | .facetMem _ _ tag .. => decide (tag = r.tag) | _ => false)
        then some p else none
    | none => none
  let mine : Option Access → Bool := fun a => match a with | some a => decide (a.op = some (o.gq, o.idx)) | none => false
  (match onPort with | some p => [{ k := 4, tkind := 4, target := p }] | none => [])
    ++ whyIf (d.mbx.readWait.any fun r => js.contains r.job) { k := 5, tkind := 4, target := 8 }
    ++ whyIf ((d.xlt.ats ++ d.xlt.atsWait).any fun a => mine a.acc) { k := 6 }
    ++ whyIf (d.xlt.pages.any fun p => mine (some p.acc)) { k := 7 }

/-- An operation's wait for units of the packet buffer, for tokens, or under a limit. -/
def Dev.sliceWhy (d : Dev) (o : Op) : List Why :=
  let t := o.gq / 64
  match o.nextSeg with
  | none => []
  | some (_, len) =>
    let far := match o.remote with | some a => d.limited o.gq (d.aliasDst (faNode a) (faTen a)) len | none => false
    whyIf (decide (0 < Tab.look 0 0 (d.ten t).waiting)) { k := 8 } ++ whyIf (!d.shaped o.gq len || far) { k := 9 }

/-- The collective instance of an operation. -/
def Dev.instOf (d : Dev) (o : Op) : Option Inst := d.col.inst.find? fun x => decide (x.own = some (o.gq, o.idx))

/-- An operation's wait for a response: its oldest transaction, the FINAL of its collective, or the condition of a SEM_WAIT; and its wait
for a member's data (21 R869). -/
def Dev.remoteWhy (d : Dev) (o : Op) : List Why :=
  let tx := (d.tq.txns.find? fun x => decide (x.gq = o.gq) && (match x.for_ with | .op i .. => decide (i = o.idx) | .sem i => decide (i = o.idx) | _ => false)).map
    fun x => { k := 10, tkind := 1, target := nodeTarget x.dst ((o.remote.map faTen).getD (o.gq / 64)) }
  let sem := match o.desc.body with
    | .sem s .. => whyIf (decide (o.desc.op = 0x31) && o.issued)
        { k := 10, tkind := 3, target := s.toNat % 2 ^ 18 + 2 ^ 18 * (if d.alias.isSome && tx.isNone then d.alias.getD 0 else faNode s) }
    | _ => []
  let coll := match d.instOf o with
    | none => []
    | some x =>
      let total := (d.group x.t x.g).total
      let me := d.self x.t x.g
      let open_ := (List.range (chunksOf (collP x.desc).count)).find? fun ci => !(x.full total me (Tab.look ({} : Chunk) ci x.chunks))
      let missing := match open_ with
        | some ci => (x.awaited total me).find? fun i => !(Tab.look ({} : Chunk) ci x.chunks).folded.contains i && decide (i ≠ me)
        | none => none
      match missing with
      | some i => if interior total me || decide (me = 0) then [{ k := 11, tkind := 2, target := x.g + 256 * i }] else [{ k := 10, tkind := 2, target := x.g + 256 * parentOf me }]
      | none => whyIf (decide (me ≠ 0)) { k := 10, tkind := 2, target := x.g + 256 * parentOf me }
  sem ++ tx.toList ++ coll

/-- The other waits of an operation: an earlier transaction, reduction scratch, the Onyx medium, the Twin partner. -/
def Dev.restWhy (d : Dev) (o : Op) : List Why :=
  let t := o.gq / 64
  let earlier := d.tq.ops.find? fun x => decide (x.gq = o.gq) && decide (x.idx < o.idx) && opsConflict x o
  let vlt := match o.desc.body with | .vault .. => true | _ => false
  let marks := (d.vten t).marks.any fun m => m.flush.contains (o.gq, o.idx) && m.read
  (match earlier with
    | some x => [{ k := 12, tkind := 1, target := match x.remote with | some a => nodeTarget (faNode a) (faTen a) | none => nodeTarget (d.fab.node.getD 0) t }]
    | none => [])
    ++ whyIf ((d.instOf o).isSome && decide (0 < Tab.look 0 1 (d.ten t).waiting)) { k := 13 }
    ++ whyIf (vlt && (marks || d.onyxHot)) { k := 14, tkind := 5, target := ((List.range 8).find? fun n => (Tab.look {} (50 + n) d.thm.sens).limit).getD 0 }
    ++ whyIf (d.vlt.heldPut.any fun h => decide (h.gq = o.gq) && decide (h.idx = o.idx)) { k := 15, tkind := 6 }

/-- A packet of a queue that waits for credits at an egress: the first code of its route (21 R868, 11 R459). -/
def Dev.fabricWhy (d : Dev) (gq : Nat) : List Why :=
  match d.fab.wait.find? fun w => decide (w.pkt.qglobal = gq) && decide (w.pkt.src = d.fab.node.getD 0) with
  | some w => [{ k := 3, tkind := 8, target := ((d.routeOf w.pkt.dst).1.head?).getD 0 }]
  | none => []

/-- The lowest-numbered reason. -/
def lowest : List Why → Option Why
  | [] => none
  | w :: r => match lowest r with
    | none => some w
    | some x => if x.k < w.k then some x else some w

/-- A record of the queue waits for its JACK (18 R763). -/
def Dev.recordGuarded (d : Dev) (gq idx : Nat) : Bool :=
  (d.twn.guards.any fun g => match g.2 with | .record q r => decide (q = gq) && decide (r.index = idx) | _ => false)
    || d.twn.jwait.any fun j => match j.2 with | some (.record q r) => decide (q = gq) && decide (r.index = idx) | _ => false

/-- What queue 64t + 63 waits for on behalf of compute-die requests and prefetches (21 R857). -/
def Dev.dieWhy (d : Dev) (t : Nat) : Option Why :=
  let gq := 64 * t + 63
  let busy := (d.rm.die.any fun r => decide (r.tenant = t)) || d.rm.lines.any fun l => decide (l.t = t) && decide (l.st = .fetching)
  if !busy then none
  else
    let tx := (d.tq.txns.find? fun x => decide (x.gq = gq) && (match x.for_ with | .die .. => true | .line .. => true | _ => false)).map
      fun x => { k := 10, tkind := 1, target := nodeTarget x.dst t }
    let held := (d.rm.dieWait.find? fun w => decide (w.2.2.2.srcTen = t)).map fun w => { k := 12, tkind := 1, target := nodeTarget w.2.2.2.dst w.2.2.2.dstTen }
    some ((lowest (d.fabricWhy gq ++ tx.toList ++ held.toList)).getD { k := 0 })

/-- The account a queue stands in, and the edge that names it (21 R857). -/
def Dev.whyOf (d : Dev) (gq : Nat) : Why :=
  match d.headOp gq with
  | some o => (lowest (d.fabricWhy gq ++ d.hostWhy o ++ d.sliceWhy o ++ d.remoteWhy o ++ d.restWhy o)).getD { k := 0 }
  | none =>
    let q := d.queue gq
    if q.head ≠ q.tail then (if d.recordGuarded gq q.head.toNat then { k := 15, tkind := 6 } else { k := 0 })
    else match (if gq % 64 = 63 then d.dieWhy (gq / 64) else none) with
      | some w => w
      | none => { k := 1 }

/-- Index of the operation, or descriptor, at the head of a queue. -/
def Dev.headIdx (d : Dev) (gq : Nat) : Nat := match d.headOp gq with | some o => o.idx | none => (d.queue gq).head.toNat

/-- The account of an accounted unit (21 R856): DMA engines, reduce engines, the semaphore unit, the Vault controller and the shared TLB. -/
def Dev.unitWhy (d : Dev) (u : Nat) : Nat :=
  if u < 16 then
    if d.xlt.pages.any fun p => decide (p.acc.engine = u) then 7
    else if (d.xlt.ats ++ d.xlt.atsWait).any fun a => (match a.acc with | some a => decide (a.engine = u) | none => false) then 6
    else if d.mbx.readWait.any fun r => decide (r.engine = u) then 5
    else if d.mbx.reads.any fun r => decide (r.engine = u) then 0
    else 1
  else if u < 20 then
    let e := u - 16
    if d.col.inst.any fun x => x.queue.any fun f => d.foldable e x f then 0
    else if d.col.inst.any fun x => decide (0 < Tab.look 0 1 (d.ten x.t).waiting) && x.queue.any fun f => decide ((f.chunk + x.g) % 4 = e) then 13
    else if d.col.inst.any fun x => !x.chunks.isEmpty then 11
    else 1
  else if u = 20 then (if d.rm.dir.any fun e => e.newVal.isSome && e.word.sem then 10 else 1)
  else if u = 21 then (if d.vlt.busy then (if d.onyxHot then 14 else 0) else if d.vlt.heldPut.isEmpty then 1 else 15)
  else if d.xlt.ats.isEmpty then (if d.xlt.invals.isEmpty then 1 else 0) else 6

/-- The queues with anything to account beside IDLE. -/
def Dev.busyQueues (d : Dev) : List Nat :=
  let a := d.tq.ops.foldl (fun l o => insertNat o.gq l) []
  let b := d.tq.q.foldl (fun l q => if q.2.head ≠ q.2.tail then insertNat q.1 l else l) a
  (List.range 16).foldl (fun l t => if (d.dieWhy t).isSome then insertNat (64 * t + 63) l else l) b

/-- Of every eight core cycles, those a throttle level skips or divides away (16 R665). -/
def throttleOf (level : Nat) : Nat := [0, 1, 2, 3, 4, 5, 6, 7].getD level 7

/-- Of `n` core cycles from cycle `c` on, those a level takes. -/
def skippedIn (level c n : Nat) : Nat := (c + n) * throttleOf level / 8 - c * throttleOf level / 8

/-- Accounts `n` cycles, of which `x` go to THROTTLE, in row `row` of a set in account `k`. -/
def addAcct (row k n x : Nat) (c : Tab Nat) : Tab Nat :=
  let c := if x = 0 then c else Tab.upd 0 (16 * row + 2) (· + x) c
  if k = 1 then c else Tab.upd 0 (16 * row + k) (· + (n - x)) c

/-- The throttle slows what works for a queue: all but the Vault controller (16 R665, R666). -/
def Dev.slowed (d : Dev) (gq : Nat) : Bool := match d.headOp gq with | some o => (match o.desc.body with | .vault .. => false | _ => true) | none => true

/-- `n` core cycles are accounted (21 R855 to R857); none while the device is stopped. -/
def Dev.account (d : Dev) (n : Nat) : Dev :=
  if d.stopped then { d with dbg.cycles := d.dbg.cycles + n }
  else
    let x := skippedIn d.thm.level d.dbg.cycles n
    let units := (List.range 23).foldl (fun c u => let k := d.unitWhy u; if k = 1 then c else addAcct u k n (if u = 21 then 0 else x) c) d.dbg.units
    let busy := d.busyQueues.map fun gq => (gq, (d.whyOf gq).k, d.headIdx gq)
    let acct := busy.foldl (fun c y => if y.2.1 = 1 then c else addAcct y.1 y.2.1 n (if d.slowed y.1 then x else 0) c) d.dbg.qacct
    let since := busy.foldl (fun (c : Tab (Nat × Nat × Nat)) x =>
      let y := Tab.look (1, 0, 0) x.1 c
      if y.1 = x.2.1 && y.2.1 = x.2.2 then c else Tab.put (1, 0, 0) x.1 (x.2.1, x.2.2, d.fab.time) c) d.dbg.qsince
    let since := since.map fun (x : Nat × Nat × Nat × Nat) =>
      (if (busy.any fun b => decide (b.1 = x.1)) || x.2.1 = 1 then x else (x.1, 1, d.headIdx x.1, d.fab.time) : Nat × Nat × Nat × Nat)
    { d with
      dbg.cycles := d.dbg.cycles + n
      dbg.counted := d.dbg.counted + n
      dbg.units := units
      dbg.qacct := acct
      dbg.qsince := since }

/-- A counter set's size (21 R858). -/
def setSize : Nat → Option Nat
  | 0x0000 => some 368
  | 0x0001 => some 64
  | 0x0010 => some 64
  | 0x0011 => some 1024
  | _ => none

/-- What an account row reads: IDLE is what the others leave of the cycles counted. -/
def acctAt (counted base : Nat) (tab : Tab Nat) (row k : Nat) : Nat :=
  if k = 1 then counted - base - ((List.range 16).map fun j => if j = 1 then 0 else Tab.look 0 (16 * row + j) tab).foldl (· + ·) 0
  else Tab.look 0 (16 * row + k) tab

/-- Value `i` of a counter set (21 R858). -/
def Dev.counter (d : Dev) (set t i : Nat) : Nat :=
  match set with
  | 0x0000 => acctAt d.dbg.counted 0 d.dbg.units (i / 16) (i % 16)
  | 0x0001 => Tab.look 0 i d.dbg.devOps
  | 0x0010 => Tab.look 0 (64 * t + i) d.dbg.ops
  | _ => acctAt d.dbg.counted (Tab.look 0 (64 * t + i / 16) d.dbg.qbase) d.dbg.qacct (64 * t + i / 16) (i % 16)

/-- Fabric time at which the head operation of a queue entered its present account. -/
def Dev.sinceOf (d : Dev) (gq : Nat) : Nat :=
  let y := Tab.look (1, 0, 0) gq d.dbg.qsince
  if y.1 = (d.whyOf gq).k && (y.1 = 1 || y.2.1 = d.headIdx gq) then y.2.2 else d.fab.time

/-- The edges of a view, in ascending QGLOBAL (21 R868). -/
def Dev.edges (d : Dev) (gqs : List Nat) : List Edge :=
  gqs.filterMap fun gq =>
    let w := d.whyOf gq
    if 2 ≤ w.k then
      let tel := (d.headOp gq).bind fun o => o.desc.telem
      some { qglobal := gq, reason := w.k, tkind := w.tkind + (if d.stopped then 128 else 0), target := w.target,
             layer := (tel.map fun x => x.layer.toNat).getD 0, operator := (tel.map fun x => x.operator.toNat).getD 0,
             micros := min (2 ^ 32 - 1) ((d.fab.time - d.sinceOf gq) / 1000) }
    else none

/-- The fields of a descriptor, in layout order (07 R267, R268). -/
def descNats (x : Desc) : List Nat :=
  let tel := match x.telem with | some t => [t.layer.toNat, t.operator.toNat, t.range.toNat] | none => [0, 0, 0]
  [x.op, bNat x.irq + 2 * bNat x.fence + 4 * bNat x.relaxed + 8 * bNat x.telem.isSome] ++ tel ++ [x.pasid] ++
    match x.body with
    | .dma s t n v => [s.toNat, t.toNat, n, v.toNat]
    | .remote r l n a o c => [r.toNat, l.toNat, n, a, o.toNat, c.toNat]
    | .coll s t n g f r dl q fl sd b => [s.toNat, t.toNat, n, g, f, r, dl, q, fl.toNat, sd.toNat, b.toNat]
    | .sem s o c a k => [s.toNat, o.toNat, c.toNat, a, k]
    | .vault e l o n r => [e.toNat, l.toNat, o, n, r]

/-- Fabric time of a local time. -/
def Dev.fabTimeOf (d : Dev) (t : Nat) : Nat := (d.fab.time + t) - d.now

/-- The snapshot of a queue (21 R867), field by field. -/
def Dev.qsnap (d : Dev) (gq : Nat) : List Nat :=
  let q := d.queue gq
  if q.st = .absent then List.replicate 83 0
  else
    let o := d.headOp gq
    let x := d.tq.txns.find? fun x => decide (x.gq = gq)
    let coll := match o with | some o => (match o.desc.body with | .coll _ _ _ g _ _ dl .. => some (g, o.result.toNat, decide (dl = 0)) | _ => none) | none => none
    let ends := match o with
      | some o => if (match coll with | some c => c.2.2 | none => false) then 0
          else d.fabTimeOf ((match x with | some y => y.issued | none => o.startedAt) + 1000 * q.timeout)
      | none => 0
    [q.st.code, q.qtype, (d.whyOf gq).k, q.head.toNat, q.tail.toNat, (d.opsOf gq).length, q.last.code, d.fab.time, d.sinceOf gq,
     (o.map (·.confirmed)).getD 0, (o.map (·.next)).getD 0, (d.tq.txns.filter fun x => decide (x.gq = gq)).length,
     (x.map fun y => nodeTarget y.dst ((o.bind fun p => p.remote.map faTen).getD (gq / 64))).getD 0, (x.map fun y => y.serial.toNat).getD 0,
     (x.map fun y => d.fabTimeOf y.issued).getD 0, ends, (coll.map (·.1)).getD 0, (coll.map (·.2.1)).getD 0,
     (Tab.look 0 (gq % 64) (d.ten (gq / 64)).qflag).toNat]
      ++ (match o with | some o => (descImage o.desc).map (·.toNat) | none => List.replicate 64 0)

end Sys2Proof.Machine
end

