-- ==== Sys2Proof/Machine/Debug.lean ====
section
/-! DEFINITION. Telemetry, time stamps, tensor dumps, the stop (21), and the TAP (23). -/

namespace Sys2Proof.Machine

/-! ### Telemetry (21 R860, R861, R866) -/

/-- A signed reading of a sensor as 16 bits; 0x8000 while it is invalid (16 R656; THM_READ). -/
def Sensor.word (x : Sensor) : Nat := if x.invalid then 0x8000 else (BitVec.ofInt 16 x.temp).toNat

/-- Frame number `n` as it is captured now (R860). -/
def Dev.frameBytes (d : Dev) (n : Nat) : List Byte :=
  leBytes 8 n ++ leBytes 8 d.fab.time ++ leBytes 1 d.thm.level ++ leBytes 1 (bNat d.timeLocked) ++ zeros 14
    ++ ((List.range 368).flatMap fun i => leBytes 8 (d.counter 0x0000 0xFF i)) ++ ((List.range 64).flatMap fun i => leBytes 8 (d.counter 0x0001 0xFF i))
    ++ ((List.range 58).flatMap fun n => leBytes 2 (Tab.look {} n d.thm.sens).word) ++ zeros 484 ++ leBytes 8 n

/-- The telemetry frame that is due is written to its place among 512 (R860, R861). -/
def Dev.writeFrame (d : Dev) (dest : W64) (period n : Nat) : Dev :=
  let addr := dest + BitVec.ofNat 64 (4096 * (n % 512))
  ({ d with dbg.tlm := some (dest, period, n + 1), dbg.tlmAt := d.now }).runJob
    { for_ := .frame n, fn := 0, iova := addr, len := 4096, write := true, msg := some (.telemetry addr (d.frameBytes n)) }

/-- TLM_FRAME (R860, R861): every PERIOD_US; none is captured while stopped; SEQ advances in any case. -/
def execTlmFrame (s : State) : R := s.run fun d =>
  match d.dbg.tlm with
  | none => d
  | some (dest, period, n) => if d.stopped || decide (d.now < d.dbg.tlmAt + 1000 * period) then d else (d.writeFrame dest period n).settle

/-- TS_SEND (R866): every TS_PERIOD µs. -/
def execTsSend (s : State) : R := s.run fun d =>
  let period := d.dbg.cfg.toNat / 2 ^ 16
  if decide (period = 0) || decide (d.now < d.dbg.tsAt + 1000 * period) then d
  else
    (List.range 8).foldl (fun d p =>
      if (d.hport p).st = .active && (d.hport p).feat.getLsbD 3 then
        d.facet p 3 (debugFlits 16) (.facetTime p (BitVec.ofNat 64 d.fab.time) (bNat d.timeLocked))
      else d) { d with dbg.tsAt := d.now }

/-! ### Tensor dumps (21 R871 to R875) -/

/-- DUMP_TIMEOUT (R875): 600 s after the command's first step; the limit holds while the device is stopped (R880). -/
def execDumpTimeout (t : Nat) (s : State) : R := s.runIf (Unit.tenant t) fun d =>
  match Tab.look none t d.dbg.dumps with
  | some x =>
    if x.firing.isNone && !d.stopped && decide (x.at_ + 600000000000 ≤ d.now) then
      ({ d with dbg.dumps := Tab.put none t none d.dbg.dumps }).finishAccs (fun a => decide (a.opcode = 0x0A04) && decide (a.arg = t)) .timeout [0]
    else d
  | none => d

/-- The record of a descriptor has been written: it is not held, waiting for a JACK, or on its way (R874). -/
def Dev.recordWritten (d : Dev) (gq idx : Nat) : Bool :=
  !(d.queue gq).held.any (fun r => decide (r.index = idx)) && !d.recordGuarded gq idx
    && !d.mbx.jobs.any fun j => match j.for_ with | .record q r => decide (q = gq) && decide (r.index = idx) | _ => false

/-- DUMP_DONE (R873, R874). -/
def execDumpDone (t : Nat) (s : State) : R := s.runIf (Unit.tenant t) fun d =>
  match Tab.look none t d.dbg.dumps with
  | some x =>
    match x.firing, x.status with
    | some (gq, idx), some st =>
      if d.recordWritten gq idx then
        (({ d with dbg.dumps := Tab.put none t none d.dbg.dumps } : Dev).trace 0x0B t 0 gq st.code
          (some { layer := x.layer, operator := x.operator, range := x.stp }) x.bytes).finishAccs (fun a => decide (a.opcode = 0x0A04) && decide (a.arg = t))
          (if x.failed then .accessDenied else st) [x.bytes]
      else d
    | _, _ => d
  | none => d

/-! ### The stop (21 R876 to R890) -/

/-- The last SEQ below `n`, modulo `m`. -/
def lastSeq (n m : Nat) : Nat := (n + m - 1) % m

/-- The DBG_CUT entry of an optical or Twin port. -/
def Dev.linkCut (d : Dev) (p : Nat) : Cut :=
  let l := d.lport p
  if l.st = .active then
    { valid := true, txSeq := lastSeq l.txNext 4096, rxSeq := lastSeq l.rxNext 4096,
      txAck := lastSeq (match l.unacked.head? with | some x => x.seq | none => l.txNext) 4096,
      rxPart := (l.parts.map fun x => 2 ^ x.1).foldl (· + ·) 0 }
  else {}

/-- The DBG_CUT entry of a Host Facet port. -/
def Dev.facetCut (d : Dev) (p : Nat) : Cut :=
  let h := d.hport p
  if h.st = .active then
    { valid := true, txSeq := lastSeq h.txNext 1024, rxSeq := lastSeq h.rxNext 1024,
      txAck := lastSeq (match h.unacked.head? with | some x => x.seq | none => h.txNext) 1024,
      rxPart := (h.parts.map fun c => 2 ^ c).foldl (· + ·) 0 }
  else {}

/-- A stop takes hold: where each link and Facet port is cut is recorded, with the time and the cycle (R877, R882, R888). -/
def Dev.cutNow (d : Dev) : Dev :=
  let cut : Tab Cut := (List.range 73).foldl (fun c e => Tab.put {} e (if e < 65 then d.linkCut e else d.facetCut (e - 65)) c) []
  let d := { d with
    dbg.st := .stopped
    dbg.record := false
    dbg.locked := d.timeLocked
    dbg.stopFt := d.fab.time
    dbg.stopCyc := d.dbg.cycles
    dbg.cutAt := d.now
    dbg.cut := cut }
  d.trace 0x08 0xFF 0 0xFFFF 0 none d.dbg.cycles

/-- STOP_CUT (R877, R882, R888): a scheduled stop takes effect; a SCOPE 1 stop not before its FTIME. The device leaves Idle first. -/
def execStopCut (s : State) : R := s.run fun d =>
  if d.dbg.st = .scheduled && (decide (d.dbg.cause ≠ 3) || decide (d.dbg.stopFt ≤ d.fab.time)) then
    d.wake.cutNow
  else d

/-- STOP_RECORD_DONE (R882). -/
def execStopRecordDone (s : State) : R := s.run fun d =>
  if d.stopped && !d.dbg.record then ({ d with dbg.record := true }).finishAccs (fun a => decide (a.opcode = 0x0A00)) .ok [] else d

/-- MAXSTOP_EXPIRY (R884): MAXSTOP × 100 ms after the cut; 0 means no limit. -/
def execMaxstopExpiry (s : State) : R := s.run fun d =>
  let n := d.dbg.cfg.toNat / 256 % 256
  if decide (n = 0) || decide (d.now < d.dbg.cutAt + 100000000 * n) then d else (d.resume 1).settle

/-- DBG_TRSTAT_CLR (R864). -/
def execDbgTrstatClr (s : State) : R := s.run fun d => d.mmio 0 fun d => { d with dbg.trace := [], dbg.lost := 0 }

/-- DBG_TLMSTAT_CLR (R861). -/
def execDbgTlmstatClr (s : State) : R := s.run fun d => d.mmio 0 fun d => { d with dbg.frames := 0, dbg.skipped := 0 }

/-- DBG_STOPVAL_LO_READ (R890): reading LO latches HI. -/
def execDbgStopvalLoRead (cyc : Bool) (s : State) : R := s.run fun d => d.mmio 0 fun d =>
  if cyc then { d with dbg.cycHi := BitVec.ofNat 32 (d.dbg.stopCyc / 2 ^ 32) } else { d with dbg.ftHi := BitVec.ofNat 32 (d.dbg.stopFt / 2 ^ 32) }

/-! ### Repair fuses and the TAP (23 R917 to R925) -/

/-- A valid repair entry as its 24 fuse bits (R917). -/
def Repair.word (r : Repair) : BitVec 24 :=
  BitVec.ofNat 24 (2 ^ 23 + (if r.toDie then 0 else 2 ^ 22) + r.cluster % 128 * 2 ^ 15 + r.lane % 64 * 2 ^ 9 + r.target % 128 * 4)

/-- A repair entry as read from its fuses; none where VALID is 0 (R917). -/
def readRepair (w : BitVec 24) : Option Repair :=
  if w.getLsbD 23 then
    some { toDie := !w.getLsbD 22, cluster := w.toNat / 2 ^ 15 % 128, lane := w.toNat / 2 ^ 9 % 64, target := w.toNat / 4 % 128 }
  else none

/-- The TAP's IDCODE (R919): the version is Garnet's revision major, of its identity word (01, identity words). -/
def Dev.idcode (d : Dev) : BitVec 32 :=
  BitVec.ofNat 32 ((Tab.look {} 0 d.boot.dies).id.toNat / 2 ^ 56 % 16 * 2 ^ 28 + 0x2020 * 2 ^ 12 + 0x1E5 * 2 + 1)

/-- The data register between TDI and TDO. -/
inductive TapReg where
  | bypass | idcode | boundary
  deriving DecidableEq, Repr, Inhabited

/-- The register an instruction selects (R920; IEEE 1149.1): CLAMP and HIGHZ select the bypass register. -/
def tapReg (instr : Nat) : TapReg := if instr = 1 then .idcode else if [2, 3, 6, 7].contains instr then .boundary else .bypass

/-- Boundary-scan cells of a group of pins (R920): how many pins, whether the cells are of IEEE 1149.6, drive, and observe. -/
structure ScanPins where
  pins    : Nat
  ac      : Bool
  drives  : Bool
  deriving DecidableEq, Repr, Inhabited

/-- The covered pins (R920): PCIE_TX, PCIE_RX, TWN_TX, TWN_RX (pairs); FAULT_N, PWR_REQ, TWIN_ALIVE_OUT, SMB_CLK, SMB_DAT, SMB_ALERT_N; the FLASH
pins; and the seven observed inputs. -/
def scanPins : List ScanPins :=
  [{ pins := 8, ac := true, drives := true }, { pins := 8, ac := true, drives := false }, { pins := 8, ac := true, drives := true },
   { pins := 8, ac := true, drives := false }, { pins := 6, ac := false, drives := true }, { pins := 6, ac := false, drives := true },
   { pins := 7, ac := false, drives := false }]

/-- The cells of a group work: PCIe and Twin cells while VDD_PCIE is within tolerance, which PWR_OK stands for; all others with the always-on rails
(R921). -/
def Dev.cellsWork (d : Dev) (g : ScanPins) : Bool := d.jad.aoUp && (!g.ac || d.jad.pwrOk)

/-- EXTEST, CLAMP, HIGHZ, EXTEST_PULSE and EXTEST_TRAIN hold the device (R924). -/
def extestClass (i : Nat) : Bool := decide (3 ≤ i) && decide (i ≤ 7)

/-- TAP_INSTRUCTION_LOAD (R920, R924): any other code acts as BYPASS. No fault is raised. -/
def execTapInstructionLoad (instr : Nat) (s : State) : R := s.run fun d =>
  let i := if instr ≤ 7 then instr else 0
  let d := { d with jad.tap := i }
  if extestClass i then
    let d := if 4 ≤ d.boot.stage.code && !d.jad.latched then { d.devReset .tap with jad.bscanDr := true } else d
    ({ d with jad.bscanHold := true }).settle
  else { d with jad.bscanHold := false }

/-- TRST_ASSERT (R924): the TAP is reset, so that IDCODE is in force. -/
def execTrstAssert (s : State) : R := s.run fun d => { d with jad.tap := 1, jad.bscanHold := false }

end Sys2Proof.Machine
end

