-- ==== Sys2Proof/Machine/CmdDebug.lean ====
section
/-! DEFINITION. The debug and telemetry group of Oxsum (06 R247; 21 R859, R860, R867 to R871, R876, R883). -/

namespace Sys2Proof.Machine

/-- A stop is scheduled: cause 2 at once, 3 at a fabric time. -/
def Dev.scheduleStop (d : Dev) (scope : Nat) (ftime : W64) : Dev :=
  { d with dbg.st := .scheduled, dbg.cause := scope + 2, dbg.stopFt := if scope = 1 then ftime.toNat else d.dbg.stopFt }

/-- DBG_STOP (R876): the stop is scheduled, and the cut is its own event. -/
def execDbgStop (r : Req) (scope : Nat) (ftime : W64) (s : State) : R := s.run fun d =>
  let c : Cmd := { op := 0x0A00, m := true, live := true, len := 16, acc := true,
                   ok := decide (scope = 0) || (decide (scope = 1) && decide (d.fab.time + 100000 ≤ ftime.toNat)) }
  d.command c r fun d =>
    if decide (d.dbg.st ≠ .running) || (decide (scope = 1) && !d.timeLocked) then d.deny c r .badState
    else (d.started c r []).scheduleStop scope ftime

/-- DBG_RESUME (R883). -/
def execDbgResume (r : Req) (s : State) : R := s.run fun d =>
  let c : Cmd := { op := 0x0A01, m := true, live := true, acc := true }
  d.command c r fun d =>
    match d.dbg.st with
    | .running => d.deny c r .badState
    | .scheduled => (({ d with dbg.st := .running }).finishAccs (fun a => decide (a.opcode = 0x0A00)) .aborted []).okay c r
    | _ => (d.resume 0).okay c r

/-- An edge as the fields of its 16 bytes (R868). -/
def Edge.fields (e : Edge) : List Nat := [e.qglobal, e.reason, e.tkind, e.target, e.layer, e.operator, e.micros]

/-- The view of a DBG_WAITFOR: a tenant's 64 queues, or all 1,024 for the PF with TENANT 0xFF (R868). -/
def viewQueues (t : Nat) : List Nat := if t < 16 then (List.range 64).map (64 * t + ·) else List.range 1024

/-- The answer of DBG_WAITFOR: TOTAL, NUM, and the edges from FIRST on. -/
def Dev.edgeReply (d : Dev) (c : Cmd) (r : Req) (first : Nat) (es : List Edge) : Dev :=
  let l := (es.drop first).take 254
  d.okay c r (es.length :: l.length :: l.flatMap Edge.fields)

/-- DBG_WAITFOR (R868, R870): FIRST 0 captures. -/
def execDbgWaitfor (r : Req) (first : Nat) (s : State) : R := s.run fun d =>
  let c : Cmd := { op := 0x0A02, tn := true, dev := true, live := true, len := 4 }
  d.command c r fun d =>
    let v := min r.tenant.toNat 16
    if first = 0 then
      let es := d.edges (viewQueues r.tenant.toNat)
      ({ d with dbg.graphs := Tab.put none v (some es) d.dbg.graphs }).edgeReply c r 0 es
    else
      match Tab.look none v d.dbg.graphs with
      | none => d.deny c r .badState
      | some es => if es.length ≤ first then d.deny c r .badField else d.edgeReply c r first es

/-- DBG_QSNAP (R867). -/
def execDbgQsnap (r : Req) (q : Nat) (s : State) : R := s.run fun d =>
  let t := r.tenant.toNat
  let c : Cmd := { op := 0x0A03, tn := true, live := true, len := 4, ok := decide (q < 64), objs := [.queue t q] }
  d.command c r fun d => d.okay c r (d.qsnap (64 * t + q))

/-- DBG_TENSOR_DUMP (R871). -/
def execDbgTensorDump (r : Req) (layer operator : W16) (stp : W32) (dest maxlen : W64) (s : State) : R := s.run fun d =>
  let t := r.tenant.toNat
  let c : Cmd := { op := 0x0A04, tn := true, live := true, len := 24, acc := true, minor := 2,
                   ok := decide (dest.toNat % 4096 = 0) && decide (0 < maxlen.toNat) && decide (maxlen.toNat ≤ 2 ^ 40) }
  d.command c r fun d =>
    if (Tab.look none t d.dbg.dumps).isSome then d.deny c r .busy
    else { d.started c r [] t with dbg.dumps := Tab.put none t (some { layer, operator, stp, dest, maxlen := maxlen.toNat, at_ := d.now }) d.dbg.dumps }

/-- CNT_READ (R858, R859): the sets of the device are the PF's alone. -/
def execCntRead (r : Req) (set first num : Nat) (s : State) : R := s.run fun d =>
  let t := r.tenant.toNat
  let c : Cmd := { op := 0x0A10, tn := true, dev := true, live := true, len := 8,
                   ok := decide (0 < num) && decide (num ≤ 509) && (setSize set).any fun n => decide (first + num ≤ n) }
  d.command c r fun d =>
    if set < 2 && t ≠ 0xFF then d.deny c r .accessDenied
    else if decide (2 ≤ set) && decide (16 ≤ t) then d.deny c r .badTenant
    else d.okay c r ((List.range num).map fun i => d.counter set t (first + i))

/-- TLM_EXPORT (R860). -/
def execTlmExport (r : Req) (dest : W64) (period : Nat) (s : State) : R := s.run fun d =>
  let c : Cmd := { op := 0x0A11, live := true, len := 16,
                   ok := decide (period = 0) || (decide (100 ≤ period) && decide (period ≤ 1000000) && decide (dest.toNat % 2 ^ 21 = 0)) }
  d.command c r fun d => ({ d with dbg.tlm := if period = 0 then none else some (dest, period, 0), dbg.tlmAt := d.now }).okay c r

end Sys2Proof.Machine
end

