-- ==== Sys2Proof/Machine/Security.lean ====
section
/-! DEFINITION. The security module (19): key exchange and rekey, the package Vault root, SPDM and key management, self-tests, zeroisation and breach. -/

namespace Sys2Proof.Machine

/-! ### Key exchange of a port (R797 to R801) -/

def Dev.keyxOf (d : Dev) (p : Nat) : KeyX := Tab.look {} p d.sec.keyx
def Dev.setKeyx (d : Dev) (p : Nat) (f : KeyX → KeyX) : Dev := { d with sec.keyx := Tab.upd {} p f d.sec.keyx }

/-- The port is in KEYING and its exchange goes on (R798, R801). -/
def Dev.keying (d : Dev) (p : Nat) : Bool := decide ((d.lport p).st = .keying) && (d.keyxOf p).sent && !(d.keyxOf p).aborted && d.keyService

/-- An end of an exchange counts and reports a peer it does not accept (R801). -/
def Dev.peerAuth (d : Dev) (p : Nat) : Dev :=
  ({ d.setKeyx p (fun x => { x with aborted := true }) with sec.peerAuth := satAdd 0xFF d.sec.peerAuth }).post Src.secPeerAuth p

/-- A failed check: ABORT with its reason (R801). -/
def Dev.keyFail (d : Dev) (p reason : Nat) : Dev := (d.linkItem p (.keymsg p 8 0 1 (leBytes 1 reason))).peerAuth p

/-- Known-key mode (R785). -/
def Dev.knownMode (d : Dev) : Bool := decide (d.sec.mode = .nonApproved)

/-- Both ends' HELLOs and the far end's accepted chain give TH and K_dk; VERIFY and FINISH go out, and the ephemeral key goes (R795, R798, R799). -/
def Dev.keyProve (d : Dev) (p : Nat) (far : KeyHello) (key : BitVec 768) : Dev :=
  let x := d.keyxOf p
  let th := helloHash x.own far
  let kdk := hmac384 (keySalt d.knownMode d.secNv.fs) (keyShared d.knownMode x.priv far.eph)
  let (k, d) := d.rand 384
  let d := d.setKeyx p fun x => { x with farKey := some key, verifySent := true, priv := 0, thTx := th, thRx := th, kdkTx := kdk, kdkRx := kdk }
  (d.linkItem p (.keymsg p 3 0 1 (beBytes 96 (Config.dikSign (verifyDigest th x.own) k).toNat))).linkItem p
    (.keymsg p 4 0 1 (beBytes 48 (finishMac kdk th x.own).toNat))

/-- Once HELLO and CERT of the far end are held, the chain is checked, and VERIFY and FINISH go out (R798). -/
def Dev.keyVerify (d : Dev) (p : Nat) : Dev :=
  let x := d.keyxOf p
  match x.far, x.chain with
  | some far, some der =>
    if x.verifySent then d
    else match d.secNv.chainKey der far.ident with | some key => d.keyProve p far key | none => d.keyFail p 1
  | _, _ => d

/-- KEYMSG_HELLO (R798): MODE and FSCHK must equal this end's. -/
def execKeymsgHello (p : Nat) (h : KeyHello) (s : State) : R := s.runIf (Unit.linkPort p) fun d =>
  if !d.keying p then d
  else if h.mode ≠ (d.keyxOf p).own.mode then (d.keyFail p 4).settle
  else if h.fschk ≠ (d.keyxOf p).own.fschk then (d.keyFail p 5).settle
  else ((d.setKeyx p fun x => { x with far := some h }).keyVerify p).settle

/-- A fragment of a chain cannot belong to one of at most 10 fragments and 2,048 bytes (R797). -/
def KeyX.badFragment (x : KeyX) (frag nfrag len : Nat) : Bool :=
  decide (nfrag = 0) || decide (10 < nfrag) || decide (nfrag ≤ frag) || decide (224 < len)
    || decide (2048 < len + ((x.certs.filter fun c => decide (c.1 ≠ frag)).map fun c => (c.2.getD []).length).sum)

/-- KEYMSG_CERT (R797, R798): the chain is checked once all fragments and HELLO are there. -/
def execKeymsgCert (p frag nfrag : Nat) (data : List Byte) (s : State) : R := s.runIf (Unit.linkPort p) fun d =>
  if !d.keying p || (d.keyxOf p).verifySent then d
  else if (d.keyxOf p).badFragment frag nfrag data.length then (d.keyFail p 1).settle
  else ((d.setKeyx p fun x => { x with nfrag, certs := Tab.put none frag (some data) x.certs }).keyVerify p).settle

/-- The far end's VERIFY verifies under its DeviceID key (R798). -/
def KeyX.verifies (x : KeyX) (sig : BitVec 768) : Bool :=
  match x.far, x.farKey with | some far, some key => Config.ecVerify key (verifyDigest x.thRx far) sig | _, _ => false

/-- KEYMSG_VERIFY (R798). -/
def execKeymsgVerify (p : Nat) (sig : BitVec 768) (s : State) : R := s.runIf (Unit.linkPort p) fun d =>
  if !d.keying p then d
  else if (d.keyxOf p).verifies sig then d.setKeyx p fun x => { x with verifyOk := true }
  else (d.keyFail p 2).settle

/-- The far end of an exchange, whose HELLO it holds. -/
def KeyX.there (x : KeyX) : KeyHello := x.far.getD x.own

/-- Generation 0 of both directions is installed, and REKEY_READY says so (R799, 12 R536). -/
def Dev.installKeys (d : Dev) (p : Nat) : Dev :=
  (d.setKeyx p fun x => { x with
    installed := true, genTx := 0, genRx := 0
    keyTx := linkKey x.kdkTx x.thTx x.own x.there 0
    keyRx := linkKey x.kdkRx x.thRx x.there x.own 0 }).linkItem p (.lmgt p 0x102 [0])

/-- STATE of a PVK message (R803). -/
def Dev.pvkState (d : Dev) : Nat := if d.secNv.pvk.isNone then 0 else if d.onyx.vers.isEmpty then 1 else 2

/-- The DATA of this end's PVK (R797, R803). -/
def Dev.pvkData (d : Dev) : List Byte :=
  leBytes 1 d.pvkState ++ leBytes 7 0 ++
    (match d.secNv.pvk with | some k => keyWrap (pvkKey (d.keyxOf 64).kdkTx (d.keyxOf 64).thTx) (beBytes 32 k.toNat) | none => List.replicate 40 0)

/-- KEYMSG_FINISH (R798, R799): with it the keys are installed; on the Twin port each side sends PVK first (R803). -/
def execKeymsgFinish (p : Nat) (mac : BitVec 384) (s : State) : R := s.runIf (Unit.linkPort p) fun d =>
  if !d.keying p then d
  else
    let x := d.keyxOf p
    if x.verifyOk && decide (mac = finishMac x.kdkRx x.thRx x.there) then
      let d := d.setKeyx p fun x => { x with finishOk := true }
      if p = 64 then d.linkItem p (.keymsg p 7 0 1 d.pvkData) else d.installKeys p
    else (d.keyFail p 3).settle

/-- K_dk of a direction after a rekey (R800). -/
def Dev.nextSecret (d : Dev) (kdk : List Byte) (priv : BitVec 384) (far : BitVec 768) : List Byte := hmac384 kdk (keyShared d.knownMode priv far)

/-- The next key of the receive direction, from its new secret and transcript (R800). -/
def KeyX.nextRecv (x : KeyX) (k th : List Byte) : KeyX :=
  { x with kdkRx := k, thRx := th, nextRx := linkKey k th x.there x.own (x.genRx + 1) }

/-- The next key of the transmit direction, from its new secret and transcript (R800). -/
def KeyX.nextSend (x : KeyX) (k th : List Byte) : KeyX :=
  { x with rekeyTx := none, kdkTx := k, thTx := th, nextTx := linkKey k th x.own x.there (x.genTx + 1) }

/-- This end answers a REKEY with its own nonce and ephemeral key (R800, 12 R537). -/
def Dev.answerRekey (d : Dev) (p : Nat) (nonce : BitVec 256) (eph : BitVec 768) (n : BitVec 256) (priv : BitVec 384) : Dev :=
  let x := d.keyxOf p
  let ack := rekeyData n (Config.ecPublic priv)
  let d := d.setKeyx p fun x => x.nextRecv (d.nextSecret x.kdkRx priv eph) (sha384Bytes (rekeyData nonce eph ++ ack))
  let d := d.setLport p fun l => { l with nextKey := true }
  (d.linkItem p (.keymsg p 6 0 1 ack)).linkItem p (.lmgt p 0x102 [(x.genRx + 1) % 2])

/-- KEYMSG_REKEY (R800, 12 R537): the receive direction's next key is made, and REKEY_ACK and REKEY_READY go out. -/
def execKeymsgRekey (p : Nat) (nonce : BitVec 256) (eph : BitVec 768) (s : State) : R := s.runIf (Unit.linkPort p) fun d =>
  if d.active p && (d.keyxOf p).installed && d.keyService then
    let (n, d) := d.rand 256
    let (priv, d) := d.rand 384
    d.answerRekey p nonce eph n priv
  else d

/-- The REKEY this end sent is answered (R800). -/
def Dev.rekeyAnswered (d : Dev) (p : Nat) (r : BitVec 256 × BitVec 384) (nonce : BitVec 256) (eph : BitVec 768) : Dev :=
  d.setKeyx p fun x => x.nextSend (d.nextSecret x.kdkTx r.2 eph) (sha384Bytes (rekeyData r.1 (Config.ecPublic r.2) ++ rekeyData nonce eph))

/-- KEYMSG_REKEY_ACK (R800): the transmit direction's next key is made; it is used from the far end's REKEY_READY on. -/
def execKeymsgRekeyAck (p : Nat) (nonce : BitVec 256) (eph : BitVec 768) (s : State) : R := s.runIf (Unit.linkPort p) fun d =>
  match (d.keyxOf p).rekeyTx with
  | some r => if d.active p && d.keyService then d.rekeyAnswered p r nonce eph else d
  | none => d

/-- The far end's root as its PVK carries it (R803); `none` where the wrap's check value is wrong. -/
def Dev.pvkFar (d : Dev) (wrapped : BitVec 320) : Option (BitVec 256) :=
  (keyUnwrap (pvkKey (d.keyxOf 64).kdkRx (d.keyxOf 64).thRx) (beBytes 40 wrapped.toNat)).map fun b => BitVec.ofNat 256 (beNat b)

/-- This end takes the far end's root where they differ (R804): it has none, or one that protects nothing where the far end's does, or, when
neither protects anything, where it is side B. It never does while its Vault holds versions. -/
def Dev.pvkAdopts (d : Dev) (state : Nat) : Bool :=
  d.onyx.vers.isEmpty && (decide (d.pvkState = 0) || decide (state = 2) || d.jad.straps.side)

/-- KEYMSG_PVK (R803, R804): the roots are reconciled, and the Twin port's keys are installed unless they conflict. A root that does not
unwrap is refused with the same reason (log 170). -/
def execKeymsgPvk (state : Nat) (wrapped : BitVec 320) (s : State) : R := s.run fun d =>
  let x := d.keyxOf 64
  if !d.keying 64 || !x.finishOk || x.installed then d
  else if state = 0 then d.installKeys 64
  else match d.pvkFar wrapped with
    | none => (d.keyFail 64 6).settle
    | some far =>
      if d.secNv.pvk = some far then d.installKeys 64
      else if decide (d.pvkState = 2) && decide (state = 2) then ((d.keyFail 64 6).post Src.secPvkConflict 0).settle
      else (if d.pvkAdopts state then { d with secNv.pvk := some far } else d).installKeys 64

/-- KEYMSG_ABORT (R801). -/
def execKeymsgAbort (p _reason : Nat) (s : State) : R := s.runIf (Unit.linkPort p) fun d =>
  if decide ((d.lport p).st = .keying) && !(d.keyxOf p).aborted then (d.peerAuth p).settle else d

/-! ### SPDM and key management (R813, R814) -/

/-- Codes of SPDM 1.2 messages. PRESUMED (log 37): the spec names them and gives no numbers. -/
def spdmError : Nat := 0x7F

/-- A session of a transport. -/
def Dev.session (d : Dev) (transport : Nat) (id : Option Nat) : Option Spdm :=
  id.bind fun i => d.sec.spdm.find? fun x => decide (x.transport = transport) && decide (x.id = i)

/-- The content of a measurement (R813), before its SHA-384; what each row names, little-endian in the row's order (log 171). -/
def Dev.measured (d : Dev) (i : Nat) : List Byte :=
  let dig : Nat → List Byte := fun k => match (comps d.boot.hdr).find? fun c => decide (c.ctype = k) with | some c => beBytes 48 c.dig | none => []
  match i with
  | 1 => Config.bootRom
  | 2 => dig 1
  | 3 => dig 2
  | 4 => dig 3
  | 5 => leBytes 2 d.flash.minSvn ++ leBytes 1 d.flash.revoked.toNat ++ leBytes 1 d.flash.zgen ++ leBytes 1 d.sec.mode.code
  | 6 => (List.range 20).flatMap fun n => leBytes 8 (Tab.look {} n d.boot.dies).id.toNat
  | _ => leBytes 4 d.boot.fwVer.toNat ++ leBytes 1 d.boot.oxMaj.toNat ++ leBytes 1 d.mbx.oxMin

/-- A measurement (R813). -/
def Dev.measurement (d : Dev) (i : Nat) : BitVec 384 := Config.sha384 (d.measured i)

/-- What a request for measurement `i` is answered: 0 asks how many there are, 0xFF for all (PRESUMED, log 37); the signature is over a transcript
that the block does not hold. -/
def Dev.measureAnswer (d : Dev) (i : Nat) : Option (List Nat) :=
  if i = 0 then some [0, 7]
  else if i ≤ 7 then some [i, (d.measurement i).toNat]
  else if i = 0xFF then some (0xFF :: (List.range 7).map fun k => (d.measurement (k + 1)).toNat)
  else none

/-- Answers an SPDM request (R813). -/
def Dev.spdmAnswer (d : Dev) (transport : Nat) (id : Option Nat) (q : SpdmReq) : Dev :=
  let err : Nat → Dev := fun c => d.emit (.spdm spdmError c [])
  if !d.up then d
  else
    match q with
    | .getVersion => d.emit (.spdm 0x04 0 [0x12])
    | .getCapabilities => d.emit (.spdm 0x61 0 [])
    | .negotiateAlgorithms => d.emit (.spdm 0x63 0 [])
    | .unsupported => err 7
    | .endSession =>
      match d.session transport id with
      | some x => ({ d with sec.spdm := without x d.sec.spdm }).emit (.spdm 0x6C 0 [x.id])
      | none => err 1
    | .heartbeat => if (d.session transport id).any (·.open_) then d.emit (.spdm 0x68 0 []) else err 1
    | .keyUpdate => if (d.session transport id).any (·.open_) && d.keyService then d.emit (.spdm 0x69 0 []) else err 1
    | q =>
      if !d.keyService then err 5
      else
        match q with
        | .getDigests => d.emit (.spdm 0x01 0 [1])
        | .getCertificate slot => if slot = 0 then d.emit (.spdm 0x02 0 [slot]) else err 1
        | .challenge => let (n, d) := d.rand 256; d.emit (.spdm 0x03 0 [n.toNat])
        | .getMeasurements i =>
          match d.measureAnswer i with
          | some l => let (n, d) := d.draw 768; d.emit (.spdm 0x60 0 (l ++ [n.toNat]))
          | none => err 1
        | .keyExchange mauth =>
          if 2 ≤ (d.sec.spdm.filter fun x => decide (x.transport = transport)).length then err 0x0A
          else
            let (n, d) := d.rand 384
            let i := d.sec.nextSession
            ({ d with sec.nextSession := i + 1, sec.spdm := d.sec.spdm ++ [({ transport, id := i, mauth } : Spdm)] }).emit (.spdm 0x64 0 [i, n.toNat])
        | .finish sigOk =>
          match d.session transport id with
          | some x =>
            if x.mauth && !sigOk then { d.emit (.spdm spdmError 6 []) with sec.spdm := without x d.sec.spdm }
            else ({ d with sec.spdm := d.sec.spdm.map fun (y : Spdm) => (if y = x then { x with open_ := true } else y : Spdm) }).emit (.spdm 0x65 0 [])
          | none => err 1
        | _ => err 7

/-- SPDM_REQUEST (R813). -/
def execSpdmRequest (transport : Nat) (session : Option Nat) (q : SpdmReq) (s : State) : R := s.run fun d => d.spdmAnswer transport session q

/-- Answers a key-management request with a status (R814). -/
def Dev.vopAnswer (d : Dev) (vop : Nat) (st : Status) : Dev := d.emit (.spdm 0x7E st.code [vop])

/-- The request came in a session whose requester authenticated with the CO key (R814). -/
def Dev.coSession (d : Dev) (v : VopReq) : Bool := (d.session v.transport (some v.session)).any fun x => x.open_ && x.mauth

/-- Serves a key-management request: only inside a session whose requester authenticated with the CO key; in error mode no key service
runs (R814, R818). `none` for a request that is refused by `check`. -/
def Dev.vop (d : Dev) (vop : Nat) (v : VopReq) (check : Option Status) (f : Dev → Dev) : Dev :=
  if !d.up then d
  else if !d.coSession v then d.vopAnswer vop .accessDenied
  else if d.sec.mode = .error then d.vopAnswer vop .badState
  else match check with | some st => d.vopAnswer vop st | none => (f d).vopAnswer vop .ok

/-- Why KEY_LOAD is refused (R807, R814). -/
def Dev.keyLoadCheck (d : Dev) (v : VopReq) (key1 key2 : BitVec 256) : Option Status :=
  if v.sel = 0 || decide (63 < v.sel) || decide (key1 = key2) || decide (15 < v.tenant) then some .badField
  else if (Tab.look none (64 * v.tenant + v.sel) d.sec.slots).isSome
      || ((d.ten v.tenant).assign.isNone && !d.twn.partnerServed.getLsbD v.tenant) then some .badState
  else none

/-- KEY_LOAD (R807, R814). -/
def execKeyLoad (v : VopReq) (key1 key2 : BitVec 256) (s : State) : R := s.run fun d =>
  d.vop 1 v (d.keyLoadCheck v key1 key2) fun d => { d with sec.slots := Tab.put none (64 * v.tenant + v.sel) (some (key1, key2)) d.sec.slots }

/-- KEY_CLEAR (R814). -/
def execKeyClear (v : VopReq) (s : State) : R := s.run fun d =>
  d.vop 2 v (if decide (63 < v.sel) || decide (15 < v.tenant) then some .badField else none) fun d =>
    { d with sec.slots := d.sec.slots.filter fun x => !(decide (x.1 / 64 = v.tenant) && (decide (v.sel = 0) || decide (x.1 % 64 = v.sel))) }

/-- FS_LOAD (R814): all zeros removes FS. -/
def execFsLoad (v : VopReq) (fs : BitVec 256) (s : State) : R := s.run fun d =>
  d.vop 3 v none fun d => { d with secNv.fs := if fs = 0 then none else some fs }

/-- The place of an added root is 1 to 4 (R814). -/
def rootCheck (v : VopReq) : Option Status := if v.idx = 0 || decide (4 < v.idx) then some .badField else none

/-- ROOT_ADD (R814). -/
def execRootAdd (v : VopReq) (hash : BitVec 384) (s : State) : R := s.run fun d =>
  d.vop 4 v (rootCheck v) fun d => { d with secNv.roots := Tab.put none v.idx (some (Stored.make hash)) d.secNv.roots }

/-- ROOT_CLEAR (R814). -/
def execRootClear (v : VopReq) (s : State) : R := s.run fun d =>
  d.vop 5 v (rootCheck v) fun d => { d with secNv.roots := Tab.put none v.idx none d.secNv.roots }

/-- COKEY_SET (R792, R814). -/
def execCokeySet (v : VopReq) (key : BitVec 768) (s : State) : R := s.run fun d =>
  d.vop 6 v none fun d => { d with secNv.coKey := some (Stored.make key) }

/-! ### Self-tests (R815 to R818) -/

/-- What a run of the self-tests leaves (R817, R818): error mode after a failure on the boundary core, and the tiles and the Vault whose
cipher engine failed out of service. -/
def Dev.castResult (d : Dev) (passed : W32) : Dev :=
  let core := (List.range 10).all fun i => passed.getLsbD i
  let tiles := (List.range 4).filter fun i => !passed.getLsbD (16 + i)
  let d := { d with
    sec.passed := passed
    sec.mode := if core then d.sec.mode else .error
    sec.tileOut := tiles.foldl (fun (v : BitVec 4) i => v ||| BitVec.ofNat 4 (2 ^ i)) d.sec.tileOut }
  let d := d.postIf (!core) Src.secCast 0
  let d := d.postIf (!tiles.isEmpty || !passed.getLsbD 20) Src.secCastTile 0
  let d := tiles.foldl (fun d i => (List.range 16).foldl (fun d k => if (d.lport (16 * i + k)).st = .down then d else d.linkReset (16 * i + k)) d) d
  if passed.getLsbD 20 then d else { d with vlt.st := .failed }

/-- The stored CO key and added roots are checked as the module comes up: one whose HMAC fails is not used (R792). -/
def Dev.checkKeys (d : Dev) : Dev :=
  d.postIf (d.secNv.coKey.any (fun x => !x.ok) || d.secNv.roots.any fun r => r.2.any fun x => !x.ok) Src.secKeystore 0

/-- The module comes up: its DRBG is seeded, and both dies derive the transport key of a new nonce (R782, R787). -/
def Dev.moduleUp (d : Dev) : Dev :=
  let (n, d) := Dev.rand { d with sec.up := true, sec.reseedAt := d.now, sec.gens := 0 } 256
  { d with sec.busNonce := n }

/-- SELFTEST_PREOP (R782, R785, R792, R815): in INIT. -/
def execSelftestPreop (passed : W32) (s : State) : R := s.run fun d =>
  if d.boot.stage = .init then (((d.moduleUp).checkKeys).castResult passed).settle else d

/-- SELFTEST_DONE (R817). -/
def execSelftestDone (passed : W32) (s : State) : R := s.run fun d =>
  if d.sec.selftest then
    let ok := (List.range 10).all (fun i => passed.getLsbD i) && (List.range 5).all fun i => passed.getLsbD (16 + i)
    ((({ d with sec.selftest := false }).castResult passed).finishAccs (fun a => decide (a.opcode = 0x0901)) (if ok then .ok else .integrity) []).settle
  else d

/-- The DRBG is due to be seeded again (R787): after 2^20 generate requests or 1 s. -/
def Dev.reseedDue (d : Dev) : Bool := decide (2 ^ 20 ≤ d.sec.gens) || decide (d.sec.reseedAt + 1000000000 ≤ d.now)

/-- DRBG_RESEED (R787, R816). -/
def execDrbgReseed (healthOk : Bool) (s : State) : R := s.run fun d =>
  if !d.reseedDue || !d.sec.up then d
  else if healthOk then { d with sec.reseedAt := d.now, sec.gens := 0 }
  else (({ d with sec.mode := .error }).post Src.secCast 0).settle

/-- ENTROPY_SAMPLE_FAIL (R818). -/
def execEntropySampleFail (s : State) : R := s.run fun d => (({ d with sec.drbgHalt := true }).post Src.secEntropy 0).settle

/-! ### Authentication (R788 to R791) -/

def Dev.authOf (d : Dev) (p : Path) : AuthP := ((d.sec.auth.find? fun a => decide (a.1 = p)).map (·.2)).getD {}
def Dev.setAuth (d : Dev) (p : Path) (a : AuthP) : Dev := { d with sec.auth := (d.sec.auth.filter fun x => decide (x.1 ≠ p)) ++ [(p, a)] }

/-- AUTH_NONCE_EXPIRY (R789): 60 s after it was issued. -/
def execAuthNonceExpiry (path : Path) (s : State) : R := s.run fun d =>
  if (d.authOf path).nonce.any fun x => decide (x.2.2 + 60000000000 ≤ d.now) then d.setAuth path { d.authOf path with nonce := none } else d

/-- AUTH_LOCKOUT_END (R791): 10 s after the third failure. -/
def execAuthLockoutEnd (path : Path) (s : State) : R := s.run fun d =>
  if (d.authOf path).lockAt.any fun x => decide (x + 10000000000 ≤ d.now) then d.setAuth path { d.authOf path with fails := 0, lockAt := none } else d

/-! ### Zeroisation (R819, R822) -/

/-- Most ZGEN fuses (R819). -/
def zgenMax : Nat := 15

/-- The actions of R819: ZGEN, keys and secrets, the Vault, a TR of every tenant and LR of every port. A stopped device
begins the TRs at resume (21 R885, log 40). -/
def Dev.zeroise (d : Dev) : Dev :=
  let d := (List.range 16).foldl (fun d t => if d.stopped then { d with dbg.heldTr := d.dbg.heldTr ++ [(t, 2)] } else d.trStart t 2) d
  let d := { d with
    flash.zgen := min zgenMax (d.flash.zgen + 1)
    secNv.fs := none
    secNv.pvk := none
    sec.slots := []
    sec.spdm := []
    sec.auth := d.sec.auth.map (fun a => (a.1, { a.2 with nonce := none }))
    sec.reseedAt := d.now
    sec.gens := 0
    sec.drbgHalt := false
    onyx := { blks := d.onyx.blks, nextBand := d.onyx.nextBand, logSeq := d.onyx.logSeq }
    vlt.band := none
    vlt.vget := []
    vlt.vrest := []
    vlt.vdata := []
    vlt.pieces := []
    vlt.mirq := []
    vlt.ten := d.vlt.ten.filterMap fun x =>
      let v : VTen := { regions := x.2.regions, restoring := x.2.restoring }
      if v = {} then none else some (x.1, v) }
  (List.range 65).foldl (fun d p => if (d.lport p).st = .down then d else d.linkReset p) d

/-- MESH_CHECK (R783, R822): a breach zeroises once and raises SEC_BREACH, whose inclusion names the die. -/
def execMeshCheck (breached : List Nat) (s : State) : R := s.run fun d =>
  if !d.jad.aoUp then d
  else
    match breached with
    | [] => { d with jad.breach := false }
    | b :: _ => if d.jad.breach then d else ((({ d with jad.breach := true }).zeroise).post Src.secBreach b (detail := b)).settle

/-- FAULT_RAISE (20 R830, R831). -/
def execFaultRaise (src unit : Nat) (dom : Option Nat) (s : State) : R := s.run fun d => (d.post src unit dom).settle

/-- SEC_CNT.CLR (R825). -/
def execSecCntClr (s : State) : R := s.run fun d => d.mmio 0 fun d => { d with sec.authFail := 0, sec.peerAuth := 0 }

end Sys2Proof.Machine
end

