-- ==== Sys2Proof/Machine/Mailbox.lean ====
section
/-! DEFINITION. Mailboxes, the sideband path, MCTP and Conik's choice of the next step (05 R177 to R198). -/

namespace Sys2Proof.Machine

/-! ### Arrivals -/

/-- SIDEBAND_COMMAND (05 R191 to R193, 04 R138). -/
def execSidebandCommand (p : Nat) (h : CmdHdr) (s : State) : R := s.runIf (Unit.hostPort p) fun d =>
  let f := pathFn h.req.path
  (d.sideband p f { h with req := { h.req with path := .sideband p f } }).settle

/-- The header in a slot of a function's command ring (R173, R180). -/
def Fn.cmdSlot (g : Fn) (fn slot : Nat) : CmdHdr :=
  readCmd (.pcie fn) ((List.range 4).flatMap fun i => leBytes 4 (Tab.look 0 (1024 * slot + i) g.cmdRing).toNat)

/-- The n commands behind a ring's tail: those the doorbell carries, and where it carries none what the slot holds. -/
def Dev.rung (d : Dev) (fn n : Nat) (msgs : List CmdHdr) : Dev :=
  let g := d.fn fn
  let hs := (List.range n).map fun i =>
    let h := (msgs[i]?).getD (g.cmdSlot fn ((g.cmdTail.toNat + i) % 16)); { h with req := { h.req with path := .pcie fn } }
  hs.foldl Dev.enqueue d

/-- MBX_CMD_DOORBELL (05 R183, R184): the messages between the old and the new tail are taken over in index order. -/
def execMbxCmdDoorbell (fn : Nat) (tail : W16) (msgs : List CmdHdr) (s : State) : R := s.runIf (Unit.function fn) fun d => d.mmio fn fun d =>
  let g := d.fn fn
  let n := (tail - g.cmdTail).toNat
  if !d.servedFn fn || g.flr then d
  else if 2 ^ 15 ≤ n || 16 < (tail - g.cmdHead).toNat then (d.post Src.mbxProto 0xFF (fnDom fn)).settle
  else
    (d.rung fn n msgs).setFn fn fun g => { g with cmdTail := tail }

/-- MBX_RSP_HEAD_WRITE (05 R186): the responses below the new head are consumed; those that wait for a slot follow. -/
def execMbxRspHeadWrite (fn : Nat) (idx : W16) (s : State) : R := s.runIf (Unit.function fn) fun d => d.mmio fn fun d =>
  if !d.servedFn fn || (d.fn fn).flr then d
  else (d.setFn fn fun g => { g with rspHead := idx }).flushRsp fn

/-- The ring has room again after notices were lost, and no vector is named: the overflow notice is due (05 R188). -/
def Fn.overflowDue (g : Fn) : Bool := decide (g.ntcDest = 0) && decide (0 < g.lostNow) && decide ((g.ntcTail - g.ntcHead).toNat < 64)

/-- MBX_NTC_HEAD_WRITE (05 R188): a freed slot takes the overflow notice first. -/
def execMbxNtcHeadWrite (fn : Nat) (idx : W16) (s : State) : R := s.runIf (Unit.function fn) fun d => d.mmio fn fun d =>
  if !d.servedFn fn || (d.fn fn).flr then d
  else
    let d := d.setFn fn fun g => { g with ntcHead := idx }
    let g := d.fn fn
    if g.overflowDue then (d.setFn fn fun g => { g with lostNow := 0 }).ringNotice fn (overflowNotice fn g.lostNow) else d

/-- MBX_CTL_WRITE (05 R178, R189, R190): a destination above 8 names no port; it is refused as a protocol error and nothing is written. -/
def execMbxCtlWrite (fn irq ntc : Nat) (s : State) : R := s.runIf (Unit.function fn) fun d => d.mmio fn fun d =>
  if !d.servedFn fn || (d.fn fn).flr then d
  else if 8 < irq || 8 < ntc then (d.post Src.mbxProto 0xFF (fnDom fn)).settle
  else ((d.setFn fn fun g => { g with irqDest := irq, ntcDest := ntc }).flushVecs fn).flushHeld fn

/-! ### MCTP (05 R195 to R197) -/

/-- An answer to an MCTP control message: its command code (PRESUMED, log 37) and its fields. -/
def Dev.control (d : Dev) (code : Nat) (data : List Nat) : Dev := d.emit (.mctp 2 { opcode := code, data })

/-- The SMBus address of the endpoint: 0x64 + S (05 R195). -/
def Dev.smbAddr (d : Dev) : Nat := 0x64 + bNat d.jad.straps.side

/-- What a message of a type does (05 R195, R197). -/
def Dev.mctpServe (d : Dev) : MctpMsg → Dev
  | .setEid e => ({ d with jad.eid := e }).control 1 [e.toNat]
  | .getEid => d.control 2 [d.jad.eid.toNat]
  | .getUuid => d.control 3 [Config.mctpUuid.toNat]
  | .getVersion => d.control 4 [Config.mctpVersion.toNat]
  | .getTypes => d.control 5 [0x00, 0x05, 0x7E]
  | .spdm q => if d.up then (d.spdmAnswer 1 none q).settle else d.emit .mctpError
  | .oxsum v h => if v = Config.vendorId then (d.mctpCommand { h with req := { h.req with path := .mctp } }).settle else d.emit .mctpError
  | .unsupported _ => d.emit .mctpError

/-- MCTP_MESSAGE (05 R195 to R197): a message to the endpoint's own address, with its Packet Error Check right, is served; another is not the
endpoint's. A vendor-defined message of another vendor is of a type that is not supported: DESIGN CHOICE (log 145). -/
def execMctpMessage (addr : Nat) (pec : Bool) (m : MctpMsg) (s : State) : R := s.run fun d =>
  if !d.jad.released || !pec || decide (addr ≠ d.smbAddr) then d else d.mctpServe m

/-! ### Conik's steps -/

/-- CONIK_STEP_SELECT (05 R198): firmware work, or the command whose step comes next. Its first step is its own command. -/
def execConikStepSelect (fwWork : Bool) (s : State) : R := s.run fun d =>
  if fwWork then { d with mbx.lastP2 := false }
  else if d.mbx.cur.isSome then d
  else d.select

/-- The opcodes of Oxsum 3 by group, without those of a later minor version (06, command tables). -/
def groupOps : Nat → List Nat
  | 0x01 => [0x00, 0x01, 0x02, 0x03, 0x04, 0x10, 0x11, 0x12, 0x13, 0x20]
  | 0x02 => [0x00, 0x01, 0x02, 0x03, 0x04, 0x10]
  | 0x03 => [0x00, 0x01, 0x02, 0x03, 0x04, 0x05]
  | 0x04 => [0x00, 0x10, 0x11]
  | 0x05 => [0x00, 0x01, 0x02, 0x03, 0x04, 0x05]
  | 0x06 => [0x00, 0x01, 0x02, 0x10, 0x11]
  | 0x07 => [0x00, 0x01, 0x02, 0x03, 0x04, 0x05, 0x10, 0x11, 0x12]
  | 0x08 => [0x00, 0x01, 0x02, 0x03]
  | 0x09 => [0x00, 0x01, 0x02, 0x03, 0x10, 0x11]
  | 0x0A => [0x00, 0x01, 0x02, 0x03, 0x10, 0x11]
  | 0x0B => [0x00, 0x01, 0x02, 0x03, 0x04]
  | 0x0C => [0x00, 0x01, 0x02, 0x03]
  | _ => []

/-- Opcodes of a group that the running minor version implements (06 R221). -/
def opsOfGroup (minor g : Nat) : List Nat :=
  groupOps g ++ (if g = 0x0A && decide (2 ≤ minor) then [0x04] else []) ++ (if g = 0x0B && decide (1 ≤ minor) then [0x05] else [])

/-- OXSUM_UNKNOWN_OPCODE (06 R220): UNSUPPORTED after the statuses that come before it (log 8). An opcode that is implemented has its own
command. -/
def execOxsumUnknownOpcode (r : Req) (opcode : W16) (s : State) : R := s.run fun d =>
  let op := opcode.toNat
  let c : Cmd := { op, tn := true, m := true, rcv := false, dev := true, len := r.length, live := true, blind := true }
  if (opsOfGroup d.mbx.oxMin (op / 256)).contains (op % 256) then d
  else d.command c r fun d => d.deny c r .unsupported

end Sys2Proof.Machine
end

