-- ==== Sys2Proof/Machine/CmdDevice.lean ====
section
/-! DEFINITION. The device group of Oxsum (06 R226 to R232; 03 R84 to R100; 01 R33). -/

namespace Sys2Proof.Machine

/-- DEV_VERSION (06 R222). -/
def execDevVersion (r : Req) (s : State) : R := s.run fun d =>
  let c : Cmd := { op := 0x0100, tn := true, m := true, dev := true, live := true }
  d.command c r fun d => d.okay c r [d.boot.oxMaj.toNat, d.mbx.oxMin, d.boot.fwVer.toNat, d.boot.stage.code]

/-- The opcodes of a group as a bitmap (06 R223). -/
def opBitmap (minor g : Nat) : Nat := ((opsOfGroup minor g).map fun n => 2 ^ n).foldl (· + ·) 0

/-- DEV_OPCODES (06 R223). -/
def execDevOpcodes (r : Req) (group : Nat) (s : State) : R := s.run fun d =>
  let c : Cmd := { op := 0x0101, tn := true, m := true, dev := true, live := true, len := 4 }
  d.command c r fun d => d.okay c r [opBitmap d.mbx.oxMin group]

/-- Highest unacknowledged class, or 0xFF (06, FAULT_CLASS). -/
def Flt.highest (f : Flt) : Nat :=
  match (f.log.filter fun r => !r.acked).map (·.cls) with
  | [] => 0xFF
  | c :: l => l.foldl max c

/-- What DEV_STATUS answers; in RECOVERY the version fields read 0. -/
def Dev.statusWords (d : Dev) (m : Memory) : List Nat :=
  let v : Nat → Nat := fun n => if d.boot.stage = .recovery then 0 else n
  let trial := ((dirNow m).map fun x => x.2.trial).getD false
  [d.boot.stage.code, bNat d.boot.slot, bNat (d.bad false) + 2 * bNat (d.bad true) + 4 * bNat trial, d.pwr.state, d.flt.highest,
    v d.boot.oxMaj.toNat, v d.mbx.oxMin, v d.boot.fwVer.toNat, d.jad.rstCause.toNat]

/-- DEV_STATUS (06; 05 R197): versions read 0 in RECOVERY; over MCTP it releases SMB_ALERT_N (20 R839). -/
def execDevStatus (r : Req) (s : State) : R := s.runMem fun d m =>
  let c : Cmd := { op := 0x0102, m := true, rcv := true, live := true }
  d.commandMem m c r fun d =>
    let d := if r.path = .mctp then { d with jad.smbAlert := false } else d
    (d.okay c r (d.statusWords m), m)

/-- JAD_DIESTAT of a slot (01, registers). -/
def Die.word (x : Die) : Nat :=
  bNat x.valid + 2 * bNat x.chkOk + 4 * bNat x.held + 8 * bNat x.ori + 16 * x.pos.toNat + 64 * bNat x.stk + 128 * bNat x.mismatch
    + 256 * bNat x.conflict + 512 * bNat x.refused

/-- What DEV_IDENTITY answers: the combination and the identity of each die. -/
def Dev.identityWords (d : Dev) : List Nat :=
  (d.boot.combo + 16 * bNat d.boot.comboOk + 32 * bNat d.jad.straps.side) ::
    (List.range 20).flatMap fun n => let x := Tab.look {} n d.boot.dies; [x.id.toNat, x.word]

/-- DEV_IDENTITY (06; 01 R33). -/
def execDevIdentity (r : Req) (s : State) : R := s.run fun d =>
  let c : Cmd := { op := 0x0103, m := true, live := true }
  d.command c r fun d => d.okay c r d.identityWords

/-- DEV_RESET (06 R226): the DR follows 1 ms after the response. -/
def execDevReset (r : Req) (mode : Nat) (s : State) : R := s.run fun d =>
  let c : Cmd := { op := 0x0104, m := true, rcv := true, live := true, len := 4, ok := decide (mode = 0) }
  d.command c r fun d => { d.okay c r with mbx.resetAt := some (d.now + 1000000) }

/-- DEV_RESET_APPLY (06 R226, R250). -/
def execDevResetApply (s : State) : R := s.run fun d =>
  if d.mbx.resetAt.isSome then (({ d with mbx.resetAt := none }).devReset .cmd).settle else d

/-! ### The boot flash (06 R227 to R231) -/

/-- First address and size of an area of the flash: slots A and B, and the firmware-owned area (03 R85). -/
def areaOf (slot : Nat) : Nat × Nat := if slot = 0 then (0x00100000, 0xC00000) else if slot = 1 then (0x00D00000, 0xC00000) else (0x01900000, 0x700000)

/-- OFFSET and DLEN lie in an area, in units of 16 bytes. -/
def flashRange (slot off n : Nat) : Bool :=
  decide (off % 16 = 0) && decide (n % 16 = 0) && decide (16 ≤ n) && decide (n ≤ 4064) && decide (off + n ≤ (areaOf slot).2)

/-- The piece may not be written: its slot runs, or it does not follow the one before it. -/
def Dev.flashRefused (d : Dev) (slot offset : Nat) : Bool :=
  (decide (bNat d.boot.slot = slot) && decide (d.boot.stage ≠ .recovery)) || (decide (offset ≠ 0) && decide (Tab.look none slot d.mbx.flSeq ≠ some offset))

/-- A piece waits to be written; the first of an image erases the slot, which is bad from then on. -/
def Dev.flashBegin (d : Dev) (c : Cmd) (r : Req) (slot : Nat) (final : Bool) (offset : Nat) (data : List Byte) : Dev :=
  { (if offset = 0 then { d.setBad (slot = 1) true with flash.unfinished := d.flash.unfinished ||| BitVec.ofNat 2 (2 ^ slot) } else d).started c r [.flash] with
    mbx.flJob := some { slot, off := offset, data, erase := decide (offset = 0), final } }

/-- FLASH_WRITE (06 R227 to R229): at OFFSET 0 the slot is marked bad and erased. -/
def execFlashWrite (r : Req) (slot : Nat) (final : Bool) (offset : Nat) (data : List Byte) (s : State) : R := s.run fun d =>
  let c : Cmd := { op := 0x0110, m := true, rcv := true, acc := true, len := 16 + data.length, objs := [.flash],
                   ok := decide (slot < 2) && flashRange slot offset data.length }
  d.command c r fun d =>
    if d.flashRefused slot offset then d.deny c r .badState else d.flashBegin c r slot final offset data

/-- A write of the flash has ended: its notice goes out, or Jade checks the slot after FINAL (06 R228). -/
def Dev.flashWritten (d : Dev) (j : FlJob) : Dev :=
  let d := { d with mbx.flSeq := Tab.put none j.slot (some (j.off + j.data.length)) d.mbx.flSeq }
  if j.final then { d with mbx.flJob := some { j with erase := false, data := [], check := true } }
  else ({ d with mbx.flJob := none }).finishAccs (fun a => decide (a.opcode = 0x0110)) .ok []

/-- FLASH_ERASE_DONE (06 R227): the area is erased, and the first data programmed. -/
def execFlashEraseDone (s : State) : R := s.runMem fun d m =>
  match d.mbx.flJob with
  | none => (d, m)
  | some j =>
    if j.erase && !j.check then
      ((d.flashWritten j).settle, (m.erase (areaOf j.slot).1 (areaOf j.slot).2).write ((areaOf j.slot).1 + j.off) j.data)
    else (d, m)

/-- FLASH_PROGRAM_DONE (06 R227). -/
def execFlashProgramDone (s : State) : R := s.runMem fun d m =>
  match d.mbx.flJob with
  | none => (d, m)
  | some j => if j.erase || j.check then (d, m) else ((d.flashWritten j).settle, m.write ((areaOf j.slot).1 + j.off) j.data)

/-- The check of a whole image ends the sequence; a good image clears the slot's bad mark. -/
def Dev.flashChecked (d : Dev) (j : FlJob) (st : Status) : Dev :=
  let e := { d with mbx.flJob := none, mbx.flSeq := Tab.put none j.slot none d.mbx.flSeq }
  (if st = .ok then { e.setBad (j.slot = 1) false with flash.unfinished := e.flash.unfinished &&& ~~~(BitVec.ofNat 2 (2 ^ j.slot)) } else e).finishAccs (fun a => decide (a.opcode = 0x0110)) st []

/-- The status the check of an image ends with. -/
def checkStatus (f : Flash) (m : Memory) (b : Bool) : Status :=
  match imageCheck f m b with
  | .ok .. => .ok
  | .auth => .authFailed
  | .integrity => .integrity

/-- FLASH_FINAL_CHECK (06 R228): the slot is good when it passes R92; the sequence ends. -/
def execFlashFinalCheck (s : State) : R := s.runMem fun d m =>
  match d.mbx.flJob with
  | none => (d, m)
  | some j =>
    if !j.check then (d, m) else ((d.flashChecked j (checkStatus d.flash m (j.slot = 1))).settle, m)

/-- FLASH_READ (06). -/
def execFlashRead (r : Req) (slot offset dlen : Nat) (s : State) : R := s.runMem fun d m =>
  let c : Cmd := { op := 0x0111, m := true, rcv := true, len := 16, objs := [.flash], ok := decide (slot < 3) && flashRange slot offset dlen }
  d.commandMem m c r fun d => (d.okay c r ((m.read ((areaOf slot).1 + offset) dlen).map (·.toNat)), m)

/-- A slot holds a whole image that its check passes. -/
def Dev.imageGood (d : Dev) (m : Memory) (b : Bool) : Bool := !d.bad b && decide (checkStatus d.flash m b = .ok)

/-- FW_ACTIVATE (06 R230): a slot that is bad or does not pass R92 has no completed write. -/
def execFwActivate (r : Req) (slot : Nat) (s : State) : R := s.runMem fun d m =>
  let c : Cmd := { op := 0x0112, m := true, len := 4, objs := [.flash], ok := decide (slot < 2) }
  d.commandMem m c r fun d =>
    if d.imageGood m (slot = 1) then (d.okay c r, dirWrite m (slot = 1) true) else (d.deny c r .badState, m)

/-- The image that runs is on trial. -/
def Dev.onTrial (d : Dev) (m : Memory) : Bool := (dirNow m).any fun x => x.2.trial && decide (x.2.active = d.boot.slot)

/-- FW_CONFIRM (06 R231). -/
def execFwConfirm (r : Req) (s : State) : R := s.runMem fun d m =>
  let c : Cmd := { op := 0x0113, m := true, objs := [.flash] }
  d.commandMem m c r fun d =>
    if d.onTrial m then (d.okay c r, dirWrite m d.boot.slot false)
    else (d.deny c r .badState, m)

/-- HPORT_RESET (06 R232; 04 R140, R153): answered once HR has begun. -/
def execHportReset (r : Req) (port : Nat) (s : State) : R := s.run fun d =>
  let c : Cmd := { op := 0x0120, len := 4, item := some 5, ok := decide (port < 8) }
  d.command c r fun d => (d.enterHr port true).okay c r

end Sys2Proof.Machine
end

