-- ==== Sys2Proof/Machine/CmdFabric.lean ====
section
/-! DEFINITION. The fabric group, and the collectives and semaphores group of Oxsum (06 R241, R242; 10 R404 to R408; 11 R443, R444, R450, R459, R460, R465, R491; 12 R542). -/

namespace Sys2Proof.Machine

/-! ### Fabric -/

/-- FSTATE (FAB_NODE): 0 no package ID, 1 discovering, 2 time not locked, 3 ready (11 R450). -/
def Dev.fstate (d : Dev) : Nat :=
  if d.fab.node.isNone then 0
  else if !((List.range 64).any fun p => d.portUp p) then 1
  else if d.fab.parent.isNone || d.fab.locked then 3 else 2

/-- What FAB_STATUS answers. -/
def Dev.fabWords (d : Dev) : List Nat :=
  [d.fab.node.getD 0, d.alias.getD 0, d.fstate, d.fab.time, ((List.range 64).map fun p => if d.active p then 2 ^ p else 0).foldl (· + ·) 0]

/-- FAB_STATUS (06). -/
def execFabStatus (r : Req) (s : State) : R := s.run fun d =>
  let c : Cmd := { op := 0x0500, m := true, live := true }
  d.command c r fun d => d.okay c r d.fabWords

/-- FAB_SET_PKGID (11 R443, R444; 06). -/
def execFabSetPkgid (r : Req) (pkgid : Nat) (s : State) : R := s.run fun d =>
  let c : Cmd := { op := 0x0501, m := true, len := 4, ok := decide (pkgid < 2048) }
  d.command c r fun d =>
    if d.fab.node.isSome then d.deny c r .badState
    else (({ d with fab.pkgid := some pkgid, fab.node := some (2 * pkgid + bNat d.jad.straps.side) }).reparent).okay c r

/-- FAB_TIME_SET (11 R489, R491): the device steps to FTIME. -/
def execFabTimeSet (r : Req) (ftime : W64) (tflags : W32) (s : State) : R := s.run fun d =>
  let c : Cmd := { op := 0x0502, len := 16, ok := decide (d.fab.time ≤ ftime.toNat) && decide (tflags.toNat < 2) }
  d.command c r fun d =>
    (({ d with fab.time := ftime.toNat, fab.slew := 0, fab.holdTo := none, fab.ppsEn := tflags.getLsbD 0, fab.timeSet := true }).reparent).okay c r

/-- A route code (11 R459). -/
def routeCode (c : Nat) : Bool := decide (c < 0x48) || decide (c = 0x7F)

/-- An entry of the route table that R459 and R460 allow. -/
def routeOk (w : W32) : Bool :=
  let n := w.toNat
  routeCode (n % 128) && routeCode (n / 2 ^ 7 % 128) && routeCode (n / 2 ^ 14 % 128) && routeCode (n / 2 ^ 21 % 128) && decide (n < 2 ^ 29)
    && !(w.getLsbD 28 && decide (n / 2 ^ 21 % 128 = 0x7F))

/-- Entries of the route table from `first` on are replaced. -/
def Dev.putRoutes (d : Dev) (first : Nat) (entries : List W32) : Dev :=
  { d with fab.routes := entries.zipIdx.foldl (fun (t : Tab W32) (e : W32 × Nat) => Tab.put 0 (first + e.2) e.1 t) d.fab.routes }

/-- FAB_ROUTE_WRITE (11 R459, R460): the entries take effect together. -/
def execFabRouteWrite (r : Req) (first : Nat) (entries : List W32) (s : State) : R := s.run fun d =>
  let n := entries.length
  let c : Cmd := { op := 0x0503, len := 4 + 4 * n, ok := decide (1 ≤ n) && decide (n ≤ 1019) && decide (first + n ≤ 4096) && entries.all routeOk }
  d.command c r fun d => ((d.putRoutes first entries).retryFab).okay c r

/-- The ports of a trunk mask lead to one neighbour, and none is in another trunk (11 R465). -/
def Dev.trunkOk (d : Dev) (trunk : Nat) (ports : BitVec 64) : Bool :=
  let ps := (List.range 64).filter fun p => ports.getLsbD p
  let ids := ps.map fun p => (Tab.look {} p d.fab.nbr).ident
  decide (trunk < 8) && decide (ps.length ≤ 8) && ids.all (fun i => decide (i = ids.headD 0))
    && ps.all fun p => match d.trunkOf p with | none => true | some k => decide (k = trunk)

/-- FAB_TRUNK (11 R465). -/
def execFabTrunk (r : Req) (trunk : Nat) (ports : BitVec 64) (s : State) : R := s.run fun d =>
  let c : Cmd := { op := 0x0504, len := 16, acc := true, objs := [.trunk trunk], ok := d.trunkOk trunk ports }
  d.command c r fun d => (({ d with fab.trunks := Tab.put 0 trunk ports d.fab.trunks }).retryFab).okay c r

/-- The ports LINK_RESET names: one, or the members of a trunk. -/
def Dev.resetPorts (d : Dev) (port : Nat) : List Nat := if port < 64 then [port] else d.members (port - 0x80)

/-- The object LINK_RESET holds. -/
def resetObj (port : Nat) : Obj := if port < 64 then .port port else .trunk (port - 0x80)

/-- LINK_RESET (12 R542): LR of a port, or of every member of a trunk. A darkened port, or a trunk without members, does not train. -/
def execLinkReset (r : Req) (port : Nat) (s : State) : R := s.run fun d =>
  let c : Cmd := { op := 0x0505, len := 4, acc := true, item := some 4, objs := [resetObj port],
                   ok := decide (port < 64) || (decide (0x80 ≤ port) && decide (port < 0x88)) }
  d.command c r fun d =>
    if (d.resetPorts port).isEmpty || (d.resetPorts port).any (fun p => (d.lport p).dark) then d.deny c r .badState
    else (d.resetPorts port).foldl Dev.linkReset (d.started c r [resetObj port])

/-! ### Collective groups (10 R404 to R408) -/

/-- An instance of the group is in progress. -/
def Dev.groupOpen (d : Dev) (t g : Nat) : Bool := d.col.inst.any fun x => decide (x.t = t) && decide (x.g = g)

/-- Members of a group set so far. -/
def Group.received (x : Group) : Nat := (x.members.filter fun m => decide (m ≠ noMember)).length

/-- The list names this device's alias and the tenant exactly once (10 R406). -/
def Dev.namesSelf (d : Dev) (t : Nat) (ms : List Nat) : Bool :=
  match d.alias with
  | some a => decide ((ms.filter fun m => decide (m = a * 16 + t)).length = 1)
  | none => false

/-- A list of members cannot begin now: the group has instances, or none of the 1,024 places is free. -/
def Dev.groupBusy (d : Dev) (t group first : Nat) : Bool :=
  decide (first = 0) && (d.groupOpen t group || (decide ((d.group t group).total = 0) && decide (1024 ≤ d.col.groups.length)))

/-- The group with a further part of its members. -/
def Dev.groupWith (d : Dev) (t group total first : Nat) (members : List Nat) : Group :=
  let base : Group := if first = 0 then { total } else d.group t group
  { base with total, members := setMembers base.members total first members }

/-- The group takes a part of its members; the last makes it complete and starts its counter. -/
def Dev.putGroup (d : Dev) (t group total first : Nat) (members : List Nat) : Dev :=
  let x := d.groupWith t group total first members
  let d := if first = 0 then d.dropCarries t group else d
  (d.setGroup t group fun _ => if x.received < total then x else { x with complete := true, counter := 0 }).journalCfg t 0x0600
    ([group, total, first, members.length] ++ members)

/-- COL_GROUP_SET (06 R241; 10 R404 to R407). -/
def execColGroupSet (r : Req) (group total first : Nat) (members : List Nat) (s : State) : R := s.run fun d =>
  let t := r.tenant.toNat
  let n := members.length
  let old := d.group t group
  let c : Cmd := { op := 0x0600, pf := false, tn := true, len := 8 + 2 * n, change := true, objs := [.group t group],
                   ok := decide (group < 256) && decide (2 ≤ total) && decide (total ≤ 4096) && decide (1 ≤ n) && decide (n ≤ 2036)
                     && decide (first + n ≤ total) && (decide (first = 0) || (decide (first = old.received) && decide (total = old.total))) }
  d.command c r fun d =>
    if d.groupBusy t group first then d.deny c r .busy
    else if (d.groupWith t group total first members).received < total || d.namesSelf t (d.groupWith t group total first members).members then
      (d.putGroup t group total first members).okay c r
    else (d.setGroup t group fun _ => {}).deny c r .badField

/-- COL_GROUP_DROP (10 R408). -/
def execColGroupDrop (r : Req) (group : Nat) (s : State) : R := s.run fun d =>
  let t := r.tenant.toNat
  let c : Cmd := { op := 0x0601, pf := false, tn := true, len := 4, acc := true, change := true, objs := [.group t group], ok := decide (group < 256) }
  d.command c r fun d =>
    if (d.group t group).total = 0 then d.deny c r .badState
    else
      let d := d.journalCfg t 0x0601 [group]
      if d.groupOpen t group then (d.started c r [.group t group]).setGroup t group fun x => { x with dropping := true }
      else (d.freeGroup t group).okay c r

/-- COL_STATUS (06; 10). -/
def execColStatus (r : Req) (group : Nat) (s : State) : R := s.run fun d =>
  let t := r.tenant.toNat
  let c : Cmd := { op := 0x0602, pf := false, tn := true, len := 4, live := true, objs := [.group t group], ok := decide (group < 256) }
  d.command c r fun d => let x := d.group t group; d.okay c r [x.finalised, x.present, x.missing, x.late]

/-- SEM_READ (06 R242). -/
def execSemRead (r : Req) (index : Nat) (s : State) : R := s.run fun d =>
  let c : Cmd := { op := 0x0610, pf := false, tn := true, len := 4 }
  d.command c r fun d =>
    if d.semOwner index = r.tenant.toNat + 1 then d.okay c r [(d.semSeen index).toNat] else d.deny c r .accessDenied

/-- SEM_WRITE (06 R242; 10 R428). -/
def execSemWrite (r : Req) (index : Nat) (value : W64) (s : State) : R := s.run fun d =>
  let c : Cmd := { op := 0x0611, pf := false, tn := true, len := 16 }
  d.command c r fun d =>
    if d.semOwner index = r.tenant.toNat + 1 then (d.semSet index value).okay c r else d.deny c r .accessDenied

end Sys2Proof.Machine
end

