-- ==== Sys2Proof/Machine/CmdOptics.lean ====
section
/-! DEFINITION. The optics group, and the power and thermal group of Oxsum (14 R591 to R613; 15 R640, R643; 16 R656 to R661, R683 to R694). -/

namespace Sys2Proof.Machine

/-- LAMBDA names a wavelength, or all of them (06, notes). -/
def lambdaOk (l : Nat) : Bool := decide (l < 18) || decide (l = 0xFF)

/-! ### Calibration (15) -/

/-- The channels an OPT_POLISH names: of each wavelength the transmit and the receive channel, those of failed wavelengths apart (R640,
log 40). -/
def Dev.polishChans (d : Dev) (p l : Nat) : List Nat :=
  ((if l = 0xFF then List.range 18 else [l]).flatMap fun k => [ringNo p 0 k, ringNo p 1 k]).filter fun x =>
    decide ((d.ring x).st ≠ .failed) && decide (d.laneOf x ≠ 0xFF)

/-- The channels a polish command names become due; the tile's command is theirs. -/
def Dev.polishAll (d : Dev) (port : Nat) (xs : List Nat) : Dev :=
  xs.foldl (fun (d : Dev) x => d.setChan x fun ch => { ch with cmd := true, due := ch.due || ch.polish.isNone })
    { d with cal.cmd := Tab.put none (port / 16) (some (xs, true)) d.cal.cmd }

/-- OPT_POLISH (R640, R641). -/
def execOptPolish (r : Req) (port lambda : Nat) (s : State) : R := s.run fun d =>
  let c : Cmd := { op := 0x0B00, item := some 3, len := 4, acc := true, objs := [.port port], ok := decide (port < 64) && lambdaOk lambda }
  d.command c r fun d =>
    if !d.active port then d.deny c r .badState
    else if (Tab.look none (port / 16) d.cal.cmd).isSome then d.deny c r .busy
    else if (d.polishChans port lambda).isEmpty then d.deny c r .badState
    else (d.started c r [.port port] (256 * port + lambda)).polishAll port (d.polishChans port lambda)

/-- Entry k of OPT_LUSTRE (R643): value, source, FECHOT and state of the receive channel. -/
def Dev.lustreWord (d : Dev) (p k : Nat) : Nat :=
  let x := ringNo p 1 k
  let ch := d.chan x
  let m := mapAt (d.wport p).rx k
  if m = 0xFF || decide ((d.ring x).st = .failed) then 2 ^ 14 * 3
  else
    let st := if ch.polish.any fun q => q.full && decide (q.step ≠ .reserve) then 2 else if m < 16 then 0 else 1
    min 0xFFF (if m < 16 then ch.lustre else ch.polished) + 2 ^ 12 * bNat (ch.live && decide (m < 16)) + 2 ^ 13 * bNat ch.fecHot + 2 ^ 14 * st

/-- OPT_LUSTRE (R643). -/
def execOptLustre (r : Req) (port : Nat) (s : State) : R := s.run fun d =>
  let c : Cmd := { op := 0x0B01, item := some 3, live := true, len := 4, objs := [.port port], ok := decide (port < 64) }
  d.command c r fun d => d.okay c r ((List.range 18).map fun k => d.lustreWord port k)

/-! ### Wavelengths and lasers (14) -/

/-- WAL_MAP (R595). -/
def execWalMap (r : Req) (port : Nat) (s : State) : R := s.run fun d =>
  let c : Cmd := { op := 0x0B02, item := some 2, live := true, len := 4, objs := [.port port], ok := decide (port < 64) }
  d.command c r fun d => d.okay c r ((List.range 18).map fun k => mapAt (d.wport port).tx k)

/-- The wavelength a WAL_MOVE on a port that is not ACTIVE moves the lane to (R612, R613; log 43): one that reads 0xFE. -/
def Dev.mapDest (d : Dev) (p l : Nat) : Option Nat :=
  let free : Nat → Bool := fun k => decide (mapAt (d.wport p).tx k = 0xFE)
  if l = 0xFF then ((d.wport p).txNext.filter free).or ((List.range 18).find? free)
  else if free l then some l else none

/-- The map alone changes: lane `lane` goes to λ`k` (R613). -/
def Dev.remap (d : Dev) (p lane k : Nat) : Dev :=
  d.setWport p fun w => { w with tx := (w.tx.map fun m => if m = lane then 0xFE else m).set k lane }

/-- No wavelength is free for the lane. -/
def Dev.noDest (d : Dev) (port lambda : Nat) : Bool := if lambda = 0xFF then (d.spares port).isEmpty else !d.usable port lambda

/-- The move of a lane waits its turn. -/
def Dev.queueMove (d : Dev) (port lane a lambda : Nat) : Dev := d.setWport port fun w => { w with
  waiting := w.waiting ++ [{ kind := .cmd, lane, from_ := a, dest := if lambda = 0xFF then 0x1F else lambda }] }

/-- WAL_MOVE (R612, R613). -/
def execWalMove (r : Req) (port lane lambda : Nat) (s : State) : R := s.run fun d =>
  let c : Cmd := { op := 0x0B03, item := some 2, len := 4, acc := true, objs := [.port port],
                   ok := decide (port < 64) && decide (lane < 16) && lambdaOk lambda }
  d.command c r fun d =>
    if !d.active port then
      match d.mapDest port lambda with
      | some k => (d.remap port lane k).okay c r
      | none => d.deny c r .noResource
    else
      match laneAt (d.wport port).tx lane with
      | none => d.deny c r .badState
      | some a =>
        if d.noDest port lambda then d.deny c r .noResource else (d.started c r [.port port]).queueMove port lane a lambda

/-- LAS_SWAP may begin (R591): the position is lit, its other laser healthy, its Ruby in service, and no swap of it in progress (log 167). -/
def Dev.swappable (d : Dev) (n k : Nat) : Bool :=
  let a := d.laser (36 * n + 2 * k)
  let b := d.laser (36 * n + 2 * k + 1)
  (d.posn (18 * n + k)).lit && decide (a.st ≠ .failed) && decide (b.st ≠ .failed) && !(Tab.look {} (10 + n) d.boot.dies).held
    && (d.posn (18 * n + k)).swap.isNone

/-- LAS_SWAP (R591, R592); one on a Ruby whose control link is silent ends ABORTED (R622). -/
def execLasSwap (r : Req) (ruby pos : Nat) (s : State) : R := s.run fun d =>
  let c : Cmd := { op := 0x0B04, item := some 2, len := 4, acc := true, objs := [.laser ruby pos], ok := decide (ruby < 2) && decide (pos < 18) }
  d.command c r fun d =>
    if !d.swappable ruby pos then d.deny c r .badState
    else if (Tab.look {} ruby d.las.ruby).linkOk then (d.started c r [.laser ruby pos]).startSwap ruby pos (some r.seq.toNat)
    else (d.started c r [.laser ruby pos]).endSwap ruby pos .aborted

/-- LAS_STATUS (06; R221). -/
def execLasStatus (r : Req) (ruby : Nat) (s : State) : R := s.run fun d =>
  let c : Cmd := { op := 0x0B05, item := some 2, live := true, len := 4, minor := 1, ok := decide (ruby < 2) }
  d.command c r fun d => d.okay c r ((List.range 36).flatMap fun j => let l := d.laser (36 * ruby + j); [l.st.code, l.current])

/-! ### Power (16) -/

/-- Something that keeps the device out of Dark (R687). -/
def Dev.darkRefused (d : Dev) : Bool :=
  (d.tq.q.any fun q => [QSt.running, .draining, .aborting].contains q.2.st) || (List.range 16).any (fun t =>
    (d.vten t).sealing.isSome || (d.vten t).restoring.isSome) || !d.mbx.acc.isEmpty

/-- Always-on only begins (R691, 18 R765): the final notice first, then DOWN to the partner and everything off. -/
def Dev.sleep (d : Dev) : Dev :=
  let d := { (d.finishAccs (fun a => decide (a.opcode = 0x0C00) && decide (a.arg = 3)) .ok []) with pwr.target := 3 }
  if d.twn.st = .syncing || d.twn.st = .paired then ({ d with twn.leaving := some 3 }).finishLeaving else (d.twinDown 3).loseMain

/-- PWR_SET in Always-on only (R692, 05 R197). -/
def Dev.dormantSet (d : Dev) (c : Cmd) (r : Req) (state : Nat) : Dev :=
  if state = 3 then d.okay c r
  else if decide (state = 2) || d.jad.latched then d.deny c r .badState
  else if d.jad.pwrReq then d.okay c r
  else
    let d := ({ d with jad.pwrReq := true }).okay c r
    if d.jad.pwrOk then d.restart else d

/-- PWR_SET (R80, R687 to R694). -/
def execPwrSet (r : Req) (state : Nat) (s : State) : R := s.run fun d =>
  let c : Cmd := { op := 0x0C00, m := true, len := 4, acc := true, ok := decide (state = 0) || decide (state = 2) || decide (state = 3) }
  d.command c r fun d =>
    if d.pwr.state = 3 then d.dormantSet c r state
    else if d.enteringAo then
      if state = 0 then { d with pwr.wakeHeld := some (some r) } else if state = 3 then d.okay c r else d.deny c r .badState
    else if d.pwr.busy then
      if d.pwr.target < state then d.deny c r .busy
      else if state = 0 then d.started c r [] 0
      else d.deny c r .badState
    else if d.pwr.state = state then d.okay c r
    else if state = 0 then (if d.pwr.state = 1 then d.wake.okay c r else (d.started c r [] 0).leaveDark)
    else if state = 3 then (d.started c r [] 3).sleep
    else if d.darkRefused then d.deny c r .badState
    else ((d.started c r [] 2).wake).enterDark

/-- PWR_DARK_PORTS (R683 to R685, R693, R694). In Dark the set takes effect when the device leaves it (log 44). -/
def execPwrDarkPorts (r : Req) (mask : BitVec 64) (s : State) : R := s.run fun d =>
  let c : Cmd := { op := 0x0C01, len := 8, acc := true }
  d.command c r fun d =>
    if d.pwr.busy then d.deny c r .busy
    else if d.pwr.dark = mask then d.okay c r
    else if d.pwr.state = 2 then ({ d with pwr.darkSaved := mask }).okay c r
    else
      let d := d.wake.setDark mask
      if d.pwr.seq.isEmpty then d.okay c r else { d.started c r [] with pwr.busy := true }

/-! ### Temperatures (16) -/

/-- THM_READ (R656). -/
def execThmRead (r : Req) (s : State) : R := s.run fun d =>
  let c : Cmd := { op := 0x0C02, m := true, live := true }
  d.command c r fun d => d.okay c r (58 :: (List.range 58).map fun n => (d.sensor n).word)

/-- THM_LIMITS (R660, R661). -/
def execThmLimits (r : Req) (sensor : Nat) (warn rise : Int) (s : State) : R := s.run fun d =>
  let c : Cmd := { op := 0x0C03, len := 8, ok := decide (sensor < 58) && decide (warn ≤ limitOf sensor) && decide (0 ≤ rise) && decide (rise ≤ riseReset sensor) }
  d.command c r fun d => (d.setSensor sensor fun g => { g with warn := some warn, rise := some rise }).okay c r

end Sys2Proof.Machine
end

