-- ==== Sys2Proof/Machine/CmdTenant.lean ====
section
/-! DEFINITION. The tenant, queue and translation groups of Oxsum (06 R233 to R240; 07 R253 to R261, R273, R274, R294; 08 R303, R304, R337, R344; 09 R362, R363, R377). -/

namespace Sys2Proof.Machine

/-! ### Assignment (07 R253 to R259, 18 R759, R760) -/

/-- The fields of TEN_ASSIGN are in range (R254). -/
def assignFields (a : Assign) : Bool :=
  decide (a.pktFloor ≤ a.pktCeil) && decide (a.pktCeil ≤ 32768) && decide (a.redFloor ≤ a.redCeil) && decide (a.redCeil ≤ 16384)
    && decide (a.pgbFloor ≤ a.pgbCeil) && decide (a.pgbCeil ≤ 8192) && decide (a.queues ≤ 64) && decide (1 ≤ a.weight) && decide (a.weight ≤ 1000)

/-- The assignments a TEN_ASSIGN of tenant `t` is added to: the other tenants here, and in Twin operation those of the partner. -/
def Dev.otherAssigns (d : Dev) (t : Nat) : List Assign :=
  let here := ((List.range 16).filter fun u => decide (u ≠ t)).filterMap fun u => (d.ten u).assign
  let there := if [TSt.pairing, .syncing, .paired, .solo].contains d.twn.st then d.twn.mirrors.filterMap fun m => m.snap.assign else []
  here ++ there

/-- The totals of R253 hold with the new assignment. -/
def Dev.assignFits (d : Dev) (t : Nat) (a : Assign) : Bool :=
  let l := a :: d.otherAssigns t
  let sum : (Assign → Nat) → Nat := fun f => (l.map f).foldl (· + ·) 0
  decide (sum (·.pktFloor) ≤ 28672) && decide (sum (·.redFloor) ≤ 16384) && decide (sum (·.pgbFloor) ≤ 8192)
    && decide (sum (·.semBlocks) ≤ 256) && decide (sum (·.vaultGib) ≤ d.usableGib)

/-- A semaphore block returns: its semaphores read zero, copies of them are called back, and its waiters end ACCESS_DENIED (10 R432). -/
def Dev.releaseBlock (d : Dev) (b : Nat) : Dev :=
  let ws := d.col.waiters.filter fun w => decide (w.index / 1024 = b)
  let copies := d.rm.dir.filter fun e => e.word.sem && decide (e.word.index / 1024 = b)
  let d := copies.foldl (fun d e => e.holders.foldl (fun d p => d.facet p 1 1 (.facetCoh p 3 e.word 0)) d) d
  let d := { d with
    rm.dir := d.rm.dir.filter fun e => !(e.word.sem && decide (e.word.index / 1024 = b))
    col.owner := Tab.put 0 b 0 d.col.owner
    col.sem := d.col.sem.filter fun x => decide (x.1 / 1024 ≠ b)
    col.waiters := d.col.waiters.filter fun w => decide (w.index / 1024 ≠ b) }
  ws.foldl (fun d w => d.answerWaiter w .accessDenied 0) d

/-- A tenant's semaphore blocks become `n`: more are taken lowest free first, the highest are released (10 R432, 18 R759). -/
def Dev.setBlocks (d : Dev) (t n : Nat) : Dev :=
  let have_ := d.blocksOf t
  if have_.length ≤ n then
    { d with col.owner := (d.freeBlocks.take (n - have_.length)).foldl (fun (o : Tab Nat) b => Tab.put 0 b (t + 1) o) d.col.owner }
  else (have_.drop n).foldl Dev.releaseBlock d

/-- TEN_ASSIGN's payload as its fields in layout order. -/
def assignWords (a : Assign) : List Nat :=
  [a.pktFloor, a.pktCeil, a.redFloor, a.redCeil, a.pgbFloor, a.pgbCeil, a.semBlocks, a.queues, a.vaultGib, a.weight, a.rateGbps]

/-- The partner serves the tenant, as far as this device knows (18 R759, R760). -/
def Dev.partnerServes (d : Dev) (t : Nat) : Bool :=
  d.twn.partnerServed.getLsbD t && decide (d.twn.st ≠ .off) && decide (d.twn.st ≠ .refused)

/-- The resources of a tenant are set (07 R254, R259); a vault given up is erased. -/
def Dev.assignTen (d : Dev) (t : Nat) (a : Assign) : Dev :=
  let was := ((d.ten t).assign.getD {}).vaultGib
  let d := (d.setTen t fun x => { x with assign := some a, served := true }).setBlocks t a.semBlocks
  let d := if a.vaultGib = 0 && was ≠ 0 then d.vaultErase t else d
  (d.checkVault).journalCfg t 0x0200 (assignWords a)

/-- TEN_ASSIGN (07 R254, R259; 18 R759, R760; 19 R805). -/
def execTenAssign (r : Req) (a : Assign) (s : State) : R := s.run fun d =>
  let t := r.tenant.toNat
  let c : Cmd := { op := 0x0200, named := true, len := 40, fence := true, change := true, objs := [.tenant t], ok := assignFields a }
  d.command c r fun d =>
    if d.partnerServes t then d.deny c r .badState
    else if !d.assignFits t a then d.deny c r .noResource
    else (d.assignTen t a).okay c r

/-- TEN_RELEASE (06, 07): a TR, then every slice returns. -/
def execTenRelease (r : Req) (s : State) : R := s.run fun d =>
  let t := r.tenant.toNat
  let c : Cmd := { op := 0x0201, named := true, acc := true, change := true, objs := [.tenant t] }
  d.command c r fun d => if d.partnerServes t then d.deny c r .badState else (d.started c r [.tenant t]).trStart t 2

/-- The host ports that serve a tenant. -/
def Dev.bindTen (d : Dev) (t : Nat) (ports : BitVec 8) : Dev :=
  (List.range 8).foldl (fun (d : Dev) p => d.setHport p fun h =>
    { h with bind := if ports.getLsbD p then h.bind ||| BitVec.ofNat 16 (2 ^ t) else h.bind &&& ~~~ BitVec.ofNat 16 (2 ^ t) }) d

/-- TEN_BIND (06, FCT_BIND): what was held for a port that now permits it goes out (05 R179, R190). -/
def execTenBind (r : Req) (ports : BitVec 8) (s : State) : R := s.run fun d =>
  let t := r.tenant.toNat
  let c : Cmd := { op := 0x0202, named := true, len := 4, fence := true, change := true, objs := [.tenant t] }
  d.command c r fun d => (((d.bindTen t ports).okay c r).flushVecs (t + 1)).flushHeld (t + 1)

/-- Use of a pool in KiB, rounded up. -/
def usedKib (pool n : Nat) : Nat := if pool = 0 then (n + 3) / 4 else 4 * n

/-- What TEN_QUERY answers: the assignment, what is used, the ports and the reset state. -/
def Dev.tenAnswer (d : Dev) (t : Nat) : List Nat :=
  let x := d.ten t
  let ports := ((List.range 8).map fun p => if (d.hport p).bind.getLsbD t then 2 ^ p else 0).foldl (· + ·) 0
  assignWords (x.assign.getD {}) ++ [usedKib 0 x.pkt, usedKib 1 x.red, usedKib 2 x.pgb, 2 * d.vaultUse t, ports, x.rst]

/-- TEN_QUERY (06): the assignment, use of the pools, the ports and the TR phase. -/
def execTenQuery (r : Req) (s : State) : R := s.run fun d =>
  let t := r.tenant.toNat
  let c : Cmd := { op := 0x0203, pf := false, tn := true, live := true, objs := [.tenant t] }
  d.command c r fun d => d.okay c r (d.tenAnswer t)

/-- TEN_RESET (06 R233; 03 R118): starts or joins the tenant's TR. -/
def execTenReset (r : Req) (s : State) : R := s.run fun d =>
  let t := r.tenant.toNat
  let c : Cmd := { op := 0x0204, pf := false, tn := true, acc := true, objs := [.tenant t] }
  d.command c r fun d => (d.started c r [.tenant t]).trStart t (if pathFn r.path = 0 then 2 else 1)

/-- The subscriptions on a tenant's window are broken, each with a notice to its subscriber (09 R388). -/
def Dev.breakSubs (d : Dev) (t : Nat) : Dev :=
  let mine := d.rm.subs.filter fun s => decide (s.t = t)
  mine.foldl (fun d s => d.sendSub s 7 0 s.lo 0) { d with rm.subs := d.rm.subs.filter fun s => decide (s.t ≠ t) }

/-- A tenant's window is replaced; its subscriptions break, and requests being served at the old one are counted apart. -/
def Dev.setWindow (d : Dev) (t : Nat) (base size : W64) (pasid : Nat) (xflags : W32) (n : Nat) : Dev :=
  let d := d.setTen t fun x => { x with winBase := base, winSize := size, winPasid := pasid, winFlags := xflags.toNat,
                                        serving := 0, servingOld := x.servingOld + n }
  (d.breakSubs t).journalCfg t 0x0210 [base.toNat, size.toNat, pasid, xflags.toNat]

/-- TEN_EXPORT (06 R235; 08 R303, R304, R309; 09 R388). -/
def execTenExport (r : Req) (base size : W64) (pasid : Nat) (xflags : W32) (s : State) : R := s.run fun d =>
  let t := r.tenant.toNat
  let c : Cmd := { op := 0x0210, pf := false, tn := true, len := 24, acc := true, fence := true, change := true, objs := [.tenant t],
                   ok := decide (base.toNat % 4096 = 0) && decide (size.toNat % 4096 = 0) && decide (size.toNat ≤ 2 ^ 48)
                     && decide (base.toNat + size.toNat ≤ 2 ^ 64) && decide (xflags.toNat < 8) && decide (pasid < 2 ^ 20) }
  d.command c r fun d =>
    let n := (d.ten t).serving
    (if n = 0 then d.okay c r else d.started c r [.tenant t]).setWindow t base size pasid xflags n

/-! ### Queues (06 R236 to R238; 07 R260, R261, R273, R274, R294) -/

/-- The fields of Q_CREATE are in range (06 R236; 07 R261). -/
def queueFields (q : QArgs) : Bool :=
  decide (q.queue < 64) && decide (q.qtype ≤ 3) && decide (q.ring.toNat % 4096 = 0) && decide (6 ≤ q.log2) && decide (q.log2 ≤ 16)
    && decide (3 ≤ q.vector) && decide (q.vector ≤ 2047) && decide (1 ≤ q.weight) && decide (q.weight ≤ 1000)
    && decide (200 ≤ q.timeout) && decide (q.timeout ≤ 1000000)

/-- Queues of a tenant that exist. -/
def Dev.queuesOf (d : Dev) (t : Nat) : Nat := ((List.range 64).filter fun q => decide ((d.queue (64 * t + q)).st ≠ .absent)).length

/-- A queue comes to be, STOPPED; its serial and retired descriptors stay (07 R286). -/
def Dev.createQueue (d : Dev) (t : Nat) (q : QArgs) : Dev :=
  let d := d.setQueue (64 * t + q.queue) fun x => {
    serial := x.serial, retired := x.retired, st := .stopped, qtype := q.qtype, ring := q.ring, log2 := q.log2, vector := q.vector, weight := q.weight, rate := q.rate, timeout := q.timeout }
  (d.setFlag (64 * t + q.queue) 0).journalCfg t 0x0300 [q.queue, q.qtype, q.ring.toNat, q.log2, q.vector, q.weight, q.rate, q.timeout]

/-- Q_CREATE (07 R255, R261, R273): the queue keeps the serials of its number (R286). -/
def execQCreate (r : Req) (q : QArgs) (s : State) : R := s.run fun d =>
  let t := r.tenant.toNat
  let gq := 64 * t + q.queue
  let c : Cmd := { op := 0x0300, pf := false, tn := true, len := 28, change := true, objs := [.queue t q.queue], ok := queueFields q }
  d.command c r fun d =>
    if (d.queue gq).st ≠ .absent then d.deny c r .badState
    else if ((d.ten t).assign.getD {}).queues ≤ d.queuesOf t then d.deny c r .noResource
    else (d.createQueue t q).okay c r [gq]

/-- A queue ceases to be. -/
def Dev.destroyQueue (d : Dev) (t q : Nat) : Dev :=
  ((d.dropPre (64 * t + q) none).setQueue (64 * t + q) fun x => { serial := x.serial, retired := x.retired }).journalCfg t 0x0301 [q]

/-- Q_DESTROY (07 R273). -/
def execQDestroy (r : Req) (q : Nat) (s : State) : R := s.run fun d =>
  let t := r.tenant.toNat
  let gq := 64 * t + q
  let c : Cmd := { op := 0x0301, pf := false, tn := true, len := 4, change := true, objs := [.queue t q], ok := decide (q < 64) }
  d.command c r fun d =>
    if (d.queue gq).st ≠ .stopped then d.deny c r .badState
    else (d.destroyQueue t q).okay c r

/-- A queue may start: it is stopped, its function may use the bus, and the device is not in Dark nor on its way there. -/
def Dev.mayRun (d : Dev) (t q : Nat) : Bool :=
  [QSt.stopped, .mdStopped].contains (d.queue (64 * t + q)).st && (d.fn (t + 1)).bme && decide (d.pwr.state ≠ 2) && decide (d.pwr.target ≠ 2)

/-- The ring of a queue that faulted is probed by the translation of every page before the queue runs. -/
def Dev.probeRing (d : Dev) (c : Cmd) (r : Req) (t q : Nat) : Dev :=
  let gq := 64 * t + q
  let x := d.queue gq
  ((d.changed c r).underWay c r [.queue t q] 0).runJob
    { for_ := .ring gq, fn := t + 1, iova := x.ring, len := 80 * 2 ^ x.log2, write := true, engine := gq % 16, probe := true }

/-- Q_START (06 R238; 07 R273; 08 R344; 16 R688): a queue with a ring fault has its ring translated first. -/
def execQStart (r : Req) (q : Nat) (s : State) : R := s.run fun d =>
  let t := r.tenant.toNat
  let gq := 64 * t + q
  let c : Cmd := { op := 0x0302, pf := false, tn := true, len := 4, change := true, objs := [.queue t q], ok := decide (q < 64) }
  d.command c r fun d =>
    if !d.mayRun t q then d.deny c r .badState
    else if (d.queue gq).ringFault then d.probeRing c r t q
    else (d.setQueue gq fun x => { x with st := .running, fetched := [] }).okay c r

/-- The queue stops taking descriptors: SMODE 1 aborts those under way. -/
def Dev.quench (d : Dev) (gq smode : Nat) : Dev :=
  (d.setQueue gq fun x => { x with st := if smode = 1 || x.st = .aborting then .aborting else .draining }).dropPre gq none

/-- Q_STOP (07 R273, R274): SMODE 1 aborts the operations in progress; a stop in progress is joined. -/
def execQStop (r : Req) (q smode : Nat) (s : State) : R := s.run fun d =>
  let t := r.tenant.toNat
  let gq := 64 * t + q
  let c : Cmd := { op := 0x0303, pf := false, tn := true, len := 4, acc := true, change := true, objs := [.queue t q],
                   ok := decide (q < 64) && decide (smode ≤ 1) }
  d.command c r fun d =>
    if !([QSt.running, .draining, .aborting].contains (d.queue gq).st) then d.deny c r .badState
    else if ((d.quench gq smode).opsOf gq).isEmpty then ((d.quench gq smode).drained gq).okay c r
    else if smode = 1 then ((d.quench gq smode).started c r [.queue t q]).endOps (fun o => decide (o.gq = gq)) .aborted
    else (d.quench gq smode).started c r [.queue t q]

/-- The descriptor is below HEAD: it has completed. -/
def Dev.belowHead (d : Dev) (gq desc : Nat) : Bool := decide (2 ^ 31 ≤ (BitVec.ofNat 32 desc - (d.queue gq).head).toNat)

/-- Q_ABORT (06 R237; 07 R292, R294): an operation in progress loses at the serialising point, a descriptor not started never runs. -/
def execQAbort (r : Req) (q desc : Nat) (s : State) : R := s.run fun d =>
  let t := r.tenant.toNat
  let gq := 64 * t + q
  let c : Cmd := { op := 0x0304, pf := false, tn := true, len := 8, objs := [.queue t q],
                   ok := decide (q < 64) && decide (desc < 2 ^ 32) && (d.belowHead gq desc
                     || decide ((BitVec.ofNat 32 desc - (d.queue gq).head).toNat < ((d.queue gq).tail - (d.queue gq).head).toNat)) }
  d.command c r fun d =>
    if d.belowHead gq desc || (d.queue gq).recs.contains desc then d.deny c r .alreadyComplete
    else if (d.opAt gq desc).isSome then (d.endOp gq desc .aborted).okay c r
    else ((d.dropPre gq (some desc)).endUnstarted gq desc .aborted).okay c r

/-- Q_QUERY (06). -/
def execQQuery (r : Req) (q : Nat) (s : State) : R := s.run fun d =>
  let t := r.tenant.toNat
  let gq := 64 * t + q
  let c : Cmd := { op := 0x0305, pf := false, tn := true, len := 4, live := true, objs := [.queue t q], ok := decide (q < 64) }
  d.command c r fun d =>
    let x := d.queue gq
    d.okay c r [x.st.code, x.last.code, x.head.toNat, x.tail.toNat, (d.opsOf gq).length]

/-! ### Translation and streams -/

/-- XLT_FLUSH drops the tenant's translations, all of them or those of a PASID (08 R337). -/
def Dev.flushXlt (d : Dev) (t pasid : Nat) (fflags : W32) : Dev :=
  let d := d.forget fun f p _ _ => decide (f = t + 1) && (fflags.getLsbD 0 || decide (p = some pasid))
  { d with xlt.flushes := satAdd 0x7FFF d.xlt.flushes }

/-- XLT_FLUSH (06 R239; 08 R337). -/
def execXltFlush (r : Req) (pasid : Nat) (fflags : W32) (s : State) : R := s.run fun d =>
  let t := r.tenant.toNat
  let c : Cmd := { op := 0x0400, pf := false, tn := true, len := 8, acc := true, ok := decide (pasid < 2 ^ 20) && decide (fflags.toNat < 2) }
  d.command c r fun d => (d.flushXlt t pasid fflags).okay c r

/-- The fields of STREAM_DECLARE (06; 09 R362). -/
def Dev.streamFields (d : Dev) (t stream : Nat) (base span : W64) (pageLog2 depth : Nat) : Bool :=
  let b := base.toNat
  let n := span.toNat
  let apart : Nat → Bool := fun i =>
    let x := d.stream t i
    decide (i = stream) || decide (x.st = .absent) || decide (b + n ≤ x.base.toNat) || decide (x.base.toNat + x.span ≤ b)
  decide (stream < 32) && [12, 16, 21, 30].contains pageLog2 && decide (1 ≤ depth) && decide (depth ≤ 64) && decide (0 < n)
    && decide (b % 2 ^ pageLog2 = 0) && decide (n % 2 ^ pageLog2 = 0) && decide (b / 2 ^ 48 = (b + n - 1) / 2 ^ 48)
    && (List.range 32).all apart

/-- A stream comes to be and asks for its subscription. -/
def Dev.declareStream (d : Dev) (t stream : Nat) (base span : W64) (pageLog2 depth : Nat) : Dev :=
  (d.setStream t stream fun x => { hit := x.hit, miss := x.miss, disc := x.disc, st := .subscribing, base, span := span.toNat, log2 := pageLog2, depth }).journalCfg t 0x0410
    [stream, base.toNat, span.toNat, pageLog2, depth]

/-- STREAM_DECLARE (09 R362, R363): OK, then a subscription request to the owner. -/
def execStreamDeclare (r : Req) (stream : Nat) (base span : W64) (pageLog2 depth : Nat) (s : State) : R := s.run fun d =>
  let t := r.tenant.toNat
  let c : Cmd := { op := 0x0410, pf := false, tn := true, len := 24, change := true, objs := [.stream t stream],
                   ok := d.streamFields t stream base span pageLog2 depth }
  d.command c r fun d =>
    if (d.stream t stream).st ≠ .absent then d.deny c r .badState
    else ((d.declareStream t stream base span pageLog2 depth).okay c r).subscribe t stream

/-- A stream ceases to be: its reads retire, its lines are freed, and the owner is told. -/
def Dev.withdrawStream (d : Dev) (t stream : Nat) : Dev :=
  let st := (d.stream t stream).st
  let mine := d.tq.txns.filter fun x => match x.for_ with | .line u i _ => decide (u = t) && decide (i = stream) | _ => false
  let d := mine.foldl Dev.retire d
  let d := d.dropLines t stream
  let d := (d.rm.lines.filter fun l => decide (l.t = t) && decide (l.s = stream)).foldl Dev.freeLine d
  let d := if st = .refused then d else (d.sendStream t stream 8 (faOff (d.stream t stream).base) 0).1
  (d.setStream t stream fun x => { hit := x.hit, miss := x.miss, disc := x.disc }).journalCfg t 0x0411 [stream]

/-- STREAM_WITHDRAW (06 R240; 09 R377). -/
def execStreamWithdraw (r : Req) (stream : Nat) (s : State) : R := s.run fun d =>
  let t := r.tenant.toNat
  let c : Cmd := { op := 0x0411, pf := false, tn := true, len := 4, acc := true, change := true, objs := [.stream t stream], ok := decide (stream < 32) }
  d.command c r fun d =>
    if (d.stream t stream).st = .absent then d.deny c r .badState else (d.withdrawStream t stream).okay c r

end Sys2Proof.Machine
end

