-- ==== Sys2Proof/Machine/CmdTwinSec.lean ====
section
/-! DEFINITION. The Twin and security groups of Oxsum (06 R246; 18 R755 to R776; 19 R785 to R794, R817 to R824). -/

namespace Sys2Proof.Machine

/-! ### Twin (18) -/

/-- The device is switched on for Twin operation (R755): domain 47, TWIN_ALIVE_OUT, and the port trains. -/
def Dev.twinOn (d : Dev) : Dev :=
  let d := d.setTst .pairing
  let d := { d with twn.enabled := true, twn.outHeld := false, twn.downSent := false }
  (d.gate [47] 3).tryLight 64

/-- Twin operation is switched off (R755): from SYNCING or PAIRED once DOWN has gone, else at once. -/
def Dev.leaveTwin (d : Dev) (c : Cmd) (r : Req) : Dev :=
  match d.twn.st with
  | .off => d.okay c r
  | .syncing | .paired =>
    let d := (d.started c r []).endTwin 0x0802 .badState
    ({ d with twn.leaving := d.twn.leaving.or (some 4) }).finishLeaving
  | _ => (((d.endTwin 0x0800 .aborted).endTwin 0x0802 .badState).twinOff).okay c r

/-- TWN_ENABLE (R755, R757): ON 1 starts from OFF (log 42). -/
def execTwnEnable (r : Req) (on : Bool) (s : State) : R := s.run fun d =>
  let c : Cmd := { op := 0x0800, m := true, item := some 7, len := 4, acc := true }
  d.command c r fun d =>
    if !on then d.leaveTwin c r
    else if d.twn.st = .off then (d.started c r []).twinOn
    else d.deny c r .badState

/-- Entries sent and unacknowledged, and those that wait (18, TWN_JLAG). -/
def Twn.jlag (x : Twn) : Nat := x.jnext - 1 - x.jacked + x.jwait.length

/-- TWN_STATUS (R755). -/
def execTwnStatus (r : Req) (s : State) : R := s.run fun d =>
  let c : Cmd := { op := 0x0801, m := true, item := some 7, live := true }
  d.command c r fun d => d.okay c r [d.twn.st.code, bNat d.twn.partnerSide, d.twn.jlag]

/-- TWN_REJOIN (R774). -/
def execTwnRejoin (r : Req) (s : State) : R := s.run fun d =>
  let c : Cmd := { op := 0x0802, m := true, item := some 7, acc := true }
  d.command c r fun d =>
    if (decide (d.twn.st = .cleave) || decide (d.twn.st = .solo)) && decide ((d.lport 64).st = .active) then
      (if d.twn.st = .cleave then (d.started c r []).setTst .pairing else d.started c r []).sendPair
    else d.deny c r .badState

/-- TWN_TAKEOVER (06 R246, 18 R776). -/
def execTwnTakeover (r : Req) (s : State) : R := s.run fun d =>
  let c : Cmd := { op := 0x0803, m := true, item := some 7, acc := true }
  d.command c r fun d =>
    if d.twn.st = .cleave then ((d.started c r []).takeover false).endTwin 0x0803 .ok else d.deny c r .badState

/-! ### Security (19) -/

/-- SEC_STATUS (R785, R817). -/
def execSecStatus (r : Req) (s : State) : R := s.run fun d =>
  let c : Cmd := { op := 0x0900, m := true, live := true }
  d.command c r fun d => d.okay c r [d.sec.mode.code, (d.authOf r.path).role, d.sec.passed.toNat]

/-- SEC_SELFTEST (R817). -/
def execSecSelftest (r : Req) (s : State) : R := s.run fun d =>
  let c : Cmd := { op := 0x0901, acc := true }
  d.command c r fun d => { d.started c r [] with sec.selftest := true }

/-- SEC_ZEROISE (R819). -/
def execSecZeroise (r : Req) (confirm : W32) (s : State) : R := s.run fun d =>
  let c : Cmd := { op := 0x0902, m := true, live := true, len := 4, acc := true, ok := decide (confirm.toNat = 0x5A45524F) }
  d.command c r fun d => ((d.zeroise).post Src.secZeroised 0).okay c r

/-- SEC_REKEY (R794): completes when both directions have switched. -/
def execSecRekey (r : Req) (port : Nat) (s : State) : R := s.run fun d =>
  let c : Cmd := { op := 0x0903, len := 4, acc := true, objs := [.port port], ok := decide (port ≤ 64) }
  d.command c r fun d =>
    if (d.authOf r.path).role ≠ 1 then d.deny c r .accessDenied
    else if !d.active port || !d.keyService then d.deny c r .badState
    else
      let x := d.keyxOf port
      (d.started c r [.port port] (x.genTx * 2 ^ 32 + x.genRx)).rekey port

/-- The path is locked after three failures, for 10 s (19 R790). -/
def Dev.authLocked (d : Dev) (r : Req) : Bool :=
  decide (3 ≤ (d.authOf r.path).fails) && (d.authOf r.path).lockAt.any (fun x => decide (d.now < x + 10000000000))

/-- A role is begun: a nonce of the DRBG, or none for role 0. -/
def Dev.authBegin (d : Dev) (r : Req) (role : Nat) : Dev :=
  ((d.rand 384).2).setAuth r.path { d.authOf r.path with role := 0, nonce := if role = 0 then none else some ((d.rand 384).1, role, d.now) }

/-- SEC_AUTH_BEGIN (R788 to R791): any role held on the path goes; ROLE 0 only logs it out. -/
def execSecAuthBegin (r : Req) (role : Nat) (s : State) : R := s.run fun d =>
  let c : Cmd := { op := 0x0910, m := true, len := 4, ok := decide (role < 4) }
  d.command c r fun d =>
    if d.authLocked r then d.deny c r .busy
    else if decide (role ≠ 0) && !d.keyService then d.deny c r .badState
    else (d.authBegin r role).okay c r [(d.rand 384).1.toNat]

/-- The signature over a nonce verifies for a role (R788). -/
def Dev.authPasses (d : Dev) (role : Nat) (nonce : BitVec 384) (sig : BitVec 768) : Bool :=
  (d.secNv.roleKey role).any fun k => Config.ecVerify k (authDigest nonce role d.fuses.dsn) sig

/-- The module enters non-approved mode (R785, R824): every port keys again. -/
def Dev.knownKeys (d : Dev) : Dev :=
  (List.range 65).foldl (fun d p => if (d.lport p).st = .down then d else d.linkReset p) { d with sec.mode := .nonApproved }

/-- The nonce of a role begun less than 60 s ago on the path, and that role. -/
def Dev.authNonce (d : Dev) (r : Req) : Option (BitVec 384 × Nat) :=
  ((d.authOf r.path).nonce.filter fun x => decide (d.now < x.2.2 + 60000000000)).map fun x => (x.1, x.2.1)

/-- A role is taken; role 3 in the approved mode sets the known keys. -/
def Dev.authTaken (d : Dev) (r : Req) (role : Nat) : Dev :=
  let d := d.setAuth r.path { d.authOf r.path with role, nonce := none, fails := 0 }
  if decide (role = 3) && decide (d.sec.mode = .approved) then d.knownKeys else d

/-- An authentication failed; the third in a row locks the path. -/
def Dev.authFailed (d : Dev) (r : Req) : Dev :=
  let a := d.authOf r.path
  let a := if decide (3 ≤ a.fails) && !d.authLocked r then { a with fails := 0 } else a
  let d := d.setAuth r.path { a with nonce := none, fails := a.fails + 1, lockAt := if 2 ≤ a.fails then some d.now else a.lockAt }
  { d with sec.authFail := satAdd 0xFF d.sec.authFail }.post Src.secAuthFail 0

/-- SEC_AUTH_FINISH (R788 to R791, R785). -/
def execSecAuthFinish (r : Req) (role : Nat) (sig : BitVec 768) (s : State) : R := s.run fun d =>
  let c : Cmd := { op := 0x0911, m := true, len := 100, ok := decide (role < 4) }
  d.command c r fun d =>
    match d.authNonce r with
    | none => d.deny c r .badState
    | some (n, want) =>
      if decide (role ≠ want) || !d.keyService then d.deny c r .badState
      else if d.authPasses role n sig then (d.authTaken r role).okay c r
      else (d.authFailed r).deny c r .authFailed

end Sys2Proof.Machine
end

