-- ==== Sys2Proof/Machine/CmdVault.lean ====
section
/-! DEFINITION. The Vault group of Oxsum (06 R243 to R245; 17 R711, R720 to R739, R748). -/

namespace Sys2Proof.Machine

/-! ### Shadow regions (R711, R748) -/

/-- Bytes of the tenant's declared regions stay within its slice (R711). -/
def Dev.regionsFit (d : Dev) (t size : Nat) : Bool :=
  decide ((d.vten t).bytes + size ≤ ((d.ten t).assign.getD {}).vaultGib * 2 ^ 30)

/-- A shadow region comes to be. -/
def Dev.addRegion (d : Dev) (t region : Nat) (base : W64) (n pasid : Nat) : Dev :=
  ((d.setVten t fun v => { v with regions := Tab.put none region (some { base, size := n, pasid }) v.regions }).vlog (.region t region base.toNat n)).journalCfg t 0x0700
    [region, base.toNat, n, pasid]

/-- VLT_SHADOW_ADD (R711). -/
def execVltShadowAdd (r : Req) (region : Nat) (base size : W64) (pasid : Nat) (s : State) : R := s.run fun d =>
  let t := r.tenant.toNat
  let n := size.toNat
  let c : Cmd := { op := 0x0700, pf := false, tn := true, item := some 6, len := 28, objs := [.region t region], change := true,
                   ok := decide (region < 16) && decide (base.toNat % granuleSize = 0) && decide (0 < n) && decide (n ≤ 2 ^ 40)
                     && decide (n % granuleSize = 0) && decide (pasid < 2 ^ 20) }
  d.command c r fun d =>
    if (Tab.look none region (d.vten t).regions).isSome then d.deny c r .badState
    else if !d.regionsFit t n then d.deny c r .noResource
    else (d.addRegion t region base n pasid).okay c r

/-- Marks that a test names go: their captures give back what they hold, and FLUSH operations that wait for them end ABORTED (log 41). -/
def Dev.dropMarks (d : Dev) (t : Nat) (hit : Mark → Bool) : Dev :=
  let gone := (d.vten t).marks.filter hit
  let d := d.setVten t fun v => { v with marks := v.marks.filter fun m => !hit m }
  let d := gone.foldl (fun d m => d.give 0 t m.held) d
  ((gone.flatMap (·.flush)).foldl (fun d x => d.endOp x.1 x.2 .aborted) d).lagCheck t

/-- A shadow region ceases to be, with its marks and the versions of its granules that no seal holds. -/
def Dev.removeRegion (d : Dev) (t region : Nat) : Dev :=
  let d := d.dropMarks t fun m => decide (m.region = region)
  let d := { d with onyx.vers := d.onyx.vers.filter fun v => decide (v.t ≠ t) || decide (v.region ≠ region) || d.sealed v }
  let d := d.setVten t fun v => { v with regions := Tab.put none region none v.regions }
  (d.vlog (.region t region 0 0)).journalCfg t 0x0701 [region]

/-- VLT_SHADOW_REMOVE (R748). -/
def execVltShadowRemove (r : Req) (region : Nat) (s : State) : R := s.run fun d =>
  let t := r.tenant.toNat
  let c : Cmd := { op := 0x0701, pf := false, tn := true, item := some 6, len := 4, acc := true, objs := [.region t region], change := true,
                   ok := decide (region < 16) }
  d.command c r fun d =>
    if (Tab.look none region (d.vten t).regions).isNone then d.deny c r .badState
    else if (d.vten t).sealing.isSome || (d.vten t).restoring.isSome then d.deny c r .busy
    else (d.removeRegion t region).okay c r

/-! ### Seals and restores (R720 to R731) -/

/-- Granules of the open epoch still to be stored, each counted once (R720): the versions they would add. -/
def Dev.owedVers (d : Dev) (t : Nat) : Nat :=
  let e := d.openEp t
  let gs := (d.vten t).marks.foldl (fun (l : List (Nat × Nat)) m => if l.contains (m.region, m.granule) then l else (m.region, m.granule) :: l) []
  (gs.filter fun g => !d.onyx.vers.any fun v => decide (v.t = t) && decide (v.region = g.1) && decide (v.granule = g.2) && decide (v.epoch = e)).length

/-- The declared regions as a seal records them: number and SIZE (R729). -/
def VTen.shape (v : VTen) : List (Nat × Nat) := v.regions.filterMap fun x => x.2.map fun y => (x.1, y.size)

/-- The seal point (R721): the open epoch becomes E, and marks from now on belong to the next. -/
def Dev.sealPoint (d : Dev) (t : Nat) (tag : W64) : Dev :=
  let e := d.openEp t
  let chain := Tab.look [] t d.onyx.chain
  let x : Sealing := { epoch := e, tag, time := d.fab.time, regions := (d.vten t).shape }
  { d.setVten t fun v => { v with sealing := some x } with
    onyx.issued := Tab.put 0 t e d.onyx.issued
    onyx.chain := Tab.put [] t (e :: chain) d.onyx.chain }

/-- A tenant has room for a further seal: fewer than 16, and its slice holds what it owes. -/
def Dev.maySeal (d : Dev) (t : Nat) : Bool := decide ((d.onyx.seals.filter fun x => decide (x.t = t)).length < 16) && d.sliceHolds t (d.owedVers t)

/-- VLT_SEAL (R720, R721). -/
def execVltSeal (r : Req) (tag : W64) (s : State) : R := s.run fun d =>
  let t := r.tenant.toNat
  let os := .tenant t :: allRegions t
  let c : Cmd := { op := 0x0702, pf := false, tn := true, item := some 6, len := 8, acc := true, objs := os }
  d.command c r fun d =>
    if d.maySeal t then (d.started c r os).sealPoint t tag else d.deny c r .noResource

/-- The epoch can be restored from the named Vault (R729). -/
def Dev.restorable (d : Dev) (t e source : Nat) : Bool :=
  match d.sealAt t e with
  | none => false
  | some x =>
    (if source = 0 then !d.epochDamaged x else d.mirroring t && x.mirrored) && decide (x.regions = (d.vten t).shape)
      && !(List.range 64).any fun q => decide ((d.queue (64 * t + q)).qtype = 3) && decide ((d.queue (64 * t + q)).st = .running)

/-- The first steps of a restore (R730): the open epoch goes with its marks and unsealed versions, and the image is written. -/
def Dev.beginRestore (d : Dev) (t e source : Nat) : Dev :=
  let d := d.dropMarks t fun _ => true
  let d := { d with onyx.vers := d.onyx.vers.filter fun v => decide (v.t ≠ t) || d.sealed v }
  (d.setVten t fun v => { v with restoring := some e, restoreBad := none }).writeImage t e (decide (source = 1))

/-- VLT_RESTORE (R729, R730). -/
def execVltRestore (r : Req) (epoch : W64) (source : Nat) (s : State) : R := s.run fun d =>
  let t := r.tenant.toNat
  let os := .tenant t :: allRegions t
  let c : Cmd := { op := 0x0703, pf := false, tn := true, item := some 6, len := 16, acc := true, objs := os, ok := decide (source < 2) }
  d.command c r fun d =>
    if d.restorable t epoch.toNat source then (d.started c r os).beginRestore t epoch.toNat source else d.deny c r .badState

/-- What VLT_QUERY answers. -/
def Dev.vltWords (d : Dev) (t : Nat) : List Nat :=
  [1024 * ((d.ten t).assign.getD {}).vaultGib, 2 * d.vaultUse t, (d.vten t).lag, ((d.onyx.seals.filter fun x => decide (x.t = t)).map (·.epoch)).foldl max 0]

/-- VLT_QUERY (R734): capacity and use in MiB, lag, and the last sealed epoch. -/
def execVltQuery (r : Req) (s : State) : R := s.run fun d =>
  let t := r.tenant.toNat
  let c : Cmd := { op := 0x0704, pf := false, tn := true, item := some 6, live := true }
  d.command c r fun d => d.okay c r (d.vltWords t)

/-- A restore or an EPOCH_READ uses the epoch (R725). -/
def Dev.epochUsed (d : Dev) (t e : Nat) : Bool :=
  decide ((d.vten t).restoring = some e) || d.tq.ops.any fun o => decide (o.gq / 64 = t) && decide (o.desc.op = 0x41) &&
    match o.desc.body with | .vault x .. => decide (x.toNat = e) | _ => false

/-- VLT_EPOCH_DROP (R725): an epoch that is not sealed is BAD_FIELD. -/
def execVltEpochDrop (r : Req) (epoch : W64) (s : State) : R := s.run fun d =>
  let t := r.tenant.toNat
  let e := epoch.toNat
  let c : Cmd := { op := 0x0705, pf := false, tn := true, item := some 6, len := 8 }
  d.command c r fun d =>
    if (d.sealAt t e).isNone then d.deny c r .badField
    else if d.epochUsed t e then d.deny c r .busy
    else ((d.dropEpoch t e).sendDrop t e).okay c r

/-! ### Raw commands (06 R243 to R245; R737 to R739) -/

/-- The path holds the debug role (19 R792). -/
def Dev.debugRole (d : Dev) (p : Path) : Bool := decide ((d.authOf p).role = 2) || decide ((d.authOf p).role = 3)

/-- A raw command is refused: without the debug role, or for a block that is neither a test block nor retired (R243, R244, R739). -/
def Dev.rawRefused (d : Dev) (p : Path) (i : Nat) : Option Status :=
  if !d.debugRole p then some .accessDenied
  else if !d.dieIn i || !(isTest i || (d.blk i).bad) then some .badState
  else none

/-- VLT_RAW_ERASE (R737, R739): from its first step until it succeeds no page of the block is marked erased. -/
def execVltRawErase (r : Req) (die block : Nat) (s : State) : R := s.run fun d =>
  let c : Cmd := { op := 0x0710, item := some 6, len := 8, acc := true, objs := [.block die block], ok := decide (die < 8) && decide (block < 4096) }
  d.command c r fun d =>
    match d.rawRefused r.path (4096 * die + block) with
    | some st => d.deny c r st
    | none => (d.started c r [.block die block]).setBlk (4096 * die + block) fun b => { b with written := 1024 }

/-- VLT_RAW_PROGRAM (06 R245, R737 to R739). -/
def execVltRawProgram (r : Req) (die plane block page : Nat) (pattern : W32) (s : State) : R := s.run fun d =>
  let i := 4096 * die + block
  let c : Cmd := { op := 0x0711, item := some 6, len := 16, acc := true, objs := [.block die block],
                   ok := decide (die < 8) && decide (block < 4096) && decide (plane = block % 4) && decide (page < 1024) }
  d.command c r fun d =>
    match d.rawRefused r.path i with
    | some st => d.deny c r st
    | none =>
      if page < (d.blk i).written then (d.deny c r .notErased).post Src.vltProgRefused 0
      else { d.started c r [.block die block] with vlt.raw := d.vlt.raw ++ [(i, page, pattern)] }

/-- `n` bytes at an offset of a page filled with a pattern, little-endian (R739). -/
def patternBytes (w : W32) (off n : Nat) : List Nat := (List.range n).map fun j => w.toNat / 256 ^ ((off + j) % 4) % 256

/-- `n` bytes the spec does not state (log 6). -/
def Dev.drawBytes (d : Dev) : Nat → List Nat × Dev
  | 0 => ([], d)
  | n + 1 =>
    let (l, d) := d.drawBytes n
    let (b, d) := d.draw 8
    (l ++ [b.toNat], d)

/-- VLT_RAW_READ (R739): a page no raw command has programmed yields values the spec does not state. -/
def execVltRawRead (r : Req) (die plane block page offset dlen : Nat) (s : State) : R := s.run fun d =>
  let i := 4096 * die + block
  let c : Cmd := { op := 0x0712, item := some 6, len := 16, objs := [.block die block],
                   ok := decide (die < 8) && decide (block < 4096) && decide (plane = block % 4) && decide (page < 1024)
                     && decide (16 ≤ dlen) && decide (dlen ≤ 4064) && decide (offset + dlen ≤ 16384) }
  d.command c r fun d =>
    match d.rawRefused r.path i with
    | some st => d.deny c r st
    | none =>
      match Tab.look none page (d.blk i).pattern with
      | some w => d.okay c r (patternBytes w offset dlen)
      | none => let (l, d) := d.drawBytes dlen; d.okay c r l

end Sys2Proof.Machine
end

