-- ==== Sys2Proof/Machine/Faults.lean ====
section
/-! DEFINITION. The fault aggregator's registers and inclusions (20). Faults themselves are handled in OpsReset, where they fire. -/

namespace Sys2Proof.Machine

/-- INCLUSION_DEFERRED_WRITE (R850): once domain 3 is ON. -/
def execInclusionDeferredWrite (s : State) : R := s.run fun d =>
  d.flushIncl

/-! ### What the log shows (00 R9; 20 R832, R834) -/

/-- Records not acknowledged. -/
def Flt.unacked (f : Flt) : List Rec := f.log.filter fun r => !r.acked

/-- FAULT_N is driven low (00 R9; 20 R841): an uncleared record is at or above the pin threshold, or the S5 latch is set. -/
def Dev.faultLow (d : Dev) : Bool := d.jad.latched || d.flt.log.any fun r => !r.cleared && decide (min 5 d.flt.pinThr ≤ r.cls)

/-- The 16 bytes of a record (R832). -/
def Rec.bytes (r : Rec) : List Byte :=
  leBytes 8 r.time ++ leBytes 2 r.src ++ leBytes 1 (r.cls + 16 * r.prog) ++ leBytes 1 (bNat r.acked + 2 * bNat r.esc + 4 * bNat r.cleared + 0x80)
    ++ leBytes 1 (r.dom.getD 0xFF) ++ leBytes 1 r.unit ++ leBytes 2 r.count

/-- A slot of the device log; an empty one reads zero. -/
def Flt.slotBytes (f : Flt) (i : Nat) : List Byte :=
  match f.log.find? fun r => decide (r.slot = i) with | some r => r.bytes | none => zeros 16

/-- The tenant log: the 32 most recent records of a tenant's domain, newest last (R834). -/
def Flt.tenantLog (f : Flt) (t : Nat) : List Rec :=
  let l := f.log.filter fun r => decide (r.dom = some t) && r.view
  l.drop (l.length - 32)

/-- FLT_ACK_ALL (R836). -/
def execFltAckAll (s : State) : R := s.run fun d => d.mmio 0 Dev.ackAll

/-- TEN_FSTAT_CLR (R837, R838): acknowledged, not cleared. -/
def execTenFstatClr (t : Nat) (s : State) : R := s.runIf (Unit.tenant t) fun d => d.mmioTen t fun d =>
  { d with flt.log := d.flt.log.map fun r => (if r.dom = some t && decide (r.cls < 5) then { r with acked := true } else r : Rec) }

/-- One field of a FLT_SEV word (R827). -/
def Flt.setSev (f : Flt) (src cls : Nat) : Flt :=
  if (resetClass src).isNone || srcFixed src then f
  else if srcAccepts src cls then { f with sev := Tab.put 0 src (cls + 1) f.sev }
  else { f with sevRej := true }

/-- FLT_SEV_WRITE (R827, R828). -/
def execFltSevWrite (w : Nat) (val : W32) (s : State) : R := s.runIf (Unit.sevWord w) fun d => d.mmio 0 fun d =>
  if d.flt.lock then d
  else { d with flt := (List.range 8).foldl (fun f j => f.setSev (8 * w + j) (val.toNat / 16 ^ j % 16)) d.flt }

/-- FLT_CFG_WRITE (R828). -/
def execFltCfgWrite (val : W32) (s : State) : R := s.run fun d => d.mmio 0 fun d =>
  if d.flt.lock then d else { d with flt.pinThr := val.toNat % 8, flt.lock := val.getLsbD 3 }

/-- FLT_INCLCLR (R846): the S5 latch stays. -/
def execFltInclclr (s : State) : R := s.run fun d => d.mmio 0 fun d => { d with flt.incl := [] }

/-- FLT_STAT_SEV_REJ_CLR (R827). -/
def execFltStatSevRejClr (s : State) : R := s.run fun d => d.mmio 0 fun d => { d with flt.sevRej := false }

end Sys2Proof.Machine
end

