-- ==== Sys2Proof/Machine/Regs.lean ====
section
/-! DEFINITION. Writes of registers whose fields are only stored (05 R174, R175, and the register sections of the chapters). Writes of registers with a behaviour of their own are in RegWrite. -/

namespace Sys2Proof.Machine

/-- Entry of an array of registers `stride` apart from `base` on: `some i` for i below `n`. -/
def regIndex (off base stride n : Nat) : Option Nat :=
  if base ≤ off ∧ off < base + stride * n ∧ (off - base) % stride = 0 then some ((off - base) / stride) else none

/-- FCT_PCFG, XLT_CFG, GRN_RMCFG, COL_CFG, FAB_CFG and LNK_CFG (04 R162, 08 R346, 09 R393, 10 R442, 11 R502, 12 R546). -/
def Dev.storeTransport (d : Dev) (off : Nat) (v : W32) : Option Dev :=
  match regIndex off 0x30004 0x1000 8, regIndex off 0x0800 4 16, regIndex off 0x100004 0x1000 64 with
  | some p, _, _ => some ((d.setHport p fun h => { h with cfg := v &&& 0x7FF }).flushHeld 0)
  | _, some t, _ => some { d with rm.cfg := Tab.put 0x3E8 t (v &&& 0xFFFFF) d.rm.cfg }
  | _, _, some p => some (d.setLport p fun l => { l with cfg := v &&& 0x3FFF })
  | _, _, _ =>
    if off = 0x80000 then some { d with xlt.cfg := v &&& 0xFF1F }
    else if off = 0x90000 then some { d with fab.cfg := v }
    else if off = 0xB0000 then some { d with col.cfg := v &&& 0x1FF }
    else none

/-- BRL_LCFG2, RBY_CFG, WAL_CFG and CAL_CFG (13 R577, 14 R623, 15 R655). -/
def Dev.storeOptics (d : Dev) (off : Nat) (v : W32) : Option Dev :=
  match regIndex off 0x180004 0x10000 4, regIndex off 0x1C0000 0x10000 2 with
  | some b, _ => some { d with opt.brl := Tab.upd {} b (fun x => { x with lcfg2 := v }) d.opt.brl }
  | _, some n => some { d with las.ruby := Tab.upd {} n (fun x => { x with cfg := v &&& 0x1FFFF }) d.las.ruby }
  | _, _ =>
    if off = 0xD0000 then some { d with las.walCfg := v &&& 0xFF }
    else if off = 0xE0000 then some { d with cal.cfg := v }
    else none

/-- THM_CFG, PWR_CFG, PWR_BUDGET, VLT_CFG, TWN_CFG, TWN_SBIND and the DBG registers (16 R699, 17 R750, 18 R780, 21 R890). -/
def Dev.storeDevice (d : Dev) (off : Nat) (v : W32) : Option Dev :=
  match regIndex off 0x70100 4 16 with
  | some t => some { d with twn.sbind := Tab.put 0 t (v &&& 0xFF) d.twn.sbind }
  | none =>
    if off = 0x50000 then some ({ d with thm.cfg := v &&& 0x1F }).relevel
    else if off = 0x20100 then some { d with pwr.cfg := v &&& 0xFF01 }
    else if off = 0x20104 then some { d with pwr.budget := v &&& 0xFFFF }
    else if off = 0xC0000 then some ((List.range 16).foldl Dev.lagCheck { d with vlt.cfg := v &&& 0x1FFFFFF })
    else if off = 0x70000 then some { d with twn.cfg := v &&& 1 }
    else if off = 0xF0000 then some { d with dbg.cfg := v &&& 0xFFFFFF01 }
    else if off = 0xF0020 then some { d with dbg.trcfg := v &&& 0x31FFF }
    else if off = 0xF0024 then some { d with dbg.trmask := v &&& 0x1FFFF }
    else if off = 0xF002C then some { d with dbg.trpage := v.toNat % 32 }
    else none

/-- A word of a function's MSI-X table (05 R172): an entry is its address (two words), its data and its vector control, whose bit 0
masks the vector. The Pending Bit Array beyond it is read-only. -/
def Fn.storeMsix (g : Fn) (off : Nat) (v : W32) : Fn :=
  if off % 4 ≠ 0 ∨ 0x8000 ≤ off then g
  else if off % 16 = 12 then { g with vctl := Tab.put 1 (off / 16) (v &&& 1) g.vctl }
  else { g with vadr := Tab.put 0 (off / 4) v g.vadr }

end Sys2Proof.Machine
end

