-- ==== Sys2Proof/Machine/RegTable.lean ====
section
/-! DEFINITION. What the registers of the board and of the fault aggregator read as, field by field from the spec's register tables (01 R47; 02 R83; 03 R123; 16 R699; 20 R851; 23 R927; 09 R393). A register array is its offset, its stride, its count and the value of each entry; an offset of no register reads 0 (05 R175). -/

namespace Sys2Proof.Machine

/-- An array of registers: offset, stride, count and values. -/
abbrev RegArr := Nat × Nat × Nat × (Nat → Nat)

/-- One register. -/
def reg (off v : Nat) : RegArr := (off, 4, 1, fun _ => v)

/-- What the registers of a list read as at an offset (05 R175). -/
def readRegs (l : List RegArr) (off : Nat) : Nat := (l.findSome? fun r => (regIndex off r.1 r.2.1 r.2.2.1).map r.2.2.2).getD 0

/-- A word of fields: low bit, width and value of each. -/
def packed (fs : List (Nat × Nat × Nat)) : Nat := (fs.map fun f => f.2.2 % 2 ^ f.2.1 * 2 ^ f.1).foldl (· + ·) 0

/-- A counter as a field of `w` bits shows it: it saturates. -/
def sat (w v : Nat) : Nat := min v (2 ^ w - 1)

/-- A signed value in `w` bits. -/
def signedField (w : Nat) (v : Int) : Nat := (BitVec.ofInt w v).toNat

/-- Word `i` of a byte string, little-endian. -/
def wordOf (b : List Byte) (i : Nat) : Nat := leNat ((b.drop (4 * i)).take 4)

/-- The lower and the upper word of a 64-bit value, `i` 0 or 1. -/
def half (v i : Nat) : Nat := v / 2 ^ (32 * i) % 2 ^ 32

/-- One bit for each index below `n`. -/
def flags (n : Nat) (f : Nat → Bool) : Nat := ((List.range n).map fun i => bNat (f i) * 2 ^ i).foldl (· + ·) 0

/-! ### JAD (01 R47, 02 R83, 03 R123, 23 R927) -/

def Dev.dieAt (d : Dev) (n : Nat) : Die := Tab.look {} n d.boot.dies
def Dev.ainAt (d : Dev) (i : Nat) : Ain := Tab.look {} i d.jad.ain

/-- The debounced level of an input (JAD_AINSTAT.LEVEL): that of PWR_OK is the pin's; a pulse keeps its input active while it lasts. -/
def Dev.ainLevel (d : Dev) (i : Nat) : Bool :=
  if i = 5 then d.jad.pwrOk else (d.ainAt i).level || decide (d.now < (d.ainAt i).until_)

def Dev.clkstat (d : Dev) : Nat :=
  packed [(0, 1, bNat d.jad.xtalOk), (1, 1, bNat d.jad.rcTrimmed), (2, 1, bNat d.boot.refclkOk), (3, 1, bNat d.boot.jpll), (4, 1, bNat d.boot.gpll),
        (5, 4, d.boot.bpll.toNat), (20, 12, if d.jad.xtalOk then signedField 12 d.jad.refPpm else 0)]

def Dev.ainstat (d : Dev) : Nat :=
  packed [(0, 6, flags 6 d.ainLevel), (8, 6, flags 6 fun i => (d.ainAt i).stuck), (16, 6, flags 6 fun i => (d.ainAt i).masked)]

def Dev.bootstat (d : Dev) : Nat :=
  packed [(0, 4, d.boot.stage.code), (4, 1, bNat d.boot.slot), (5, 1, bNat d.jad.aBad), (6, 1, bNat d.jad.bBad), (7, 1, bNat d.boot.stopIgn),
        (8, 3, d.jad.drCount)]

def Dev.jadRegs (d : Dev) : List RegArr :=
  [reg 0x0040 (packed [(0, 4, d.boot.combo), (4, 1, bNat d.boot.comboOk), (5, 1, bNat d.jad.straps.side)]),
   (0x0100, 0x10, 20, fun n => half (d.dieAt n).id.toNat 0), (0x0104, 0x10, 20, fun n => half (d.dieAt n).id.toNat 1),
   (0x0108, 0x10, 20, fun n => (d.dieAt n).word),
   reg 0x0300 d.clkstat, reg 0x0310 d.ainstat, (0x0320, 4, 6, fun i => sat 16 (d.ainAt i).drop),
   reg 0x0400 d.bootstat, reg 0x0404 d.jad.rstCause.toNat, reg 0x0408 d.boot.bootTime.toNat,
   reg 0x040C (packed [(0, 24, d.boot.fwVer.toNat), (24, 8, d.boot.oxMaj.toNat)]),
   reg 0x0500 (packed [(0, 1, bNat d.jad.straps.testEn), (1, 1, bNat d.jad.bscanDr)])]

/-! ### GRN (09 R393, 23 R927) -/

/-- GRN_REPAIR: the valid lane and whole-cluster entries of a die, and the conflict of R926. -/
def Dev.repairWord (d : Dev) (n : Nat) : Nat :=
  let l := Tab.look [] n d.fuses.repair
  if d.boot.collected then
    packed [(0, 7, (l.filter fun r => decide (r.target < 68)).length), (7, 3, (l.filter fun r => decide (68 ≤ r.target)).length), (10, 1, bNat (fuseConflict l))]
  else 0

def Dev.grnRegs (d : Dev) : List RegArr :=
  [(0x0800, 4, 16, fun t => (Tab.look 0x3E8 t d.rm.cfg).toNat),
   reg 0x0840 (packed [(0, 12, d.rm.lines.length), (16, 13, d.rm.subs.length)]),
   (0x0900, 4, 6, d.repairWord)]

/-! ### PWR (02 R83, 16 R699) -/

/-- The sequencer is changing domains (PWR_DEVSTATE.BUSY). -/
def Dev.seqBusy (d : Dev) : Bool := d.pwr.busy || !d.pwr.seq.isEmpty

def Dev.pwrRegs (d : Dev) : List RegArr :=
  [reg 0x0000 (packed [(0, 2, d.pwr.state), (2, 2, d.pwr.target), (4, 1, bNat d.seqBusy)]),
   (0x0010, 4, 7, fun k => packed ((List.range 16).map fun j => (2 * j, 2, d.domain (16 * k + j)))),
   (0x0030, 4, 4, fun k => flags 32 fun j => Tab.look false (32 * k + j) d.pwr.heldOff),
   reg 0x0100 d.pwr.cfg.toNat, reg 0x0104 d.pwr.budget.toNat,
   reg 0x0108 (packed [(0, 16, ((List.range 20).map fun n => Tab.look 0 n d.pwr.diePwr).foldl (· + ·) 0), (16, 16, d.pwr.grant.toNat)]),
   (0x0110, 4, 20, fun n => Tab.look 0 n d.pwr.diePwr),
   (0x0180, 4, 2, half d.pwr.dark.toNat)]

/-! ### THM (16 R699) -/

/-- A limit comparator's floor is in force (16 R669). -/
def Dev.limitFloor (d : Dev) : Bool := (List.range 50).any fun n => (d.sensor n).limit

def Dev.throtWord (d : Dev) : Nat :=
  packed [(0, 3, d.thm.level), (3, 1, bNat (decide (0 < d.thm.g))), (4, 1, bNat d.limitFloor), (5, 1, bNat (decide (0 < d.thm.riseLeft))),
        (6, 1, bNat (d.ainAt 1).level), (7, 1, bNat (decide (0 < d.thm.b)))]

def Sensor.tempWord (x : Sensor) : Nat :=
  packed [(0, 16, signedField 16 x.temp), (16, 1, bNat x.valid), (17, 1, bNat x.warnHit), (18, 1, bNat x.limit), (19, 1, bNat x.riseHit)]

def Dev.thmRegs (d : Dev) : List RegArr :=
  [reg 0x0000 d.thm.cfg.toNat,
   reg 0x0004 (packed [(0, 1, bNat (d.thm.cold.any (·.2))), (1, 1, bNat (!d.thm.blind.isEmpty)), (2, 1, bNat (d.ainAt 1).level)]),
   reg 0x0008 d.throtWord,
   (0x0010, 4, 4, fun n => signedField 16 (d.quartz n)),
   (0x0020, 4, 2, half (flags 58 fun s => (d.sensor s).invalid)),
   (0x0100, 4, 58, fun s => (d.sensor s).tempWord),
   (0x0200, 4, 58, fun s => packed [(0, 16, signedField 16 (d.warnOf s)), (16, 16, signedField 16 (d.riseOf s))])]

/-! ### FLT, and the fault log of a tenant (20 R851) -/

/-- The highest class of records, 7 for none. -/
def highClass (l : List Rec) : Nat := match l.map (·.cls) with | [] => 7 | c :: r => r.foldl max c

def Dev.fltStat (d : Dev) : Nat :=
  packed [(0, 3, highClass d.flt.unacked), (3, 1, bNat d.faultLow), (4, 1, bNat d.jad.latched), (5, 1, bNat d.flt.sevRej), (8, 8, sat 8 d.flt.unacked.length),
        (16, 16, sat 16 d.flt.lost)]

def Dev.fltRegs (d : Dev) : List RegArr :=
  [reg 0x0000 (packed [(0, 3, d.flt.pinThr), (3, 1, bNat d.flt.lock)]), reg 0x0004 d.fltStat,
   (0x0010, 4, 2, half (flags 64 fun k => inclValid (Tab.look [] k d.flt.incl))),
   (0x0100, 4, 32, fun w => packed ((List.range 8).map fun j => (4 * j, 4, d.flt.classOf (8 * w + j)))),
   (0x1000, 4, 1024, fun i => wordOf (d.flt.slotBytes (i / 4)) (i % 4)),
   (0x2000, 4, 512, fun i => wordOf (Tab.look [] (i / 8) d.flt.incl) (i % 8))]

/-- TEN_FSTAT. -/
def Dev.tenFstat (d : Dev) (t : Nat) : Nat :=
  let l := (d.flt.log.filter fun r => decide (r.dom = some t) && r.view && !r.acked)
  packed [(0, 6, sat 6 l.length), (8, 3, highClass l)]

/-- TEN_FLOG: a word of the tenant's 32 most recent records. -/
def Dev.tenFlog (d : Dev) (t i : Nat) : Nat :=
  match (d.flt.tenantLog t)[i / 4]? with | some r => wordOf r.bytes (i % 4) | none => 0

end Sys2Proof.Machine
end

