-- ==== Sys2Proof/Machine/RegFabric.lean ====
section
/-! DEFINITION. What the registers of the collectives, semaphores, switch and links read as (10 R442, 11 R502, 12 R546). -/

namespace Sys2Proof.Machine

/-! ### COL and SEM (10 R442) -/

/-- Chunks that stand in the scratch of engine `e`, which folds chunk c of group g for e = (c + g) mod 4. -/
def Dev.engineChunks (d : Dev) (e : Nat) : Nat :=
  (d.col.inst.map fun x => (x.chunks.filter fun c => c.2.acc.isSome && !c.2.sent && decide ((c.1 + x.g) % 4 = e)).length).foldl (· + ·) 0

/-- COL_ESTAT. A fold is one step of the model, so BUSY shows that the engine has an input it can fold: DESIGN CHOICE (log 177). -/
def Dev.estat (d : Dev) (e : Nat) : Nat := packed [(0, 1, bNat (d.foldNext e).isSome), (16, 12, sat 12 (d.engineChunks e))]

def Dev.colRegs (d : Dev) : List RegArr :=
  [reg 0x0000 d.col.cfg.toNat,
   reg 0x0004 (packed [(0, 15, sat 15 d.col.closes), (15, 8, sat 8 d.col.quorumFail), (23, 8, sat 8 d.col.restores)]),
   (0x0010, 4, 4, d.estat)]

/-- The byte of SEM_OWNER for one block. -/
def Dev.ownerByte (d : Dev) (b : Nat) : Nat := match Tab.look 0 b d.col.owner with | 0 => 0 | t + 1 => 0x80 + t

def Dev.semRegs (d : Dev) : List RegArr :=
  [reg 0x0000 (packed [(0, 14, d.col.waiters.length)]),
   (0x0100, 4, 64, fun w => packed ((List.range 4).map fun j => (8 * j, 8, d.ownerByte (4 * w + j))))]

/-! ### FAB (11 R502) -/

def Dev.fabNode (d : Dev) : Nat := packed [(0, 12, d.fab.node.getD 0), (12, 1, bNat d.fab.node.isSome), (16, 2, d.fstate)]

def Dev.fabTstat (d : Dev) : Nat :=
  packed [(0, 12, d.fab.gm), (12, 2, d.fab.gmPri), (14, 5, d.fab.gmHops), (19, 1, bNat d.fab.locked), (24, 8, signedField 8 (max (-127) (min 127 d.fab.offset)))]

def Nbr.word (x : Nbr) : Nat := packed [(0, 12, x.node), (12, 1, bNat x.valid), (13, 6, x.port), (19, 1, bNat x.dup), (20, 1, bNat x.partner)]

def Dev.fabRegs (d : Dev) : List RegArr :=
  [reg 0x0000 d.fab.cfg.toNat, reg 0x0004 d.fabNode, reg 0x0008 (half d.fab.time 0), reg 0x000C d.fab.latched.toNat, reg 0x0010 d.fabTstat,
   reg 0x0020 (packed [(0, 10, sat 10 d.fab.retractTx), (10, 10, sat 10 d.fab.retractRx), (20, 10, sat 10 d.fab.stale)]),
   reg 0x0024 (packed [(0, 10, sat 10 d.fab.noroute), (10, 10, sat 10 d.fab.malformed), (20, 10, sat 10 d.fab.unserved)]),
   (0x0100, 4, 64, fun p => (Tab.look {} p d.fab.nbr).word),
   (0x0200, 4, 8, fun k => packed [(0, 4, (d.members k).length), (4, 4, ((d.members k).filter d.portUp).length)]),
   (0x4000, 4, 4096, fun n => (Tab.look 0 n d.fab.routes).toNat)]

/-! ### LNK (12 R546) -/

def LSt.code : LSt → Nat
  | .down => 0 | .light => 1 | .ident => 2 | .report => 3 | .ready => 4 | .keying => 5 | .active => 6 | .failed => 7

def LPort.stat (l : LPort) : Nat :=
  packed [(0, 3, l.st.code), (3, 1, bNat l.txw8), (4, 1, bNat l.rxw8), (5, 2, l.tries), (7, 1, bNat l.kgenTx), (8, 1, bNat l.kgenRx), (9, 1, bNat l.everUp),
        (10, 6, l.peerPort), (16, 2, l.round)]

def LPort.regs (l : LPort) : List RegArr :=
  [reg 0x000 l.stat, reg 0x004 l.cfg.toNat, reg 0x008 (packed [(0, 16, sat 16 l.replays), (16, 8, sat 8 l.downs), (24, 4, sat 4 l.lastAtt)]),
   reg 0x00C (packed [(0, 16, sat 16 l.uncorr), (16, 12, sat 12 l.authfail)]), reg 0x010 l.rxGood.toNat, reg 0x014 l.txGood.toNat,
   (0x018, 4, 2, half l.peerId.toNat), reg 0x020 (sat 31 l.feccor)]

def Dev.lnkRead (d : Dev) (off : Nat) : Nat := readRegs (d.lport (off / 0x1000)).regs (off % 0x1000)

end Sys2Proof.Machine
end

