-- ==== Sys2Proof/Machine/RegHost.lean ====
section
/-! DEFINITION. What the registers of the Host Facet, the mailboxes, the tenants and the translation read as (04 R162, 05 R212, 07 R298, 08 R346, 09 R393, 10 R442, 03 R123, 20 R851). -/

namespace Sys2Proof.Machine

/-! ### FCT (04 R162) -/

def PState.code : PState → Nat
  | .down => 0 | .clock => 1 | .ident => 2 | .centre => 3 | .repair => 4 | .negotiate => 5 | .active => 6 | .failed => 7

/-- One direction of FCT_LREP. -/
def Lrep.word (x : Lrep) : Nat :=
  packed [(0, 6, x.s0.getD 0), (6, 1, bNat x.s0.isSome), (7, 1, bNat x.s0Bad), (8, 6, x.s1.getD 0), (14, 1, bNat x.s1.isSome), (15, 1, bNat x.s1Bad)]

def HPort.pstat (h : HPort) : Nat := packed [(0, 4, h.st.code), (4, 8, h.rev), (12, 6, h.good), (18, 2, h.tries)]

/-- A cluster's errors (FCT_PERR). -/
def Clus.perr (y : Clus) : Nat := packed [(0, 16, sat 16 y.errs), (16, 6, y.lastLane)]

/-- The registers of one Host Facet port, from its offset on. -/
def Dev.fctPortRegs (d : Dev) (p : Nat) : List RegArr :=
  let h := d.hport p
  [reg 0x000 h.pstat, reg 0x004 h.cfg.toNat, reg 0x008 (flags 32 fun c => (d.clus p c).masked),
   reg 0x00C (packed [(0, 16, sat 16 h.replays), (16, 15, sat 15 h.discard)]), reg 0x010 h.bind.toNat, reg 0x014 h.feat.toNat,
   reg 0x018 (packed [(0, 8, h.peerRev)]), reg 0x01C h.peerFeat.toNat,
   (0x100, 4, 32, fun c => (d.clus p c).rx.word + 2 ^ 16 * (d.clus p c).tx.word),
   (0x200, 4, 32, fun c => (d.clus p c).perr)]

/-- FCT_ISTAT: the spare clusters in use in either direction, and the ports lost. -/
def Inner.istat (x : Inner) : Nat :=
  packed [(0, 4, flags 4 fun k => decide (Tab.look 0 k x.rx.spare ≠ 0) || decide (Tab.look 0 k x.tx.spare ≠ 0)), (4, 16, x.lost.toNat)]

def Dev.fctRead (d : Dev) (off : Nat) : Nat :=
  if off < 0x8000 then readRegs (d.fctPortRegs (off / 0x1000)) (off % 0x1000)
  else readRegs [(0x8000, 4, 4, fun n => (Tab.look {} n d.fct.inner).istat)] off

/-! ### XLT (08 R346) -/

/-- A unit has not yet acknowledged an invalidation (08 R333): only a micro-TLB, units 0 to 15, waits for reads; a walk of the other units ends
within the request's own step. -/
def Dev.unitPending (d : Dev) (i : Inval) (u : Nat) : Bool := d.mbx.reads.any fun r => i.tags.contains r.tag && decide (r.engine = u)

def Dev.invstat (d : Dev) : Nat :=
  match d.xlt.invals with
  | [] => 0
  | i :: _ => packed [(0, 19, flags 19 (d.unitPending i)), (24, 5, i.fn)]

def Dev.xltRegs (d : Dev) : List RegArr :=
  let x := d.xlt
  [reg 0x0000 x.cfg.toNat, reg 0x0004 x.stopped.toNat, reg 0x0008 (packed [(0, 15, x.tlb.length)]), reg 0x0010 d.invstat,
   reg 0x0014 (packed [(0, 16, sat 16 x.received), (16, 15, sat 15 x.flushes)]), reg 0x0018 (packed [(0, 16, sat 16 x.preUsed), (16, 15, sat 15 x.preDisc)]),
   (0x0100, 0x10, 16, fun k => (Tab.look 0 k x.hmapBase).toNat), (0x0104, 0x10, 16, fun k => (Tab.look 0 k x.hmapLim).toNat),
   (0x0108, 0x10, 16, fun k => (Tab.look 0 k x.hmapCtl).toNat),
   (0x0200, 4, 17, fun f => packed [(0, 10, d.pagesOf f), (16, 15, sat 15 (Tab.look 0 f x.denied))])]

/-- The key-range registers of one tenant, from its offset on. -/
def Tenant.krRegs (x : Tenant) : List RegArr :=
  [(0x00, 0x10, 8, fun k => (Tab.look 0 k x.krBase).toNat), (0x04, 0x10, 8, fun k => (Tab.look 0 k x.krLim).toNat),
   (0x08, 0x10, 8, fun k => (Tab.look 0 k x.krCtl).toNat), reg 0x80 x.keydef.toNat]

def Dev.xltRead (d : Dev) (off : Nat) : Nat :=
  if off < 0x1000 then readRegs d.xltRegs off
  else if off < 0x2000 then readRegs (d.ten ((off - 0x1000) / 0x100)).krRegs (off % 0x100)
  else 0

/-! ### The tenant page and doorbell pages (03 R123, 07 R298, 09 R393, 10 R442, 20 R851) -/

def StreamSt.code : StreamSt → Nat
  | .absent => 0 | .subscribing => 1 | .granted => 2 | .refused => 3 | .withdrawing => 4

def Dev.tenInfo (d : Dev) (t : Nat) : Nat :=
  packed [(0, 4, t), (4, 7, ((d.ten t).assign.getD {}).queues), (11, 1, bNat (d.ten t).assign.isSome)]

def Dev.tenRststat (d : Dev) (t : Nat) : Nat := packed [(0, 2, (d.ten t).rst), (8, 8, sat 8 (d.ten t).rstCount), (16, 3, (d.ten t).rstCause)]

/-- The five registers of a queue. -/
def Dev.queueReg (d : Dev) (gq i : Nat) : Nat :=
  let q := d.queue gq
  match i with
  | 0 => packed [(0, 3, q.st.code), (3, 2, q.qtype), (8, 7, (d.opsOf gq).length), (16, 16, q.last.code)]
  | 1 => q.head.toNat
  | 2 => q.tail.toNat
  | 3 => packed [(0, 16, sat 16 q.timeouts), (16, 15, sat 15 q.refused)]
  | 4 => sat 31 q.late
  | _ => 0

/-- Lines of a stream held in READY or USED. -/
def Dev.heldLines (d : Dev) (t s : Nat) : Nat :=
  (d.rm.lines.filter fun l => decide (l.t = t) && decide (l.s = s) && (decide (l.st = .ready) || decide (l.st = .used))).length

/-- The four registers of a stream. -/
def Dev.streamReg (d : Dev) (t s i : Nat) : Nat :=
  let x := d.stream t s
  match i with
  | 0 => packed [(0, 3, x.st.code), (4, 12, d.heldLines t s), (16, 3, x.reason)]
  | 1 => sat 31 x.hit
  | 2 => sat 31 x.miss
  | _ => sat 31 x.disc

/-- The tenant page of tenant `t`. -/
def Dev.tenRegs (d : Dev) (t : Nat) : List RegArr :=
  [reg 0x0000 (d.tenInfo t), reg 0x0080 (d.tenRststat t),
   (0x0100, 4, 8, fun w => flags 32 fun b => decide (Tab.look 0 (32 * w + b) d.col.owner = t + 1)),
   (0x1000, 4, 512, fun i => d.queueReg (64 * t + i / 8) (i % 8)), (0x2000, 4, 128, fun i => d.streamReg t (i / 4) (i % 4)),
   reg 0x3000 (d.tenFstat t), (0x3100, 4, 128, d.tenFlog t)]

/-- A doorbell page: TEN_DBTAIL and TEN_QFLAG. -/
def Dev.doorbellRead (d : Dev) (t q off : Nat) : Nat :=
  let flag := (Tab.look 0 q (d.ten t).qflag).toNat
  readRegs [reg 0x000 (d.queue (64 * t + q)).tail.toNat, (0x008, 4, 2, half flag)] off

/-! ### The mailbox part of a function's window (05 R173, R212) -/

def Dev.mbxRegs (d : Dev) (f : Nat) : List RegArr :=
  let g := d.fn f
  [reg 0x000 (packed [(0, 8, d.mbx.oxMin), (8, 8, d.boot.oxMaj.toNat), (16, 16, 0x1000)]), reg 0x004 (packed [(0, 4, g.irqDest), (4, 4, g.ntcDest)]),
   reg 0x008 (packed [(0, 1, bNat (d.servedFn f && !g.flr)), (1, 1, bNat (decide (f ≠ 0) && d.fenced (f - 1))), (2, 1, bNat (decide (g.rspTail ≠ g.rspHead))),
                    (3, 1, bNat (decide (g.ntcTail ≠ g.ntcHead))), (16, 16, sat 16 g.ntcLost)]),
   reg 0x010 g.cmdTail.toNat, reg 0x014 g.cmdHead.toNat, reg 0x018 g.rspTail.toNat, reg 0x01C g.rspHead.toNat, reg 0x020 g.ntcTail.toNat,
   reg 0x024 g.ntcHead.toNat,
   reg 0x030 (packed [(0, 9, d.outstanding f), (9, 1, bNat g.bmOff), (10, 10, sat 10 g.discarded), (20, 11, sat 11 g.refused)])]

/-- A word of a response or notice as it stands in its slot. -/
def slotWord (r : Option Reply) (off : Nat) : Nat := match r with | some x => wordOf x.message (off / 4) | none => 0

/-- The registers and rings of a function's mailbox. -/
def Dev.mailboxRead (d : Dev) (f off : Nat) : Nat :=
  if off % 4 ≠ 0 then 0
  else if 0x10000 ≤ off ∧ off < 0x11000 then readRegs (d.mbxRegs f) (off - 0x10000)
  else if 0x20000 ≤ off ∧ off < 0x30000 then (Tab.look 0 ((off - 0x20000) / 4) (d.fn f).cmdRing).toNat
  else if 0x30000 ≤ off ∧ off < 0x40000 then slotWord (Tab.look none ((off - 0x30000) / 4096) (d.fn f).rsp) (off % 4096)
  else if 0x40000 ≤ off ∧ off < 0x44000 then slotWord (Tab.look none ((off - 0x40000) / 256) (d.fn f).ntc) (off % 256)
  else 0

end Sys2Proof.Machine
end

