-- ==== Sys2Proof/Machine/RegOptics.lean ====
section
/-! DEFINITION. What the registers of the rings, receivers, lasers, maps and calibration read as (13 R577, 14 R623, 15 R655). -/

namespace Sys2Proof.Machine

/-! ### BRL (13 R577) -/

def RSt.code : RSt → Nat
  | .off => 0 | .seek => 1 | .track => 2 | .locked => 3 | .hold => 4 | .failed => 5

/-- The four registers of a ring; CARRY shows that its wavelength is mapped to a lane and the ring is on. -/
def Dev.ringReg (d : Dev) (x i : Nat) : Nat :=
  let g := d.ring x
  match i with
  | 0 => packed [(0, 3, g.st.code), (3, 1, bNat g.valid), (4, 2, sat 2 g.invalid), (6, 2, g.slot), (8, 1, bNat (decide (d.laneOf x < 16) && decide (g.st ≠ .off))), (9, 3, g.cause),
               (16, 16, sat 16 g.unlocks)]
  | 1 => packed [(0, 14, g.code), (16, 14, g.readback), (31, 1, bNat g.rbValid)]
  | 2 => packed [(0, 16, signedField 16 g.err), (16, 16, sat 16 g.p0)]
  | _ => signedField 16 g.setpt

/-- An entry of a ring's neighbour table. -/
def Ring.nbrWord (g : Ring) (j : Nat) : Nat :=
  match g.nbrs[j]? with | some n => packed [(0, 10, n.1 % 576), (10, 1, 1), (16, 8, signedField 8 n.2)] | none => 0

def Rxc.word0 (x : Rxc) : Nat := packed ((List.range 4).map fun s => (8 * s, 8, signedField 8 (x.ofs.getD s 0)))
def Rxc.word1 (x : Rxc) : Nat := packed [(0, 8, x.gain), (8, 6, x.post), (14, 6, x.thr), (20, 3, x.intLen)]
def Ring.txd (g : Ring) : Nat := packed [(0, 5, g.swing), (5, 4, g.pre), (9, 7, signedField 7 g.drvcomp)]
def Sense.word (x : Sense) : Nat := packed [(0, 1, bNat x.open_), (1, 1, bNat x.fallback), (2, 1, bNat x.groupFail), (16, 16, sat 16 x.run)]

/-- The receive channel of λk of port p of a Beryl. -/
def Dev.rxcAt (d : Dev) (b p k : Nat) : Rxc := Tab.look {} (18 * (16 * b + p) + k) d.opt.rxc

def Dev.brlRegs (d : Dev) (b : Nat) : List RegArr :=
  [reg 0x0000 (Tab.look {} b d.opt.brl).lcfg.toNat, reg 0x0004 (Tab.look {} b d.opt.brl).lcfg2.toNat,
   (0x0100, 4, 32, fun g => (Tab.look {} (32 * b + g) d.opt.sense).word),
   (0x1000, 4, 2304, fun i => d.ringReg (576 * b + i / 4) (i % 4)),
   (0x4000, 4, 2304, fun i => (d.ring (576 * b + i / 4)).nbrWord (i % 4))]

/-- Offset of an entry of an array [p][k] with `w` bytes an entry and 0x100 a port: p and k. -/
def portEntry (off base w : Nat) : Option (Nat × Nat) :=
  if base ≤ off ∧ off < base + 0x1000 ∧ (off - base) % 0x100 < 18 * w then some ((off - base) / 0x100, (off - base) % 0x100 / w) else none

def Dev.brlRead (d : Dev) (b off : Nat) : Nat :=
  match portEntry off 0x8000 8, portEntry off 0xA000 4 with
  | some (p, k), _ => if off % 8 = 0 then (d.rxcAt b p k).word0 else if off % 8 = 4 then (d.rxcAt b p k).word1 else 0
  | _, some (p, k) => if off % 4 = 0 then (d.ring (ringNo (16 * b + p) 0 k)).txd else 0
  | _, _ => readRegs (d.brlRegs b) off

/-! ### RBY and WAL (14 R623) -/

/-- The two registers of a laser. -/
def Laser.word (x : Laser) (i : Nat) : Nat :=
  if i = 0 then packed [(0, 3, x.st.code), (3, 3, x.fcause), (6, 2, sat 2 x.retries), (16, 16, sat 16 x.current)]
  else packed [(0, 16, sat 16 x.mpd), (16, 16, sat 16 x.ibol)]

def Dev.rbyRegs (d : Dev) (n : Nat) : List RegArr :=
  let r := Tab.look {} n d.las.ruby
  [reg 0x0000 r.cfg.toNat,
   reg 0x0004 (packed [(0, 1, bNat r.linkOk), (1, 1, bNat (d.jad.laserDis.getLsbD n)), (2, 1, bNat r.spareOn), (8, 18, flags 18 fun k => (d.posn (18 * n + k)).lost)]),
   (0x0100, 4, 72, fun i => (d.laser (36 * n + i / 2)).word (i % 2))]

/-- Word `w` of a wavelength map. -/
def mapWord (m : List Nat) (w : Nat) : Nat := packed ((List.range 4).map fun i => (8 * i, 8, if 4 * w + i < 18 then mapAt m (4 * w + i) else 0))

def WPort.pstat (x : WPort) : Nat :=
  packed [(0, 5, x.txNext.getD 0x1F), (5, 5, x.rxNext.getD 0x1F), (10, 1, bNat x.move.isSome), (11, 5, x.reserved.getD 0x1F), (16, 1, bNat x.noSpare)]

def WPort.cnt (x : WPort) : Nat := packed [(0, 16, sat 16 x.moves), (16, 8, sat 8 x.breaks), (24, 7, sat 7 x.cancels)]

def Dev.walRead (d : Dev) (off : Nat) : Nat :=
  if 0x1000 ≤ off ∧ off < 0x2000 then
    let x := d.wport ((off - 0x1000) / 0x40)
    readRegs [(0x00, 4, 5, mapWord x.tx), (0x20, 4, 5, mapWord x.rx)] (off % 0x40)
  else readRegs [reg 0x0000 d.las.walCfg.toNat, (0x3000, 4, 64, fun p => (d.wport p).pstat), (0x3100, 4, 64, fun p => (d.wport p).cnt)] off

/-! ### CAL (15 R655) -/

/-- Channels of a tile with a property. -/
def Dev.tileChans (d : Dev) (b : Nat) (f : Chan → Bool) : Nat := (d.cal.chans.filter fun c => decide (c.1 / 576 = b) && f c.2).length

def Dev.calTstat (d : Dev) (b : Nat) : Nat :=
  packed [(0, 1, bNat (Tab.look none b d.cal.held).isSome), (1, 1, bNat (Tab.look none b d.cal.cmd).isSome), (2, 3, sat 3 (d.tileChans b fun c => c.polish.isSome)),
        (16, 16, d.tileChans b (·.due))]

/-- CAL_RECSTAT. -/
def Dev.calRecstat (d : Dev) : Nat :=
  packed [(0, 12, sat 12 d.cal.loaded), (12, 12, sat 12 d.cal.bad), (24, 8, sat 8 (d.cal.chans.filter fun c => c.2.wpend).length)]

def Dev.calRegs (d : Dev) : List RegArr :=
  [reg 0x0000 d.cal.cfg.toNat, reg 0x0004 (packed [(0, 16, sat 16 d.cal.full), (16, 15, sat 15 d.cal.light)]), reg 0x0008 (packed [(0, 16, sat 16 d.cal.ended)]),
   (0x0010, 4, 4, d.calTstat), reg 0x0020 d.calRecstat,
   (0x0100, 4, 128, fun i => flags 18 fun k => (d.chan (ringNo (i / 2) (i % 2) k)).fullPend)]

end Sys2Proof.Machine
end

