-- ==== Sys2Proof/Machine/RegVault.lean ====
section
/-! DEFINITION. What the registers of the Vault, the Twin pair, the security module and debug read as (17 R750, 18 R780, 19 R825, 21 R890). -/

namespace Sys2Proof.Machine

/-! ### VLT (17 R750) -/

def VSt.code : VSt → Nat
  | .notMounted => 0 | .mounting => 1 | .ready => 2 | .closing => 3 | .closed => 4 | .failed => 5

/-- The Vault has read its log since the last reset: what the log and the blocks hold is shown. -/
def Dev.logRead (d : Dev) : Bool := !(decide (d.vlt.st = .notMounted) || decide (d.vlt.st = .mounting))

/-- Some sealed epoch, of a tenant or of any, is damaged here. -/
def Dev.anyDamaged (d : Dev) (hit : Nat → Bool) : Bool := d.onyx.seals.any fun x => hit x.t && d.epochDamaged x

/-- Retired and factory bad blocks of a die (VLT_DIE). -/
def Dev.vltDie (d : Dev) (n : Nat) : Nat :=
  let l := d.onyx.blks.filter fun b => decide (b.1 / 4096 = n)
  packed [(0, 13, (l.filter fun b => b.2.bad).length), (13, 13, (l.filter fun b => decide (b.2.st = .factory)).length)]

def Dev.maxErases (d : Dev) : Nat := (d.onyx.blks.map (·.2.erases)).foldl max 0

def Dev.vltTstat (d : Dev) (t : Nat) : Nat :=
  let v := d.vten t
  packed [(0, 18, v.lag), (18, 1, bNat v.sealing.isSome), (19, 1, bNat v.stalled), (20, 1, bNat v.mirrored), (21, 1, bNat (d.logRead && d.anyDamaged fun u => decide (u = t)))]

/-- The highest sealed epoch of a tenant, bits 31:0 (VLT_TEPOCH). -/
def Dev.lastSealed (d : Dev) (t : Nat) : Nat := half (((d.onyx.seals.filter fun x => decide (x.t = t)).map (·.epoch)).foldl max 0) 0

def Dev.vltRegs (d : Dev) : List RegArr :=
  let on : Nat → Nat := fun v => if d.logRead then v else 0
  [reg 0x0000 d.vlt.cfg.toNat, reg 0x0004 (packed [(0, 3, d.vlt.st.code), (3, 8, d.vlt.out.toNat), (11, 1, bNat (d.logRead && d.anyDamaged fun _ => true))]),
   reg 0x0008 (on (packed [(0, 10, d.usableGib), (10, 16, d.goodBlocks)])), reg 0x000C (on (packed [(0, 16, d.avgErases), (16, 16, d.maxErases)])),
   reg 0x0010 (packed [(0, 16, sat 16 d.vlt.corr), (16, 8, sat 8 d.vlt.uncorr), (24, 7, sat 7 d.vlt.refresh)]),
   (0x0040, 4, 8, fun n => on (d.vltDie n)),
   (0x0100, 8, 16, d.vltTstat), (0x0104, 8, 16, fun t => on (d.lastSealed t))]

/-! ### TWN (18 R780) -/

def Dev.twnStat (d : Dev) : Nat :=
  packed [(0, 3, d.twn.st.code), (3, 1, bNat d.twn.partnerSide), (4, 1, bNat (d.active 64)), (5, 1, bNat d.twn.aliveIn),
        (16, 16, flags 16 fun t => (d.ten t).served && (d.ten t).assign.isSome)]

def Dev.twnRegs (d : Dev) : List RegArr :=
  [reg 0x0000 d.twn.cfg.toNat, reg 0x0004 d.twnStat, reg 0x0008 (packed [(0, 17, min 65536 d.twn.jlag)]),
   reg 0x000C (packed [(0, 8, sat 8 d.twnPr.takeovers), (8, 16, sat 16 d.twn.stale), (24, 7, sat 7 d.twnPr.cleaves)]),
   (0x0100, 4, 16, fun t => (Tab.look 0 t d.twn.sbind).toNat)]

/-! ### SEC (19 R825) -/

/-- SEC_STAT; COKEY_OK shows that the stored CO key passes its HMAC (19 R792). -/
def Dev.secStat (d : Dev) : Nat :=
  packed [(0, 2, d.sec.mode.code), (2, 1, bNat d.secNv.fs.isSome), (3, 1, bNat d.secNv.pvk.isSome), (4, 4, d.flash.zgen),
        (8, 4, flags 4 fun i => (Tab.look none (i + 1) d.secNv.roots).isSome), (12, 1, bNat (d.secNv.roleKey 1).isSome)]

def Dev.secRegs (d : Dev) : List RegArr :=
  [reg 0x0000 d.secStat, reg 0x0004 d.sec.passed.toNat,
   reg 0x0008 (packed [(0, 8, sat 8 d.sec.authFail), (8, 8, sat 8 d.sec.peerAuth), (16, 3, (d.sec.spdm.filter (·.open_)).length)]),
   (0x0100, 4, 32, fun i => flags 32 fun b =>
     decide (i % 2 ≠ 0 ∨ b ≠ 0) && (Tab.look none (64 * (i / 2) + 32 * (i % 2) + b) d.sec.slots).isSome)]

/-! ### DBG (21 R890) -/

def StopSt.code : StopSt → Nat
  | .running => 0 | .scheduled => 1 | .stopped => 2 | .resuming => 3

/-- The two words of DBG_CUT. -/
def Cut.word (x : Cut) (i : Nat) : Nat :=
  if i = 0 then packed [(0, 12, x.txSeq), (12, 12, x.txAck), (31, 1, bNat x.valid)] else packed [(0, 12, x.rxSeq), (12, 5, x.rxPart)]

/-- A trace entry's 32 bytes (21 R862). -/
def TEnt.bytes (e : TEnt) : List Byte :=
  leBytes 8 e.ftime ++ leBytes 1 e.event ++ leBytes 1 e.tenant ++ leBytes 1 (bNat e.locked + 2 * bNat e.ident.isSome) ++ leBytes 1 e.unit ++ leBytes 2 e.qglobal
    ++ leBytes 2 e.status ++ (match e.ident with | some x => leBytes 2 x.layer.toNat ++ leBytes 2 x.operator.toNat ++ leBytes 4 x.range.toNat | none => zeros 8)
    ++ leBytes 8 e.arg

/-- The word of DBG_TRACE at `i`: the window shows entries 1,024 × PAGE on, oldest first (DBG_TRPAGE). -/
def Dev.traceWord (d : Dev) (i : Nat) : Nat :=
  match d.dbg.trace[1024 * d.dbg.trpage + i / 8]? with | some e => wordOf e.bytes (i % 8) | none => 0

def Dev.stopstat (d : Dev) : Nat :=
  packed [(0, 2, d.dbg.st.code), (2, 3, d.dbg.cause), (5, 1, bNat d.dbg.record), (6, 1, bNat d.dbg.locked), (8, 3, d.dbg.resumeCause), (16, 8, sat 8 d.dbg.ignored)]

def Dev.dbgRegs (d : Dev) : List RegArr :=
  [reg 0x0000 d.dbg.cfg.toNat, reg 0x0004 d.stopstat, reg 0x0008 (half d.dbg.stopFt 0), reg 0x000C d.dbg.ftHi.toNat, reg 0x0010 (half d.dbg.stopCyc 0),
   reg 0x0014 d.dbg.cycHi.toNat, reg 0x0020 d.dbg.trcfg.toNat, reg 0x0024 d.dbg.trmask.toNat,
   reg 0x0028 (packed [(0, 16, d.dbg.trace.length), (16, 15, sat 15 d.dbg.lost)]), reg 0x002C d.dbg.trpage,
   reg 0x0030 (packed [(0, 16, sat 16 d.dbg.frames), (16, 15, sat 15 d.dbg.skipped)]),
   (0x0200, 4, 146, fun i => (Tab.look {} (i / 2) d.dbg.cut).word (i % 2)), (0x8000, 4, 8192, d.traceWord)]

end Sys2Proof.Machine
end

