-- ==== Sys2Proof/Machine/RegMap.lean ====
section
/-! DEFINITION. The BARs: what a read of a function's BAR0 or BAR2 returns (05 R172 to R176). The opcode table has no row for such a read; statements use these values. -/

namespace Sys2Proof.Machine

/-- A read of one of the PF's register blocks: block number (the upper bits of the offset) and offset within it (05 R174). -/
def Dev.blockRead (d : Dev) (b off : Nat) : Nat :=
  match b with
  | 0x00 => readRegs d.grnRegs off
  | 0x01 => readRegs d.jadRegs off
  | 0x02 => readRegs d.pwrRegs off
  | 0x03 => d.fctRead off
  | 0x04 => readRegs d.fltRegs off
  | 0x05 => readRegs d.thmRegs off
  | 0x06 => readRegs d.secRegs off
  | 0x07 => readRegs d.twnRegs off
  | 0x08 => d.xltRead off
  | 0x09 => readRegs d.fabRegs off
  | 0x0A => readRegs d.semRegs off
  | 0x0B => readRegs d.colRegs off
  | 0x0C => readRegs d.vltRegs off
  | 0x0D => d.walRead off
  | 0x0E => readRegs d.calRegs off
  | 0x0F => readRegs d.dbgRegs off
  | _ => 0

/-- The 32-bit word at an offset of the PF's BAR0 (05 R174, R175). The OPT block has a base and no register of any chapter: it reads 0. -/
def Dev.readPf (d : Dev) (off : Nat) : Nat :=
  if off < 0x100000 then d.blockRead (off / 0x10000) (off % 0x10000)
  else if off < 0x140000 then d.lnkRead (off - 0x100000)
  else if 0x180000 ≤ off ∧ off < 0x1C0000 then d.brlRead ((off - 0x180000) / 0x10000) (off % 0x10000)
  else if 0x1C0000 ≤ off ∧ off < 0x1E0000 then readRegs (d.rbyRegs ((off - 0x1C0000) / 0x10000)) (off % 0x10000)
  else if 0x400000 ≤ off ∧ off < 0x500000 then readRegs (d.tenRegs ((off - 0x400000) / 0x10000)) (off % 0x10000)
  else if 0x800000 ≤ off ∧ off < 0x900000 then d.mailboxRead 0 (off - 0x800000)
  else if 0xA00000 ≤ off ∧ off < 0xE00000 then d.doorbellRead ((off - 0xA00000) / 0x40000) (off % 0x40000 / 0x1000) (off % 0x1000)
  else 0

/-- The word at an offset of the BAR0 of tenant `t`'s VF (05 R173, 07 R298): its own tenant page, mailbox and doorbell pages. -/
def Dev.readVf (d : Dev) (t off : Nat) : Nat :=
  if off < 0x10000 then readRegs (d.tenRegs t) off
  else if 0x80000 ≤ off ∧ off < 0xC0000 then d.doorbellRead t ((off - 0x80000) / 0x1000) (off % 0x1000)
  else d.mailboxRead (t + 1) off

/-- The word at an offset of BAR2 (05 R172): the MSI-X table, and the Pending Bit Array. -/
def Fn.readBar2 (g : Fn) (off : Nat) : Nat :=
  if off % 4 ≠ 0 then 0
  else if off < 0x8000 then (if off % 16 = 12 then (Tab.look 1 (off / 16) g.vctl).toNat else (Tab.look 0 (off / 4) g.vadr).toNat)
  else if off < 0x8100 then flags 32 fun i => g.vecs.contains (8 * (off - 0x8000) + i)
  else 0

/-- A read of a function's BAR0 or BAR2 (05 R105, R175, R176): with the link down none arrives, and a function that completes no memory request
answers Unsupported Request. -/
def Dev.readReg (d : Dev) (f : Nat) (bar2 : Bool) (off : Nat) : Option Nat :=
  if !d.linkUp || !d.memReq f then none
  else if bar2 then some ((d.fn f).readBar2 off)
  else if f = 0 then some (d.readPf off) else some (d.readVf (f - 1) off)

end Sys2Proof.Machine
end

