-- ==== Sys2Proof/Machine/Remote.lean ====
section
/-! DEFINITION. Remote memory (09): acknowledgements of writes, subscriptions, leases, prefetch and lines. -/

namespace Sys2Proof.Machine

/-- The read-back on a path has completed: the writes issued before it on that path are acknowledged (R348). -/
def Dev.flushed (d : Dev) (path : Nat) : Dev :=
  ({ d with rm.pend := d.rm.pend.map fun (w : PendW) => (if w.path = path then { w with flushed := true } else w : PendW) }).ackWrites

/-- TARGET_WRITE_ACK (R348); held while stopped (21 R880). -/
def execTargetWriteAck (path : Nat) (s : State) : R := s.intake true (.flush path) fun d => (d.flushed path).settle

/-- The write that an owner's acknowledgement names, while the device is not stopped. -/
def Dev.ackedWrite (d : Dev) (src gq : Nat) (serial : W32) : Option PendW :=
  if d.stopped then none else d.rm.pend.find? fun w => decide (w.pkt.src = src) && decide (w.pkt.qglobal = gq) && decide (w.pkt.serial = serial)

/-- OWNER_WRITE_ACK (R375). -/
def execOwnerWriteAck (src gq : Nat) (serial : W32) (s : State) : R := s.run fun d =>
  match d.ackedWrite src gq serial with
  | some w =>
    if w.flushed && (w.subs.isEmpty || decide (w.expiry ≤ d.fab.time)) then
      (({ d with rm.pend := without w d.rm.pend }).answer w.pkt .ok w.pkt.data (8 * w.pkt.data.length)).settle
    else d
  | none => d

/-- SUBCTL_SUBSCRIBE (R364, R365). -/
def execSubctlSubscribe (k : Pkt) (stream : Nat) (span : W64) (s : State) : R :=
  s.intake true (.sub 1 k stream span) fun d => (d.subctl 1 k stream span).settle

/-- SUBCTL_GRANT (R365). -/
def execSubctlGrant (k : Pkt) (stream : Nat) (expiry : W64) (s : State) : R :=
  s.intake true (.sub 2 k stream expiry) fun d => (d.subctl 2 k stream expiry).settle

/-- SUBCTL_REFUSE (R364). -/
def execSubctlRefuse (k : Pkt) (stream reason : Nat) (s : State) : R :=
  s.intake true (.sub 3 k stream (BitVec.ofNat 64 reason)) fun d => (d.subctl 3 k stream (BitVec.ofNat 64 reason)).settle

/-- SUBCTL_RENEW (R365). -/
def execSubctlRenew (k : Pkt) (stream : Nat) (expiry : W64) (s : State) : R :=
  s.intake true (.sub 4 k stream expiry) fun d => (d.subctl 4 k stream expiry).settle

/-- SUBCTL_INVAL (R374). -/
def execSubctlInval (k : Pkt) (stream : Nat) (span : W64) (s : State) : R :=
  s.intake true (.sub 5 k stream span) fun d => (d.subctl 5 k stream span).settle

/-- SUBCTL_INVACK (R375). -/
def execSubctlInvack (k : Pkt) (stream : Nat) (s : State) : R :=
  s.intake true (.sub 6 k stream 0) fun d => (d.subctl 6 k stream 0).settle

/-- SUBCTL_BREAK (R388). -/
def execSubctlBreak (k : Pkt) (stream : Nat) (s : State) : R :=
  s.intake true (.sub 7 k stream 0) fun d => (d.subctl 7 k stream 0).settle

/-- SUBCTL_UNSUB (R377). -/
def execSubctlUnsub (k : Pkt) (stream : Nat) (s : State) : R :=
  s.intake true (.sub 8 k stream 0) fun d => (d.subctl 8 k stream 0).settle

/-- A subscription is renewed while its tenant is not fenced and has its window (R365, R390), and no invalidation sent to it is unacknowledged, so
that a write waits for it no longer than its lease (R375; log 156). -/
def Dev.renewable (d : Dev) (x : Sub) : Bool :=
  !d.fenced x.t && decide ((d.ten x.t).winSize ≠ 0) && !d.rm.pend.any fun w => decide (w.pkt.dstTen = x.t) && w.subs.contains (x.node, x.ten, x.stream)

/-- Every renewable lease takes a new expiry 100 µs on, and its subscriber is told (R365). -/
def Dev.renewLeases (d : Dev) : Dev :=
  let e := d.fab.time + 100000
  let d := { d with rm.subs := d.rm.subs.map fun x => (if d.renewable x then { x with expiry := e } else x : Sub) }
  (d.rm.subs.filter d.renewable).foldl (fun d x => d.sendSub x 4 0 x.lo (BitVec.ofNat 64 e)) d

/-- LEASE_RENEW_TIMER (R365, R390): a tenant in TR renews nothing. -/
def execLeaseRenewTimer (s : State) : R := s.run fun d =>
  if d.stopped then d
  else d.renewLeases.settle

/-- LEASE_EXPIRY (R365, R386): a subscriber takes its lease as expired 1 µs early. -/
def execLeaseExpiry (t st : Nat) (s : State) : R := s.runIf (Unit.tenant t && Unit.stream st) fun d =>
  let x := d.stream t st
  if !d.stopped && decide (x.st = .granted) && !d.leaseLive x then (d.loseLease t st).settle else d

/-- Every refused stream of a tenant that is not fenced asks again (R364). -/
def Dev.retrySubs (d : Dev) : Dev :=
  (d.rm.streams.filter fun x => decide (x.2.st = .refused) && !d.fenced (x.1 / 32)).foldl (fun d x => d.subscribe (x.1 / 32) (x.1 % 32)) d

/-- SUBSCRIBE_RETRY (R364). -/
def execSubscribeRetry (s : State) : R := s.run fun d =>
  if d.stopped then d
  else d.retrySubs.settle

/-- A line lies in a run-ahead window of its tenant (R367). -/
def Dev.inWindow (d : Dev) (l : Line) : Bool :=
  (List.range 32).any fun s =>
    let x := d.stream l.t s
    let a := l.line * 4096
    decide (x.st = .granted) && decide (x.base.toNat + x.page * 2 ^ x.log2 ≤ a)
      && decide (a < min (x.base.toNat + x.span) (x.base.toNat + (x.page + x.depth + 1) * 2 ^ x.log2))

/-- The least recently used of some lines. -/
def oldest (l : List Line) : Option Line :=
  l.foldl (fun (m : Option Line) x => match m with | some y => if x.used < y.used then some x else m | none => some x) none

/-- The line of a tenant that is evicted next (R370). -/
def Dev.victim (d : Dev) (t : Nat) : Option Line :=
  let mine := d.rm.lines.filter fun l => decide (l.t = t)
  let out := mine.filter fun l => !d.inWindow l
  (oldest (out.filter fun l => decide (l.st = .used))).or
    ((oldest (out.filter fun l => decide (l.st = .ready))).or (oldest (mine.filter fun l => decide (l.st = .used) && d.inWindow l)))

/-- The next line of the run-ahead window that is not held, in ascending order (R368). -/
def Dev.nextLine (d : Dev) (t s : Nat) : Option Nat :=
  let x := d.stream t s
  let first := (x.base.toNat + x.page * 2 ^ x.log2) / 4096
  let last := min (x.base.toNat + x.span) (x.base.toNat + (x.page + x.depth + 1) * 2 ^ x.log2) / 4096
  ((List.range (last - first)).map fun i => first + i).find? fun n => (d.lineAt t s n).isNone

/-- Fetches a line into a unit taken for it (R359, R368). -/
def Dev.fetchLine (d : Dev) (t s n : Nat) : Dev :=
  let d := ({ d with rm.lines := d.rm.lines ++ [({ t, s, line := n, st := .fetching } : Line)] } : Dev).take 2 t 1
  match d.transact (64 * t + 63) (.line t s n) .rd { d.faPkt t (4096 * n) with aux := 4096 } .none 0 0 false true with
  | (d, .ok) => d
  | (d, .wait) => d.lineFailed t s n .busy
  | (d, .failed st) => let d := d.lineFailed t s n st
    if st = .pathFailure then d.loseLease t s else d

/-- Demand traffic of the tenant goes before its prefetches at the same egress, and the tenant's shaper lets 4 KiB pass (R371; 07 R281, R282). -/
def Dev.prefetchTurn (d : Dev) (t st : Nat) : Bool :=
  let a := (d.stream t st).base
  let x := d.ten t
  let r := (x.assign.getD {}).rateGbps
  let (cs, es) := d.routeOf (d.aliasDst (faNode a) (faTen a))
  (decide (r = 0) || decide (4096 ≤ bucket x.tokens x.tokenAt d.now r 8)) && ((cs ++ es).flatMap d.codePorts).all fun p => (d.readyQueues t p).isEmpty

/-- The tokens of a prefetch. -/
def Dev.spendTenant (d : Dev) (t len : Nat) : Dev :=
  let r := ((d.ten t).assign.getD {}).rateGbps
  if r = 0 then d else d.setTen t fun x => { x with tokens := bucket x.tokens x.tokenAt d.now r 8 - len, tokenAt := d.now }

/-- PREFETCH_ISSUE (R367 to R371): a free unit, or that of the line evicted next. -/
def execPrefetchIssue (t st : Nat) (s : State) : R := s.runIf (Unit.tenant t && Unit.stream st) fun d =>
  if d.stopped || d.fenced t || !d.leaseLive (d.stream t st) || !d.prefetchTurn t st then d
  else
    match d.nextLine t st with
    | none => d
    | some n =>
      if d.grantable 2 t 1 then ((d.spendTenant t 4096).fetchLine t st n).settle
      else
        match d.victim t with
        | some v => if (d.freeLine v).grantable 2 t 1 then (((d.freeLine v).countDisc v).spendTenant t 4096 |>.fetchLine t st n).settle else d
        | none => d

/-- The line that a fill names, while the device is not stopped. -/
def Dev.filled (d : Dev) (t st line : Nat) : Option Line := if d.stopped then none else d.lineAt t st line

/-- A line filled under a live lease: the reads that waited are served from it and count as hits (R359). -/
def Dev.serveLine (d : Dev) (t st : Nat) (l : Line) : Dev :=
  let d := d.setLine { l with st := if l.waiters.isEmpty then .ready else .used, waiters := [], used := d.now }
  l.waiters.foldl (fun d w =>
    (d.setStream t st fun x => { x with hit := satAdd 0x7FFFFFFF x.hit }).pieceDone w.1 w.2.1 .ok ((l.data.drop (w.2.2.1 % 4096 / 8)).take ((w.2.2.2 + 7) / 8))) d

/-- LINE_FILL_DONE (R359, R371, R374): the line serves the reads that wait for it, or is discarded. -/
def execLineFillDone (t st line : Nat) (s : State) : R := s.runIf (Unit.tenant t && Unit.stream st) fun d =>
  match d.filled t st line with
  | none => d
  | some l =>
    if l.data.isEmpty then d
    else if l.st = .doomed then (((d.forwardWaiters l).freeLine l).countDisc l).settle
    else if l.st = .fetching then
      if d.leaseLive (d.stream t st) then (d.serveLine t st l).settle
      else ((d.forwardWaiters l).setLine { l with st := .ready, waiters := [], used := d.now }).settle
    else d

/-- The held writes of a tenant are served in the order they came (R391). -/
def Dev.endHold (d : Dev) (t : Nat) : Dev :=
  (d.rm.held.filter fun x => decide (x.2.dstTen = t)).foldl (fun (d : Dev) x => d.serveReq x.1 x.2)
    { d with rm.hold := Tab.put 0 t 0 d.rm.hold, rm.held := d.rm.held.filter fun x => decide (x.2.dstTen ≠ t) }

/-- TAKEOVER_WRITE_HOLD_END (R391): the writes that waited are admitted in order. -/
def execTakeoverWriteHoldEnd (t : Nat) (s : State) : R := s.runIf (Unit.tenant t) fun d =>
  if d.stopped || decide (d.now < Tab.look 0 t d.rm.hold) then d else (d.endHold t).settle

/-- TEN_STREAM_CNT_CLR (R393): 0 hits, 1 misses, else discards. -/
def execTenStreamCntClr (t st which : Nat) (s : State) : R := s.runIf (Unit.tenant t && Unit.stream st) fun d => d.mmioTen t fun d =>
  d.setStream t st fun x => if which = 0 then { x with hit := 0 } else if which = 1 then { x with miss := 0 } else { x with disc := 0 }

end Sys2Proof.Machine
end

