-- ==== Sys2Proof/Machine/Xlate.lean ====
section
/-! DEFINITION. Translation (08): completions, pre-translation, invalidation, page requests, key ranges and the host map. -/

namespace Sys2Proof.Machine

/-- An access ends in failure: its operation ends at once, whatever else it waits for (08 R338, 07 R290). -/
def Dev.failAccess (d : Dev) (a : Access) (st : Status) : Dev :=
  (d.endAccess a st |> fun d => match a.op with | some (gq, idx) => d.endOp gq idx st | none => d)

/-- A translated access goes on, unless its operation has ended meanwhile (07 R271, R292). -/
def Dev.goOn (d : Dev) (a : Access) (e : Xent) : Dev :=
  if (match a.op with | some (gq, idx) => (d.opAt gq idx).isNone | none => false) then d.endAccess a .aborted
  else
    match (if e.permits a then d.perform a (e.pa + (a.iova - e.base)) e.sel else d.notPresent a (d.isRing a.job)) with
    | (d, some st) => d.endAccess a st
    | (d, none) => d

/-- A Translation Completion (R317, R318, R329, R336). -/
def Dev.atsDone (d : Dev) (f tag : Nat) (c : AtsCpl) : Dev :=
  match d.xlt.ats.find? fun q => decide (q.fn = f) && decide (q.tag = tag) with
  | none => d
  | some q =>
    let d := { d with xlt.ats := without q d.xlt.ats }
    let d := if q.off then d.discardRead f else d
    let some_ := !c.fail && (c.r || c.w)
    let skew := some_ && decide (c.pa.toNat % 2 ^ c.sizeLog2 ≠ 0)
    let d := d.postIf skew Src.xltAtsError 0 (fnDom f)
    let e := d.entryOf f q.pasid q.iova.toNat c
    let d :=
      match some_ && !skew, q.acc with
      | true, some a =>
        let d := if q.stale then d else
          { d with
            xlt.tlb := touch 16384 e d.xlt.tlb
            xlt.micro := if a.engine < 16 then Tab.put [] a.engine (touch 64 e (Tab.look [] a.engine d.xlt.micro)) d.xlt.micro else d.xlt.micro }
        d.goOn a e
      | true, none => if q.stale then d else { d with xlt.pre := d.xlt.pre ++ [(q.gq, q.idx, e)] }
      | false, some a =>
        match d.notPresent a (d.isRing a.job) with
        | (d, some st) => d.endAccess a st
        | (d, none) => d
      | false, none => d
    d.retryReads.retryAts

/-- ATS_TRANSLATION_COMPLETION (R317); held while stopped (21 R880). -/
def execAtsTranslationCompletion (fn tag : Nat) (c : AtsCpl) (s : State) : R :=
  s.intake (Unit.function fn) (.ats fn tag c) fun d => (d.atsDone fn tag c).settle

/-- IOVA operands of a descriptor of tenant `t`: address and length (R328). -/
def Dev.iovaOperands (d : Dev) (t : Nat) (x : Desc) : List (W64 × Nat) :=
  match x.body with
  | .dma s t n v => (if v.getLsbD 0 || x.op = 0x02 then [] else [(s, n)]) ++ (if v.getLsbD 1 then [] else [(t, n)])
  | .remote _ l n .. => if x.op = 0x12 then [] else [(l, n)]
  | .coll s dst count g fmt _ _ _ _ _ bm =>
    let total := (d.group t g).total
    (if x.op = 0x22 then [] else [(s, count * fmtBytes fmt), (dst, (shareOf x.op count total (d.self t g)).2 * fmtBytes fmt)])
      ++ if bm = 0 then [] else [(bm, 2 * ((total + 7) / 8))]
  | .vault _ l _ n _ => if x.op = 0x41 then [(l, n)] else []
  | .sem .. => []

/-- The first four 4 KiB pages an operand touches. -/
def firstPages (a n : Nat) : List Nat := (List.range (min 4 ((a % 4096 + n + 4095) / 4096))).map fun i => pageBase 12 a + 4096 * i

/-- Descriptors pre-translated ahead: PREDEPTH, at most 16 (XLT_CFG). -/
def Dev.preDepth (d : Dev) : Nat := min 16 (d.xlt.cfg.toNat % 32)

/-- A descriptor of a running queue may be pretranslated (R328): its place is below the depth and the tail. -/
def Dev.mayPre (d : Dev) (t q idx : Nat) : Bool :=
  let w := d.queue (64 * t + q)
  let ahead := (BitVec.ofNat 32 idx - w.nextStart).toNat
  !d.stopped && !d.fenced t && decide (w.st = .running) && (d.fn (t + 1)).bme && decide (ahead < d.preDepth) && decide (ahead < (w.tail - w.nextStart).toNat)

/-- The pages of its operands that no translation covers are asked for (R328, R329). -/
def Dev.pretranslate (d : Dev) (t q idx : Nat) (x : Desc) : Dev :=
  let pages := (d.iovaOperands t x).flatMap fun o => firstPages o.1.toNat o.2
  let need := pages.filter fun p =>
    !(d.xlt.tlb.any fun e => e.covers (t + 1) (some x.pasid) p) && !(d.xlt.pre.any fun e => e.2.2.covers (t + 1) (some x.pasid) p)
  let gq := 64 * t + q
  let seen := (d.queue gq).fetched.contains idx
  let d := if seen then d else (d.setQueue gq fun w => { w with fetched := w.fetched ++ [idx] }).emit (.descFetch gq idx ((d.queue gq).slotAddr idx))
  need.foldl (fun d p => d.askAts { fn := t + 1, tag := 0, pasid := some x.pasid, iova := BitVec.ofNat 64 p, gq, idx }) d

/-- PRETRANSLATE_ISSUE (R328, R329): Translation Requests for the first pages of a visible descriptor that has not started. -/
def execPretranslateIssue (t q idx : Nat) (x : Desc) (s : State) : R := s.runIf (Unit.tenant t && Unit.queueOf q) fun d =>
  if d.mayPre t q idx then d.pretranslate t q idx x else d

/-- An entry or request is covered by an invalidation (R332). -/
def covered (fn : Nat) (pasid : Option Nat) (global : Bool) (base : Nat) (len : Nat) (f : Nat) (p : Option Nat) (lo n : Nat) : Bool :=
  decide (f = fn) && (global || decide (p = pasid)) && decide (lo < base + len) && decide (base < lo + n)

/-- An invalidation drops what it covers, marks the translations being asked for, and waits for the reads outstanding on them (R332, R333, R336). -/
def Dev.invalidateXlt (d : Dev) (fn itag : Nat) (pasid : Option Nat) (global : Bool) (base : W64) (len : Nat) : Dev :=
  let hit := covered fn pasid global base.toNat len
  let tags := (d.mbx.reads.filter fun r => hit r.fn r.pasid r.iova.toNat (max 1 r.len)).map (·.tag)
  ({ d with
    xlt.ats := d.xlt.ats.map fun q => (if hit q.fn q.pasid (pageBase 12 q.iova.toNat) 4096 then { q with stale := true } else q : AtsReq)
    xlt.received := satAdd 0xFFFF d.xlt.received
    xlt.invals := d.xlt.invals ++ [{ fn, itag, pasid, global, base, len, tags }] } : Dev).forget hit

/-- ATS_INVALIDATE_REQUEST (R332, R333, R336, R345): covered entries and pre-translations go, covered Translation Requests become stale;
the completion waits for the covered reads outstanding now. -/
def execAtsInvalidateRequest (fn itag : Nat) (pasid : Option Nat) (global : Bool) (base : W64) (len : Nat) (s : State) : R :=
  s.runIf (Unit.function fn) fun d => (d.invalidateXlt fn itag pasid global base len).settle

/-- The first invalidation that all 19 units have acknowledged, in order for each function (R332 to R335). -/
def Dev.invalDone (d : Dev) : List Inval → List Nat → Option Inval
  | [], _ => none
  | i :: r, seen =>
    if !seen.contains i.fn && i.tags.all (fun t => !(d.mbx.reads.any fun x => decide (x.tag = t))) then some i else d.invalDone r (i.fn :: seen)

/-- INVALIDATION_COMPLETE (R334). -/
def execInvalidationComplete (s : State) : R := s.run fun d =>
  if d.stopped then d
  else
    match d.invalDone d.xlt.invals [] with
    | some i => ({ d with xlt.invals := without i d.xlt.invals }).emit (.invCompletion i.fn i.itag)
    | none => d

/-- A Page Request Group Response (R341): 0 success, 1 Invalid Request, else Response Failure. -/
def Dev.prgDone (d : Dev) (f prgi code : Nat) : Dev :=
  match d.xlt.pages.find? fun p => decide (p.fn = f) && decide (p.prgi = prgi) && p.sent with
  | none => d
  | some p =>
    let deny : Dev → PageReq → Dev := fun d p =>
      let live := match p.acc.op with | some (gq, idx) => (d.opAt gq idx).isSome | none => true
      ({ d with xlt.denied := if live then Tab.upd 0 f (satAdd 0x7FFF) d.xlt.denied else d.xlt.denied }).failAccess p.acc .accessDenied
    let d := d.setPages (without p d.xlt.pages)
    if code = 0 then
      let d := match p.acc.op.bind fun o => d.opAt o.1 o.2 with | some o => d.setOp { o with faults := Tab.upd 0 (p.acc.iova.toNat / 4096) (· + 1) o.faults } | none => d
      (d.askAts { fn := f, tag := 0, pasid := p.acc.pasid, iova := p.acc.iova, acc := some p.acc }).sendPages
    else if code = 1 then (deny d p).sendPages
    else
      let all := p :: d.xlt.pages.filter fun x => decide (x.fn = f)
      let d := { d.setPages (d.xlt.pages.filter fun x => decide (x.fn ≠ f)) with xlt.stopped := d.xlt.stopped ||| (1#17 <<< f) }
      (all.foldl deny d).post Src.xltPriStopped 0 (fnDom f)

/-- PRG_RESPONSE (R341); held while stopped. -/
def execPrgResponse (fn prgi code : Nat) (s : State) : R :=
  s.intake (Unit.function fn) (.prg fn prgi code) fun d => (d.prgDone fn prgi code).settle

/-- The page request that waits for an answer, while the device is not stopped. -/
def Dev.asked (d : Dev) (fn prgi : Nat) : Option PageReq :=
  if d.stopped then none else d.xlt.pages.find? fun p => decide (p.fn = fn) && decide (p.prgi = prgi) && p.sent

/-- Nanoseconds a page request waits for its response: XLT_CFG.PRI_TIMEOUT in milliseconds, at least one (R342, R346). -/
def Dev.priLimit (d : Dev) : Nat := 1000000 * max 1 (d.xlt.cfg.toNat / 2 ^ 8 % 256)

/-- PRI_TIMEOUT (R342), once the time has run out; its timer holds while stopped (21 R880). -/
def execPriTimeout (fn prgi : Nat) (s : State) : R := s.runIf (Unit.function fn) fun d =>
  match d.asked fn prgi with
  | none => d
  | some p =>
    if p.at_ + d.priLimit ≤ d.now then
      (((d.setPages (without p d.xlt.pages)).failAccess p.acc .timeout).post Src.xltPriTimeout (accUnit p.acc) (fnDom fn)).settle
    else d

/-- PRI_ENABLE_WRITE (R341): PRI Enable written to 1, a configuration write. -/
def execPriEnableWrite (fn : Nat) (s : State) : R := s.runIf (Unit.function fn) fun d => d.configReq fn fun d =>
  { d.setFn fn (fun g => { g with priEn := true }) with xlt.stopped := d.xlt.stopped &&& ~~~(1#17 <<< fn) }

/-- XLT_KEYRANGE_WRITE (R327): every cached translation of the tenant goes first. -/
def execXltKeyrangeWrite (t : Nat) (which : KeyReg) (k : Nat) (val : W32) (s : State) : R := s.runIf (Unit.tenant t && Unit.keyRange k) fun d => d.mmio 0 fun d =>
  let d := (d.setTen t fun x =>
    match which with
    | .base => { x with krBase := Tab.put 0 k val x.krBase }
    | .lim => { x with krLim := Tab.put 0 k val x.krLim }
    | .ctl => { x with krCtl := Tab.put 0 k (val &&& 0x13F) x.krCtl }
    | .keydef => { x with keydef := val &&& 0x3F }).forget fun f _ _ _ => decide (f = t + 1)
  d.settle

/-- XLT_HMAP_WRITE (R313): 0 BASE, 1 LIM, else CTL. -/
def execXltHmapWrite (which k : Nat) (val : W32) (s : State) : R := s.runIf (Unit.hmapEntry k) fun d => d.mmio 0 fun d =>
  if which = 0 then { d with xlt.hmapBase := Tab.put 0 k val d.xlt.hmapBase }
  else if which = 1 then { d with xlt.hmapLim := Tab.put 0 k val d.xlt.hmapLim }
  else { d with xlt.hmapCtl := Tab.put 0 k (val &&& 0x107) d.xlt.hmapCtl }

/-- XLT_INVCNT_CLR (R346). -/
def execXltInvcntClr (s : State) : R := s.run fun d => d.mmio 0 fun d => { d with xlt.received := 0, xlt.flushes := 0 }

/-- XLT_PRECNT_CLR (R331). -/
def execXltPrecntClr (s : State) : R := s.run fun d => d.mmio 0 fun d => { d with xlt.preUsed := 0, xlt.preDisc := 0 }

/-- XLT_PRICNT_CLR (R341). -/
def execXltPricntClr (fn : Nat) (s : State) : R := s.runIf (Unit.function fn) fun d => d.mmio 0 fun d => { d with xlt.denied := Tab.put 0 fn 0 d.xlt.denied }

end Sys2Proof.Machine
end

