-- ==== Sys2Proof/Machine/RegWrite.lean ====
section
/-! DEFINITION. REGISTER_WRITE: what a write at an offset of a function's BAR does (05 R172 to R175, 07 R298). A register that only stores its fields stores them; one with a behaviour of its own acts as the command row of that behaviour does. -/

namespace Sys2Proof.Machine

/-- A write whose effect hangs on one bit: without it, it is a memory request that changes nothing. -/
def onBit (fn : Nat) (v : W32) (b : Nat) (f : State → R) (s : State) : R := if v.getLsbD b then f s else s.run fun d => d.mmio fn id

/-- The write at an offset of an array of registers, where it has one. -/
def atReg (off base stride n : Nat) (f : Nat → State → R) : Option (State → R) := (regIndex off base stride n).map f

/-- A mailbox window (05 R173): its registers, and the command ring, whose slots hold what is written. -/
def mailboxEffect (fn off : Nat) (v : W32) : Option (State → R) :=
  let idx : W16 := BitVec.ofNat 16 v.toNat
  if off = 0x10004 then some (execMbxCtlWrite fn (v.toNat % 16) (v.toNat / 16 % 16))
  else if off = 0x10010 then some (execMbxCmdDoorbell fn idx [])
  else if off = 0x1001C then some (execMbxRspHeadWrite fn idx)
  else if off = 0x10024 then some (execMbxNtcHeadWrite fn idx)
  else if off = 0x10030 then some (onBit fn v 31 (execMbxBmstatClr fn))
  else atReg off 0x20000 4 0x4000 fun i s => s.run fun d => d.mmio fn fun d => d.setFn fn fun g => { g with cmdRing := Tab.put 0 i v g.cmdRing }

/-- A tenant page, from its function or the PF's window: only the CLR fields take a write (07 R298). -/
def tenEffect (fn t off : Nat) (v : W32) : Option (State → R) :=
  ((atReg off 0x100C 0x20 64 fun q => onBit fn v 31 (execTenQcntClr t q)).or
    (atReg off 0x1010 0x20 64 fun q => onBit fn v 31 (execTenQlateClr t q))).or
  ((atReg off 0x2000 4 128 fun i => if i % 4 = 0 then (fun s => s.run fun d => d.mmio fn id) else onBit fn v 31 (execTenStreamCntClr t (i / 4) (i % 4 - 1))).or
    (atReg off 0x3000 4 1 fun _ => onBit fn v 31 (execTenFstatClr t)))

/-- JAD, SEC, TWN, VLT, COL, CAL, DBG and FAB registers that act when written. -/
def blockEffect (off : Nat) (v : W32) : Option (State → R) :=
  if off = 0x10400 then some (onBit 0 v 7 execJadBootstatStopIgnClr)
  else if off = 0x10404 then some (execJadRstcauseClr (BitVec.ofNat 8 v.toNat))
  else if off = 0x10500 then some (onBit 0 v 1 execJadTeststatBscanClr)
  else if off = 0x60008 then some (onBit 0 v 31 execSecCntClr)
  else if off = 0x7000C then some (onBit 0 v 31 execTwnCntClr)
  else if off = 0x90020 then some (onBit 0 v 31 (execFabCntClr 0))
  else if off = 0x90024 then some (onBit 0 v 31 (execFabCntClr 1))
  else if off = 0xB0004 then some (onBit 0 v 31 execColCntClr)
  else if off = 0xC0010 then some (onBit 0 v 31 execVltCntClr)
  else if off = 0xE0004 then some (onBit 0 v 31 execCalCntClr)
  else if off = 0xE0008 then some (onBit 0 v 31 execCalCnt2Clr)
  else if off = 0xF0028 then some (onBit 0 v 31 execDbgTrstatClr)
  else if off = 0xF0030 then some (onBit 0 v 31 execDbgTlmstatClr)
  else (atReg off 0x10320 4 6 fun i => onBit 0 v 31 (execJadAindropClr i)).or (atReg off 0xD3100 4 64 fun p => onBit 0 v 31 (execWalCntClr p))

/-- FLT and FCT registers that act when written (20 R851, 04 R162). -/
def faultEffect (off : Nat) (v : W32) : Option (State → R) :=
  if off = 0x40000 then some (execFltCfgWrite v)
  else if off = 0x40004 then some (onBit 0 v 5 execFltStatSevRejClr)
  else if off = 0x40008 then some (onBit 0 v 0 execFltAckAll)
  else if off = 0x4000C then some (onBit 0 v 0 execFltInclclr)
  else (atReg off 0x40100 4 32 fun w => execFltSevWrite w v).or ((atReg off 0x3000C 0x1000 8 fun p => onBit 0 v 31 (execFctRetryClr p)).or
    (if off < 0x38000 then atReg (off % 0x1000) 0x200 4 32 fun c => onBit 0 v 31 (execFctPerrClr ((off - 0x30000) / 0x1000) c) else none))

/-- XLT registers that act when written (08 R346). -/
def xltEffect (off : Nat) (v : W32) : Option (State → R) :=
  if off = 0x14 then some (onBit 0 v 31 execXltInvcntClr)
  else if off = 0x18 then some (onBit 0 v 31 execXltPrecntClr)
  else if off < 0x1000 then
    (atReg off 0x200 4 17 fun f => onBit 0 v 31 (execXltPricntClr f)).or
      (atReg off 0x100 4 64 fun i => if i % 4 < 3 then execXltHmapWrite (i % 4) (i / 4) v else fun s => s.run fun d => d.mmio 0 id)
  else
    let t := (off - 0x1000) / 0x100
    (atReg (off % 0x100) 0x80 4 1 fun _ => execXltKeyrangeWrite t .keydef 0 v).or
      (atReg (off % 0x100) 0 4 32 fun i =>
        match i % 4 with
        | 0 => execXltKeyrangeWrite t .base (i / 4) v
        | 1 => execXltKeyrangeWrite t .lim (i / 4) v
        | 2 => execXltKeyrangeWrite t .ctl (i / 4) v
        | _ => fun s => s.run fun d => d.mmio 0 id)

/-- LNK and BRL registers that act when written (12 R546, 13 R577). -/
def opticsEffect (off : Nat) (v : W32) : Option (State → R) :=
  ((atReg off 0x100008 0x1000 64 fun p => onBit 0 v 31 (execLnkRetryClr p)).or (atReg off 0x10000C 0x1000 64 fun p => onBit 0 v 31 (execLnkErrClr p))).or
  ((atReg off 0x100020 0x1000 64 fun p => onBit 0 v 31 (execLnkFeccorClr p)).or
    ((atReg off 0x180000 0x10000 4 fun b => execBrlLcfgWrite b v).or (atReg off 0x180008 0x10000 4 fun b => onBit 0 v 0 (execBrlSyncGo b))))

/-- A write of the PF's BAR0 with an effect of its own (05 R174); the doorbell alias takes none (07 R298). -/
def pfEffect (off : Nat) (v : W32) : Option (State → R) :=
  if off < 0x100000 then
    (if 0x80000 ≤ off ∧ off < 0x82000 then xltEffect (off - 0x80000) v
     else if 0x30000 ≤ off ∧ off < 0x50000 then faultEffect off v
     else blockEffect off v)
  else if off < 0x400000 then opticsEffect off v
  else if off < 0x500000 then tenEffect 0 ((off - 0x400000) / 0x10000) (off % 0x10000) v
  else if 0x800000 ≤ off ∧ off < 0x900000 then mailboxEffect 0 (off - 0x800000) v
  else none

/-- A write of a VF's BAR0 with an effect (05 R173, 07 R298): the CLR fields of its tenant page, its mailbox, and its doorbells. -/
def vfEffect (t off : Nat) (v : W32) : Option (State → R) :=
  if off < 0x10000 then tenEffect (t + 1) t off v
  else if 0x80000 ≤ off then atReg off 0x80000 0x1000 64 fun q => execTenDbtailWrite t q v
  else mailboxEffect (t + 1) off v

/-- The fields of a register of the PF that only stores them. -/
def Dev.storePf (d : Dev) (off : Nat) (v : W32) : Dev :=
  match (d.storeTransport off v).or ((d.storeOptics off v).or (d.storeDevice off v)) with
  | some d => d.settle
  | none => d

/-- REGISTER_WRITE (R14, 05 R172 to R175): a write of BAR2 stores a word of the function's MSI-X table, and vectors it unmasks are sent; one of BAR0
acts, or stores the fields of the register, reserved bits apart. A write of a reserved offset is discarded. -/
def execRegisterWrite (fn : Nat) (bar2 : Bool) (off : Nat) (val : W32) (s : State) : R :=
  if bar2 then s.runIf (Unit.function fn) fun d => d.mmio fn fun d => (d.setFn fn fun g => g.storeMsix off val).flushVecs fn
  else
    match (if fn = 0 then pfEffect off val else if Unit.function fn then vfEffect (fn - 1) off val else none) with
    | some f => f s
    | none => s.runIf (Unit.function fn) fun d => d.mmio fn fun d => if fn = 0 then d.storePf off val else d

end Sys2Proof.Machine
end

