-- ==== Sys2Proof/Machine/TwinWire.lean ====
section
/-! DEFINITION. The bytes of Twin messages (18 R753, R754, R762, R777), and what a received message does. -/

namespace Sys2Proof.Machine

/-- A Twin message on its VC (R753): MTYPE, TENANT, LEN, SEQ, AUX, and the body. -/
def TwinMsg.bytes (m : TwinMsg) : List Byte :=
  leBytes 1 m.mtype ++ leBytes 1 m.tenant ++ leBytes 2 m.body.length ++ leBytes 4 m.seq ++ leBytes 8 m.aux ++ m.body

/-- A Twin message as it is read from the byte stream of its VC, and what follows it (R505, R753). -/
def readTwin (b : List Byte) : TwinMsg × List Byte :=
  let n := field b 2 2
  ({ mtype := field b 0 1, tenant := field b 1 1, seq := field b 4 4, aux := field b 8 8, body := (b.drop 16).take n }, b.drop (16 + n))

/-- The VC of a message (R753). -/
def twinVc (mtype : Nat) : Nat := if mtype < 0x10 then 0 else if mtype < 0x20 then 1 else 2

/-- The message that the egress of the Twin port takes next (R777): VC0 first, VC1 next, VC2 last, in order within a VC. -/
def twinNext (q : List TwinMsg) : Option TwinMsg :=
  ((q.find? fun m => decide (twinVc m.mtype = 0)).or (q.find? fun m => decide (twinVc m.mtype = 1))).or q.head?

/-- The entries of a JRNL body (R762): 16 bytes each, with the continuation slots that CONT counts. -/
def readEntries : Nat → List Byte → List JEntry
  | 0, _ => []
  | n + 1, b =>
    if b.length < 16 then []
    else
      let k := field b 2 1
      { kind := field b 0 1, tenant := field b 1 1, ref := BitVec.ofNat 32 (field b 4 4), value := BitVec.ofNat 64 (field b 8 8)
        cont := bytesWords (2 * k) ((b.drop 16).take (16 * k)) } :: readEntries n (b.drop (16 + 16 * k))

/-- The numbers of the bits set in a bitmap. -/
def readBits (b : List Byte) : List Nat := (List.range (8 * b.length)).filter fun i => (b.getD (i / 8) 0).getLsbD (i % 8)

/-- PAIR as it is read from its body; whether the assignments fit is not in it (log 36). -/
def readPair (b : List Byte) (fits : Bool) : PairMsg :=
  { ident := BitVec.ofNat 64 (field b 0 8), pkgid := field b 8 2, side := decide (field b 10 1 = 1), oxMaj := BitVec.ofNat 8 (field b 11 1)
    fwVer := BitVec.ofNat 32 (field b 12 4), served := BitVec.ofNat 16 (field b 16 2), semuse := readBits ((b.drop 18).take 32), fits }

/-- A seal record as VSEAL carries it (log 172). -/
def readSeal (b : List Byte) : SealMsg :=
  let n := field b 2 1
  let k := field b 3 1
  { tag := BitVec.ofNat 64 (field b 16 8), time := BitVec.ofNat 64 (field b 24 8)
    regions := (List.range n).map fun i => (field b (32 + 16 * i) 1, BitVec.ofNat 64 (field b (40 + 16 * i) 8))
    base := ((List.range k).drop 1).map fun i => BitVec.ofNat 64 (field b (32 + 16 * n + 8 * i) 8) }

/-- What a received message does (R753): each type is the command of its row. SNAP's body has no stated form (log 34), and a message of an unknown
type does what R754 says in the flit it arrives in (log 108). -/
def TwinMsg.run (m : TwinMsg) (fits : Bool) (s : State) : R :=
  let region := m.aux % 256
  let mid := m.aux / 2 ^ 16 % 2 ^ 16
  let granule := m.aux / 2 ^ 32
  let epoch := BitVec.ofNat 64 (field m.body 0 8)
  let data := bytesWords 512 (m.body.drop 8)
  match m.mtype with
  | 0x01 => execTwnPair (readPair m.body fits) s
  | 0x02 => execTwnBeat (m.aux % 256) granule s
  | 0x03 => execTwnDown (m.aux % 256) s
  | 0x10 => execTwnJrnl m.aux (readEntries m.body.length m.body) s
  | 0x11 => execTwnJack m.aux s
  | 0x20 => execTwnVput m.tenant region granule mid epoch data s
  | 0x21 => execTwnVack m.tenant region granule epoch (decide (mid = 0)) s
  | 0x22 => execTwnVseal m.tenant (BitVec.ofNat 64 m.aux) (readSeal m.body) s
  | 0x23 => execTwnVsealack m.tenant (BitVec.ofNat 64 m.aux) (decide (field m.body 0 2 = 0)) s
  | 0x24 => execTwnVdrop m.tenant (BitVec.ofNat 64 m.aux) s
  | 0x25 => execTwnVread m.tenant region granule epoch s
  | 0x26 => execTwnVdata m.tenant region granule mid epoch data s
  | _ => .next s

end Sys2Proof.Machine
end

