-- ==== Sys2Proof/Machine/Dispatch.lean ====
section
/-! DEFINITION. The dispatch: one arm for each command of spec/opcode_table.json, each one direct call of the command's meaning. -/

namespace Sys2Proof.Machine

/-- The effect of a command on everything but the queue. -/
def exec (i : Instr) (s : State) : Host.Outcome State Fault Refusal :=
  match i with
  | .aoRailsUp => Sys2Proof.Machine.execAoRailsUp s
  | .prRelease st => Sys2Proof.Machine.execPrRelease st s
  | .pwrOkRise => Sys2Proof.Machine.execPwrOkRise s
  | .pwrOkFall ns => Sys2Proof.Machine.execPwrOkFall ns s
  | .railFail rail => Sys2Proof.Machine.execRailFail rail s
  | .powerlossHoldupEnd => Sys2Proof.Machine.execPowerlossHoldupEnd s
  | .pwrOkLate => Sys2Proof.Machine.execPwrOkLate s
  | .pwrReqRetry => Sys2Proof.Machine.execPwrReqRetry s
  | .pllLock => Sys2Proof.Machine.execPllLock s
  | .refclkWindowCheck count => Sys2Proof.Machine.execRefclkWindowCheck count s
  | .refclkPpmCheck ppm => Sys2Proof.Machine.execRefclkPpmCheck ppm s
  | .xtalFail => Sys2Proof.Machine.execXtalFail s
  | .rcTrim => Sys2Proof.Machine.execRcTrim s
  | .stopReqEvent ns => Sys2Proof.Machine.execStopReqEvent ns s
  | .thermInOnset ns => Sys2Proof.Machine.execThermInOnset ns s
  | .thermInRelease => Sys2Proof.Machine.execThermInRelease s
  | .faultAckEdge ns => Sys2Proof.Machine.execFaultAckEdge ns s
  | .timePpsEdge ns => Sys2Proof.Machine.execTimePpsEdge ns s
  | .twinAliveEdge ns => Sys2Proof.Machine.execTwinAliveEdge ns s
  | .twinAliveTimeout => Sys2Proof.Machine.execTwinAliveTimeout s
  | .asyncStuckTimeout y => Sys2Proof.Machine.execAsyncStuckTimeout y s
  | .asyncUnmask y => Sys2Proof.Machine.execAsyncUnmask y s
  | .asyncRateFault y => Sys2Proof.Machine.execAsyncRateFault y s
  | .twinAliveOutToggle => Sys2Proof.Machine.execTwinAliveOutToggle s
  | .domainStepDone => Sys2Proof.Machine.execDomainStepDone s
  | .identityCollect reads => Sys2Proof.Machine.execIdentityCollect reads s
  | .slotLoad readable => Sys2Proof.Machine.execSlotLoad readable s
  | .slotVerify => Sys2Proof.Machine.execSlotVerify s
  | .selftestPreop passed => Sys2Proof.Machine.execSelftestPreop passed s
  | .bootWatchdog => Sys2Proof.Machine.execBootWatchdog s
  | .hostReadyEntry => Sys2Proof.Machine.execHostReadyEntry s
  | .bringupItemStart item => Sys2Proof.Machine.execBringupItemStart item s
  | .fabricReadyEntry => Sys2Proof.Machine.execFabricReadyEntry s
  | .perstAssert => Sys2Proof.Machine.execPerstAssert s
  | .perstDeassert => Sys2Proof.Machine.execPerstDeassert s
  | .pcieFlrPf => Sys2Proof.Machine.execPcieFlrPf s
  | .pcieFlrVf t => Sys2Proof.Machine.execPcieFlrVf t s
  | .flrReadsDrained fn => Sys2Proof.Machine.execFlrReadsDrained fn s
  | .deviceReset cause => Sys2Proof.Machine.execDeviceReset cause s
  | .trQuiesceDone t => Sys2Proof.Machine.execTrQuiesceDone t s
  | .trScrubDone t => Sys2Proof.Machine.execTrScrubDone t s
  | .pcieConfigAccess fn write field val => Sys2Proof.Machine.execPcieConfigAccess fn write field val s
  | .pcieLinkTrain gts width => Sys2Proof.Machine.execPcieLinkTrain gts width s
  | .pcieAerError correctable bit => Sys2Proof.Machine.execPcieAerError correctable bit s
  | .pcieReadCompletion fn tag ok data => Sys2Proof.Machine.execPcieReadCompletion fn tag ok data s
  | .pcieCompletionTimeout fn tag => Sys2Proof.Machine.execPcieCompletionTimeout fn tag s
  | .bmeClear fn => Sys2Proof.Machine.execBmeClear fn s
  | .bmeSet fn => Sys2Proof.Machine.execBmeSet fn s
  | .priEnableWrite fn => Sys2Proof.Machine.execPriEnableWrite fn s
  | .facetFlitRx p f => Sys2Proof.Machine.execFacetFlitRx p f s
  | .facetAckTimeout p => Sys2Proof.Machine.execFacetAckTimeout p s
  | .facetHr p => Sys2Proof.Machine.execFacetHr p s
  | .facetHrHoldExpiry p => Sys2Proof.Machine.execFacetHrHoldExpiry p s
  | .facetKLock p => Sys2Proof.Machine.execFacetKLock p s
  | .facetLanesIdentified p desig reversed misid skew => Sys2Proof.Machine.execFacetLanesIdentified p desig reversed misid skew s
  | .facetCentreDone p sweeps badKT => Sys2Proof.Machine.execFacetCentreDone p sweeps badKT s
  | .facetLaneRes p copies maps => Sys2Proof.Machine.execFacetLaneRes p copies maps s
  | .facetNeg p copies rev feat => Sys2Proof.Machine.execFacetNeg p copies rev feat s
  | .facetCrd p copies mem coh irq dbg => Sys2Proof.Machine.execFacetCrd p copies mem coh irq dbg s
  | .facetReady p copies => Sys2Proof.Machine.execFacetReady p copies s
  | .facetTrainTimeout p => Sys2Proof.Machine.execFacetTrainTimeout p s
  | .facetLaneWindow p errs => Sys2Proof.Machine.execFacetLaneWindow p errs s
  | .facetRepairReq p c lane spare => Sys2Proof.Machine.execFacetRepairReq p c lane spare s
  | .facetRepairAt p c n => Sys2Proof.Machine.execFacetRepairAt p c n s
  | .facetRepairCycleN p c => Sys2Proof.Machine.execFacetRepairCycleN p c s
  | .facetRepairTake p c => Sys2Proof.Machine.execFacetRepairTake p c s
  | .facetRepairRelease p c => Sys2Proof.Machine.execFacetRepairRelease p c s
  | .facetMaskReq p c => Sys2Proof.Machine.execFacetMaskReq p c s
  | .facetMaskAt p c m => Sys2Proof.Machine.execFacetMaskAt p c m s
  | .facetMaskCycle p c => Sys2Proof.Machine.execFacetMaskCycle p c s
  | .innerClusterFail n c toDie => Sys2Proof.Machine.execInnerClusterFail n c toDie s
  | .facetMsgRd p m => Sys2Proof.Machine.execFacetMsgRd p m s
  | .facetMsgWr p m => Sys2Proof.Machine.execFacetMsgWr p m s
  | .facetMsgWrp p m => Sys2Proof.Machine.execFacetMsgWrp p m s
  | .facetMsgAtom p m => Sys2Proof.Machine.execFacetMsgAtom p m s
  | .facetMsgAtomp p m => Sys2Proof.Machine.execFacetMsgAtomp p m s
  | .facetMsgCpl p tag tenant status => Sys2Proof.Machine.execFacetMsgCpl p tag tenant status s
  | .facetMsgCpld p tag tenant status data => Sys2Proof.Machine.execFacetMsgCpld p tag tenant status data s
  | .facetCohGet p w => Sys2Proof.Machine.execFacetCohGet p w s
  | .facetCohInvack p w => Sys2Proof.Machine.execFacetCohInvack p w s
  | .facetCohDrop p w => Sys2Proof.Machine.execFacetCohDrop p w s
  | .cohInvackTimeout p w => Sys2Proof.Machine.execCohInvackTimeout p w s
  | .facetTimestampRx p ftime valid => Sys2Proof.Machine.execFacetTimestampRx p ftime valid s
  | .sidebandCommand p h => Sys2Proof.Machine.execSidebandCommand p h s
  | .mbxCmdDoorbell fn tail msgs => Sys2Proof.Machine.execMbxCmdDoorbell fn tail msgs s
  | .mbxRspHeadWrite fn idx => Sys2Proof.Machine.execMbxRspHeadWrite fn idx s
  | .mbxNtcHeadWrite fn idx => Sys2Proof.Machine.execMbxNtcHeadWrite fn idx s
  | .mbxCtlWrite fn irq ntc => Sys2Proof.Machine.execMbxCtlWrite fn irq ntc s
  | .mctpMessage addr pec m => Sys2Proof.Machine.execMctpMessage addr pec m s
  | .conikStepSelect fwWork => Sys2Proof.Machine.execConikStepSelect fwWork s
  | .oxsumUnknownOpcode r opcode => Sys2Proof.Machine.execOxsumUnknownOpcode r opcode s
  | .devVersion r => Sys2Proof.Machine.execDevVersion r s
  | .devOpcodes r group => Sys2Proof.Machine.execDevOpcodes r group s
  | .devStatus r => Sys2Proof.Machine.execDevStatus r s
  | .devIdentity r => Sys2Proof.Machine.execDevIdentity r s
  | .devReset r mode => Sys2Proof.Machine.execDevReset r mode s
  | .devResetApply => Sys2Proof.Machine.execDevResetApply s
  | .flashWrite r slot final offset data => Sys2Proof.Machine.execFlashWrite r slot final offset data s
  | .flashEraseDone => Sys2Proof.Machine.execFlashEraseDone s
  | .flashFinalCheck => Sys2Proof.Machine.execFlashFinalCheck s
  | .flashRead r slot offset dlen => Sys2Proof.Machine.execFlashRead r slot offset dlen s
  | .fwActivate r slot => Sys2Proof.Machine.execFwActivate r slot s
  | .fwConfirm r => Sys2Proof.Machine.execFwConfirm r s
  | .hportReset r port => Sys2Proof.Machine.execHportReset r port s
  | .tenAssign r a => Sys2Proof.Machine.execTenAssign r a s
  | .tenRelease r => Sys2Proof.Machine.execTenRelease r s
  | .tenBind r ports => Sys2Proof.Machine.execTenBind r ports s
  | .tenQuery r => Sys2Proof.Machine.execTenQuery r s
  | .tenReset r => Sys2Proof.Machine.execTenReset r s
  | .tenExport r base size pasid xflags => Sys2Proof.Machine.execTenExport r base size pasid xflags s
  | .qCreate r q => Sys2Proof.Machine.execQCreate r q s
  | .qDestroy r q => Sys2Proof.Machine.execQDestroy r q s
  | .qStart r q => Sys2Proof.Machine.execQStart r q s
  | .qStop r q smode => Sys2Proof.Machine.execQStop r q smode s
  | .qAbort r q desc => Sys2Proof.Machine.execQAbort r q desc s
  | .qQuery r q => Sys2Proof.Machine.execQQuery r q s
  | .xltFlush r pasid fflags => Sys2Proof.Machine.execXltFlush r pasid fflags s
  | .streamDeclare r stream base span pageLog2 depth => Sys2Proof.Machine.execStreamDeclare r stream base span pageLog2 depth s
  | .streamWithdraw r stream => Sys2Proof.Machine.execStreamWithdraw r stream s
  | .fabStatus r => Sys2Proof.Machine.execFabStatus r s
  | .fabSetPkgid r pkgid => Sys2Proof.Machine.execFabSetPkgid r pkgid s
  | .fabTimeSet r ftime tflags => Sys2Proof.Machine.execFabTimeSet r ftime tflags s
  | .fabRouteWrite r first entries => Sys2Proof.Machine.execFabRouteWrite r first entries s
  | .fabTrunk r trunk ports => Sys2Proof.Machine.execFabTrunk r trunk ports s
  | .linkReset r port => Sys2Proof.Machine.execLinkReset r port s
  | .colGroupSet r group total first members => Sys2Proof.Machine.execColGroupSet r group total first members s
  | .colGroupDrop r group => Sys2Proof.Machine.execColGroupDrop r group s
  | .colStatus r group => Sys2Proof.Machine.execColStatus r group s
  | .semRead r index => Sys2Proof.Machine.execSemRead r index s
  | .semWrite r index value => Sys2Proof.Machine.execSemWrite r index value s
  | .vltShadowAdd r region base size pasid => Sys2Proof.Machine.execVltShadowAdd r region base size pasid s
  | .vltShadowRemove r region => Sys2Proof.Machine.execVltShadowRemove r region s
  | .vltSeal r tag => Sys2Proof.Machine.execVltSeal r tag s
  | .vltRestore r epoch source => Sys2Proof.Machine.execVltRestore r epoch source s
  | .vltQuery r => Sys2Proof.Machine.execVltQuery r s
  | .vltEpochDrop r epoch => Sys2Proof.Machine.execVltEpochDrop r epoch s
  | .vltRawErase r die block => Sys2Proof.Machine.execVltRawErase r die block s
  | .vltRawProgram r die plane block page pattern => Sys2Proof.Machine.execVltRawProgram r die plane block page pattern s
  | .vltRawRead r die plane block page offset dlen => Sys2Proof.Machine.execVltRawRead r die plane block page offset dlen s
  | .twnEnable r on => Sys2Proof.Machine.execTwnEnable r on s
  | .twnStatus r => Sys2Proof.Machine.execTwnStatus r s
  | .twnRejoin r => Sys2Proof.Machine.execTwnRejoin r s
  | .twnTakeover r => Sys2Proof.Machine.execTwnTakeover r s
  | .secStatus r => Sys2Proof.Machine.execSecStatus r s
  | .secSelftest r => Sys2Proof.Machine.execSecSelftest r s
  | .secZeroise r confirm => Sys2Proof.Machine.execSecZeroise r confirm s
  | .secRekey r port => Sys2Proof.Machine.execSecRekey r port s
  | .secAuthBegin r role => Sys2Proof.Machine.execSecAuthBegin r role s
  | .secAuthFinish r role sig => Sys2Proof.Machine.execSecAuthFinish r role sig s
  | .dbgStop r scope ftime => Sys2Proof.Machine.execDbgStop r scope ftime s
  | .dbgResume r => Sys2Proof.Machine.execDbgResume r s
  | .dbgWaitfor r first => Sys2Proof.Machine.execDbgWaitfor r first s
  | .dbgQsnap r q => Sys2Proof.Machine.execDbgQsnap r q s
  | .dbgTensorDump r layer operator stp dest maxlen => Sys2Proof.Machine.execDbgTensorDump r layer operator stp dest maxlen s
  | .cntRead r set first num => Sys2Proof.Machine.execCntRead r set first num s
  | .tlmExport r dest period => Sys2Proof.Machine.execTlmExport r dest period s
  | .optPolish r port lambda => Sys2Proof.Machine.execOptPolish r port lambda s
  | .optLustre r port => Sys2Proof.Machine.execOptLustre r port s
  | .walMap r port => Sys2Proof.Machine.execWalMap r port s
  | .walMove r port lane lambda => Sys2Proof.Machine.execWalMove r port lane lambda s
  | .lasSwap r ruby pos => Sys2Proof.Machine.execLasSwap r ruby pos s
  | .lasStatus r ruby => Sys2Proof.Machine.execLasStatus r ruby s
  | .pwrSet r state => Sys2Proof.Machine.execPwrSet r state s
  | .pwrDarkPorts r mask => Sys2Proof.Machine.execPwrDarkPorts r mask s
  | .thmRead r => Sys2Proof.Machine.execThmRead r s
  | .thmLimits r sensor warn rise => Sys2Proof.Machine.execThmLimits r sensor warn rise s
  | .tenDbtailWrite t q n => Sys2Proof.Machine.execTenDbtailWrite t q n s
  | .descStart t q d => Sys2Proof.Machine.execDescStart t q d s
  | .opCopy gq idx => Sys2Proof.Machine.execOpCopy gq idx s
  | .opFill gq idx => Sys2Proof.Machine.execOpFill gq idx s
  | .opGet gq idx => Sys2Proof.Machine.execOpGet gq idx s
  | .opPut gq idx => Sys2Proof.Machine.execOpPut gq idx s
  | .opAtomic gq idx => Sys2Proof.Machine.execOpAtomic gq idx s
  | .opAllreduce gq idx => Sys2Proof.Machine.execOpAllreduce gq idx s
  | .opReduceScatter gq idx => Sys2Proof.Machine.execOpReduceScatter gq idx s
  | .opBarrier gq idx => Sys2Proof.Machine.execOpBarrier gq idx s
  | .opSemAtomic gq idx => Sys2Proof.Machine.execOpSemAtomic gq idx s
  | .opSemWait gq idx => Sys2Proof.Machine.execOpSemWait gq idx s
  | .opSemRead gq idx => Sys2Proof.Machine.execOpSemRead gq idx s
  | .opFlush gq idx => Sys2Proof.Machine.execOpFlush gq idx s
  | .opEpochRead gq idx => Sys2Proof.Machine.execOpEpochRead gq idx s
  | .segmentIssue egress => Sys2Proof.Machine.execSegmentIssue egress s
  | .txnTimeout gq idx serial => Sys2Proof.Machine.execTxnTimeout gq idx serial s
  | .bufferUnitFree pool t => Sys2Proof.Machine.execBufferUnitFree pool t s
  | .serialQuarantineEnd gq serial => Sys2Proof.Machine.execSerialQuarantineEnd gq serial s
  | .atsTranslationCompletion fn tag c => Sys2Proof.Machine.execAtsTranslationCompletion fn tag c s
  | .pretranslateIssue t q idx d => Sys2Proof.Machine.execPretranslateIssue t q idx d s
  | .atsInvalidateRequest fn itag pasid global base len => Sys2Proof.Machine.execAtsInvalidateRequest fn itag pasid global base len s
  | .invalidationComplete => Sys2Proof.Machine.execInvalidationComplete s
  | .prgResponse fn prgi code => Sys2Proof.Machine.execPrgResponse fn prgi code s
  | .priTimeout fn prgi => Sys2Proof.Machine.execPriTimeout fn prgi s
  | .xltKeyrangeWrite t which k val => Sys2Proof.Machine.execXltKeyrangeWrite t which k val s
  | .xltHmapWrite which k val => Sys2Proof.Machine.execXltHmapWrite which k val s
  | .targetWriteAck path => Sys2Proof.Machine.execTargetWriteAck path s
  | .ownerWriteAck src gq serial => Sys2Proof.Machine.execOwnerWriteAck src gq serial s
  | .subctlSubscribe k stream span => Sys2Proof.Machine.execSubctlSubscribe k stream span s
  | .subctlGrant k stream expiry => Sys2Proof.Machine.execSubctlGrant k stream expiry s
  | .subctlRefuse k stream reason => Sys2Proof.Machine.execSubctlRefuse k stream reason s
  | .subctlRenew k stream expiry => Sys2Proof.Machine.execSubctlRenew k stream expiry s
  | .subctlInval k stream span => Sys2Proof.Machine.execSubctlInval k stream span s
  | .subctlInvack k stream => Sys2Proof.Machine.execSubctlInvack k stream s
  | .subctlBreak k stream => Sys2Proof.Machine.execSubctlBreak k stream s
  | .subctlUnsub k stream => Sys2Proof.Machine.execSubctlUnsub k stream s
  | .leaseRenewTimer => Sys2Proof.Machine.execLeaseRenewTimer s
  | .leaseExpiry t x => Sys2Proof.Machine.execLeaseExpiry t x s
  | .subscribeRetry => Sys2Proof.Machine.execSubscribeRetry s
  | .prefetchIssue t x => Sys2Proof.Machine.execPrefetchIssue t x s
  | .lineFillDone t x line => Sys2Proof.Machine.execLineFillDone t x line s
  | .takeoverWriteHoldEnd t => Sys2Proof.Machine.execTakeoverWriteHoldEnd t s
  | .collContrib m => Sys2Proof.Machine.execCollContrib m s
  | .collPartial m => Sys2Proof.Machine.execCollPartial m s
  | .collClose m => Sys2Proof.Machine.execCollClose m s
  | .collCloseAck m => Sys2Proof.Machine.execCollCloseAck m s
  | .collFinal m f => Sys2Proof.Machine.execCollFinal m f s
  | .collLeave m status => Sys2Proof.Machine.execCollLeave m status s
  | .collCarry m => Sys2Proof.Machine.execCollCarry m s
  | .collDeadline t g k => Sys2Proof.Machine.execCollDeadline t g k s
  | .collGraceTimeout t g k => Sys2Proof.Machine.execCollGraceTimeout t g k s
  | .collDropTimeout t g => Sys2Proof.Machine.execCollDropTimeout t g s
  | .reduceFoldStep e => Sys2Proof.Machine.execReduceFoldStep e s
  | .semWaitResend => Sys2Proof.Machine.execSemWaitResend s
  | .helloSend => Sys2Proof.Machine.execHelloSend s
  | .neighbourTimeout p => Sys2Proof.Machine.execNeighbourTimeout p s
  | .packetForward t k => Sys2Proof.Machine.execPacketForward t k s
  | .pktRd k => Sys2Proof.Machine.execPktRd k s
  | .pktWr k => Sys2Proof.Machine.execPktWr k s
  | .pktWrp k => Sys2Proof.Machine.execPktWrp k s
  | .pktAtom k => Sys2Proof.Machine.execPktAtom k s
  | .pktAtomp k => Sys2Proof.Machine.execPktAtomp k s
  | .pktRsp k status => Sys2Proof.Machine.execPktRsp k status s
  | .pktSem k r => Sys2Proof.Machine.execPktSem k r s
  | .pktSteer k tenant side => Sys2Proof.Machine.execPktSteer k tenant side s
  | .pktCnp k gq => Sys2Proof.Machine.execPktCnp k gq s
  | .pktHello p h => Sys2Proof.Machine.execPktHello p h s
  | .pktTsync p t1 reply => Sys2Proof.Machine.execPktTsync p t1 reply s
  | .escapeTimeout n => Sys2Proof.Machine.execEscapeTimeout n s
  | .congestionRecovery => Sys2Proof.Machine.execCongestionRecovery s
  | .tsyncExchange => Sys2Proof.Machine.execTsyncExchange s
  | .timeLockLoss => Sys2Proof.Machine.execTimeLockLoss s
  | .linkFlitRx p f => Sys2Proof.Machine.execLinkFlitRx p f s
  | .linkAckTimeout p => Sys2Proof.Machine.execLinkAckTimeout p s
  | .retryBudgetExpiry p => Sys2Proof.Machine.execRetryBudgetExpiry p s
  | .skipSlotRx p lanes => Sys2Proof.Machine.execSkipSlotRx p lanes s
  | .linkLightLock p locked copies w => Sys2Proof.Machine.execLinkLightLock p locked copies w s
  | .identCheckDone p checks => Sys2Proof.Machine.execIdentCheckDone p checks s
  | .ts1Rx p w => Sys2Proof.Machine.execTs1Rx p w s
  | .ts2Rx p w => Sys2Proof.Machine.execTs2Rx p w s
  | .ts3Rx p w => Sys2Proof.Machine.execTs3Rx p w s
  | .linkStateTimeout p => Sys2Proof.Machine.execLinkStateTimeout p s
  | .linkFailedRetry p => Sys2Proof.Machine.execLinkFailedRetry p s
  | .linkResetEvent p => Sys2Proof.Machine.execLinkResetEvent p s
  | .lmgtRetract p vc seq => Sys2Proof.Machine.execLmgtRetract p vc seq s
  | .lmgtRekeyReady p par => Sys2Proof.Machine.execLmgtRekeyReady p par s
  | .rekeyThreshold p => Sys2Proof.Machine.execRekeyThreshold p s
  | .rekeyOverdue p => Sys2Proof.Machine.execRekeyOverdue p s
  | .ringEnable b r => Sys2Proof.Machine.execRingEnable b r s
  | .ringSeekDone b r found code => Sys2Proof.Machine.execRingSeekDone b r found code s
  | .ringFilterOutput b r o => Sys2Proof.Machine.execRingFilterOutput b r o s
  | .ringTrackTimeout b r => Sys2Proof.Machine.execRingTrackTimeout b r s
  | .ringLightChange b r tap => Sys2Proof.Machine.execRingLightChange b r tap s
  | .brlSyncGo b => Sys2Proof.Machine.execBrlSyncGo b s
  | .brlLcfgWrite b val => Sys2Proof.Machine.execBrlLcfgWrite b val s
  | .heaterScanDone b g x => Sys2Proof.Machine.execHeaterScanDone b g x s
  | .heaterRampStep b r => Sys2Proof.Machine.execHeaterRampStep b r s
  | .rxCorrectionApply p k => Sys2Proof.Machine.execRxCorrectionApply p k s
  | .laserRampEnd j mpd => Sys2Proof.Machine.execLaserRampEnd j mpd s
  | .laserMonitorSample j m => Sys2Proof.Machine.execLaserMonitorSample j m s
  | .laserRetryTimer j => Sys2Proof.Machine.execLaserRetryTimer j s
  | .laserPowerLoop j m => Sys2Proof.Machine.execLaserPowerLoop j m s
  | .laserPositionLit n k => Sys2Proof.Machine.execLaserPositionLit n k s
  | .laserSwapAdvance n k => Sys2Proof.Machine.execLaserSwapAdvance n k s
  | .laserDisableWire n => Sys2Proof.Machine.execLaserDisableWire n s
  | .rubyLinkSilent n => Sys2Proof.Machine.execRubyLinkSilent n s
  | .moveStart p => Sys2Proof.Machine.execMoveStart p s
  | .walNext p dest => Sys2Proof.Machine.execWalNext p dest s
  | .walMoveAt p lane from_ dest slot => Sys2Proof.Machine.execWalMoveAt p lane from_ dest slot s
  | .moveSlotN p => Sys2Proof.Machine.execMoveSlotN p s
  | .moveAlignDone p slot => Sys2Proof.Machine.execMoveAlignDone p slot s
  | .walReady p lane dest slot => Sys2Proof.Machine.execWalReady p lane dest slot s
  | .moveReleaseSlot p => Sys2Proof.Machine.execMoveReleaseSlot p s
  | .walDone p lane from_ slot => Sys2Proof.Machine.execWalDone p lane from_ slot s
  | .walReq p lane from_ dest => Sys2Proof.Machine.execWalReq p lane from_ dest s
  | .walReqNow p lane from_ => Sys2Proof.Machine.execWalReqNow p lane from_ s
  | .walNak p lane from_ reason => Sys2Proof.Machine.execWalNak p lane from_ reason s
  | .walCancel p lane => Sys2Proof.Machine.execWalCancel p lane s
  | .walRxuse p bitmap => Sys2Proof.Machine.execWalRxuse p bitmap s
  | .moveAbandon p => Sys2Proof.Machine.execMoveAbandon p s
  | .polishStart b => Sys2Proof.Machine.execPolishStart b s
  | .polishScanDone ch r => Sys2Proof.Machine.execPolishScanDone ch r s
  | .polishRelockDone ch => Sys2Proof.Machine.execPolishRelockDone ch s
  | .polishDrvcompDone ch => Sys2Proof.Machine.execPolishDrvcompDone ch s
  | .polishOffsetDone ch ofs => Sys2Proof.Machine.execPolishOffsetDone ch ofs s
  | .polishLevelsDone ch m => Sys2Proof.Machine.execPolishLevelsDone ch m s
  | .lightPolishDone ch m => Sys2Proof.Machine.execLightPolishDone ch m s
  | .lustreSample ch m => Sys2Proof.Machine.execLustreSample ch m s
  | .calRecordWrite ch => Sys2Proof.Machine.execCalRecordWrite ch s
  | .reservationTimeout p => Sys2Proof.Machine.execReservationTimeout p s
  | .thermalRound temps power => Sys2Proof.Machine.execThermalRound temps power s
  | .limitComparator n temp => Sys2Proof.Machine.execLimitComparator n temp s
  | .tripComparator n temp => Sys2Proof.Machine.execTripComparator n temp s
  | .idleEntry => Sys2Proof.Machine.execIdleEntry s
  | .idleWake => Sys2Proof.Machine.execIdleWake s
  | .aoWake req => Sys2Proof.Machine.execAoWake req s
  | .coldWarmTimeout b => Sys2Proof.Machine.execColdWarmTimeout b s
  | .vltMount ok => Sys2Proof.Machine.execVltMount ok s
  | .vltCaptureStart t region granule => Sys2Proof.Machine.execVltCaptureStart t region granule s
  | .vltCaptureDone t region granule => Sys2Proof.Machine.execVltCaptureDone t region granule s
  | .vltSealRecord t => Sys2Proof.Machine.execVltSealRecord t s
  | .vltProgramDone die block page ok => Sys2Proof.Machine.execVltProgramDone die block page ok s
  | .vltEraseDone die block ok => Sys2Proof.Machine.execVltEraseDone die block ok s
  | .vltPageReadDone die block page reads => Sys2Proof.Machine.execVltPageReadDone die block page reads s
  | .vltScrubTick => Sys2Proof.Machine.execVltScrubTick s
  | .vltReclaim die block => Sys2Proof.Machine.execVltReclaim die block s
  | .vltRestoreDone t ok => Sys2Proof.Machine.execVltRestoreDone t ok s
  | .vltDieLost die => Sys2Proof.Machine.execVltDieLost die s
  | .vltResync t => Sys2Proof.Machine.execVltResync t s
  | .vltHeal t => Sys2Proof.Machine.execVltHeal t s
  | .twnVput t region granule piece epoch data => Sys2Proof.Machine.execTwnVput t region granule piece epoch data s
  | .twnVack t region granule epoch ok => Sys2Proof.Machine.execTwnVack t region granule epoch ok s
  | .twnVseal t epoch x => Sys2Proof.Machine.execTwnVseal t epoch x s
  | .twnVsealack t epoch ok => Sys2Proof.Machine.execTwnVsealack t epoch ok s
  | .twnVdrop t epoch => Sys2Proof.Machine.execTwnVdrop t epoch s
  | .twnVread t region granule epoch => Sys2Proof.Machine.execTwnVread t region granule epoch s
  | .twnVdata t region granule piece epoch data => Sys2Proof.Machine.execTwnVdata t region granule piece epoch data s
  | .twnPair m => Sys2Proof.Machine.execTwnPair m s
  | .twnBeat tstate jseq => Sys2Proof.Machine.execTwnBeat tstate jseq s
  | .twnBeatSend => Sys2Proof.Machine.execTwnBeatSend s
  | .twnDown cause => Sys2Proof.Machine.execTwnDown cause s
  | .twnJrnl jseq entries => Sys2Proof.Machine.execTwnJrnl jseq entries s
  | .twnJack jseq => Sys2Proof.Machine.execTwnJack jseq s
  | .twnSnap t off last a => Sys2Proof.Machine.execTwnSnap t off last a s
  | .twnFailureTimer => Sys2Proof.Machine.execTwnFailureTimer s
  | .twnHelloHold => Sys2Proof.Machine.execTwnHelloHold s
  | .twnPortLost => Sys2Proof.Machine.execTwnPortLost s
  | .twnPortActive => Sys2Proof.Machine.execTwnPortActive s
  | .twnPairingTimeout => Sys2Proof.Machine.execTwnPairingTimeout s
  | .keymsgHello p h => Sys2Proof.Machine.execKeymsgHello p h s
  | .keymsgCert p frag nfrag data => Sys2Proof.Machine.execKeymsgCert p frag nfrag data s
  | .keymsgVerify p sig => Sys2Proof.Machine.execKeymsgVerify p sig s
  | .keymsgFinish p mac => Sys2Proof.Machine.execKeymsgFinish p mac s
  | .keymsgRekey p nonce eph => Sys2Proof.Machine.execKeymsgRekey p nonce eph s
  | .keymsgRekeyAck p nonce eph => Sys2Proof.Machine.execKeymsgRekeyAck p nonce eph s
  | .keymsgPvk state wrapped => Sys2Proof.Machine.execKeymsgPvk state wrapped s
  | .keymsgAbort p reason => Sys2Proof.Machine.execKeymsgAbort p reason s
  | .spdmRequest transport session q => Sys2Proof.Machine.execSpdmRequest transport session q s
  | .keyLoad v key1 key2 => Sys2Proof.Machine.execKeyLoad v key1 key2 s
  | .keyClear v => Sys2Proof.Machine.execKeyClear v s
  | .fsLoad v fs => Sys2Proof.Machine.execFsLoad v fs s
  | .rootAdd v hash => Sys2Proof.Machine.execRootAdd v hash s
  | .rootClear v => Sys2Proof.Machine.execRootClear v s
  | .cokeySet v key => Sys2Proof.Machine.execCokeySet v key s
  | .meshCheck breached => Sys2Proof.Machine.execMeshCheck breached s
  | .drbgReseed healthOk => Sys2Proof.Machine.execDrbgReseed healthOk s
  | .authNonceExpiry path => Sys2Proof.Machine.execAuthNonceExpiry path s
  | .authLockoutEnd path => Sys2Proof.Machine.execAuthLockoutEnd path s
  | .entropySampleFail => Sys2Proof.Machine.execEntropySampleFail s
  | .faultRaise src unit dom => Sys2Proof.Machine.execFaultRaise src unit dom s
  | .inclusionDeferredWrite => Sys2Proof.Machine.execInclusionDeferredWrite s
  | .fltAckAll => Sys2Proof.Machine.execFltAckAll s
  | .tenFstatClr t => Sys2Proof.Machine.execTenFstatClr t s
  | .fltSevWrite w val => Sys2Proof.Machine.execFltSevWrite w val s
  | .fltCfgWrite val => Sys2Proof.Machine.execFltCfgWrite val s
  | .fltInclclr => Sys2Proof.Machine.execFltInclclr s
  | .fltStatSevRejClr => Sys2Proof.Machine.execFltStatSevRejClr s
  | .tlmFrame => Sys2Proof.Machine.execTlmFrame s
  | .tsSend => Sys2Proof.Machine.execTsSend s
  | .dumpTimeout t => Sys2Proof.Machine.execDumpTimeout t s
  | .dumpDone t => Sys2Proof.Machine.execDumpDone t s
  | .stopCut => Sys2Proof.Machine.execStopCut s
  | .stopRecordDone => Sys2Proof.Machine.execStopRecordDone s
  | .maxstopExpiry => Sys2Proof.Machine.execMaxstopExpiry s
  | .tapInstructionLoad instr => Sys2Proof.Machine.execTapInstructionLoad instr s
  | .trstAssert => Sys2Proof.Machine.execTrstAssert s
  | .fabTimeLoRead => Sys2Proof.Machine.execFabTimeLoRead s
  | .dbgStopvalLoRead cyc => Sys2Proof.Machine.execDbgStopvalLoRead cyc s
  | .jadAindropClr y => Sys2Proof.Machine.execJadAindropClr y s
  | .jadBootstatStopIgnClr => Sys2Proof.Machine.execJadBootstatStopIgnClr s
  | .jadRstcauseClr mask => Sys2Proof.Machine.execJadRstcauseClr mask s
  | .jadTeststatBscanClr => Sys2Proof.Machine.execJadTeststatBscanClr s
  | .fctRetryClr p => Sys2Proof.Machine.execFctRetryClr p s
  | .fctPerrClr p c => Sys2Proof.Machine.execFctPerrClr p c s
  | .mbxBmstatClr fn => Sys2Proof.Machine.execMbxBmstatClr fn s
  | .tenQcntClr t q => Sys2Proof.Machine.execTenQcntClr t q s
  | .tenQlateClr t q => Sys2Proof.Machine.execTenQlateClr t q s
  | .tenStreamCntClr t x which => Sys2Proof.Machine.execTenStreamCntClr t x which s
  | .xltInvcntClr => Sys2Proof.Machine.execXltInvcntClr s
  | .xltPrecntClr => Sys2Proof.Machine.execXltPrecntClr s
  | .xltPricntClr fn => Sys2Proof.Machine.execXltPricntClr fn s
  | .colCntClr => Sys2Proof.Machine.execColCntClr s
  | .fabCntClr which => Sys2Proof.Machine.execFabCntClr which s
  | .lnkRetryClr p => Sys2Proof.Machine.execLnkRetryClr p s
  | .lnkErrClr p => Sys2Proof.Machine.execLnkErrClr p s
  | .lnkFeccorClr p => Sys2Proof.Machine.execLnkFeccorClr p s
  | .walCntClr p => Sys2Proof.Machine.execWalCntClr p s
  | .calCntClr => Sys2Proof.Machine.execCalCntClr s
  | .calCnt2Clr => Sys2Proof.Machine.execCalCnt2Clr s
  | .vltCntClr => Sys2Proof.Machine.execVltCntClr s
  | .twnCntClr => Sys2Proof.Machine.execTwnCntClr s
  | .secCntClr => Sys2Proof.Machine.execSecCntClr s
  | .dbgTrstatClr => Sys2Proof.Machine.execDbgTrstatClr s
  | .dbgTlmstatClr => Sys2Proof.Machine.execDbgTlmstatClr s
  | .registerWrite fn bar2 off val => Sys2Proof.Machine.execRegisterWrite fn bar2 off val s
  | .alwaysOnRailsFall => Sys2Proof.Machine.execAlwaysOnRailsFall s
  | .xtalValid => Sys2Proof.Machine.execXtalValid s
  | .rubyLinkReturn n => Sys2Proof.Machine.execRubyLinkReturn n s
  | .flashProgramDone => Sys2Proof.Machine.execFlashProgramDone s
  | .selftestDone passed => Sys2Proof.Machine.execSelftestDone passed s

end Sys2Proof.Machine
end

