-- ==== Sys2Proof/Machine/Tick.lean ====
section
/-! DEFINITION. What passes with time alone: what waited while the device was stopped, local and fabric time, core cycles (log 2). -/

namespace Sys2Proof.Machine

/-- What arrived while the device was stopped takes its effect (21 R878, R879). -/
def Dev.late (d : Dev) (i : Late) : Dev :=
  let d := match i with
    | .request t k r => if t = PType.sem then d.semPacket k r else d.request t k
    | .response k st => d.response k st
    | .transit t k => if k.bad then { d with fab.malformed := satAdd 0x3FF d.fab.malformed } else if d.isMine k then d else d.relay t k .none
    | .coll kind m f => d.collIn kind m f
    | .sub kind k stream val => d.subctl kind k stream val
    | .steer k t side => d.steer k t side
    | .cnp k gq => d.cnp k gq
    | .die kind p m => d.dieMsg kind p m
    | .coh kind p w => d.cohMsg kind p w
    | .dieCpl p tag t st data => d.dieCpl p tag t st data
    | .hostCpl f tag ok data => d.hostCpl f tag ok data
    | .hostTimeout f tag => d.hostTimeout f tag
    | .ats f tag c => d.atsDone f tag c
    | .prg f prgi code => d.prgDone f prgi code
    | .flush path => d.flushed path
  d.settle

/-- Everything that waited, in order; nothing while the device is stopped. -/
def Dev.drainIngress (d : Dev) : Dev :=
  if d.stopped then d else d.dbg.ingress.foldl Dev.late { d with dbg.ingress := [] }

/-- Bring-up items that have come to their end are recorded (03 R103). -/
def Dev.recordItems (d : Dev) : Dev :=
  [1, 2, 3, 4, 5, 6, 7, 8].foldl (fun d n => if Tab.look .notStarted n d.boot.items = .running then d.setItem n (d.itemSt n) else d) d

/-- Nanoseconds in a tick: one period of Jade's 4 MHz oscillator. -/
def tickNs : Nat := 250

/-- Core cycles in a tick. -/
def tickCycles : Nat := 400

/-- Fabric time over a tick (11 R488, R494): it holds until `holdTo`, else advances, slewed by 1 ns in a microsecond at most, which is 1,000 ppm; it
never decreases. -/
def Fab.advance (x : Fab) (now : Nat) : Fab :=
  match x.holdTo with
  | some h => if now < h then x else { x with holdTo := none, time := x.time + (now - h) }
  | none =>
    let s : Int := if now % 1000 = 0 then max (-1) (min 1 x.slew) else 0
    { x with time := ((x.time + tickNs : Nat) + s).toNat, slew := x.slew - s }

/-- The clocks advance by a tick; the core clock runs from LOAD on. -/
def Dev.clocks (d : Dev) : Dev :=
  let d := { d with now := d.now + tickNs, fab := d.fab.advance (d.now + tickNs), lnk.ports := Tab.mapv {} (fun _ l => l.drain tickNs) d.lnk.ports }
  if 4 ≤ d.boot.stage.code then d.account tickCycles else d

/-- 250 ns pass: what waited goes first, a failed training attempt is followed by the next, a version of the partner that waits is programmed (17 R717), then the clocks advance. -/
def Dev.tick (d : Dev) : Dev := (d.drainIngress.retrain.recordItems.programMirror true).settle.clocks.endPolishWait.watchQuiet

end Sys2Proof.Machine
end

