-- ==== Sys2Proof/Safety.lean ====
section
/-! DEFINITION. What the claims call a good state and a good queue. -/

namespace Sys2Proof.Machine

/-- The flash bytes are in canonical form. -/
def State.memOk (s : State) : Bool := s.mem.wf

/-- Every waiting command names units that exist. -/
def State.queueOk (s : State) : Bool := s.pending.all Instr.wf

/-- The commands that may write the boot flash: an erase or a program of a slot, and those that rewrite the directory (03 R84 to R90, R252;
06 R227 to R231). -/
def flashWriter : Instr → Bool
  | .flashEraseDone | .flashProgramDone | .fwActivate .. | .fwConfirm .. | .hostReadyEntry => true
  | _ => false

/-- The place of an asynchronous event in the order in which events recognised in one 250 ns tick are delivered (02 R72). -/
def eventRank : Instr → Option Nat
  | .pwrOkFall _ | .railFail _ => some 0
  | .thermInOnset _ | .thermInRelease => some 1
  | .stopReqEvent _ => some 2
  | .faultAckEdge _ => some 3
  | .twinAliveTimeout => some 4
  | .timePpsEdge _ => some 5
  | _ => none

/-- The events among waiting commands, all of which fall in one tick, stand in the order of 02 R72 (log 46). -/
def State.tickOrdered (s : State) : Bool := decide ((s.pending.filterMap eventRank).Pairwise (· ≤ ·))

/-- A device that runs serves the packet on arrival: nothing waits before it, it is well formed and has passed its check, it is for this device
and a tenant served here, and its payload reads as in `k'` (11 R455, R456, R480; 19 R809; 21 R878). -/
def Dev.takesPacket (d : Dev) (t : PType) (k : Pkt) (b : Body) (k' : Pkt) : Prop :=
  d.dbg.st ≠ .stopped ∧ d.dbg.ingress = [] ∧ k.bad = false ∧ d.isMine k = true ∧ k.passed = true ∧ (k.alias_ = true → d.serves k.dstTen = true) ∧
    d.wake.uncover t k b = some k'

/-- A device that runs serves the collective message, whose payload reads as in `m'`: it has passed, its tenant is served here and not in TR, and its
group and list are the ones defined here (10 R409, R441; 11 R454 to R456). -/
def Dev.takesColl (d : Dev) (kind : Nat) (m : CollMsg) (f : FinalInfo) (m' : CollMsg) (f' : FinalInfo) : Prop :=
  d.dbg.st ≠ .stopped ∧ d.dbg.ingress = [] ∧ m.bad = false ∧ m.passed = true ∧ m'.passed = true ∧ (m.toNode = none → d.serves m.tenant = true) ∧
    (d.notifyMark .coll (d.collHeader kind m)).collOpen kind m f = some (m', f') ∧ (d.notifyMark .coll (d.collHeader kind m)).fenced m'.tenant = false ∧
    ((d.notifyMark .coll (d.collHeader kind m)).collCounted kind m').collBar m' = none

/-- A compute die's request that an ACTIVE port admits, in a device that runs (04 R136, R145; 07 R257; 21 R878). -/
def Dev.takesDie (d : Dev) (kind p : Nat) (m : MemMsg) : Prop :=
  p < 8 ∧ d.dbg.st ≠ .stopped ∧ d.dbg.ingress = [] ∧ (d.hport p).st = .active ∧ (d.hport p).allows kind m = true ∧
    ∀ x ∈ (d.hport p).memWait, x.2.tenant ≠ m.tenant

end Sys2Proof.Machine
end

