-- ==== Sys2Proof/Certificates/Slice0/Obligations.lean ====
section
/-! DEFINITION. The statements about the model. In each, `d` is the device before the command, `m` the boot flash and `q` the commands that wait; a command's next state is written out as a device, the flash and the queue. `settle` hands the faults the command fired to the aggregator (20). -/

set_option linter.unusedVariables false

open Sys2Proof Sys2Proof.Machine

/-- Each command about the rails answers the next state its rule gives: the always-on rails rising start Jade afresh, the PR release samples the straps and raises PWR_REQ, PWR_OK high restarts the device, PWR_OK low or a failed rail starts the power-loss hold-up, whose end powers the device off, and a late PWR_OK lowers PWR_REQ, which rises again for the next attempt. While PWR_OK is low nothing leaves but on the pins that stay driven. What it takes beside the rules is the model's own reading (log 1, 126). A clause in which nothing changes, the device expecting no such event, is log 1. -/
def Obligations.PowerSequencingCommands : Prop :=
  (∀ (d : Dev) (m : Memory) (q : List Instr), d.jad.aoUp = false → exec (.aoRailsUp) ⟨d, m, q⟩ = .next ⟨{ d.fresh with jad.aoUp := true, jad.rcRunning := true }, m, q⟩) ∧
  (∀ (st : Straps) (d : Dev) (m : Memory) (q : List Instr), d.jad.aoUp = true → d.jad.released = false → exec (.prRelease st) ⟨d, m, q⟩ = .next ⟨{ d with jad.released := true, jad.straps := st, jad.pwrReq := true, boot.stage := .rails }, m, q⟩) ∧
  (∀ (d : Dev) (m : Memory) (q : List Instr), d.jad.released = true → d.jad.pwrOk = false → d.jad.losing = false → d.pwr.state ≠ 3 → exec (.pwrOkRise) ⟨d, m, q⟩ = .next ⟨Dev.settle (Dev.restart { d with jad.pwrOk := true, jad.reqFails := 0 }), m, q⟩) ∧
  (∀ (ns : Nat) (d : Dev) (m : Memory) (q : List Instr), minPulseNs 5 ≤ ns → d.jad.pwrOk = true → exec (.pwrOkFall ns) ⟨d, m, q⟩ = .next ⟨Dev.loseMain { d with jad.pwrOk := false, jad.lost := true }, m, q⟩) ∧
  (∀ (ns : Nat) (d : Dev) (m : Memory) (q : List Instr), ns < debounceNs 5 → exec (.pwrOkFall ns) ⟨d, m, q⟩ = .next ⟨d, m, q⟩) ∧
  (∀ (rail : Nat) (d : Dev) (m : Memory) (q : List Instr), d.jad.pwrOk = true → exec (.railFail rail) ⟨d, m, q⟩ = .next ⟨Dev.settle ((Dev.loseMain { d with jad.pwrOk := false, jad.lost := true }).post Src.railFail 0), m, q⟩) ∧
  (∀ (d : Dev) (m : Memory) (q : List Instr), d.jad.losing = true → d.pwr.target = 3 → d.jad.latched = false → d.pwr.wakeHeld = none → exec (.powerlossHoldupEnd) ⟨d, m, q⟩ = .next ⟨{ d.powerOff .dormant with pwr.state := 3, pwr.target := 3 }, m, q⟩) ∧
  (∀ (d : Dev) (m : Memory) (q : List Instr), d.jad.losing = true → d.pwr.target ≠ 3 → d.jad.latched = false → d.jad.pwrOk = false → exec (.powerlossHoldupEnd) ⟨d, m, q⟩ = .next ⟨Dev.settle (d.powerOff .rails), m, q⟩) ∧
  (∀ (d : Dev) (m : Memory) (q : List Instr), d.jad.pwrReq = true → d.jad.pwrOk = false → d.jad.reqFails < 2 → exec (.pwrOkLate) ⟨d, m, q⟩ = .next ⟨Dev.settle (Dev.post { d with jad.pwrReq := false, jad.reqFails := d.jad.reqFails + 1 } Src.pwrOkLate4 0), m, q⟩) ∧
  (∀ (d : Dev) (m : Memory) (q : List Instr), d.jad.pwrReq = true → d.jad.pwrOk = false → 2 ≤ d.jad.reqFails → exec (.pwrOkLate) ⟨d, m, q⟩ = .next ⟨Dev.settle (Dev.post { d with jad.pwrReq := false, jad.reqFails := d.jad.reqFails + 1 } Src.pwrOkLate5 0), m, q⟩) ∧
  (∀ (d : Dev) (m : Memory) (q : List Instr), d.jad.pwrReq = false → d.jad.pwrOk = false → 0 < d.jad.reqFails → d.jad.reqFails < 3 → exec (.pwrReqRetry) ⟨d, m, q⟩ = .next ⟨{ d with jad.pwrReq := true }, m, q⟩) ∧
  (∀ (d : Dev) (m : Memory) (q : List Instr), exec (.alwaysOnRailsFall) ⟨d, m, q⟩ = .next ⟨d.fresh, m, q⟩) ∧
  (∀ (d : Dev) (x : Out), d.jad.pwrOk = false → x.alwaysOn = false → (d.emit x).out = d.out)

/-- PLL lock moves boot to IDENTIFY, a window count in range marks the reference good, one out of range while the device runs raises REFCLK_LOST and applies a DR, a ppm check records the deviation, a failed crystal raises XTAL_FAIL, the RC is trimmed once the crystal is valid, and TIME_PPS without PPS enabled only follows its level. What it takes beside the rules is the model's own reading (log 127, 128). -/
def Obligations.ClockCommands : Prop :=
  (∀ (d : Dev) (m : Memory) (q : List Instr), d.boot.stage = .clocks → d.jad.refHold = false → d.jad.bscanHold = false → exec (.pllLock) ⟨d, m, q⟩ = .next ⟨{ d.flushIncl with boot.jpll := true, boot.gpll := true, boot.bpll := 0xF, boot.refclkOk := true, boot.stage := .identify }, m, q⟩) ∧
  (∀ (count : Nat) (d : Dev) (m : Memory) (q : List Instr), 900 ≤ count → count ≤ 1100 → exec (.refclkWindowCheck count) ⟨d, m, q⟩ = .next ⟨{ d with boot.refclkOk := true, jad.refGood := d.jad.refGood + 1, jad.refHold := d.jad.refHold && decide (d.jad.refGood + 1 < 100) }, m, q⟩) ∧
  (∀ (count : Nat) (d : Dev) (m : Memory) (q : List Instr), ¬ (900 ≤ count ∧ count ≤ 1100) → d.jad.pwrOk = true → d.jad.refHold = false → d.boot.stage ≠ .rails → exec (.refclkWindowCheck count) ⟨d, m, q⟩ = .next ⟨Dev.settle ((Dev.settle (Dev.post { d with jad.refHold := true, jad.refGood := 0 } Src.refclkLost 0)).devReset .refclk), m, q⟩) ∧
  (∀ (ppm : Int) (d : Dev) (m : Memory) (q : List Instr), d.jad.xtalOk = true → exec (.refclkPpmCheck ppm) ⟨d, m, q⟩ = .next ⟨Dev.settle (Dev.postIf { d with jad.refPpm := max (-2048) (min 2047 ppm) } (decide (100 < ppm.natAbs) && d.boot.refclkOk) Src.refclkPpm 0), m, q⟩) ∧
  (∀ (d : Dev) (m : Memory) (q : List Instr), exec (.xtalFail) ⟨d, m, q⟩ = .next ⟨Dev.settle (Dev.post { d with jad.xtalOk := false, jad.refPpm := 0 } Src.xtalFail 0), m, q⟩) ∧
  (∀ (d : Dev) (m : Memory) (q : List Instr), exec (.xtalValid) ⟨d, m, q⟩ = .next ⟨{ d with jad.xtalOk := d.jad.aoUp }, m, q⟩) ∧
  (∀ (d : Dev) (m : Memory) (q : List Instr), exec (.rcTrim) ⟨d, m, q⟩ = .next ⟨{ d with jad.rcTrimmed := d.jad.rcTrimmed || d.jad.xtalOk }, m, q⟩) ∧
  (∀ (ns : Nat) (d : Dev) (m : Memory) (q : List Instr), d.fab.ppsEn = false → minPulseNs 3 ≤ ns → exec (.timePpsEdge ns) ⟨d, m, q⟩ = .next ⟨{ d with jad.ain := Tab.upd {} 3 (fun a => { a with until_ := d.now + ns }) d.jad.ain }, m, q⟩) ∧
  (∀ (ns : Nat) (d : Dev) (m : Memory) (q : List Instr) (x : Dev), d.fab.ppsEn = true → d.pulse 3 ns = (x, true) → x.fab.parent = none → x.fab.timeSet = true → exec (.timePpsEdge ns) ⟨d, m, q⟩ = .next ⟨x.applyOffset ((nearestSecond x.fab.time : Int) - (x.fab.time : Int)), m, q⟩)

/-- An accepted STOP_REQ_N schedules a stop on a device that runs, THERM_IN_N sets the throttle floor and raises THM_EXT, an accepted FAULT_ACK acknowledges every record, a TWIN_ALIVE edge marks the partner alive, its timeout and a stuck or noisy input report, an input is unmasked at its end, and TWIN_ALIVE_OUT toggles while Twin operation is on. What it takes beside the rules is the model's own reading (log 46, 129). -/
def Obligations.AsyncInputCommands : Prop :=
  (∀ (ns : Nat) (d : Dev) (m : Memory) (q : List Instr) (x : Dev), d.pulse 0 ns = (x, true) → x.up = true → x.dbg.st = .running → x.dbg.cfg.getLsbD 0 = true → exec (.stopReqEvent ns) ⟨d, m, q⟩ = .next ⟨{ x with dbg.st := .scheduled, dbg.cause := 1, dbg.stopFt := x.fab.time }, m, q⟩) ∧
  (∀ (ns : Nat) (d : Dev) (m : Memory) (q : List Instr) (x : Dev), d.pulse 0 ns = (x, true) → x.up = true → x.dbg.st = .stopped → exec (.stopReqEvent ns) ⟨d, m, q⟩ = .next ⟨{ x with dbg.ignored := satAdd 0xFF x.dbg.ignored }, m, q⟩) ∧
  (∀ (ns : Nat) (d : Dev) (m : Memory) (q : List Instr) (x : Dev), minPulseNs 1 ≤ ns → Dev.accept (d.setLevel 1 true) 1 = (x, true) → exec (.thermInOnset ns) ⟨d, m, q⟩ = .next ⟨Dev.settle (x.relevel.post Src.thmExt 0), m, q⟩) ∧
  (∀ (d : Dev) (m : Memory) (q : List Instr), exec (.thermInRelease) ⟨d, m, q⟩ = .next ⟨(d.setLevel 1 false).relevel, m, q⟩) ∧
  (∀ (ns : Nat) (d : Dev) (m : Memory) (q : List Instr) (x : Dev), d.pulse 2 ns = (x, true) → exec (.faultAckEdge ns) ⟨d, m, q⟩ = .next ⟨x.ackAll, m, q⟩) ∧
  (∀ (ns : Nat) (d : Dev) (m : Memory) (q : List Instr) (x : Dev), minPulseNs 4 ≤ ns → Dev.accept (d.setLevel 4 (!(Tab.look {} 4 d.jad.ain).level)) 4 = (x, true) → (Tab.look {} 4 x.jad.ain).rated = false → exec (.twinAliveEdge ns) ⟨d, m, q⟩ = .next ⟨{ x with twn.aliveIn := true, twn.lastEdge := some x.now }, m, q⟩) ∧
  (∀ (d : Dev) (m : Memory) (q : List Instr) (x : Nat), d.twn.enabled = true → d.twn.lastEdge = some x → x + 50000 ≤ d.now → exec (.twinAliveTimeout) ⟨d, m, q⟩ = .next ⟨Dev.settle (Dev.stuckInput { d with twn.aliveIn := false, twn.aliveLost := if d.twn.aliveIn then d.now else d.twn.aliveLost, twn.lastEdge := none } 4), m, q⟩) ∧
  (∀ (i : Nat) (d : Dev) (m : Memory) (q : List Instr), i < 4 → (Tab.look {} i d.jad.ain).masked = false → exec (.asyncStuckTimeout i) ⟨d, m, q⟩ = .next ⟨Dev.settle (d.stuckInput i), m, q⟩) ∧
  (∀ (d : Dev) (m : Memory) (q : List Instr), (Tab.look {} 4 d.jad.ain).masked = false → exec (.asyncStuckTimeout 4) ⟨d, m, q⟩ = .next ⟨Dev.settle (d.stuckInput 4).aliveGone, m, q⟩) ∧
  (∀ (i : Nat) (d : Dev) (m : Memory) (q : List Instr), i < 6 → exec (.asyncUnmask i) ⟨d, m, q⟩ = .next ⟨{ d with jad.ain := Tab.upd {} i (fun a => if a.masked then { a with masked := false, level := if i = 4 then a.level else false, until_ := 0 } else a) d.jad.ain }, m, q⟩) ∧
  (∀ (i : Nat) (d : Dev) (m : Memory) (q : List Instr), i < 4 → 16 < ((Tab.look {} i d.jad.ain).ignored.filter fun x => decide (d.now < x + 1000000)).length → (Tab.look {} i d.jad.ain).rated = false → exec (.asyncRateFault i) ⟨d, m, q⟩ = .next ⟨Dev.settle (Dev.post { d with jad.ain := Tab.put {} i { Tab.look {} i d.jad.ain with rated := true } d.jad.ain } (ainSrc i) 0), m, q⟩) ∧
  (∀ (d : Dev) (m : Memory) (q : List Instr), exec (.twinAliveOutToggle) ⟨d, m, q⟩ = .next ⟨{ d with twn.aliveOut := decide (d.domain 47 = 3) && d.twn.enabled && !d.twn.outHeld && !d.twn.aliveOut }, m, q⟩) ∧
  (∀ (i : Nat) (d : Dev) (m : Memory) (q : List Instr), d.linkUp = true → d.memReq 0 = true → i < 6 → exec (.jadAindropClr i) ⟨d, m, q⟩ = .next ⟨{ d with jad.ain := Tab.upd {} i (fun a => { a with drop := 0 }) d.jad.ain }, m, q⟩)

/-- The checks of the die identities, the choice and the verification of a boot slot, the watchdog, HOST_READY and the write-1-to-clear fields of JAD_BOOTSTAT, JAD_RSTCAUSE and JAD_TESTSTAT each answer the next state their rule gives; a slot that fails its check is marked bad and raises BOOT_SLOT. What it takes beside the rules is the model's own reading (log 4, 49, 50, 132 to 138). -/
def Obligations.BootCommands : Prop :=
  (∀ (reads : List (List W64)) (d : Dev) (m : Memory) (q : List Instr), d.boot.stage = .identify → ((d.collect reads).failing.filter fun n => decide (n < 2)) = [] → (d.collect reads).breakers 1 = [] → exec (.identityCollect reads) ⟨d, m, q⟩ = .next ⟨Dev.settle ((d.collect reads).holdFailing.combine 1), m, q⟩) ∧
  (∀ (reads : List (List W64)) (d : Dev) (m : Memory) (q : List Instr), d.boot.stage = .identify → ((d.collect reads).failing.filter fun n => decide (n < 2)) ≠ [] → exec (.identityCollect reads) ⟨d, m, q⟩ = .next ⟨Dev.settle ((d.collect reads).post Src.dieFatal (((d.collect reads).failing.filter fun n => decide (n < 2)).headD 0) none (slotMask ((d.collect reads).failing.filter fun n => decide (n < 2)))), m, q⟩) ∧
  (∀ (d : Dev) (m : Memory) (q : List Instr), d.boot.stage = .load → d.boot.loaded = false → d.bad (dirSlot m) = false → exec (.slotLoad true) ⟨d, m, q⟩ = .next ⟨{ d with boot.slot := dirSlot m, boot.loaded := true, boot.hdr := slotHdr m (dirSlot m), boot.digs := slotDigs m (dirSlot m), boot.sram := slotSram m (dirSlot m) }, m, q⟩) ∧
  (∀ (d : Dev) (m : Memory) (q : List Instr), d.boot.stage = .load → d.boot.loaded = false → exec (.slotLoad false) ⟨d, m, q⟩ = .next ⟨Dev.settle (Dev.recovery { d with jad.aBad := true, jad.bBad := true }), m, q⟩) ∧
  (∀ (d : Dev) (m : Memory) (q : List Instr), d.boot.stage = .load → d.boot.loaded = true → exec (.slotVerify) ⟨d, m, q⟩ = .next ⟨Dev.settle ((match imgCheck d.flash d.boot.hdr d.boot.digs with | .ok ver maj => d.executeSlot ver maj | _ => d.rejectSlot)), m, q⟩) ∧
  (∀ (d : Dev) (m : Memory) (q : List Instr), d.boot.stage = .init → d.boot.slot = false → d.jad.wdogA = 0 → exec (.bootWatchdog) ⟨d, m, q⟩ = .next ⟨Dev.settle (Dev.devReset { d with jad.wdogA := 1 } .wdog), m, q⟩) ∧
  (∀ (d : Dev) (m : Memory) (q : List Instr), d.boot.stage = .init → dirNow m = none → exec (.hostReadyEntry) ⟨d, m, q⟩ = .next ⟨{ d with boot.stage := .hostReady, boot.readyAt := d.now, jad.drCount := 0, boot.bootTime := BitVec.ofNat 32 ((d.now - d.boot.start) / 1000) }, m, q⟩) ∧
  (∀ (d : Dev) (m : Memory) (q : List Instr), d.linkUp = true → d.memReq 0 = true → exec (.jadBootstatStopIgnClr) ⟨d, m, q⟩ = .next ⟨{ d with boot.stopIgn := false }, m, q⟩) ∧
  (∀ (mask : BitVec 8) (d : Dev) (m : Memory) (q : List Instr), d.linkUp = true → d.memReq 0 = true → exec (.jadRstcauseClr mask) ⟨d, m, q⟩ = .next ⟨{ d with jad.rstCause := d.jad.rstCause &&& ~~~mask }, m, q⟩) ∧
  (∀ (d : Dev) (m : Memory) (q : List Instr), d.linkUp = true → d.memReq 0 = true → exec (.jadTeststatBscanClr) ⟨d, m, q⟩ = .next ⟨{ d with jad.bscanDr := false }, m, q⟩)

/-- PERST_N and an FLR of the PF take the PF through FR, an FLR of a VF resumes a stopped device, applies the FLR and starts a TR of its tenant, a DR resets the device, the phases of a TR follow one another, and Bus Master Enable halts and restarts a function. What it takes beside the rules is the model's own reading (log 53, 136). -/
def Obligations.ResetCommands : Prop :=
  (∀ (d : Dev) (m : Memory) (q : List Instr), d.jad.perstHigh = true → d.up = true → exec (.perstAssert) ⟨d, m, q⟩ = .next ⟨Dev.settle (Dev.frPf { d with jad.perstHigh := false, jad.perstFell := d.now, mbx.link := {} } 128 3), m, q⟩) ∧
  (∀ (d : Dev) (m : Memory) (q : List Instr), d.jad.perstHigh = true → d.up = false → exec (.perstAssert) ⟨d, m, q⟩ = .next ⟨Dev.settle { d with jad.perstHigh := false, jad.perstFell := d.now, mbx.link := {}, mbx.fns := [] }, m, q⟩) ∧
  (∀ (d : Dev) (m : Memory) (q : List Instr), d.jad.perstHigh = false → d.boot.stage ≠ .dormant → d.jad.losing = false → exec (.perstDeassert) ⟨d, m, q⟩ = .next ⟨{ d with jad.perstHigh := true }, m, q⟩) ∧
  (∀ (d : Dev) (m : Memory) (q : List Instr), d.jad.perstHigh = false → d.boot.stage = .dormant → d.jad.perstFell + 100000 ≤ d.now → exec (.perstDeassert) ⟨d, m, q⟩ = .next ⟨{ d with jad.perstHigh := true, jad.pwrReq := true, boot.stage := .rails }, m, q⟩) ∧
  (∀ (d : Dev) (m : Memory) (q : List Instr), d.linkUp = true → d.fnPresent 0 = true → (d.fn 0).flr = false → d.up = true → exec (.pcieFlrPf) ⟨d, m, q⟩ = .next ⟨Dev.settle (d.frPf 64 2), m, q⟩) ∧
  (∀ (d : Dev) (m : Memory) (q : List Instr), d.linkUp = true → d.fnPresent 0 = true → (d.fn 0).flr = false → d.boot.stage = .recovery → exec (.pcieFlrPf) ⟨d, m, q⟩ = .next ⟨Dev.settle d.frRecovery, m, q⟩) ∧
  (∀ (t : Nat) (d : Dev) (m : Memory) (q : List Instr), d.linkUp = true → d.fnPresent (t + 1) = true → (d.fn (t + 1)).flr = false → t < 16 → d.up = true → exec (.pcieFlrVf t) ⟨d, m, q⟩ = .next ⟨Dev.settle (((d.resume 2).flr (t + 1)).trStart t 0), m, q⟩) ∧
  (∀ (fn : Nat) (d : Dev) (m : Memory) (q : List Instr), fn < 17 → d.outstanding fn = 0 → exec (.flrReadsDrained fn) ⟨d, m, q⟩ = .next ⟨d.setFn fn fun g => { g with flr := false, bmOff := false }, m, q⟩) ∧
  (∀ (cause : DrCause) (d : Dev) (m : Memory) (q : List Instr), exec (.deviceReset cause) ⟨d, m, q⟩ = .next ⟨Dev.settle (d.devReset cause), m, q⟩) ∧
  (∀ (t : Nat) (d : Dev) (m : Memory) (q : List Instr), t < 16 → (d.ten t).rst = 2 → d.hostReads (t + 1) = 0 → exec (.trQuiesceDone t) ⟨d, m, q⟩ = .next ⟨Dev.settle (d.scrub t), m, q⟩) ∧
  (∀ (t : Nat) (d : Dev) (m : Memory) (q : List Instr), t < 16 → (d.ten t).rst = 3 → exec (.trScrubDone t) ⟨d, m, q⟩ = .next ⟨Dev.settle (d.trRelease t), m, q⟩) ∧
  (∀ (fn : Nat) (d : Dev) (m : Memory) (q : List Instr), d.linkUp = true → d.fnPresent fn = true → (d.fn fn).flr = false → fn < 17 → (d.fn fn).bme = true → exec (.bmeClear fn) ⟨d, m, q⟩ = .next ⟨Dev.settle (d.bmeCleared fn), m, q⟩) ∧
  (∀ (fn : Nat) (d : Dev) (m : Memory) (q : List Instr), d.linkUp = true → d.fnPresent fn = true → (d.fn fn).flr = false → fn < 17 → (d.fn fn).bme = false → (d.fn fn).flr = false → exec (.bmeSet fn) ⟨d, m, q⟩ = .next ⟨Dev.settle (d.bmeSet fn), m, q⟩) ∧
  (∀ (fn : Nat) (d : Dev) (m : Memory) (q : List Instr), d.linkUp = true → d.memReq fn = true → fn < 17 → exec (.mbxBmstatClr fn) ⟨d, m, q⟩ = .next ⟨d.setFn fn fun g => { g with discarded := 0, refused := 0 }, m, q⟩)

/-- A configuration access is answered with Retry Status while the device boots and with the field's value once it is up, link training below 8 GT/s counts an attempt and holds the link down after the third, an AER error is reported, and the device's own reads end by completion or timeout. What it takes beside the rules is the model's own reading (log 7, 53, 148). -/
def Obligations.EndpointCommands : Prop :=
  (∀ (fn : Nat) (write : Bool) (field : CfgField) (val : Nat) (d : Dev) (m : Memory) (q : List Instr), fn < 17 → d.linkUp = true → (d.boot.stage = .load ∨ d.boot.stage = .init) → exec (.pcieConfigAccess fn write field val) ⟨d, m, q⟩ = .next ⟨d.emit (.pcieConfig fn true 0), m, q⟩) ∧
  (∀ (fn : Nat) (field : CfgField) (val : Nat) (d : Dev) (m : Memory) (q : List Instr), fn < 17 → d.linkUp = true → d.fnPresent fn = true → (d.fn fn).flr = false → exec (.pcieConfigAccess fn false field val) ⟨d, m, q⟩ = .next ⟨d.emit (.pcieConfig fn false (d.configValue fn (d.fn fn) field)), m, q⟩) ∧
  (∀ (fn : Nat) (field : CfgField) (val : Nat) (d : Dev) (m : Memory) (q : List Instr), fn < 17 → d.linkUp = true → d.fnPresent fn = true → (d.fn fn).flr = false → exec (.pcieConfigAccess fn true field val) ⟨d, m, q⟩ = .next ⟨Dev.settle ((d.configWrite fn field val).emit (.pcieConfig fn false 0)), m, q⟩) ∧
  (∀ (fn : Nat) (write : Bool) (field : CfgField) (val : Nat) (d : Dev) (m : Memory) (q : List Instr), fn < 17 → d.linkUp = true → d.fnPresent fn = false → d.boot.stage ≠ .load → d.boot.stage ≠ .init → exec (.pcieConfigAccess fn write field val) ⟨d, m, q⟩ = .next ⟨d.emit (.pcieUr fn), m, q⟩) ∧
  (∀ (gts : Nat) (width : Nat) (d : Dev) (m : Memory) (q : List Instr), d.jad.perstHigh = true → d.mbx.link.held = false → d.up = true → 8 ≤ gts → exec (.pcieLinkTrain gts width) ⟨d, m, q⟩ = .next ⟨Dev.settle (Dev.postIf { d with mbx.link := { up := true, gts, width } } (decide (width < 8)) Src.pcieWidth 0), m, q⟩) ∧
  (∀ (gts : Nat) (width : Nat) (d : Dev) (m : Memory) (q : List Instr), d.jad.perstHigh = true → d.mbx.link.held = false → d.up = true → gts < 8 → exec (.pcieLinkTrain gts width) ⟨d, m, q⟩ = .next ⟨Dev.settle (Dev.postIf { d with mbx.link := { up := false, gts, width, attempts := d.mbx.link.attempts + 1, held := decide (3 ≤ d.mbx.link.attempts + 1) } } (decide (3 ≤ d.mbx.link.attempts + 1)) Src.pcieSpeed 0), m, q⟩) ∧
  (∀ (correctable : Bool) (bit : Nat) (d : Dev) (m : Memory) (q : List Instr), bit < 32 → exec (.pcieAerError correctable bit) ⟨d, m, q⟩ = .next ⟨Dev.settle (((d.setFn 0 fun g => if correctable then { g with aerCorr := g.aerCorr ||| BitVec.ofNat 32 (2 ^ bit) } else { g with aerUncorr := g.aerUncorr ||| BitVec.ofNat 32 (2 ^ bit) }).emit (.pcieError correctable bit)).post (if correctable then Src.pcieCorr else Src.pcieUncorr) 0), m, q⟩) ∧
  (∀ (fn : Nat) (tag : Nat) (ok : Bool) (data : List W64) (d : Dev) (m : Memory) (q : List Instr), fn < 17 → d.dbg.st ≠ .stopped → d.dbg.ingress = [] → exec (.pcieReadCompletion fn tag ok data) ⟨d, m, q⟩ = .next ⟨Dev.settle (d.hostCpl fn tag ok data), m, q⟩) ∧
  (∀ (fn : Nat) (tag : Nat) (d : Dev) (m : Memory) (q : List Instr), fn < 17 → d.dbg.st ≠ .stopped → d.dbg.ingress = [] → exec (.pcieCompletionTimeout fn tag) ⟨d, m, q⟩ = .next ⟨Dev.settle (d.hostTimeout fn tag), m, q⟩) ∧
  (∀ (fn : Nat) (tag : Nat) (data : List W64) (d : Dev) (m : Memory) (q : List Instr) (r : HRead) (x : Dev) (js : List Job), fn < 17 → d.dbg.st ≠ .stopped → d.dbg.ingress = [] → (d.mbx.reads.find? fun r => decide (r.fn = fn) && decide (r.tag = tag) && r.port.isNone) = some r → r.stale = false → d.readEnded r .ok data = (x, js) → exec (.pcieReadCompletion fn tag true data) ⟨d, m, q⟩ = .next ⟨Dev.settle (x.jobsDone js), m, q⟩) ∧
  (∀ (fn : Nat) (tag : Nat) (d : Dev) (m : Memory) (q : List Instr) (r : HRead) (x : Dev) (js : List Job), fn < 17 → d.dbg.st ≠ .stopped → d.dbg.ingress = [] → (d.mbx.reads.find? fun r => decide (r.fn = fn) && decide (r.tag = tag) && r.port.isNone && decide (r.at_ + (d.fn fn).ctoNs ≤ d.now)) = some r → r.stale = false → d.readEnded r .timeout [] = (x, js) → exec (.pcieCompletionTimeout fn tag) ⟨d, m, q⟩ = .next ⟨Dev.settle (x.jobsDone js), m, q⟩)

/-- A valid null flit advances the sequence, frees what it acknowledges, adds its credits and lets the port send; one with a wrong CRC or sequence is answered NAK; the ACK timeout resends; HR returns the port to clock training; each training stage moves the port to the next, and a timeout counts the attempt or fails the port. What it takes beside the rules is the model's own reading (log 56, 57, 58, 60, 139 to 144). -/
def Obligations.FacetFlitAndTrainingCommands : Prop :=
  (∀ (p : Nat) (f : FacetFlit) (d : Dev) (m : Memory) (q : List Instr), p < 8 → (d.hport p).st = .active → f.trackErrs = [] → f.crcOk = true → f.seq = (d.hport p).rxNext → f.null = true → f.nak = false → f.unsup = none → exec (.facetFlitRx p f) ⟨d, m, q⟩ = .next ⟨Dev.settle ((d.setHport p fun h => { h with rxNext := (h.rxNext + 1) % 1024, unacked := ackedFlits f.ack h.unacked, cred := Tab.upd 0 f.crdCh (· + f.crdCnt) h.cred, ackOwed := true }).drainPort p), m, q⟩) ∧
  (∀ (p : Nat) (f : FacetFlit) (d : Dev) (m : Memory) (q : List Instr), p < 8 → (d.hport p).st = .active → f.trackErrs = [] → f.crcOk = true → f.seq = (d.hport p).rxNext → f.null = false → f.ch = 0 → f.nak = false → f.unsup = none → exec (.facetFlitRx p f) ⟨d, m, q⟩ = .next ⟨Dev.settle ((d.setHport p fun h => { h with rxNext := (h.rxNext + 1) % 1024, unacked := ackedFlits f.ack h.unacked, cred := Tab.upd 0 f.crdCh (· + f.crdCnt) h.cred, memHeld := h.memHeld + 1, ackOwed := true, parts := if f.last then without 0 h.parts else insertNat 0 h.parts }).drainPort p), m, q⟩) ∧
  (∀ (p : Nat) (f : FacetFlit) (d : Dev) (m : Memory) (q : List Instr), p < 8 → (d.hport p).st = .active → f.trackErrs = [] → (f.crcOk = false ∨ f.seq ≠ (d.hport p).rxNext) → exec (.facetFlitRx p f) ⟨d, m, q⟩ = .next ⟨Dev.settle ((d.setHport p fun h => { h with nakOwed := true }).drainPort p), m, q⟩) ∧
  (∀ (p : Nat) (d : Dev) (m : Memory) (q : List Instr), p < 8 → (d.hport p).st = .active → (d.hport p).unacked ≠ [] → exec (.facetAckTimeout p) ⟨d, m, q⟩ = .next ⟨Dev.settle (d.facetReplay p), m, q⟩) ∧
  (∀ (p : Nat) (d : Dev) (m : Memory) (q : List Instr), p < 8 → Tab.look .notStarted 5 d.boot.items ≠ .notStarted → (d.hport p).st ≠ .failed → exec (.facetHr p) ⟨d, m, q⟩ = .next ⟨Dev.settle (d.dropPort p .clock), m, q⟩) ∧
  (∀ (p : Nat) (d : Dev) (m : Memory) (q : List Instr), p < 8 → (d.hport p).hrAt.isSome = true → (d.hport p).st ≠ .active → exec (.facetHrHoldExpiry p) ⟨d, m, q⟩ = .next ⟨Dev.settle ((d.setHport p fun h => { h with queue := [], hrAt := some d.now, discard := min 0x7FFF (h.discard + h.queue.length) }).endPortReads p []), m, q⟩) ∧
  (∀ (p : Nat) (d : Dev) (m : Memory) (q : List Instr), p < 8 → (d.hport p).st = .clock → exec (.facetKLock p) ⟨d, m, q⟩ = .next ⟨d.setHport p fun h => { h with st := .ident }, m, q⟩) ∧
  (∀ (p : Nat) (desig : Nat) (reversed : Bool) (skew : FacetSkew) (d : Dev) (m : Memory) (q : List Instr), p < 8 → (d.hport p).st = .ident → skewWithin skew = true → exec (.facetLanesIdentified p desig reversed [] skew) ⟨d, m, q⟩ = .next ⟨d.setHport p fun h => { h with st := .centre }, m, q⟩) ∧
  (∀ (p : Nat) (desig : Nat) (reversed : Bool) (misid : List (Nat × Nat)) (skew : FacetSkew) (d : Dev) (m : Memory) (q : List Instr), p < 8 → (d.hport p).st = .ident → skewWithin skew = false → exec (.facetLanesIdentified p desig reversed misid skew) ⟨d, m, q⟩ = .next ⟨d, m, q⟩) ∧
  (∀ (p : Nat) (desig : Nat) (reversed : Bool) (misid : List (Nat × Nat)) (skew : FacetSkew) (d : Dev) (m : Memory) (q : List Instr), 8 ≤ p → p < 12 → (d.hport p).st = .ident → desig ≠ p - 8 → exec (.facetLanesIdentified p desig reversed misid skew) ⟨d, m, q⟩ = .next ⟨Dev.settle ((d.holdTile (p - 8) fun x => { x with mismatch := true }).setHport p fun h => { h with st := .failed }), m, q⟩) ∧
  (∀ (p : Nat) (d : Dev) (m : Memory) (q : List Instr), p < 8 → (d.hport p).st = .centre → exec (.facetCentreDone p [] []) ⟨d, m, q⟩ = .next ⟨Dev.settle (d.judgeLanes p), m, q⟩) ∧
  (∀ (p : Nat) (copies : Nat) (maps : List (Nat × BitVec 34)) (d : Dev) (m : Memory) (q : List Instr) (x : Dev), p < 8 → 16 ≤ copies → (d.hport p).st = .repair → ((clusters p).all fun c => maps.any fun m => decide (m.1 = c)) = true → maps.foldl (fun (d : Dev) m => (d.setClus p m.1 (·.adopt m.2)).innerMasked p true m.1) d = x → 24 ≤ (x.hport p).goodClus → exec (.facetLaneRes p copies maps) ⟨d, m, q⟩ = .next ⟨((x.setHport p fun h => { h with good := (x.hport p).goodClus }).setHport p fun h => { h with st := .negotiate }).emits [.facetTrain p 2 [0x21, 0x300F], .facetTrain p 3 [64, 8, 4, 4]], m, q⟩) ∧
  (∀ (p : Nat) (copies : Nat) (rev : Nat) (feat : W32) (d : Dev) (m : Memory) (q : List Instr), p < 8 → 16 ≤ copies → (d.hport p).st = .negotiate → 0x10 ≤ rev → (d.hport p).crdSeen = false → exec (.facetNeg p copies rev feat) ⟨d, m, q⟩ = .next ⟨(d.setHport p fun h => { h with peerRev := rev, peerFeat := feat, negSeen := true }).emits [.facetTrain p 2 [agreedRev rev, (agreedFeat feat).toNat], .facetTrain p 3 [64, if agreedRev rev < 0x21 then 2 else 8, 4, 4]], m, q⟩) ∧
  (∀ (p : Nat) (copies : Nat) (mem : Nat) (coh : Nat) (irq : Nat) (dbg : Nat) (d : Dev) (m : Memory) (q : List Instr), p < 8 → 16 ≤ copies → (d.hport p).st = .negotiate → (d.hport p).negSeen = true → exec (.facetCrd p copies mem coh irq dbg) ⟨d, m, q⟩ = .next ⟨(d.setHport p fun h => { h with crdSeen := true, cred := Tab.put 0 0 (8 * mem) (Tab.put 0 1 (8 * coh) (Tab.put 0 2 (8 * irq) (Tab.put 0 3 (8 * dbg) []))) }).emit (.facetTrain p 4 []), m, q⟩) ∧
  (∀ (p : Nat) (copies : Nat) (d : Dev) (m : Memory) (q : List Instr), p < 8 → 16 ≤ copies → (d.hport p).st = .negotiate → (d.hport p).negSeen = true → (d.hport p).crdSeen = true → exec (.facetReady p copies) ⟨d, m, q⟩ = .next ⟨(d.setHport p fun g => { g with st := .active, rev := agreedRev (d.hport p).peerRev, feat := agreedFeat (d.hport p).peerFeat, tries := 0, cycle0 := d.now + 16, hrAt := none }).portOpened p, m, q⟩) ∧
  (∀ (p : Nat) (d : Dev) (m : Memory) (q : List Instr), p < 12 → (d.hport p).st = .clock → (d.hport p).tries < 2 → exec (.facetTrainTimeout p) ⟨d, m, q⟩ = .next ⟨(d.setHport p fun h => { h with tries := h.tries + 1 }).setHport p fun h => { h with st := .down, peerRev := 0, peerFeat := 0, negSeen := false, crdSeen := false, cred := [], good := 0, clus := Tab.mapv {} (fun _ c => if 8 ≤ p then { c with failRx := 0 } else ({ errs := c.errs, lastLane := c.lastLane } : Clus)) h.clus }, m, q⟩) ∧
  (∀ (p : Nat) (d : Dev) (m : Memory) (q : List Instr), p < 8 → (d.hport p).st = .negotiate → 2 ≤ (d.hport p).tries → exec (.facetTrainTimeout p) ⟨d, m, q⟩ = .next ⟨Dev.settle ((d.setHport p fun h => { h with tries := h.tries + 1 }).failFacet p), m, q⟩)

/-- The repair handshake fixes a cycle at least 32 Facet cycles on, drives the lane on both, moves the receiver, and ends; a mask handshake masks its cluster and takes the port down below 24 clusters; a failed Inner Facet cluster gives its role to a spare; the counters clear. What it takes beside the rules is the model's own reading (log 50, 59, 140, 141). -/
def Obligations.FacetLaneHealthCommands : Prop :=
  (∀ (p : Nat) (d : Dev) (m : Memory) (q : List Instr) (c : Nat) (lane : Nat) (n : Nat), p < 8 → (d.hport p).st = .active → (d.hport p).parity = true → 0 < n → c < 32 → (d.clus p c).masked = false → n < (d.hport p).laneThr → exec (.facetLaneWindow p (([(c, lane, n)]))) ⟨d, m, q⟩ = .next ⟨Dev.settle (d.setClus p c fun y => { y with errs := min 0xFFFF (y.errs + n), lastLane := lane }), m, q⟩) ∧
  (∀ (p : Nat) (d : Dev) (m : Memory) (q : List Instr) (c : Nat) (lane : Nat) (n : Nat), p < 8 → (d.hport p).st = .active → (d.hport p).parity = true → 0 < n → c < 32 → (d.clus p c).masked = false → (d.hport p).laneThr ≤ n → lane < 32 → exec (.facetLaneWindow p (([(c, lane, n)]))) ⟨d, m, q⟩ = .next ⟨Dev.settle ((d.setClus p c fun y => { y with errs := min 0xFFFF (y.errs + n), lastLane := lane }).laneFails p c lane), m, q⟩) ∧
  (∀ (p : Nat) (c' : Nat) (lane : Nat) (spare : Nat) (d : Dev) (m : Memory) (q : List Instr), p < 8 → c' < 32 → (d.hport p).st = .active → (d.clus p c').masked = false → (d.clus p c').change = none → (d.hport p).parity = true → exec (.facetRepairReq p c' lane spare) ⟨d, m, q⟩ = .next ⟨Dev.settle ((d.setClus p c' fun y => { y with change := some { mask := false, rx := false, lane := lane, spare := spare, cyc := some (d.facetCycle p + 32) }, asked := none }).linkMsg p 2 c' (d.facetCycle p + 32) 0), m, q⟩) ∧
  (∀ (p : Nat) (c' : Nat) (lane : Nat) (spare : Nat) (d : Dev) (m : Memory) (q : List Instr), p < 8 → c' < 32 → (d.hport p).st = .active → (d.clus p c').masked = false → (d.hport p).parity = false → exec (.facetRepairReq p c' lane spare) ⟨d, m, q⟩ = .next ⟨Dev.settle (d.post Src.facetProto p), m, q⟩) ∧
  (∀ (p : Nat) (c' : Nat) (n : Nat) (d : Dev) (m : Memory) (q : List Instr) (x : Change), p < 8 → c' < 32 → (d.clus p c').change = some x → x.mask = false → x.rx = true → x.cyc = none → exec (.facetRepairAt p c' n) ⟨d, m, q⟩ = .next ⟨d.setClus p c' fun y => { y with change := some { x with cyc := some n } }, m, q⟩) ∧
  (∀ (p : Nat) (c' : Nat) (d : Dev) (m : Memory) (q : List Instr) (x : Change), p < 8 → c' < 32 → (d.clus p c').change = some x → x.mask = false → x.rx = false → x.cyc.isSome = true → x.dual = false → exec (.facetRepairCycleN p c') ⟨d, m, q⟩ = .next ⟨Dev.settle ((d.setClus p c' fun y => { y with change := some { x with dual := true }, tx := y.tx.take x.lane x.spare }).post Src.facetLane1 p), m, q⟩) ∧
  (∀ (p : Nat) (c' : Nat) (d : Dev) (m : Memory) (q : List Instr) (x : Change), p < 8 → c' < 32 → (d.clus p c').change = some x → x.mask = false → x.rx = true → x.cyc.isSome = true → x.taken = false → exec (.facetRepairTake p c') ⟨d, m, q⟩ = .next ⟨Dev.settle ((d.setClus p c' fun y => { y with change := some { x with taken := true }, rx := y.rx.take x.lane x.spare }).post Src.facetLane1 p), m, q⟩) ∧
  (∀ (p : Nat) (c' : Nat) (d : Dev) (m : Memory) (q : List Instr) (x : Change), p < 8 → c' < 32 → (d.clus p c').change = some x → x.taken = true → exec (.facetRepairRelease p c') ⟨d, m, q⟩ = .next ⟨Dev.settle ((d.setClus p c' fun y => { y with change := none }).nextChange p c'), m, q⟩) ∧
  (∀ (p : Nat) (c' : Nat) (d : Dev) (m : Memory) (q : List Instr), p < 8 → c' < 32 → (d.hport p).st = .active → (d.clus p c').masked = false → (d.clus p c').change = none → (d.hport p).uses 1 = true → exec (.facetMaskReq p c') ⟨d, m, q⟩ = .next ⟨Dev.settle ((d.setClus p c' fun y => { y with change := some { mask := true, rx := false, cyc := some (d.facetCycle p + 32) }, asked := none }).linkMsg p 4 c' (d.facetCycle p + 32) 0), m, q⟩) ∧
  (∀ (p : Nat) (c' : Nat) (m' : Nat) (d : Dev) (m : Memory) (q : List Instr) (x : Change), p < 8 → c' < 32 → (d.clus p c').change = some x → x.mask = true → x.cyc = none → exec (.facetMaskAt p c' m') ⟨d, m, q⟩ = .next ⟨d.setClus p c' fun y => { y with change := some { x with cyc := some m' } }, m, q⟩) ∧
  (∀ (p : Nat) (c' : Nat) (d : Dev) (m : Memory) (q : List Instr) (x : Change), p < 8 → c' < 32 → (d.clus p c').change = some x → x.mask = true → x.cyc.isSome = true → exec (.facetMaskCycle p c') ⟨d, m, q⟩ = .next ⟨Dev.settle ((if ((d.maskNow p c').hport p).good < 24 then (d.maskNow p c').takeDown p else d.maskNow p c')), m, q⟩) ∧
  (∀ (n : Nat) (c' : Nat) (toDie : Bool) (d : Dev) (m : Memory) (q : List Instr) (r : Nat), n < 4 → c' < 72 → ((d.inner n).dir toDie).failed.getLsbD c' = false → ((d.inner n).dir toDie).role c' = some r → exec (.innerClusterFail n c' toDie) ⟨d, m, q⟩ = .next ⟨Dev.settle (d.innerRole n r toDie (((d.inner n).dir toDie).fallen c')), m, q⟩) ∧
  (∀ (p : Nat) (d : Dev) (m : Memory) (q : List Instr), d.linkUp = true → d.memReq 0 = true → p < 8 → exec (.fctRetryClr p) ⟨d, m, q⟩ = .next ⟨d.setHport p fun h => { h with replays := 0, discard := 0 }, m, q⟩) ∧
  (∀ (p : Nat) (c' : Nat) (d : Dev) (m : Memory) (q : List Instr), d.linkUp = true → d.memReq 0 = true → p < 8 → c' < 32 → exec (.fctPerrClr p c') ⟨d, m, q⟩ = .next ⟨d.setClus p c' fun y => { y with errs := 0 }, m, q⟩)

/-- While the device runs and nothing waits, each memory message of a compute die is served and its credits returned, an RD, WR, WRP, ATOM or ATOMP as its own kind: one with a fabric address is split into its pieces, one of host memory is run on its host path; a completion ends the request it answers; C_GET, C_INVACK and C_DROP act on the directory; an invalidation unacknowledged for its time takes the port into HR; a timestamp is traced. Where the device is stopped an RD waits. What it takes beside the rules is the model's own reading (log 20, 61, 62, 63, 151). -/
def Obligations.ComputeDieMessageCommands : Prop :=
  (∀ (p : Nat) (m' : MemMsg) (d : Dev) (m : Memory) (q : List Instr), p < 8 → d.dbg.st ≠ .stopped → d.dbg.ingress = [] → exec (.facetMsgRd p m') ⟨d, m, q⟩ = .next ⟨Dev.settle (d.dieMsg 1 p m'), m, q⟩) ∧
  (∀ (p : Nat) (m' : MemMsg) (d : Dev) (m : Memory) (q : List Instr), p < 8 → d.dbg.st = .stopped → exec (.facetMsgRd p m') ⟨d, m, q⟩ = .next ⟨{ d with dbg.ingress := d.dbg.ingress ++ [.die 1 p m'] }, m, q⟩) ∧
  (∀ (p : Nat) (m' : MemMsg) (d : Dev) (m : Memory) (q : List Instr), p < 8 → d.dbg.st ≠ .stopped → d.dbg.ingress = [] → exec (.facetMsgWr p m') ⟨d, m, q⟩ = .next ⟨Dev.settle (d.dieMsg 2 p m'), m, q⟩) ∧
  (∀ (p : Nat) (m' : MemMsg) (d : Dev) (m : Memory) (q : List Instr), p < 8 → d.dbg.st ≠ .stopped → d.dbg.ingress = [] → exec (.facetMsgWrp p m') ⟨d, m, q⟩ = .next ⟨Dev.settle (d.dieMsg 3 p m'), m, q⟩) ∧
  (∀ (p : Nat) (m' : MemMsg) (d : Dev) (m : Memory) (q : List Instr), p < 8 → d.dbg.st ≠ .stopped → d.dbg.ingress = [] → exec (.facetMsgAtom p m') ⟨d, m, q⟩ = .next ⟨Dev.settle (d.dieMsg 4 p m'), m, q⟩) ∧
  (∀ (p : Nat) (m' : MemMsg) (d : Dev) (m : Memory) (q : List Instr), p < 8 → d.dbg.st ≠ .stopped → d.dbg.ingress = [] → exec (.facetMsgAtomp p m') ⟨d, m, q⟩ = .next ⟨Dev.settle (d.dieMsg 5 p m'), m, q⟩) ∧
  (∀ (p : Nat) (tag : Nat) (tenant : Nat) (status : Nat) (d : Dev) (m : Memory) (q : List Instr), p < 8 → d.dbg.st ≠ .stopped → d.dbg.ingress = [] → exec (.facetMsgCpl p tag tenant status) ⟨d, m, q⟩ = .next ⟨Dev.settle (d.dieCpl p tag tenant status []), m, q⟩) ∧
  (∀ (p : Nat) (tag : Nat) (tenant : Nat) (status : Nat) (data : List W64) (d : Dev) (m : Memory) (q : List Instr), p < 8 → d.dbg.st ≠ .stopped → d.dbg.ingress = [] → exec (.facetMsgCpld p tag tenant status data) ⟨d, m, q⟩ = .next ⟨Dev.settle (d.dieCpl p tag tenant status data), m, q⟩) ∧
  (∀ (p : Nat) (w : CohWord) (d : Dev) (m : Memory) (q : List Instr), p < 8 → d.dbg.st ≠ .stopped → d.dbg.ingress = [] → (d.hport p).st = .active → exec (.facetCohGet p w) ⟨d, m, q⟩ = .next ⟨Dev.settle (d.cohGet p w), m, q⟩) ∧
  (∀ (p : Nat) (w : CohWord) (d : Dev) (m : Memory) (q : List Instr) (e : DirEnt), p < 8 → d.dbg.st ≠ .stopped → d.dbg.ingress = [] → (d.hport p).st = .active → (d.rm.dir.find? fun e => decide (e.word = w)) = some e → exec (.facetCohInvack p w) ⟨d, m, q⟩ = .next ⟨Dev.settle (d.dropCopy p true e), m, q⟩) ∧
  (∀ (p : Nat) (w : CohWord) (d : Dev) (m : Memory) (q : List Instr) (e : DirEnt), p < 8 → d.dbg.st ≠ .stopped → d.dbg.ingress = [] → (d.hport p).st = .active → (d.rm.dir.find? fun e => decide (e.word = w)) = some e → exec (.facetCohDrop p w) ⟨d, m, q⟩ = .next ⟨Dev.settle (d.dropCopy p false e), m, q⟩) ∧
  (∀ (p : Nat) (w : CohWord) (d : Dev) (m : Memory) (q : List Instr), p < 8 → d.dbg.st ≠ .stopped → (d.rm.dir.any fun e => decide (e.word = w) && e.acks.contains p) = true → exec (.cohInvackTimeout p w) ⟨d, m, q⟩ = .next ⟨Dev.settle ((d.enterHr p false).post Src.facetCoh p), m, q⟩) ∧
  (∀ (p : Nat) (ftime : W64) (valid : Bool) (d : Dev) (m : Memory) (q : List Instr), p < 8 → (d.hport p).st = .active → valid = true → (d.hport p).feat.getLsbD 3 = true → exec (.facetTimestampRx p ftime valid) ⟨d, m, q⟩ = .next ⟨d.trace 0x0A 0xFF 0 0xFFFF 0 none ftime.toNat, m, q⟩) ∧
  (∀ (p : Nat) (m' : MemMsg) (d : Dev) (m : Memory) (q : List Instr) (x : Dev), d.takesDie 1 p m' → d.wake.claim 0 m'.tenant 1 = (x, true) → m'.fabric = true → exec (.facetMsgRd p m') ⟨d, m, q⟩ = .next ⟨Dev.settle (((x.memCredit p m').count m'.tenant 56 1).dieFabric 1 p m'), m, q⟩) ∧
  (∀ (p : Nat) (m' : MemMsg) (d : Dev) (m : Memory) (q : List Instr) (x : Dev), d.takesDie 1 p m' → d.wake.claim 0 m'.tenant 1 = (x, true) → m'.fabric = false → isDoorbell m'.addr = false → isSemAddr m'.addr = false → exec (.facetMsgRd p m') ⟨d, m, q⟩ = .next ⟨Dev.settle (((x.memCredit p m').dieHost 1 p m').give 0 m'.tenant 1), m, q⟩) ∧
  (∀ (p : Nat) (m' : MemMsg) (d : Dev) (m : Memory) (q : List Instr) (x : Dev), d.takesDie 2 p m' → d.wake.claim 0 m'.tenant 1 = (x, true) → m'.fabric = true → exec (.facetMsgWr p m') ⟨d, m, q⟩ = .next ⟨Dev.settle (((x.memCredit p m').count m'.tenant 57 1).dieFabric 2 p m'), m, q⟩) ∧
  (∀ (p : Nat) (m' : MemMsg) (d : Dev) (m : Memory) (q : List Instr) (x : Dev), d.takesDie 2 p m' → d.wake.claim 0 m'.tenant 1 = (x, true) → m'.fabric = false → isDoorbell m'.addr = false → isSemAddr m'.addr = false → exec (.facetMsgWr p m') ⟨d, m, q⟩ = .next ⟨Dev.settle (((x.memCredit p m').dieHost 2 p m').give 0 m'.tenant 1), m, q⟩) ∧
  (∀ (p : Nat) (m' : MemMsg) (d : Dev) (m : Memory) (q : List Instr) (x : Dev), d.takesDie 3 p m' → d.wake.claim 0 m'.tenant 1 = (x, true) → m'.fabric = true → exec (.facetMsgWrp p m') ⟨d, m, q⟩ = .next ⟨Dev.settle (((x.memCredit p m').count m'.tenant 57 1).dieFabric 3 p m'), m, q⟩) ∧
  (∀ (p : Nat) (m' : MemMsg) (d : Dev) (m : Memory) (q : List Instr) (x : Dev), d.takesDie 3 p m' → d.wake.claim 0 m'.tenant 1 = (x, true) → m'.fabric = false → isDoorbell m'.addr = false → isSemAddr m'.addr = false → exec (.facetMsgWrp p m') ⟨d, m, q⟩ = .next ⟨Dev.settle (((x.memCredit p m').dieHost 3 p m').give 0 m'.tenant 1), m, q⟩) ∧
  (∀ (p : Nat) (m' : MemMsg) (d : Dev) (m : Memory) (q : List Instr) (x : Dev), d.takesDie 4 p m' → d.wake.claim 0 m'.tenant 1 = (x, true) → m'.fabric = true → exec (.facetMsgAtom p m') ⟨d, m, q⟩ = .next ⟨Dev.settle (((x.memCredit p m').count m'.tenant 58 1).dieFabric 4 p m'), m, q⟩) ∧
  (∀ (p : Nat) (m' : MemMsg) (d : Dev) (m : Memory) (q : List Instr) (x : Dev), d.takesDie 4 p m' → d.wake.claim 0 m'.tenant 1 = (x, true) → m'.fabric = false → isDoorbell m'.addr = false → isSemAddr m'.addr = false → exec (.facetMsgAtom p m') ⟨d, m, q⟩ = .next ⟨Dev.settle (((x.memCredit p m').dieHost 4 p m').give 0 m'.tenant 1), m, q⟩) ∧
  (∀ (p : Nat) (m' : MemMsg) (d : Dev) (m : Memory) (q : List Instr) (x : Dev), d.takesDie 5 p m' → d.wake.claim 0 m'.tenant 1 = (x, true) → m'.fabric = true → exec (.facetMsgAtomp p m') ⟨d, m, q⟩ = .next ⟨Dev.settle (((x.memCredit p m').count m'.tenant 58 1).dieFabric 5 p m'), m, q⟩) ∧
  (∀ (p : Nat) (m' : MemMsg) (d : Dev) (m : Memory) (q : List Instr) (x : Dev), d.takesDie 5 p m' → d.wake.claim 0 m'.tenant 1 = (x, true) → m'.fabric = false → isDoorbell m'.addr = false → isSemAddr m'.addr = false → exec (.facetMsgAtomp p m') ⟨d, m, q⟩ = .next ⟨Dev.settle (((x.memCredit p m').dieHost 5 p m').give 0 m'.tenant 1), m, q⟩) ∧
  (∀ (p : Nat) (tag : Nat) (tenant : Nat) (status : Nat) (d : Dev) (m : Memory) (q : List Instr) (x : Dev) (r : HRead) (y : Dev) (js : List Job), p < 8 → d.dbg.st ≠ .stopped → d.dbg.ingress = [] → (d.hport p).st = .active → d.memCredit p { fabric := false, tag, tenant, len := 0, addr := 0, data := [] } = x → (x.mbx.reads.find? fun r => decide (r.port = some p) && decide (r.tag = tag) && decide (fnTenant r.fn % 16 = tenant % 16)) = some r → x.readEnded r (facetStatus status) [] = (y, js) → exec (.facetMsgCpl p tag tenant status) ⟨d, m, q⟩ = .next ⟨Dev.settle (y.jobsDone js), m, q⟩) ∧
  (∀ (p : Nat) (tag : Nat) (tenant : Nat) (status : Nat) (data : List W64) (d : Dev) (m : Memory) (q : List Instr) (x : Dev) (r : HRead) (y : Dev) (js : List Job), p < 8 → d.dbg.st ≠ .stopped → d.dbg.ingress = [] → (d.hport p).st = .active → d.memCredit p { fabric := false, tag, tenant, len := 0, addr := 0, data := data } = x → (x.mbx.reads.find? fun r => decide (r.port = some p) && decide (r.tag = tag) && decide (fnTenant r.fn % 16 = tenant % 16)) = some r → x.readEnded r (facetStatus status) data = (y, js) → exec (.facetMsgCpld p tag tenant status data) ⟨d, m, q⟩ = .next ⟨Dev.settle (y.jobsDone js), m, q⟩) ∧
  (∀ (p : Nat) (w : CohWord) (d : Dev) (m : Memory) (q : List Instr), p < 8 → d.dbg.st ≠ .stopped → d.dbg.ingress = [] → (d.hport p).st = .active → d.cohRefused p w = none → (d.rm.dir.find? fun e => decide (e.word = w)) = none → exec (.facetCohGet p w) ⟨d, m, q⟩ = .next ⟨Dev.settle (Dev.facet { d with rm.dir := d.rm.dir ++ [{ word := w, holders := insertNat p [] }] } p 1 1 (.facetCoh p 2 w (d.cohValue w))), m, q⟩)

/-- A doorbell write is taken or refused by its checks; the next visible descriptor of a running queue starts where its fence and the fabric allow; a timeout ends the transaction, operation or descriptor it names; a freed unit goes to a waiting tenant below its floor first; a quarantined serial is free again at its end; resent waits are sent; the counters clear. What it takes beside the rules is the model's own reading (log 13, 35, 150, 152, 153). -/
def Obligations.DoorbellAndStartCommands : Prop :=
  (∀ (t : Nat) (q' : Nat) (n : W32) (d : Dev) (m : Memory) (q : List Instr), d.linkUp = true → d.memReq (t + 1) = true → t < 16 → q' < 64 → exec (.tenDbtailWrite t q' n) ⟨d, m, q⟩ = .next ⟨Dev.settle (d.doorbell (64 * t + q') n), m, q⟩) ∧
  (∀ (t : Nat) (q' : Nat) (d' : Desc) (d : Dev) (m : Memory) (q : List Instr) (w : Queue), t < 16 → q' < 64 → d.queue (64 * t + q') = w → w.st = .running → w.nextStart ≠ w.tail → d.dbg.st ≠ .stopped → d.fenced t = false → (d.opsOf (64 * t + q')).length < 64 → (d'.fence = false ∨ w.head = w.nextStart) → (needsFabric d' = false ∨ d.boot.stage = .fabricReady) → w.fetched.contains w.nextStart.toNat = true → exec (.descStart t q' d') ⟨d, m, q⟩ = .next ⟨Dev.settle (d.startDesc (64 * t + q') w.nextStart d'), m, q⟩) ∧
  (∀ (d : Dev) (m : Memory) (q : List Instr), d.dbg.st ≠ .stopped → exec (.semWaitResend) ⟨d, m, q⟩ = .next ⟨Dev.settle (d.col.resend.foldl (fun (d : Dev) w => match d.opAt w.1 w.2 with | some o => d.semIssue o | none => d) { d with col.resend := [] }), m, q⟩) ∧
  (∀ (gq : Nat) (idx : Nat) (d : Dev) (m : Memory) (q : List Instr) (n : W32) (x : Txn), gq < 1024 → d.dbg.st ≠ .stopped → (d.tq.txns.find? fun x => decide (x.gq = gq) && decide (x.serial = n)) = some x → x.issued + 1000 * d.txnLimit x ≤ d.now → exec (.txnTimeout gq idx ((some n))) ⟨d, m, q⟩ = .next ⟨Dev.settle (d.txnFailed x .timeout), m, q⟩) ∧
  (∀ (gq : Nat) (idx : Nat) (d : Dev) (m : Memory) (q : List Instr) (o : Op), gq < 1024 → d.dbg.st ≠ .stopped → d.opAt gq idx = some o → d.opExpired o = true → exec (.txnTimeout gq idx none) ⟨d, m, q⟩ = .next ⟨Dev.settle (d.endOp gq idx .timeout), m, q⟩) ∧
  (∀ (gq : Nat) (idx : Nat) (d : Dev) (m : Memory) (q : List Instr) (t : Nat), gq < 1024 → d.dbg.st ≠ .stopped → d.opAt gq idx = none → (BitVec.ofNat 32 idx - (d.queue gq).nextStart).toNat < ((d.queue gq).tail - (d.queue gq).nextStart).toNat → idx ∉ (d.queue gq).recs → (d.queue gq).visibleAt idx = some t → t + 1000 * (d.queue gq).timeout ≤ d.now → exec (.txnTimeout gq idx none) ⟨d, m, q⟩ = .next ⟨Dev.settle (d.endUnstarted gq idx .timeout), m, q⟩) ∧
  (∀ (pool : Nat) (t : Nat) (d : Dev) (m : Memory) (q : List Instr) (u : Nat), pool < 3 → pool ≠ 0 → t < 16 → d.lowWaiter pool = some u → exec (.bufferUnitFree pool t) ⟨d, m, q⟩ = .next ⟨{ d with tq.turn := Tab.put 0 pool ((u + 1) % 16) d.tq.turn }.grantWaiter pool u, m, q⟩) ∧
  (∀ (pool : Nat) (t : Nat) (d : Dev) (m : Memory) (q : List Instr), pool < 3 → pool ≠ 0 → t < 16 → d.lowWaiter pool = none → d.unitsFor pool t = true → exec (.bufferUnitFree pool t) ⟨d, m, q⟩ = .next ⟨d.grantWaiter pool t, m, q⟩) ∧
  (∀ (t : Nat) (d : Dev) (m : Memory) (q : List Instr) (u : Nat), t < 16 → d.lowWaiter 0 = some u → exec (.bufferUnitFree 0 t) ⟨d, m, q⟩ = .next ⟨Dev.settle ((List.range 12).foldl (fun d p => d.retryPort u p) ({ d with tq.turn := Tab.put 0 0 ((u + 1) % 16) d.tq.turn }.grantWaiter 0 u)), m, q⟩) ∧
  (∀ (gq : Nat) (serial : W32) (d : Dev) (m : Memory) (q : List Instr), gq < 1024 → exec (.serialQuarantineEnd gq serial) ⟨d, m, q⟩ = .next ⟨d.setQueue gq fun q => { q with retired := q.retired.filter fun r => !(decide (r.1 = serial.toNat) && decide (r.2 + 1000000000 ≤ d.now)) }, m, q⟩) ∧
  (∀ (t : Nat) (q' : Nat) (d : Dev) (m : Memory) (q : List Instr), d.linkUp = true → (d.memReq (t + 1) = true ∨ d.memReq 0 = true) → t < 16 → q' < 64 → exec (.tenQcntClr t q') ⟨d, m, q⟩ = .next ⟨d.setQueue (64 * t + q') fun x => { x with timeouts := 0, refused := 0 }, m, q⟩) ∧
  (∀ (t : Nat) (q' : Nat) (d : Dev) (m : Memory) (q : List Instr), d.linkUp = true → (d.memReq (t + 1) = true ∨ d.memReq 0 = true) → t < 16 → q' < 64 → exec (.tenQlateClr t q') ⟨d, m, q⟩ = .next ⟨d.setQueue (64 * t + q') fun x => { x with late := 0 }, m, q⟩) ∧
  (∀ (t : Nat) (q' : Nat) (n : W32) (d : Dev) (m : Memory) (q : List Instr) (w : Queue), d.linkUp = true → d.memReq (t + 1) = true → t < 16 → q' < 64 → d.wake.queue (64 * t + q') = w → w.st ≠ .absent → d.fenced t = false → (n - w.tail).toNat < 2 ^ 31 → (n - w.head).toNat ≤ 2 ^ w.log2 → exec (.tenDbtailWrite t q' n) ⟨d, m, q⟩ = .next ⟨Dev.settle ((d.wake.setQueue (64 * t + q') fun y => { y with tail := n, visible := y.visible.filter (fun v => decide (v.1 ≠ w.head.toNat) && aheadOf w.head v.1) ++ [(n.toNat, d.now)] }).journal 0x01 t (64 * t + q') n.toNat), m, q⟩)

/-- A started operation of each kind is opened: a COPY, FILL, GET or PUT is split into segments over its bytes, an ATOMIC is issued as one transaction, a collective joins its instance, a semaphore operation is sent, a FLUSH waits for its marks and an EPOCH_READ for its epoch; the egress issues the segment of the tenant and the queue whose turn it is. What it takes beside the rules is the model's own reading (log 10, 27, 28). -/
def Obligations.OperationCommands : Prop :=
  (∀ (gq : Nat) (idx : Nat) (d : Dev) (m : Memory) (q : List Instr) (o : Op), gq < 1024 → d.toOpen gq idx 0x01 = some o → exec (.opCopy gq idx) ⟨d, m, q⟩ = .next ⟨Dev.settle (d.openBytes o (descBytes o.desc)), m, q⟩) ∧
  (∀ (gq : Nat) (idx : Nat) (d : Dev) (m : Memory) (q : List Instr) (o : Op), gq < 1024 → d.toOpen gq idx 0x02 = some o → exec (.opFill gq idx) ⟨d, m, q⟩ = .next ⟨Dev.settle (d.openBytes o (descBytes o.desc)), m, q⟩) ∧
  (∀ (gq : Nat) (idx : Nat) (d : Dev) (m : Memory) (q : List Instr) (o : Op), gq < 1024 → d.toOpen gq idx 0x10 = some o → exec (.opGet gq idx) ⟨d, m, q⟩ = .next ⟨Dev.settle (d.openBytes o (descBytes o.desc)), m, q⟩) ∧
  (∀ (gq : Nat) (idx : Nat) (d : Dev) (m : Memory) (q : List Instr) (o : Op), gq < 1024 → d.toOpen gq idx 0x11 = some o → exec (.opPut gq idx) ⟨d, m, q⟩ = .next ⟨Dev.settle (d.openBytes o (descBytes o.desc)), m, q⟩) ∧
  (∀ (gq : Nat) (idx : Nat) (d : Dev) (m : Memory) (q : List Instr) (o : Op), gq < 1024 → d.toOpen gq idx 0x12 = some o → exec (.opAtomic gq idx) ⟨d, m, q⟩ = .next ⟨Dev.settle (d.atomicIssue o), m, q⟩) ∧
  (∀ (gq : Nat) (idx : Nat) (d : Dev) (m : Memory) (q : List Instr) (o : Op), gq < 1024 → d.toOpen gq idx 0x20 = some o → exec (.opAllreduce gq idx) ⟨d, m, q⟩ = .next ⟨Dev.settle (d.openColl o), m, q⟩) ∧
  (∀ (gq : Nat) (idx : Nat) (d : Dev) (m : Memory) (q : List Instr) (o : Op), gq < 1024 → d.toOpen gq idx 0x21 = some o → exec (.opReduceScatter gq idx) ⟨d, m, q⟩ = .next ⟨Dev.settle (d.openColl o), m, q⟩) ∧
  (∀ (gq : Nat) (idx : Nat) (d : Dev) (m : Memory) (q : List Instr) (o : Op), gq < 1024 → d.toOpen gq idx 0x22 = some o → exec (.opBarrier gq idx) ⟨d, m, q⟩ = .next ⟨Dev.settle (d.openColl o), m, q⟩) ∧
  (∀ (gq : Nat) (idx : Nat) (d : Dev) (m : Memory) (q : List Instr) (o : Op), gq < 1024 → d.toOpen gq idx 0x30 = some o → exec (.opSemAtomic gq idx) ⟨d, m, q⟩ = .next ⟨Dev.settle (d.semIssue o), m, q⟩) ∧
  (∀ (gq : Nat) (idx : Nat) (d : Dev) (m : Memory) (q : List Instr) (o : Op), gq < 1024 → d.toOpen gq idx 0x31 = some o → exec (.opSemWait gq idx) ⟨d, m, q⟩ = .next ⟨Dev.settle (d.semIssue o), m, q⟩) ∧
  (∀ (gq : Nat) (idx : Nat) (d : Dev) (m : Memory) (q : List Instr) (o : Op), gq < 1024 → d.toOpen gq idx 0x32 = some o → exec (.opSemRead gq idx) ⟨d, m, q⟩ = .next ⟨Dev.settle (d.semIssue o), m, q⟩) ∧
  (∀ (egress : Nat) (d : Dev) (m : Memory) (q : List Instr) (t : Nat) (tdef : Nat → Nat) (gq : Nat) (qdef : Nat → Nat) (o : Op) (off : Nat) (len : Nat), egress < 80 → d.dbg.st ≠ .stopped → d.pickTenant egress = some (t, tdef) → d.pickQueue t egress = some (gq, qdef) → d.nextOf gq egress = some (o, off, len) → exec (.segmentIssue egress) ⟨d, m, q⟩ = .next ⟨Dev.settle ((d.chargeTurn egress t tdef qdef).grantIssue o off len), m, q⟩) ∧
  (∀ (gq : Nat) (idx : Nat) (d : Dev) (m : Memory) (q : List Instr) (o : Op), gq < 1024 → d.toOpen gq idx 0x40 = some o → exec (.opFlush gq idx) ⟨d, m, q⟩ = .next ⟨Dev.settle (d.openFlush o), m, q⟩) ∧
  (∀ (gq : Nat) (idx : Nat) (d : Dev) (m : Memory) (q : List Instr) (o : Op), gq < 1024 → d.toOpen gq idx 0x41 = some o → d.vaultServes = true → exec (.opEpochRead gq idx) ⟨d, m, q⟩ = .next ⟨Dev.settle (d.openEpochRead o), m, q⟩) ∧
  (∀ (gq : Nat) (idx : Nat) (d : Dev) (m : Memory) (q : List Instr) (o : Op) (a : W64) (b : W64) (c : Nat) (aop : Nat) (v : W64) (w : W64) (x : Dev) (y : Dev), gq < 1024 → d.toOpen gq idx 0x12 = some o → o.desc.body = .remote a b c aop v w → d.mustWait o = false → (d.ownWrite (o.gq / 64) a.toNat 8).claim 0 (o.gq / 64) 1 = (x, true) → x.transact o.gq (.op o.idx 0 8) .atom { (d.ownWrite (o.gq / 64) a.toNat 8).opPkt o a 0 with aux := aop, len := if aop = 5 then 16 else 8, data := if aop = 5 then [v, w] else [v] } .none a.toNat 8 true o.desc.relaxed = (y, .ok) → exec (.opAtomic gq idx) ⟨d, m, q⟩ = .next ⟨Dev.settle (y.setOp { o with open_ := true, issued := true, total := 8, next := 8, held := o.held + 1 }), m, q⟩) ∧
  (∀ (gq : Nat) (idx : Nat) (d : Dev) (m : Memory) (q : List Instr) (o : Op) (a : W64) (u : W64) (v : W64) (aop : Nat) (cond : Nat) (x : Dev) (w : W64), gq < 1024 → d.toOpen gq idx 0x30 = some o → o.desc.body = .sem a u v aop cond → o.desc.relaxed = true → d.alias = some (faNode a / 2 * 2) → faTen a = o.gq / 64 → d.semOwner (a.toNat % 2 ^ 18) = o.gq / 64 + 1 → (d.setOp { o with open_ := true, issued := true }).semDo (a.toNat % 2 ^ 18) { op := o.desc.op, aop, cond, operand := u, compare := v } = (x, some w) → exec (.opSemAtomic gq idx) ⟨d, m, q⟩ = .next ⟨Dev.settle (x.finishOp o.gq o.idx .ok w), m, q⟩) ∧
  (∀ (gq : Nat) (idx : Nat) (d : Dev) (m : Memory) (q : List Instr) (o : Op) (a : W64) (u : W64) (v : W64) (aop : Nat) (cond : Nat) (x : Dev) (w : W64), gq < 1024 → d.toOpen gq idx 0x31 = some o → o.desc.body = .sem a u v aop cond → o.desc.relaxed = true → d.alias = some (faNode a / 2 * 2) → faTen a = o.gq / 64 → d.semOwner (a.toNat % 2 ^ 18) = o.gq / 64 + 1 → (d.setOp { o with open_ := true, issued := true }).semDo (a.toNat % 2 ^ 18) { op := o.desc.op, aop, cond, operand := u, compare := v } = (x, some w) → exec (.opSemWait gq idx) ⟨d, m, q⟩ = .next ⟨Dev.settle (x.finishOp o.gq o.idx .ok w), m, q⟩) ∧
  (∀ (gq : Nat) (idx : Nat) (d : Dev) (m : Memory) (q : List Instr) (o : Op) (a : W64) (u : W64) (v : W64) (aop : Nat) (cond : Nat) (x : Dev) (w : W64), gq < 1024 → d.toOpen gq idx 0x32 = some o → o.desc.body = .sem a u v aop cond → o.desc.relaxed = true → d.alias = some (faNode a / 2 * 2) → faTen a = o.gq / 64 → d.semOwner (a.toNat % 2 ^ 18) = o.gq / 64 + 1 → (d.setOp { o with open_ := true, issued := true }).semDo (a.toNat % 2 ^ 18) { op := o.desc.op, aop, cond, operand := u, compare := v } = (x, some w) → exec (.opSemRead gq idx) ⟨d, m, q⟩ = .next ⟨Dev.settle (x.finishOp o.gq o.idx .ok w), m, q⟩) ∧
  (∀ (egress : Nat) (d : Dev) (m : Memory) (q : List Instr) (t : Nat) (tdef : Nat → Nat) (gq : Nat) (qdef : Nat → Nat) (o : Op) (off : Nat) (len : Nat) (x : Dev), egress < 80 → d.dbg.st ≠ .stopped → d.pickTenant egress = some (t, tdef) → d.pickQueue t egress = some (gq, qdef) → d.nextOf gq egress = some (o, off, len) → (d.chargeTurn egress t tdef qdef).claim 0 (o.gq / 64) (bufUnits len) = (x, true) → exec (.segmentIssue egress) ⟨d, m, q⟩ = .next ⟨Dev.settle ((x.spend o.gq len).issueSeg o off len), m, q⟩)

/-- A mount makes the Vault ready or fails it; a marked granule is read, programmed as a version and, without mirroring, stored; a seal record is programmed once every granule of its epoch is; programs, erases and page reads count, retire or refresh their block; reclaiming moves live versions before the erase; a lost die damages its versions; the counters clear. What it takes beside the rules is the model's own reading (log 31, 95, 99, 172, 174). -/
def Obligations.VaultCaptureCommands : Prop :=
  (∀ (d : Dev) (m : Memory) (q : List Instr), d.vlt.st = .mounting → (d.onyx.vers = [] ∨ d.secNv.pvk.isSome = true) → exec (.vltMount true) ⟨d, m, q⟩ = .next ⟨Dev.settle d.dropHeldDies.mounted, m, q⟩) ∧
  (∀ (d : Dev) (m : Memory) (q : List Instr), d.vlt.st = .mounting → exec (.vltMount false) ⟨d, m, q⟩ = .next ⟨Dev.settle d.mountFails, m, q⟩) ∧
  (∀ (t : Nat) (region : Nat) (granule : Nat) (d : Dev) (m : Memory) (q : List Instr) (k : Mark) (reg : Region) (n : Nat), t < 16 → region < 16 → d.markOf t region granule = some k → Tab.look none region (d.vten t).regions = some reg → d.captureUnits t = some n → d.mayCapture t = true → d.captureTurn t k = true → exec (.vltCaptureStart t region granule) ⟨d, m, q⟩ = .next ⟨Dev.settle (d.beginCapture t region granule k reg n), m, q⟩) ∧
  (∀ (t : Nat) (region : Nat) (granule : Nat) (d : Dev) (m : Memory) (q : List Instr) (k : Mark) (x : Dev), t < 16 → region < 16 → d.readMark t region granule = some k → d.programMirror (!d.vlt.lastMirror) = x → (x.storeVer (x.captureVer t k)).2 = true → exec (.vltCaptureDone t region granule) ⟨d, m, q⟩ = .next ⟨Dev.settle (((x.storeVer (x.captureVer t k)).1.captured t k ((x.storeVer (x.captureVer t k)).1.captureVer t k)).programMirror true), m, q⟩) ∧
  (∀ (t : Nat) (d : Dev) (m : Memory) (q : List Instr) (x : Sealing), t < 16 → d.sealReady t = some x → exec (.vltSealRecord t) ⟨d, m, q⟩ = .next ⟨Dev.settle (d.recordSeal t x), m, q⟩) ∧
  (∀ (die : Nat) (block : Nat) (page : Nat) (d : Dev) (m : Memory) (q : List Instr), die < 8 → block < 4096 → isTest block = false → d.rawProgram (4096 * die + block) page = none → (d.blk (4096 * die + block)).bad = false → exec (.vltProgramDone die block page true) ⟨d, m, q⟩ = .next ⟨d.setBlk (4096 * die + block) fun b => b.program page d.now, m, q⟩) ∧
  (∀ (die : Nat) (block : Nat) (page : Nat) (d : Dev) (m : Memory) (q : List Instr), die < 8 → block < 4096 → isTest block = false → d.rawProgram (4096 * die + block) page = none → (d.blk (4096 * die + block)).bad = false → exec (.vltProgramDone die block page false) ⟨d, m, q⟩ = .next ⟨Dev.settle (d.programFailed (4096 * die + block) page), m, q⟩) ∧
  (∀ (die : Nat) (block : Nat) (ok : Bool) (d : Dev) (m : Memory) (q : List Instr), die < 8 → block < 4096 → (d.rawErasing die block = true ∨ (d.blk (4096 * die + block)).st = .erasing) → exec (.vltEraseDone die block ok) ⟨d, m, q⟩ = .next ⟨Dev.settle (d.blockErased (4096 * die + block) (d.rawErasing die block) ok), m, q⟩) ∧
  (∀ (die : Nat) (block : Nat) (page : Nat) (reads : List (List Nat)) (d : Dev) (m : Memory) (q : List Instr) (n : Nat) (errors : List Nat) (ok : Bool), die < 8 → block < 4096 → goodRead reads = some (n, errors, ok) → exec (.vltPageReadDone die block page reads) ⟨d, m, q⟩ = .next ⟨Dev.settle (d.pageRead (4096 * die + block) page n errors ok), m, q⟩) ∧
  (∀ (d : Dev) (m : Memory) (q : List Instr) (i : Nat) (p : Nat), d.mayProgram = true → d.scrubNext = some (i, p) → d.vaultBusier = false → exec (.vltScrubTick) ⟨d, m, q⟩ = .next ⟨Dev.setBlk { d with vlt.scrub := (i, p + 1), vlt.scrubAt := if d.passOver then d.now else d.vlt.scrubAt } i fun b => { b with refresh := b.refresh || (decide (b.born + days180 ≤ d.now) && decide (b.st = BlkSt.mapped)) }, m, q⟩) ∧
  (∀ (die : Nat) (block : Nat) (d : Dev) (m : Memory) (q : List Instr), die < 8 → block < 4096 → isTest block = false → d.mayProgram = true → (d.blk (4096 * die + block)).st = .mapped → (d.moveLive (4096 * die + block)).2 = true → d.reclaimDue (4096 * die + block) = true → exec (.vltReclaim die block) ⟨d, m, q⟩ = .next ⟨(d.moveLive (4096 * die + block)).1.eraseBands (4096 * die + block), m, q⟩) ∧
  (∀ (die : Nat) (d : Dev) (m : Memory) (q : List Instr), die < 8 → d.vlt.out.getLsbD die = false → exec (.vltDieLost die) ⟨d, m, q⟩ = .next ⟨Dev.settle (d.loseDie die), m, q⟩) ∧
  (∀ (d : Dev) (m : Memory) (q : List Instr), d.linkUp = true → d.memReq 0 = true → exec (.vltCntClr) ⟨d, m, q⟩ = .next ⟨{ d with vlt.corr := 0, vlt.uncorr := 0, vlt.refresh := 0 }, m, q⟩)

/-- A restore that ends makes its epoch the base of the open one; a resync sends the partner what it lacks, and healing asks it for damaged versions; pieces of a version are gathered and the whole is programmed and acknowledged; acknowledgements, seal records, drops, reads and data of the partner take their effect on this Vault. What it takes beside the rules is the model's own reading (log 32, 33, 98, 101, 172). -/
def Obligations.VaultTwinCommands : Prop :=
  (∀ (t : Nat) (d : Dev) (m : Memory) (q : List Instr) (e : Nat), t < 16 → (d.vten t).restoring = some e → (d.vten t).restoreBad = none → d.restoreOpen t = false → exec (.vltRestoreDone t true) ⟨d, m, q⟩ = .next ⟨Dev.settle (Dev.restored { d.setVten t (fun v => { v with restoring := none, restoreBad := none }) with vlt.vrest := d.vlt.vrest.filter fun k => decide (k.1 ≠ t) } t e), m, q⟩) ∧
  (∀ (t : Nat) (d : Dev) (m : Memory) (q : List Instr) (e : Nat), t < 16 → (d.vten t).restoring = some e → (d.vten t).restoreBad = none → exec (.vltRestoreDone t false) ⟨d, m, q⟩ = .next ⟨Dev.settle (Dev.endVault { d.setVten t (fun v => { v with restoring := none, restoreBad := none }) with vlt.vrest := d.vlt.vrest.filter fun k => decide (k.1 ≠ t) } t 0x0703 .mediumError []), m, q⟩) ∧
  (∀ (t : Nat) (d : Dev) (m : Memory) (q : List Instr), t < 16 → (d.setVten t fun v => { v with mirrorOff := false }).mirroring t = true → d.vlt.st = .ready → exec (.vltResync t) ⟨d, m, q⟩ = .next ⟨(d.setVten t fun v => { v with mirrorOff := false }).resyncTenant t, m, q⟩) ∧
  (∀ (t : Nat) (d : Dev) (m : Memory) (q : List Instr), t < 16 → exec (.vltHeal t) ⟨d, m, q⟩ = .next ⟨(d.onyx.vers.filter fun v => decide (v.t = t) && v.damaged && d.partnerHas v).foldl Dev.askVer d, m, q⟩) ∧
  (∀ (t : Nat) (region : Nat) (granule : Nat) (piece : Nat) (epoch : W64) (data : List W64) (d : Dev) (m : Memory) (q : List Instr), t < 16 → ((withPiece { t, region, granule, epoch := epoch.toNat, piece, data } d.vlt.pieces).filter (Piece.of t region granule epoch.toNat)).length < 512 → exec (.twnVput t region granule piece epoch data) ⟨d, m, q⟩ = .next ⟨{ d with vlt.pieces := (withPiece { t, region, granule, epoch := epoch.toNat, piece, data } d.vlt.pieces) }, m, q⟩) ∧
  (∀ (t : Nat) (region : Nat) (granule : Nat) (piece : Nat) (epoch : W64) (data : List W64) (d : Dev) (m : Memory) (q : List Instr), t < 16 → 512 ≤ ((withPiece { t, region, granule, epoch := epoch.toNat, piece, data } d.vlt.pieces).filter (Piece.of t region granule epoch.toNat)).length → d.vaultServes = true → exec (.twnVput t region granule piece epoch data) ⟨d, m, q⟩ = .next ⟨Dev.settle (Dev.queueVer { d with vlt.pieces := (withPiece { t, region, granule, epoch := epoch.toNat, piece, data } d.vlt.pieces).filter fun x => !Piece.of t region granule epoch.toNat x } true { t, region, granule, epoch := epoch.toNat, mirrored := true, data := joinPieces ((withPiece { t, region, granule, epoch := epoch.toNat, piece, data } d.vlt.pieces).filter (Piece.of t region granule epoch.toNat)) }), m, q⟩) ∧
  (∀ (t : Nat) (region : Nat) (granule : Nat) (epoch : W64) (d : Dev) (m : Memory) (q : List Instr), t < 16 → (d.vten t).marks = [] → exec (.twnVack t region granule epoch true) ⟨d, m, q⟩ = .next ⟨{ d with onyx.vers := d.onyx.vers.map fun (v : Ver) => if decide (v.t = t) && decide (v.region = region) && decide (v.granule = granule) && decide (v.epoch = epoch.toNat) then { v with mirrored := true } else v }, m, q⟩) ∧
  (∀ (t : Nat) (region : Nat) (granule : Nat) (epoch : W64) (d : Dev) (m : Memory) (q : List Instr), t < 16 → exec (.twnVack t region granule epoch false) ⟨d, m, q⟩ = .next ⟨Dev.settle (((d.setVten t fun v => { v with mirrorOff := true }).post Src.vltMirror 0).mirrorLost t), m, q⟩) ∧
  (∀ (t : Nat) (epoch : W64) (x : SealMsg) (d : Dev) (m : Memory) (q : List Instr), t < 16 → d.vaultServes = true → exec (.twnVseal t epoch x) ⟨d, m, q⟩ = .next ⟨d.takeSeal (d.sealOf t epoch.toNat x), m, q⟩) ∧
  (∀ (t : Nat) (epoch : W64) (d : Dev) (m : Memory) (q : List Instr), t < 16 → (d.vten t).sealing = none → exec (.twnVsealack t epoch true) ⟨d, m, q⟩ = .next ⟨Dev.settle (Dev.checkMirrored { d with onyx.seals := d.onyx.seals.map fun (x : Seal) => if x.t = t && x.epoch = epoch.toNat then { x with mirrored := true } else x } t), m, q⟩) ∧
  (∀ (t : Nat) (epoch : W64) (d : Dev) (m : Memory) (q : List Instr), t < 16 → epoch.toNat ≠ allEpochs → exec (.twnVdrop t epoch) ⟨d, m, q⟩ = .next ⟨d.dropEpoch t epoch.toNat, m, q⟩) ∧
  (∀ (t : Nat) (d : Dev) (m : Memory) (q : List Instr), t < 16 → exec (.twnVdrop t 0xFFFFFFFFFFFFFFFF) ⟨d, m, q⟩ = .next ⟨d.vaultRemove t, m, q⟩) ∧
  (∀ (t : Nat) (region : Nat) (granule : Nat) (epoch : W64) (d : Dev) (m : Memory) (q : List Instr) (v : Ver), t < 16 → (d.onyx.vers.find? fun v => decide (v.t = t) && decide (v.region = region) && decide (v.granule = granule) && decide (v.epoch = epoch.toNat) && !v.damaged) = some v → exec (.twnVread t region granule epoch) ⟨d, m, q⟩ = .next ⟨d.sendVer 0x26 v, m, q⟩) ∧
  (∀ (t : Nat) (region : Nat) (granule : Nat) (piece : Nat) (epoch : W64) (data : List W64) (d : Dev) (m : Memory) (q : List Instr), t < 16 → d.vlt.vget.contains (t, region, granule, epoch.toNat) = true → 512 ≤ ((withPiece { t, region, granule, epoch := epoch.toNat, piece, data } d.vlt.vdata).filter (Piece.of t region granule epoch.toNat)).length → exec (.twnVdata t region granule piece epoch data) ⟨d, m, q⟩ = .next ⟨Dev.settle (Dev.gotVer { d with vlt.vdata := (withPiece { t, region, granule, epoch := epoch.toNat, piece, data } d.vlt.vdata).filter fun x => !Piece.of t region granule epoch.toNat x } { t, region, granule, epoch := epoch.toNat, data := joinPieces ((withPiece { t, region, granule, epoch := epoch.toNat, piece, data } d.vlt.vdata).filter (Piece.of t region granule epoch.toNat)) }), m, q⟩) ∧
  (∀ (t : Nat) (region : Nat) (granule : Nat) (piece : Nat) (epoch : W64) (data : List W64) (d : Dev) (m : Memory) (q : List Instr), t < 16 → d.vlt.vget.contains (t, region, granule, epoch.toNat) = true → ((withPiece { t, region, granule, epoch := epoch.toNat, piece, data } d.vlt.vdata).filter (Piece.of t region granule epoch.toNat)).length < 512 → exec (.twnVdata t region granule piece epoch data) ⟨d, m, q⟩ = .next ⟨{ d with vlt.vdata := (withPiece { t, region, granule, epoch := epoch.toNat, piece, data } d.vlt.vdata) }, m, q⟩)

/-- A flit in KEYING or ACTIVE is checked and taken; a skip slot is compared with the map; the ACK timeout replays and the retry budget takes the port down; LR resets it; RETRACT undoes what was partly received or counts as stale; REKEY_READY switches a direction's key; rekeying starts, and one overdue resets the port; the counters clear. What it takes beside the rules is the model's own reading (log 82, 108, 161). -/
def Obligations.LinkReceptionCommands : Prop :=
  (∀ (p : Nat) (f : LinkFlit) (d : Dev) (m : Memory) (q : List Instr), p < 65 → (d.lport p).st = .active → exec (.linkFlitRx p f) ⟨d, m, q⟩ = .next ⟨Dev.settle (d.linkFlit p f), m, q⟩) ∧
  (∀ (p : Nat) (f : LinkFlit) (d : Dev) (m : Memory) (q : List Instr), p < 65 → (d.lport p).st = .keying → exec (.linkFlitRx p f) ⟨d, m, q⟩ = .next ⟨Dev.settle (d.linkFlit p f), m, q⟩) ∧
  (∀ (p : Nat) (lanes : List (Nat × Nat)) (d : Dev) (m : Memory) (q : List Instr), p < 65 → (d.lport p).st = .active → 2 ≤ (d.lport p).skipRun lanes.length → exec (.skipSlotRx p lanes) ⟨d, m, q⟩ = .next ⟨Dev.settle (Dev.linkReset (Dev.post (d.setLport p fun l => { l with skipMiss := (d.lport p).skipRun lanes.length }) Src.lnkAlign p) p), m, q⟩) ∧
  (∀ (p : Nat) (lanes : List (Nat × Nat)) (d : Dev) (m : Memory) (q : List Instr) (x : Dev), p < 65 → (d.lport p).st = .active → (d.lport p).skipRun lanes.length < 2 → (d.setLport p fun l => { l with skipMiss := (d.lport p).skipRun lanes.length }) = x → (x.wrongLanes p lanes).isEmpty = true → x.foundBreak p lanes = none → exec (.skipSlotRx p lanes) ⟨d, m, q⟩ = .next ⟨Dev.settle x, m, q⟩) ∧
  (∀ (p : Nat) (d : Dev) (m : Memory) (q : List Instr), p < 65 → d.ackLate p = true → exec (.linkAckTimeout p) ⟨d, m, q⟩ = .next ⟨Dev.settle (d.replay p), m, q⟩) ∧
  (∀ (p : Nat) (d : Dev) (m : Memory) (q : List Instr), p < 65 → (d.lport p).episode.isSome = true → d.budgetSpent p = true → exec (.retryBudgetExpiry p) ⟨d, m, q⟩ = .next ⟨Dev.settle (d.budgetDown p), m, q⟩) ∧
  (∀ (p : Nat) (d : Dev) (m : Memory) (q : List Instr), p < 65 → exec (.linkResetEvent p) ⟨d, m, q⟩ = .next ⟨Dev.settle (d.linkReset p), m, q⟩) ∧
  (∀ (p : Nat) (vc : Nat) (seq : Nat) (d : Dev) (m : Memory) (q : List Instr), p < 65 → (d.lport p).parts.contains (vc, seq) = false → (d.fab.undo.any fun u => decide (u.inPort = p) && u.cameAs vc seq) = false → exec (.lmgtRetract p vc seq) ⟨d, m, q⟩ = .next ⟨{ d with fab.stale := satAdd 0x3FF d.fab.stale }, m, q⟩) ∧
  (∀ (p : Nat) (vc : Nat) (seq : Nat) (d : Dev) (m : Memory) (q : List Instr), p < 65 → (d.lport p).parts.contains (vc, seq) = true → exec (.lmgtRetract p vc seq) ⟨d, m, q⟩ = .next ⟨Dev.settle (Dev.advertise ((fun x : Dev => if vcClass vc = .request then x.unfold p else x) { (d.setLport p fun l => { l with parts := l.parts.filter fun x => decide (x ≠ (vc, seq)) }).retractIn p (fun u => u.cameAs vc seq) with fab.retractRx := satAdd 0x3FF d.fab.retractRx }) p), m, q⟩) ∧
  (∀ (p : Nat) (d : Dev) (m : Memory) (q : List Instr), p < 65 → (d.lport p).st = .keying → (d.lport p).encRx = false → exec (.lmgtRekeyReady p false) ⟨d, m, q⟩ = .next ⟨Dev.settle (d.setLport p fun l => { l with encTx := true, kgenTx := false, keyAt := d.now }), m, q⟩) ∧
  (∀ (p : Nat) (par : Bool) (d : Dev) (m : Memory) (q : List Instr), p < 65 → (d.lport p).st = .active → (d.lport p).rekeying = true → par ≠ (d.lport p).kgenTx → exec (.lmgtRekeyReady p par) ⟨d, m, q⟩ = .next ⟨Dev.checkRekeyed { d.setLport p fun l => { l with kgenTx := par, rekeying := false, keyAt := d.now } with sec.keyx := Tab.upd {} p (fun x => { x with keyTx := x.nextTx, genTx := x.genTx + 1 }) d.sec.keyx } p, m, q⟩) ∧
  (∀ (p : Nat) (d : Dev) (m : Memory) (q : List Instr), p < 65 → 2 ^ (d.lport p).rekeyLog2 ≤ d.txc p → exec (.rekeyThreshold p) ⟨d, m, q⟩ = .next ⟨d.rekey p, m, q⟩) ∧
  (∀ (p : Nat) (d : Dev) (m : Memory) (q : List Instr), p < 65 → d.active p = true → (d.lport p).rekeying = true → 2 ^ ((d.lport p).rekeyLog2 + 1) ≤ d.txc p → exec (.rekeyOverdue p) ⟨d, m, q⟩ = .next ⟨Dev.settle ((d.post Src.lnkRekey p).linkReset p), m, q⟩) ∧
  (∀ (p : Nat) (d : Dev) (m : Memory) (q : List Instr), d.linkUp = true → d.memReq 0 = true → p < 65 → exec (.lnkRetryClr p) ⟨d, m, q⟩ = .next ⟨d.setLport p fun l => { l with replays := 0, downs := 0 }, m, q⟩) ∧
  (∀ (p : Nat) (d : Dev) (m : Memory) (q : List Instr), d.linkUp = true → d.memReq 0 = true → p < 65 → exec (.lnkErrClr p) ⟨d, m, q⟩ = .next ⟨d.setLport p fun l => { l with uncorr := 0, authfail := 0 }, m, q⟩) ∧
  (∀ (p : Nat) (d : Dev) (m : Memory) (q : List Instr), d.linkUp = true → d.memReq 0 = true → p < 65 → exec (.lnkFeccorClr p) ⟨d, m, q⟩ = .next ⟨d.setLport p fun l => { l with feccor := 0 }, m, q⟩) ∧
  (∀ (p : Nat) (f : LinkFlit) (d : Dev) (m : Memory) (q : List Instr), p < 65 → (d.lport p).st = .active → f.fecOk = true → f.tagOk = true → f.enc = false → (d.lport p).encRx = false → 1 ≤ f.ftype → f.ftype ≤ 2 → exec (.linkFlitRx p f) ⟨d, m, q⟩ = .next ⟨Dev.settle ((Dev.countFec (d.setLport p fun l => { l with lslotRx := (l.lslotRx + 1) % 2 ^ 48 }) p f.corrected).goodFlit p f false), m, q⟩) ∧
  (∀ (p : Nat) (f : LinkFlit) (d : Dev) (m : Memory) (q : List Instr), p < 65 → (d.lport p).st = .active → f.fecOk = true → f.tagOk = true → f.enc = true → (d.lport p).encRx = true → f.txc8 = (d.lport p).rxc % 256 → f.kgen = (d.lport p).kgenRx → f.ftype ≤ 2 → (Tab.look {} p (Dev.countFec (d.setLport p fun l => { l with lslotRx := (l.lslotRx + 1) % 2 ^ 48, rxc := l.rxc + 1 }) p f.corrected).sec.keyx).installed = true → exec (.linkFlitRx p f) ⟨d, m, q⟩ = .next ⟨Dev.settle ((Dev.countFec (d.setLport p fun l => { l with lslotRx := (l.lslotRx + 1) % 2 ^ 48, rxc := l.rxc + 1 }) p f.corrected).goodFlit p f false), m, q⟩)

/-- Light with eight locked wavelengths and an accepted TS1 moves a port to IDENT, the identity check to REPORT, the far end's report to READY or another round; TS3 counts down to KEYING; a timeout counts the attempt and the third fails the port; a failed port retries; a training word in ACTIVE resets the link. What it takes beside the rules is the model's own reading (log 45, 163). -/
def Obligations.LinkTrainingCommands : Prop :=
  (∀ (p : Nat) (locked : Nat) (copies : Nat) (w : TrainWord) (d : Dev) (m : Memory) (q : List Instr), p < 65 → (d.lport p).st = .light → 8 ≤ locked → 4 ≤ copies → exec (.linkLightLock p locked copies w) ⟨d, m, q⟩ = .next ⟨d.toIdent p { w with round := max w.round (d.lport p).round }, m, q⟩) ∧
  (∀ (p : Nat) (checks : List (Nat × Nat × Bool)) (d : Dev) (m : Memory) (q : List Instr), p < 64 → (d.lport p).st = .ident → exec (.identCheckDone p checks) ⟨d, m, q⟩ = .next ⟨((d.setLport p fun l => { l with rxGood := passed checks }).setLport p fun l => { l with st := .report, stAt := d.now }).train p 2 { copies := 18, round := (d.lport p).round, rxgood := passed checks }, m, q⟩) ∧
  (∀ (p : Nat) (w : TrainWord) (d : Dev) (m : Memory) (q : List Instr), p < 65 → TrainOk w = true → (d.lport p).round < w.round → (d.lport p).st = .ready → exec (.ts1Rx p w) ⟨d, m, q⟩ = .next ⟨(d.toIdent p w).sendTs1 p, m, q⟩) ∧
  (∀ (p : Nat) (w : TrainWord) (d : Dev) (m : Memory) (q : List Instr), p < 65 → TrainOk w = true → (d.lport p).st = .active → exec (.ts1Rx p w) ⟨d, m, q⟩ = .next ⟨Dev.settle (d.linkReset p), m, q⟩) ∧
  (∀ (p : Nat) (w : TrainWord) (d : Dev) (m : Memory) (q : List Instr), p < 65 → TrainOk w = true → (d.lport p).round = w.round → (d.lport p).st = .report → exec (.ts2Rx p w) ⟨d, m, q⟩ = .next ⟨Dev.settle (d.decideWidth p w.rxgood), m, q⟩) ∧
  (∀ (p : Nat) (w : TrainWord) (d : Dev) (m : Memory) (q : List Instr), p < 65 → TrainOk w = true → (d.lport p).st = .ready → exec (.ts3Rx p w) ⟨d, m, q⟩ = .next ⟨d.countdown p w, m, q⟩) ∧
  (∀ (p : Nat) (d : Dev) (m : Memory) (q : List Instr), p < 65 → (d.lport p).st = .ident → 2 ≤ (d.lport p).tries → d.stateLate p = true → exec (.linkStateTimeout p) ⟨d, m, q⟩ = .next ⟨Dev.settle ((d.setLport p fun l => { l with tries := min 3 (l.tries + 1) }).failTrain p), m, q⟩) ∧
  (∀ (p : Nat) (d : Dev) (m : Memory) (q : List Instr), p < 65 → (d.lport p).st = .ident → (d.lport p).tries < 2 → d.stateLate p = true → exec (.linkStateTimeout p) ⟨d, m, q⟩ = .next ⟨Dev.settle ((Dev.setLport { d.setLport p (fun l => { l with tries := min 3 (l.tries + 1) }) with sec.keyx := Tab.put {} p {} d.sec.keyx } p LPort.cleared).tryLight p), m, q⟩) ∧
  (∀ (p : Nat) (d : Dev) (m : Memory) (q : List Instr), p < 65 → (d.lport p).st = .failed → (d.lport p).cfg.getLsbD 0 = true → (d.lport p).stAt + 1000000000 ≤ d.now → exec (.linkFailedRetry p) ⟨d, m, q⟩ = .next ⟨(d.setLport p fun l => { l with st := .down, stAt := d.now, tries := 0 }).tryLight p, m, q⟩)

/-- An enabled ring seeks from its predicted code; one resonance puts it in TRACK, none first widens the search and then fails it; valid outputs run the loop after three invalid ones; 10 ms without lock seeks again; light lost or back holds or releases it; BRL writes resynchronise a tile; a ramp takes one step; two agreeing heater scans are judged. What it takes beside the rules is the model's own reading (log 83, 84, 164 to 166). -/
def Obligations.RingCommands : Prop :=
  (∀ (b : Nat) (r : Nat) (d : Dev) (m : Memory) (q : List Instr), b < 4 → r < 576 → Tab.look false b d.thm.warming = false → exec (.ringEnable b r) ⟨d, m, q⟩ = .next ⟨d.enableRing (berylRing b r), m, q⟩) ∧
  (∀ (b : Nat) (r : Nat) (found : Nat) (code : Nat) (d : Dev) (m : Memory) (q : List Instr), b < 4 → r < 576 → (d.ring (berylRing b r)).st = .seek → found ≠ 1 → (d.ring (berylRing b r)).tries = 0 → d.heatersHeld (berylRing b r) = false → exec (.ringSeekDone b r found code) ⟨d, m, q⟩ = .next ⟨d.setRing (berylRing b r) fun g => { g with tries := 1 }, m, q⟩) ∧
  (∀ (b : Nat) (r : Nat) (found : Nat) (code : Nat) (d : Dev) (m : Memory) (q : List Instr), b < 4 → r < 576 → (d.ring (berylRing b r)).st = .seek → found ≠ 1 → (d.ring (berylRing b r)).tries ≠ 0 → d.heatersHeld (berylRing b r) = false → exec (.ringSeekDone b r found code) ⟨d, m, q⟩ = .next ⟨Dev.settle (d.failRing (berylRing b r) 1 Src.ringSeek), m, q⟩) ∧
  (∀ (b : Nat) (r : Nat) (o : FilterOut) (d : Dev) (m : Memory) (q : List Instr), b < 4 → r < 576 → (d.ring (berylRing b r)).st = .locked → 0 < (d.ring (berylRing b r)).invalid → d.heatersHeld (berylRing b r) = false → exec (.ringFilterOutput b r o) ⟨d, m, q⟩ = .next ⟨d.setRing (berylRing b r) fun g => { g with invalid := g.invalid - 1, run := 0 }, m, q⟩) ∧
  (∀ (b : Nat) (r : Nat) (o : FilterOut) (d : Dev) (m : Memory) (q : List Instr), b < 4 → r < 576 → (d.ring (berylRing b r)).st = .locked → (d.ring (berylRing b r)).invalid = 0 → berylRing b r / 18 % 2 = 1 → d.heatersHeld (berylRing b r) = false → exec (.ringFilterOutput b r o) ⟨d, m, q⟩ = .next ⟨Dev.settle ((d.ringOutput (berylRing b r) o).sendRxuse (berylRing b r / 36)), m, q⟩) ∧
  (∀ (b : Nat) (r : Nat) (d : Dev) (m : Memory) (q : List Instr), b < 4 → r < 576 → (d.ring (berylRing b r)).st = .track → berylRing b r / 18 % 2 = 0 → (d.ring (berylRing b r)).since + 10000000 ≤ d.now → exec (.ringTrackTimeout b r) ⟨d, m, q⟩ = .next ⟨d.seek (berylRing b r), m, q⟩) ∧
  (∀ (b : Nat) (r : Nat) (tap : Nat) (d : Dev) (m : Memory) (q : List Instr), b < 4 → r < 576 → d.hasLight (berylRing b r) tap = true → exec (.ringLightChange b r tap) ⟨d, m, q⟩ = .next ⟨Dev.settle (d.ringLight (berylRing b r)), m, q⟩) ∧
  (∀ (b : Nat) (r : Nat) (tap : Nat) (d : Dev) (m : Memory) (q : List Instr), b < 4 → r < 576 → d.hasLight (berylRing b r) tap = false → exec (.ringLightChange b r tap) ⟨d, m, q⟩ = .next ⟨Dev.settle (d.ringDark (berylRing b r)), m, q⟩) ∧
  (∀ (b : Nat) (d : Dev) (m : Memory) (q : List Instr), d.linkUp = true → d.memReq 0 = true → b < 4 → exec (.brlSyncGo b) ⟨d, m, q⟩ = .next ⟨d.syncAll b, m, q⟩) ∧
  (∀ (b : Nat) (val : W32) (d : Dev) (m : Memory) (q : List Instr), d.linkUp = true → d.memReq 0 = true → b < 4 → (d.brl b).lcfg.toNat % 2 ^ 10 = val.toNat % 2 ^ 10 → exec (.brlLcfgWrite b val) ⟨d, m, q⟩ = .next ⟨{ d with opt.brl := Tab.upd {} b (fun x => { x with lcfg := val }) d.opt.brl }, m, q⟩) ∧
  (∀ (b : Nat) (val : W32) (d : Dev) (m : Memory) (q : List Instr), d.linkUp = true → d.memReq 0 = true → b < 4 → (d.brl b).lcfg.toNat % 2 ^ 10 ≠ val.toNat % 2 ^ 10 → exec (.brlLcfgWrite b val) ⟨d, m, q⟩ = .next ⟨Dev.syncAll { d with opt.brl := Tab.upd {} b (fun x => { x with lcfg := val }) d.opt.brl } b, m, q⟩) ∧
  (∀ (b : Nat) (g : Nat) (s : SenseScan) (d : Dev) (m : Memory) (q : List Instr), b < 4 → g < 32 → (Tab.look ({} : Sense) (32 * b + g) d.opt.sense).prev = none → exec (.heaterScanDone b g s) ⟨d, m, q⟩ = .next ⟨d.readScan b g s, m, q⟩) ∧
  (∀ (b : Nat) (g : Nat) (s : SenseScan) (d : Dev) (m : Memory) (q : List Instr) (o : ScanView) (before : BitVec 18), b < 4 → g < 32 → (Tab.look ({} : Sense) (32 * b + g) d.opt.sense).prev = some (o, before) → scansAgree o (d.viewScan b g s) = true → exec (.heaterScanDone b g s) ⟨d, m, q⟩ = .next ⟨Dev.settle (((d.readScan b g s).failShort b g (d.viewScan b g s)).applyVerdict b g ((d.readScan b g s).verdict b g (d.viewScan b g s) before (Tab.look ({} : Sense) (32 * b + g) d.opt.sense).fallback)), m, q⟩) ∧
  (∀ (b : Nat) (r : Nat) (d : Dev) (m : Memory) (q : List Instr) (t : Nat), b < 4 → r < 576 → (d.ring (berylRing b r)).target = some t → d.heatersHeld (berylRing b r) = false → exec (.heaterRampStep b r) ⟨d, m, q⟩ = .next ⟨d.rampStep b (berylRing b r) t, m, q⟩)

/-- In KEYING a HELLO that matches is held, a certificate chain is gathered and checked, VERIFY and FINISH are checked and the keys installed, on the Twin port after PVK; a failed check or an ABORT ends the exchange and is counted; REKEY and REKEY_ACK make the next key of a direction. What it takes beside the rules is the model's own reading (log 6, 109, 113, 170). -/
def Obligations.KeyExchangeCommands : Prop :=
  (∀ (p : Nat) (h : KeyHello) (d : Dev) (m : Memory) (q : List Instr), p < 65 → d.keying p = true → h.mode = (d.keyxOf p).own.mode → h.fschk = (d.keyxOf p).own.fschk → exec (.keymsgHello p h) ⟨d, m, q⟩ = .next ⟨Dev.settle ((d.setKeyx p fun x => { x with far := some h }).keyVerify p), m, q⟩) ∧
  (∀ (p : Nat) (h : KeyHello) (d : Dev) (m : Memory) (q : List Instr), p < 65 → d.keying p = true → h.mode ≠ (d.keyxOf p).own.mode → exec (.keymsgHello p h) ⟨d, m, q⟩ = .next ⟨Dev.settle (d.keyFail p 4), m, q⟩) ∧
  (∀ (p : Nat) (frag : Nat) (nfrag : Nat) (data : List Byte) (d : Dev) (m : Memory) (q : List Instr), p < 65 → d.keying p = true → (d.keyxOf p).verifySent = false → (d.keyxOf p).badFragment frag nfrag data.length = false → exec (.keymsgCert p frag nfrag data) ⟨d, m, q⟩ = .next ⟨Dev.settle ((d.setKeyx p fun x => { x with nfrag := nfrag, certs := Tab.put none frag (some data) x.certs }).keyVerify p), m, q⟩) ∧
  (∀ (p : Nat) (frag : Nat) (nfrag : Nat) (data : List Byte) (d : Dev) (m : Memory) (q : List Instr), p < 65 → d.keying p = true → (d.keyxOf p).verifySent = false → (d.keyxOf p).badFragment frag nfrag data.length = true → exec (.keymsgCert p frag nfrag data) ⟨d, m, q⟩ = .next ⟨Dev.settle (d.keyFail p 1), m, q⟩) ∧
  (∀ (p : Nat) (sig : BitVec 768) (d : Dev) (m : Memory) (q : List Instr), p < 65 → d.keying p = true → exec (.keymsgVerify p sig) ⟨d, m, q⟩ = .next ⟨(if (d.keyxOf p).verifies sig then d.setKeyx p fun x => { x with verifyOk := true } else Dev.settle (d.keyFail p 2)), m, q⟩) ∧
  (∀ (p : Nat) (mac : BitVec 384) (d : Dev) (m : Memory) (q : List Instr), p < 64 → d.keying p = true → (d.keyxOf p).verifyOk = true → mac = finishMac (d.keyxOf p).kdkRx (d.keyxOf p).thRx (d.keyxOf p).there → exec (.keymsgFinish p mac) ⟨d, m, q⟩ = .next ⟨(d.setKeyx p fun x => { x with finishOk := true }).installKeys p, m, q⟩) ∧
  (∀ (mac : BitVec 384) (d : Dev) (m : Memory) (q : List Instr), d.keying 64 = true → (d.keyxOf 64).verifyOk = true → mac = finishMac (d.keyxOf 64).kdkRx (d.keyxOf 64).thRx (d.keyxOf 64).there → exec (.keymsgFinish 64 mac) ⟨d, m, q⟩ = .next ⟨(d.setKeyx 64 fun x => { x with finishOk := true }).linkItem 64 (.keymsg 64 7 0 1 (d.setKeyx 64 fun x => { x with finishOk := true }).pvkData), m, q⟩) ∧
  (∀ (p : Nat) (nonce : BitVec 256) (eph : BitVec 768) (d : Dev) (m : Memory) (q : List Instr) (x : Dev) (n : BitVec 256) (y : Dev) (k : BitVec 384), p < 65 → d.active p = true → (d.keyxOf p).installed = true → d.keyService = true → d.rand 256 = (n, x) → x.rand 384 = (k, y) → exec (.keymsgRekey p nonce eph) ⟨d, m, q⟩ = .next ⟨y.answerRekey p nonce eph n k, m, q⟩) ∧
  (∀ (p : Nat) (nonce : BitVec 256) (eph : BitVec 768) (d : Dev) (m : Memory) (q : List Instr) (r : BitVec 256 × BitVec 384), p < 65 → (d.keyxOf p).rekeyTx = some r → d.active p = true → d.keyService = true → exec (.keymsgRekeyAck p nonce eph) ⟨d, m, q⟩ = .next ⟨d.rekeyAnswered p r nonce eph, m, q⟩) ∧
  (∀ (wrapped : BitVec 320) (d : Dev) (m : Memory) (q : List Instr), d.keying 64 = true → (d.keyxOf 64).finishOk = true → (d.keyxOf 64).installed = false → exec (.keymsgPvk 0 wrapped) ⟨d, m, q⟩ = .next ⟨d.installKeys 64, m, q⟩) ∧
  (∀ (state : Nat) (wrapped : BitVec 320) (d : Dev) (m : Memory) (q : List Instr) (far : BitVec 256), d.keying 64 = true → (d.keyxOf 64).finishOk = true → (d.keyxOf 64).installed = false → state ≠ 0 → d.pvkFar wrapped = some far → (d.secNv.pvk = some far ∨ (d.secNv.pvk ≠ some far ∧ ¬ (d.pvkState = 2 ∧ state = 2))) → exec (.keymsgPvk state wrapped) ⟨d, m, q⟩ = .next ⟨(if d.secNv.pvk ≠ some far ∧ d.pvkAdopts state = true then { d with secNv.pvk := some far } else d).installKeys 64, m, q⟩) ∧
  (∀ (p : Nat) (reason : Nat) (d : Dev) (m : Memory) (q : List Instr), p < 65 → (d.lport p).st = .keying → (d.keyxOf p).aborted = false → exec (.keymsgAbort p reason) ⟨d, m, q⟩ = .next ⟨Dev.settle (d.peerAuth p), m, q⟩)

/-- An SPDM request is answered; in a session whose requester authenticated with the CO key, and outside error mode, a key is loaded into a free slot or cleared, FS is installed or removed, a root is added or cleared, and the CO key is set, each answered OK; without such a session it is answered ACCESS_DENIED. What it takes beside the rules is the model's own reading (log 37, 110, 171). -/
def Obligations.KeyManagementCommands : Prop :=
  (∀ (transport : Nat) (session : Option Nat) (q' : SpdmReq) (d : Dev) (m : Memory) (q : List Instr), exec (.spdmRequest transport session q') ⟨d, m, q⟩ = .next ⟨d.spdmAnswer transport session q', m, q⟩) ∧
  (∀ (v : VopReq) (key1 : BitVec 256) (key2 : BitVec 256) (d : Dev) (m : Memory) (q : List Instr), d.up = true → d.coSession v = true → d.sec.mode ≠ .error → d.keyLoadCheck v key1 key2 = none → exec (.keyLoad v key1 key2) ⟨d, m, q⟩ = .next ⟨Dev.vopAnswer { d with sec.slots := Tab.put none (64 * v.tenant + v.sel) (some (key1, key2)) d.sec.slots } 1 .ok, m, q⟩) ∧
  (∀ (v : VopReq) (key1 : BitVec 256) (key2 : BitVec 256) (d : Dev) (m : Memory) (q : List Instr), d.up = true → d.coSession v = false → exec (.keyLoad v key1 key2) ⟨d, m, q⟩ = .next ⟨d.vopAnswer 1 .accessDenied, m, q⟩) ∧
  (∀ (v : VopReq) (d : Dev) (m : Memory) (q : List Instr), d.up = true → d.coSession v = true → d.sec.mode ≠ .error → v.sel ≤ 63 → v.tenant ≤ 15 → exec (.keyClear v) ⟨d, m, q⟩ = .next ⟨Dev.vopAnswer { d with sec.slots := d.sec.slots.filter fun x => !(decide (x.1 / 64 = v.tenant) && (decide (v.sel = 0) || decide (x.1 % 64 = v.sel))) } 2 .ok, m, q⟩) ∧
  (∀ (v : VopReq) (fs : BitVec 256) (d : Dev) (m : Memory) (q : List Instr), d.up = true → d.coSession v = true → d.sec.mode ≠ .error → exec (.fsLoad v fs) ⟨d, m, q⟩ = .next ⟨Dev.vopAnswer { d with secNv.fs := if fs = 0 then none else some fs } 3 .ok, m, q⟩) ∧
  (∀ (v : VopReq) (hash : BitVec 384) (d : Dev) (m : Memory) (q : List Instr), d.up = true → d.coSession v = true → d.sec.mode ≠ .error → 1 ≤ v.idx → v.idx ≤ 4 → exec (.rootAdd v hash) ⟨d, m, q⟩ = .next ⟨Dev.vopAnswer { d with secNv.roots := Tab.put none v.idx (some (Stored.make hash)) d.secNv.roots } 4 .ok, m, q⟩) ∧
  (∀ (v : VopReq) (d : Dev) (m : Memory) (q : List Instr), d.up = true → d.coSession v = true → d.sec.mode ≠ .error → 1 ≤ v.idx → v.idx ≤ 4 → exec (.rootClear v) ⟨d, m, q⟩ = .next ⟨Dev.vopAnswer { d with secNv.roots := Tab.put none v.idx none d.secNv.roots } 5 .ok, m, q⟩) ∧
  (∀ (v : VopReq) (key : BitVec 768) (d : Dev) (m : Memory) (q : List Instr), d.up = true → d.coSession v = true → d.sec.mode ≠ .error → exec (.cokeySet v key) ⟨d, m, q⟩ = .next ⟨Dev.vopAnswer { d with secNv.coKey := some (Stored.make key) } 6 .ok, m, q⟩)

/-- The self-tests at INIT bring the module up and their failures put it in error mode; a reseed keeps the time or enters error mode; an entropy failure halts the DRBG; a nonce and a lockout end; a breach zeroises once; a fault fires; the counters clear. What it takes beside the rules is the model's own reading (log 111, 112, 176). -/
def Obligations.SecurityModuleCommands : Prop :=
  (∀ (passed : W32) (d : Dev) (m : Memory) (q : List Instr), d.boot.stage = .init → exec (.selftestPreop passed) ⟨d, m, q⟩ = .next ⟨Dev.settle (d.moduleUp.checkKeys.castResult passed), m, q⟩) ∧
  (∀ (d : Dev) (m : Memory) (q : List Instr), d.sec.selftest = true → exec (.selftestDone 0xFFFFFFFF) ⟨d, m, q⟩ = .next ⟨Dev.settle (Dev.finishAccs (Dev.castResult { d with sec.selftest := false } 0xFFFFFFFF) (fun a => decide (a.opcode = 0x0901)) .ok []), m, q⟩) ∧
  (∀ (d : Dev) (m : Memory) (q : List Instr), d.sec.up = true → (2 ^ 20 ≤ d.sec.gens ∨ d.sec.reseedAt + 1000000000 ≤ d.now) → exec (.drbgReseed true) ⟨d, m, q⟩ = .next ⟨{ d with sec.reseedAt := d.now, sec.gens := 0 }, m, q⟩) ∧
  (∀ (d : Dev) (m : Memory) (q : List Instr), d.sec.up = true → (2 ^ 20 ≤ d.sec.gens ∨ d.sec.reseedAt + 1000000000 ≤ d.now) → exec (.drbgReseed false) ⟨d, m, q⟩ = .next ⟨Dev.settle (Dev.post { d with sec.mode := .error } Src.secCast 0), m, q⟩) ∧
  (∀ (d : Dev) (m : Memory) (q : List Instr), exec (.entropySampleFail) ⟨d, m, q⟩ = .next ⟨Dev.settle (Dev.post { d with sec.drbgHalt := true } Src.secEntropy 0), m, q⟩) ∧
  (∀ (path : Path) (d : Dev) (m : Memory) (q : List Instr) (x : BitVec 384 × Nat × Nat), (d.authOf path).nonce = some x → x.2.2 + 60000000000 ≤ d.now → exec (.authNonceExpiry path) ⟨d, m, q⟩ = .next ⟨d.setAuth path { d.authOf path with nonce := none }, m, q⟩) ∧
  (∀ (path : Path) (d : Dev) (m : Memory) (q : List Instr) (x : Nat), (d.authOf path).lockAt = some x → x + 10000000000 ≤ d.now → exec (.authLockoutEnd path) ⟨d, m, q⟩ = .next ⟨d.setAuth path { d.authOf path with fails := 0, lockAt := none }, m, q⟩) ∧
  (∀ (d : Dev) (m : Memory) (q : List Instr) (b : Nat) (r : List Nat), d.jad.aoUp = true → d.jad.breach = false → exec (.meshCheck ((b :: r))) ⟨d, m, q⟩ = .next ⟨Dev.settle ((Dev.zeroise { d with jad.breach := true }).post Src.secBreach b (detail := b)), m, q⟩) ∧
  (∀ (d : Dev) (m : Memory) (q : List Instr), d.jad.aoUp = true → exec (.meshCheck []) ⟨d, m, q⟩ = .next ⟨{ d with jad.breach := false }, m, q⟩) ∧
  (∀ (src : Nat) (unit : Nat) (dom : Option Nat) (d : Dev) (m : Memory) (q : List Instr), exec (.faultRaise src unit dom) ⟨d, m, q⟩ = .next ⟨Dev.settle (d.post src unit dom), m, q⟩) ∧
  (∀ (d : Dev) (m : Memory) (q : List Instr), d.linkUp = true → d.memReq 0 = true → exec (.secCntClr) ⟨d, m, q⟩ = .next ⟨{ d with sec.authFail := 0, sec.peerAuth := 0 }, m, q⟩)

/-- A ramp that ends reaches hold bias, or light when the monitor power is there, or fails its attempt; samples judge a laser; a retry ramps again; the power loop sets the current and reports age; a lit position releases its rings; a swap advances; the disable wire turns a Ruby off; the Ruby link is lost and returns. What it takes beside the rules is the model's own reading (log 86, 167). -/
def Obligations.LaserCommands : Prop :=
  (∀ (j : Nat) (mpd : Nat) (d : Dev) (m : Memory) (q : List Instr), j < 72 → (d.laser j).st = .ramp → (d.laser j).toHold = true → (d.laser j).rampAt + (d.laser j).rampNs ≤ d.now → exec (.laserRampEnd j mpd) ⟨d, m, q⟩ = .next ⟨Dev.settle ((d.setLaser j fun l => { l with st := .hold, current := 100, retries := 0, fcause := 0, mpd := mpd }).startPrimaries (laserRuby j)), m, q⟩) ∧
  (∀ (j : Nat) (mpd : Nat) (d : Dev) (m : Memory) (q : List Instr), j < 72 → (d.laser j).st = .ramp → (d.laser j).toHold = false → (d.laser j).target ≤ mpd * 4 → (d.laser j).rampAt + (d.laser j).rampNs ≤ d.now → exec (.laserRampEnd j mpd) ⟨d, m, q⟩ = .next ⟨(d.setLaser j fun l => { l with st := .lit, current := min 1500 l.startI, retries := 0, fcause := 0, mpd := mpd, lowRun := 0, litAt := d.now }).spareBank (laserRuby j), m, q⟩) ∧
  (∀ (j : Nat) (mpd : Nat) (d : Dev) (m : Memory) (q : List Instr), j < 72 → (d.laser j).st = .ramp → (d.laser j).toHold = false → mpd * 4 < (d.laser j).target → (d.laser j).rampAt + (d.laser j).rampNs ≤ d.now → exec (.laserRampEnd j mpd) ⟨d, m, q⟩ = .next ⟨Dev.settle ((d.setLaser j fun l => { l with mpd := mpd }).failAttempt j 3), m, q⟩) ∧
  (∀ (j : Nat) (m' : LasSample) (d : Dev) (m : Memory) (q : List Instr), j < 72 → d.laserJudged j = true → exec (.laserMonitorSample j m') ⟨d, m, q⟩ = .next ⟨Dev.settle ((d.setLaser j fun l => l.sample d.now m').laserVerdict j ((d.laser j).sample d.now m').verdict), m, q⟩) ∧
  (∀ (j : Nat) (d : Dev) (m : Memory) (q : List Instr), j < 72 → (d.laser j).st = .wait → (d.laser j).retryAt ≤ d.now → (d.retained j = false ∨ (d.laser j).toHold = true) → exec (.laserRetryTimer j) ⟨d, m, q⟩ = .next ⟨d.startLaser j (d.laser j).toHold false, m, q⟩) ∧
  (∀ (j : Nat) (m' : LasSample) (d : Dev) (m : Memory) (q : List Instr) (l : Laser), j < 72 → (d.laser j).st = .lit → (d.laser j).loop (Tab.look ({} : Ruby) (laserRuby j) d.las.ruby) d.now m' = l → exec (.laserPowerLoop j m') ⟨d, m, q⟩ = .next ⟨Dev.settle ((d.setLaser j fun _ => l).ageReport j (d.laser j) l), m, q⟩) ∧
  (∀ (n : Nat) (k : Nat) (d : Dev) (m : Memory) (q : List Instr), n < 2 → k < 18 → (d.settledLit (36 * n + 2 * k) = true ∨ d.settledLit (36 * n + 2 * k + 1) = true) → exec (.laserPositionLit n k) ⟨d, m, q⟩ = .next ⟨Dev.settle ((feeds n).foldl (fun (d : Dev) p => d.ringLight (ringNo p 0 k)) (d.setPosn (18 * n + k) fun q => { q with lit := true })), m, q⟩) ∧
  (∀ (n : Nat) (k : Nat) (d : Dev) (m : Memory) (q : List Instr) (w : Swap), n < 2 → k < 18 → (d.posn (18 * n + k)).swap = some w → w.step = 1 → d.swapMoves n k = false → d.swapStands n w = true → exec (.laserSwapAdvance n k) ⟨d, m, q⟩ = .next ⟨Dev.settle (d.swapLasers n k w), m, q⟩) ∧
  (∀ (n : Nat) (k : Nat) (d : Dev) (m : Memory) (q : List Instr) (w : Swap), n < 2 → k < 18 → (d.posn (18 * n + k)).swap = some w → w.step ≠ 1 → d.swapRelocked n k = true → exec (.laserSwapAdvance n k) ⟨d, m, q⟩ = .next ⟨Dev.settle (d.swapDone n k), m, q⟩) ∧
  (∀ (n : Nat) (d : Dev) (m : Memory) (q : List Instr), n < 2 → exec (.laserDisableWire n) ⟨d, m, q⟩ = .next ⟨Dev.settle (Dev.spareBank ((List.range 18).foldl (fun (d : Dev) k => d.posDark n k 0xFE) (d.lasersOff [n])) n), m, q⟩) ∧
  (∀ (n : Nat) (d : Dev) (m : Memory) (q : List Instr), n < 2 → exec (.rubyLinkSilent n) ⟨d, m, q⟩ = .next ⟨Dev.settle ((List.range 18).foldl (fun (d : Dev) k => if (d.posn (18 * n + k)).swap.isSome then d.endSwap n k .aborted else d) (Dev.post { d with las.ruby := Tab.upd {} n (fun r => { r with linkOk := false }) d.las.ruby } Src.rbyLink (10 + n))), m, q⟩) ∧
  (∀ (n : Nat) (d : Dev) (m : Memory) (q : List Instr), n < 2 → exec (.rubyLinkReturn n) ⟨d, m, q⟩ = .next ⟨{ d with las.ruby := Tab.upd {} n (fun r => { r with linkOk := true }) d.las.ruby }, m, q⟩)

/-- The next waiting move of a direction begins; from slot N both wavelengths carry the lane, alignment moves the receiver, READY fixes slot M, and its release frees or reserves the old wavelength; each WAL item takes its effect on the maps and reservations of the end that receives it; a move without READY is abandoned; the counters clear. What it takes beside the rules is the model's own reading (log 88, 167). -/
def Obligations.WavelengthMoveCommands : Prop :=
  (∀ (p : Nat) (d : Dev) (m : Memory) (q : List Instr) (k : Move), p < 64 → (d.wport p).move = none → nextMove (d.wport p).waiting = some k → exec (.moveStart p) ⟨d, m, q⟩ = .next ⟨Dev.settle ((d.setWport p fun w => { w with waiting := without k w.waiting }).beginMove p k), m, q⟩) ∧
  (∀ (p : Nat) (dest : Nat) (d : Dev) (m : Memory) (q : List Instr), p < 64 → exec (.walNext p dest) ⟨d, m, q⟩ = .next ⟨d.setWport p fun w => { w with rxNext := if dest < 18 then some dest else none }, m, q⟩) ∧
  (∀ (p : Nat) (lane : Nat) (from_ : Nat) (dest : Nat) (slot : Nat) (d : Dev) (m : Memory) (q : List Instr), p < 64 → exec (.walMoveAt p lane from_ dest slot) ⟨d, m, q⟩ = .next ⟨d.setWport p fun w => { w with rxMove := some (lane, from_, dest, slot) }, m, q⟩) ∧
  (∀ (p : Nat) (d : Dev) (m : Memory) (q : List Instr) (k : Move), p < 64 → (d.wport p).move = some k → k.kind ≠ .brk → k.dual = false → (k.slotN.all fun n => decide (n ≤ d.lslot p)) = true → exec (.moveSlotN p) ⟨d, m, q⟩ = .next ⟨(d.drive (ringNo p 0 k.dest) true).setWport p fun w => { w with move := some { k with dual := true, startAt := d.now } }, m, q⟩) ∧
  (∀ (p : Nat) (slot : Nat) (d : Dev) (m : Memory) (q : List Instr) (lane : Nat) (fr : Nat) (dest : Nat) (at_ : Nat), p < 64 → (d.wport p).rxMove = some (lane, fr, dest, at_) → exec (.moveAlignDone p slot) ⟨d, m, q⟩ = .next ⟨(d.setWport p fun w => { w with rx := w.rx.set dest lane }).wal p 3 lane 0x1F dest slot, m, q⟩) ∧
  (∀ (p : Nat) (lane : Nat) (dest : Nat) (slot : Nat) (d : Dev) (m : Memory) (q : List Instr) (k : Move), p < 64 → (d.wport p).move = some k → k.lane = lane → k.dest = dest → k.dual = true → k.kind ≠ .brk → exec (.walReady p lane dest slot) ⟨d, m, q⟩ = .next ⟨d.setWport p fun w => { w with move := some { k with ready := true, slotM := some (max (d.lslot p) slot + 64) } }, m, q⟩) ∧
  (∀ (p : Nat) (lane : Nat) (dest : Nat) (slot : Nat) (d : Dev) (m : Memory) (q : List Instr) (k : Move), p < 64 → (d.wport p).move = some k → k.lane = lane → k.dest = dest → k.dual = true → k.kind = .brk → exec (.walReady p lane dest slot) ⟨d, m, q⟩ = .next ⟨d.setWport p fun w => { w with move := none, breaks := satAdd 0xFF w.breaks }, m, q⟩) ∧
  (∀ (p : Nat) (d : Dev) (m : Memory) (q : List Instr) (k : Move) (slot : Nat), p < 64 → (d.wport p).move = some k → k.slotM = some slot → slot ≤ d.lslot p → exec (.moveReleaseSlot p) ⟨d, m, q⟩ = .next ⟨Dev.settle (d.releaseMove p k slot), m, q⟩) ∧
  (∀ (p : Nat) (lane : Nat) (from_ : Nat) (slot : Nat) (d : Dev) (m : Memory) (q : List Instr), p < 64 → (d.chan (ringNo p 1 from_)).awaits = none → exec (.walDone p lane from_ slot) ⟨d, m, q⟩ = .next ⟨d.setWport p fun w => w.laneGone lane from_, m, q⟩) ∧
  (∀ (p : Nat) (lane : Nat) (from_ : Nat) (dest : Nat) (d : Dev) (m : Memory) (q : List Instr), p < 64 → (d.wport p).reserved = none → (d.wport p).waiting = [] → mapAt (d.wport p).tx from_ = 0xFE → exec (.walReq p lane from_ dest) ⟨d, m, q⟩ = .next ⟨Dev.settle (d.reserveFree p lane from_), m, q⟩) ∧
  (∀ (p : Nat) (lane : Nat) (from_ : Nat) (dest : Nat) (d : Dev) (m : Memory) (q : List Instr), p < 64 → (d.wport p).reserved.isSome = true → exec (.walReq p lane from_ dest) ⟨d, m, q⟩ = .next ⟨d.wal p 7 lane from_ 1 0, m, q⟩) ∧
  (∀ (p : Nat) (lane : Nat) (from_ : Nat) (d : Dev) (m : Memory) (q : List Instr), p < 64 → mapAt (d.wport p).tx from_ = lane → exec (.walReqNow p lane from_) ⟨d, m, q⟩ = .next ⟨Dev.settle (d.loseWave p from_ 0xFF), m, q⟩) ∧
  (∀ (p : Nat) (lane : Nat) (from_ : Nat) (reason : Nat) (d : Dev) (m : Memory) (q : List Instr), p < 64 → ((d.chan (ringNo p 1 from_)).polish.any fun q => q.full && decide (q.step = .reserve)) = true → exec (.walNak p lane from_ reason) ⟨d, m, q⟩ = .next ⟨d.setChan (ringNo p 1 from_) fun c => { c with polish := c.polish.map fun q => { q with full := false, step := .light }, fullPend := true }, m, q⟩) ∧
  (∀ (p : Nat) (lane : Nat) (d : Dev) (m : Memory) (q : List Instr) (fr : Nat) (dest : Nat) (at_ : Nat), p < 64 → (d.wport p).rxMove = some (lane, fr, dest, at_) → exec (.walCancel p lane) ⟨d, m, q⟩ = .next ⟨d.setWport p fun w => { w with rxMove := none, rx := if mapAt w.rx dest = lane && mapAt w.rx fr = lane then w.rx.set dest 0xFE else w.rx }, m, q⟩) ∧
  (∀ (p : Nat) (bitmap : BitVec 18) (d : Dev) (m : Memory) (q : List Instr), p < 64 → exec (.walRxuse p bitmap) ⟨d, m, q⟩ = .next ⟨Dev.settle (d.takeRxuse p bitmap), m, q⟩) ∧
  (∀ (p : Nat) (d : Dev) (m : Memory) (q : List Instr) (k : Move), p < 64 → (d.wport p).move = some k → k.kind ≠ .brk → k.dual = true → k.ready = false → k.startAt + d.abandonNs ≤ d.now → exec (.moveAbandon p) ⟨d, m, q⟩ = .next ⟨Dev.settle (d.abandonMove p k), m, q⟩) ∧
  (∀ (p : Nat) (d : Dev) (m : Memory) (q : List Instr), d.linkUp = true → d.memReq 0 = true → p < 64 → exec (.walCntClr p) ⟨d, m, q⟩ = .next ⟨d.setWport p fun w => { w with moves := 0, breaks := 0, cancels := 0 }, m, q⟩)

/-- A tile starts the polish its order names, none in Dark; SCAN, RELOCK, DRVCOMP, OFFSET, LEVELS and APPLY follow one another, each handing the tile's held step on; a full polish of a transmit channel ends with DRVCOMP, of a receive channel with APPLY; a light polish is limited; a sample of a live channel takes its lustre; a record is written; a reservation runs out; the counters clear. What it takes beside the rules is the model's own reading (log 1, 85, 90, 91, 92, 168). A clause in which nothing changes, the device expecting no such event, is log 1. -/
def Obligations.PolishCommands : Prop :=
  (∀ (b : Nat) (d : Dev) (m : Memory) (q : List Instr) (x : Nat), b < 4 → d.pwr.state ≠ 2 → d.polishesIn b < min 7 d.cal.maxPar → d.nextPolish b = some x → exec (.polishStart b) ⟨d, m, q⟩ = .next ⟨Dev.settle (d.wake.startPolish b x), m, q⟩) ∧
  (∀ (b : Nat) (d : Dev) (m : Memory) (q : List Instr), b < 4 → d.pwr.state = 2 → exec (.polishStart b) ⟨d, m, q⟩ = .next ⟨d, m, q⟩) ∧
  (∀ (ch : Nat) (r : ScanRes) (d : Dev) (m : Memory) (q : List Instr) (pl : Polish), ch < 2304 → (d.chan ch).polish = some pl → pl.step = .scan → Tab.look none (ch / 576) d.cal.held = some ch → exec (.polishScanDone ch r) ⟨d, m, q⟩ = .next ⟨Dev.settle (d.scanFound ch pl r), m, q⟩) ∧
  (∀ (ch : Nat) (d : Dev) (m : Memory) (q : List Instr) (pl : Polish), ch < 2304 → (d.chan ch).polish = some pl → pl.step = .relock → (d.ring ch).st = .locked → exec (.polishRelockDone ch) ⟨d, m, q⟩ = .next ⟨(d.setChan ch fun c => { c with polish := some { pl with step := if isTx ch then .drvcomp else .offset } }).beginHeld (ch / 576), m, q⟩) ∧
  (∀ (ch : Nat) (d : Dev) (m : Memory) (q : List Instr) (pl : Polish), ch < 2304 → (d.chan ch).polish = some pl → pl.step = .drvcomp → 16 ≤ pl.outs.length → exec (.polishDrvcompDone ch) ⟨d, m, q⟩ = .next ⟨Dev.settle (d.drvcompFound ch pl.outs), m, q⟩) ∧
  (∀ (ch : Nat) (ofs : List Int) (d : Dev) (m : Memory) (q : List Instr) (pl : Polish), ch < 2304 → (d.chan ch).polish = some pl → pl.step = .offset → Tab.look none (ch / 576) d.cal.held = some ch → exec (.polishOffsetDone ch ofs) ⟨d, m, q⟩ = .next ⟨((d.setChan ch fun c => { c with polish := some { pl with step := .levels, ofs } }).endHeld (ch / 576)).beginHeld (ch / 576), m, q⟩) ∧
  (∀ (ch : Nat) (m' : LevelStats) (d : Dev) (m : Memory) (q : List Instr) (pl : Polish), ch < 2304 → (d.chan ch).polish = some pl → pl.step = .levels → exec (.polishLevelsDone ch m') ⟨d, m, q⟩ = .next ⟨Dev.settle (d.levelsFound ch pl m'), m, q⟩) ∧
  (∀ (p : Nat) (k : Nat) (d : Dev) (m : Memory) (q : List Instr) (v : Rxc) (pl : Polish), p < 64 → k < 18 → Tab.look none (18 * p + k) d.opt.shadow = some v → ((d.applyShadow (18 * p + k) v).chan (ringNo p 1 k)).polish = some pl → pl.step = .apply → exec (.rxCorrectionApply p k) ⟨d, m, q⟩ = .next ⟨Dev.settle ((d.applyShadow (18 * p + k) v).rxPolished (ringNo p 1 k) pl), m, q⟩) ∧
  (∀ (p : Nat) (k : Nat) (d : Dev) (m : Memory) (q : List Instr) (v : Rxc), p < 64 → k < 18 → Tab.look none (18 * p + k) d.opt.shadow = some v → ((d.applyShadow (18 * p + k) v).chan (ringNo p 1 k)).polish = none → exec (.rxCorrectionApply p k) ⟨d, m, q⟩ = .next ⟨d.applyShadow (18 * p + k) v, m, q⟩) ∧
  (∀ (ch : Nat) (m' : LevelStats) (d : Dev) (m : Memory) (q : List Instr) (pl : Polish), ch < 2304 → (d.chan ch).polish = some pl → pl.full = false → pl.step = .light → isTx ch = true → 8 ≤ (d.ring ch).run → exec (.lightPolishDone ch m') ⟨d, m, q⟩ = .next ⟨Dev.settle (d.lightTx ch), m, q⟩) ∧
  (∀ (ch : Nat) (m' : LevelStats) (d : Dev) (m : Memory) (q : List Instr) (pl : Polish), ch < 2304 → (d.chan ch).polish = some pl → pl.full = false → pl.step = .light → isTx ch = false → exec (.lightPolishDone ch m') ⟨d, m, q⟩ = .next ⟨Dev.settle (d.lightRx ch m'), m, q⟩) ∧
  (∀ (ch : Nat) (m' : LevelStats) (d : Dev) (m : Memory) (q : List Instr), ch < 2304 → isTx ch = false → d.active (ch / 36) = true → d.laneOf ch < 16 → exec (.lustreSample ch m') ⟨d, m, q⟩ = .next ⟨Dev.settle (d.sampled ch m'), m, q⟩) ∧
  (∀ (ch : Nat) (d : Dev) (m : Memory) (q : List Instr), ch < 2304 → d.mayWrite ch = true → exec (.calRecordWrite ch) ⟨d, m, q⟩ = .next ⟨d.saveRecord ch, m, q⟩) ∧
  (∀ (ch : Nat) (d : Dev) (m : Memory) (q : List Instr), ch < 2304 → d.mayWrite ch = false → exec (.calRecordWrite ch) ⟨d, m, q⟩ = .next ⟨d, m, q⟩) ∧
  (∀ (p : Nat) (d : Dev) (m : Memory) (q : List Instr), p < 64 → 0 < Tab.look 0 p d.cal.rsvAt → Tab.look 0 p d.cal.rsvAt + d.cal.rsvNs ≤ d.now + 1 → exec (.reservationTimeout p) ⟨d, m, q⟩ = .next ⟨Dev.settle (({ d.setWport p fun w => { w with reserved := none } with cal.rsvAt := Tab.put 0 p 0 d.cal.rsvAt }).designate p false), m, q⟩) ∧
  (∀ (d : Dev) (m : Memory) (q : List Instr), d.linkUp = true → d.memReq 0 = true → exec (.calCntClr) ⟨d, m, q⟩ = .next ⟨{ d with cal.full := 0, cal.light := 0 }, m, q⟩) ∧
  (∀ (d : Dev) (m : Memory) (q : List Instr), d.linkUp = true → d.memReq 0 = true → exec (.calCnt2Clr) ⟨d, m, q⟩ = .next ⟨{ d with cal.ended := 0 }, m, q⟩)

/-- A round of readings is judged; a limit comparator sets THROTTLE and is reported when it becomes active; a trip comparator removes main power and is reported with the last reading; the sequencer makes its next change; Idle gates its domains and is left at once; the Always-on state is left with PWR_REQ; a tile warmed for its time seeks. What it takes beside the rules is the model's own reading (log 1, 93, 94, 130, 131, 169). A clause in which nothing changes, the device expecting no such event, is log 1. -/
def Obligations.ThermalAndPowerCommands : Prop :=
  (∀ (temps : List (Option Int)) (power : List Nat) (d : Dev) (m : Memory) (q : List Instr), exec (.thermalRound temps power) ⟨d, m, q⟩ = .next ⟨Dev.settle (d.thermalRound temps power), m, q⟩) ∧
  (∀ (n : Nat) (temp : Int) (d : Dev) (m : Memory) (q : List Instr), n < 58 → exec (.limitComparator n temp) ⟨d, m, q⟩ = .next ⟨Dev.settle (((d.setSensor n fun g => { g with limit := decide (limitOf n ≤ temp) }).relevel).postIf (decide (limitOf n ≤ temp) && !(d.sensor n).limit) Src.thmLimit n), m, q⟩) ∧
  (∀ (n : Nat) (temp : Int) (d : Dev) (m : Memory) (q : List Instr), n < 58 → tripOf n ≤ temp → exec (.tripComparator n temp) ⟨d, m, q⟩ = .next ⟨Dev.settle (((d.setSensor n fun g => { g with trip := true }).loseMain).post Src.thmTrip n none ((d.sensor n).temp % 65536).toNat), m, q⟩) ∧
  (∀ (n : Nat) (temp : Int) (d : Dev) (m : Memory) (q : List Instr), n < 58 → temp < tripOf n → exec (.tripComparator n temp) ⟨d, m, q⟩ = .next ⟨d.setSensor n fun g => { g with trip := false }, m, q⟩) ∧
  (∀ (d : Dev) (m : Memory) (q : List Instr) (n : Nat) (v : Nat), d.pwr.seq = [(n, v)] → d.pwr.stepAt + stepNs (d.domain n) v ≤ d.now → exec (.domainStepDone) ⟨d, m, q⟩ = .next ⟨Dev.settle ((({ d with pwr.seq := [], pwr.stepAt := d.now }).domainStep n v).seqDone), m, q⟩) ∧
  (∀ (d : Dev) (m : Memory) (q : List Instr) (n : Nat) (v : Nat) (x : Nat × Nat) (r : List (Nat × Nat)), d.pwr.seq = (n, v) :: x :: r → d.pwr.stepAt + stepNs (d.domain n) v ≤ d.now → exec (.domainStepDone) ⟨d, m, q⟩ = .next ⟨Dev.settle (({ d with pwr.seq := x :: r, pwr.stepAt := d.now }).domainStep n v), m, q⟩) ∧
  (∀ (d : Dev) (m : Memory) (q : List Instr), d.pwr.seq = [] → exec (.domainStepDone) ⟨d, m, q⟩ = .next ⟨d, m, q⟩) ∧
  (∀ (d : Dev) (m : Memory) (q : List Instr), d.up = true → d.pwr.state = 0 → d.pwr.busy = false → d.pwr.cfg.getLsbD 0 = true → d.quiet = true → d.quietLong = true → exec (.idleEntry) ⟨d, m, q⟩ = .next ⟨{ d.gate idleGated 2 with pwr.state := 1, pwr.target := 1 }, m, q⟩) ∧
  (∀ (d : Dev) (m : Memory) (q : List Instr), d.quiet = false → exec (.idleEntry) ⟨d, m, q⟩ = .next ⟨d, m, q⟩) ∧
  (∀ (d : Dev) (m : Memory) (q : List Instr), d.pwr.state = 1 → exec (.idleWake) ⟨d, m, q⟩ = .next ⟨{ d.gate idleGated 3 with pwr.state := 0, pwr.target := 0, pwr.quietAt := none }, m, q⟩) ∧
  (∀ (d : Dev) (m : Memory) (q : List Instr), d.pwr.state ≠ 1 → exec (.idleWake) ⟨d, m, q⟩ = .next ⟨d, m, q⟩) ∧
  (∀ (req : Option Req) (d : Dev) (m : Memory) (q : List Instr), d.pwr.state = 3 → d.jad.pwrReq = false → d.jad.latched = false → d.jad.pwrOk = true → exec (.aoWake req) ⟨d, m, q⟩ = .next ⟨Dev.settle ((d.aoWake req).restart), m, q⟩) ∧
  (∀ (req : Option Req) (d : Dev) (m : Memory) (q : List Instr), d.pwr.state = 3 → d.jad.pwrReq = false → d.jad.latched = false → d.jad.pwrOk = false → exec (.aoWake req) ⟨d, m, q⟩ = .next ⟨Dev.settle (d.aoWake req), m, q⟩) ∧
  (∀ (req : Option Req) (d : Dev) (m : Memory) (q : List Instr), d.jad.latched = true → d.enteringAo = false → exec (.aoWake req) ⟨d, m, q⟩ = .next ⟨d, m, q⟩) ∧
  (∀ (b : Nat) (d : Dev) (m : Memory) (q : List Instr), b < 4 → Tab.look false b d.thm.warming = true → d.warmed b = true → exec (.coldWarmTimeout b) ⟨d, m, q⟩ = .next ⟨Dev.settle ((({ d with thm.warming := Tab.put false b false d.thm.warming }).postIf (decide (d.quartz b < 640)) Src.thmCold (6 + b)).seekTile b), m, q⟩)

/-- A bring-up item whose prerequisites are decided begins; one whose are not does not. A write of a stored register of the PF keeps the register's defined bits and acts on what depends on them; a write of an offset that holds no such register, or of a VF's BAR0, changes nothing. A write of BAR2 stores a word of the function's MSI-X table, after which the vectors that can leave are sent. A read returns what the register holds, the word of the MSI-X table last written, zero at a reserved offset, and nothing where no memory request completes. What it takes beside the rules is the model's own reading (log 1, 52, 53, 93, 117, 118, 173). A clause in which nothing changes, the device expecting no such event, is log 1. -/
def Obligations.BringUpAndRegisterCommands : Prop :=
  (∀ (item : Nat) (d : Dev) (m : Memory) (q : List Instr), 1 ≤ item → item ≤ 8 → d.mayStart item = true → exec (.bringupItemStart item) ⟨d, m, q⟩ = .next ⟨Dev.settle (d.beginItem item), m, q⟩) ∧
  (∀ (item : Nat) (d : Dev) (m : Memory) (q : List Instr), 1 ≤ item → item ≤ 8 → d.mayStart item = false → exec (.bringupItemStart item) ⟨d, m, q⟩ = .next ⟨d, m, q⟩) ∧
  (∀ (val : W32) (d : Dev) (m : Memory) (q : List Instr), d.linkUp = true → d.memReq 0 = true → exec (.registerWrite 0 false 0x50000 val) ⟨d, m, q⟩ = .next ⟨Dev.settle (({ d with thm.cfg := val &&& 0x1F }).relevel), m, q⟩) ∧
  (∀ (val : W32) (d : Dev) (m : Memory) (q : List Instr), d.linkUp = true → d.memReq 0 = true → exec (.registerWrite 0 false 0x90000 val) ⟨d, m, q⟩ = .next ⟨Dev.settle ({ d with fab.cfg := val }), m, q⟩) ∧
  (∀ (val : W32) (d : Dev) (m : Memory) (q : List Instr), d.linkUp = true → d.memReq 0 = true → exec (.registerWrite 0 false 0xC0000 val) ⟨d, m, q⟩ = .next ⟨Dev.settle ((List.range 16).foldl Dev.lagCheck { d with vlt.cfg := val &&& 0x1FFFFFF }), m, q⟩) ∧
  (∀ (off : Nat) (val : W32) (d : Dev) (m : Memory) (q : List Instr) (e : Dev), d.linkUp = true → d.memReq 0 = true → pfEffect off val = none → (d.storeTransport off val).or ((d.storeOptics off val).or (d.storeDevice off val)) = some e → exec (.registerWrite 0 false off val) ⟨d, m, q⟩ = .next ⟨Dev.settle e, m, q⟩) ∧
  (∀ (off : Nat) (val : W32) (d : Dev) (m : Memory) (q : List Instr), d.linkUp = true → d.memReq 0 = true → pfEffect off val = none → (d.storeTransport off val).or ((d.storeOptics off val).or (d.storeDevice off val)) = none → exec (.registerWrite 0 false off val) ⟨d, m, q⟩ = .next ⟨d, m, q⟩) ∧
  (∀ (fn : Nat) (off : Nat) (val : W32) (d : Dev) (m : Memory) (q : List Instr), d.linkUp = true → d.memReq fn = true → 0 < fn → fn ≤ 16 → vfEffect (fn - 1) off val = none → exec (.registerWrite fn false off val) ⟨d, m, q⟩ = .next ⟨d, m, q⟩) ∧
  (∀ (fn : Nat) (off : Nat) (val : W32) (d : Dev) (m : Memory) (q : List Instr), d.linkUp = true → d.memReq fn = true → fn ≤ 16 → exec (.registerWrite fn true off val) ⟨d, m, q⟩ = .next ⟨(d.setFn fn fun g => g.storeMsix off val).flushVecs fn, m, q⟩) ∧
  (∀ (d : Dev), d.readPf 0x50000 = d.thm.cfg.toNat ∧ d.readPf 0x90000 = d.fab.cfg.toNat ∧ d.readPf 0xB0000 = d.col.cfg.toNat ∧ d.readPf 0xF0000 = d.dbg.cfg.toNat ∧ d.readPf 0x30 = 0) ∧
  (∀ (g : Fn) (off : Nat) (v : W32), off % 4 = 0 → off < 0x8000 → (g.storeMsix off v).readBar2 off = if off % 16 = 12 then (v &&& 1).toNat else v.toNat) ∧
  (∀ (d : Dev) (f : Nat) (bar2 : Bool) (off : Nat), d.linkUp = false ∨ d.memReq f = false → d.readReg f bar2 off = none)

/-- While the device runs and nothing waits, a packet for another node is relayed, one not meant for it counted or left to its own row, and each packet for this node is served as its type says: a request the window admits runs on its host path, a response that names an operation's segment delivers to it, a semaphore operation whose condition holds is answered, STEER and CNP are noted; while the device is stopped, or others wait, it waits behind them. What it takes beside the rules is the model's own reading (log 78, 79, 160, 175). -/
def Obligations.FabricPacketCommands : Prop :=
  (∀ (t : PType) (k : Pkt) (d : Dev) (m : Memory) (q : List Instr), d.dbg.st ≠ .stopped → d.dbg.ingress = [] → k.bad = false → d.isMine k = false → exec (.packetForward t k) ⟨d, m, q⟩ = .next ⟨Dev.settle (d.relay t k .none), m, q⟩) ∧
  (∀ (t : PType) (k : Pkt) (d : Dev) (m : Memory) (q : List Instr), d.dbg.st ≠ .stopped → d.dbg.ingress = [] → k.bad = true → exec (.packetForward t k) ⟨d, m, q⟩ = .next ⟨Dev.settle ({ d with fab.malformed := satAdd 0x3FF d.fab.malformed }), m, q⟩) ∧
  (∀ (t : PType) (k : Pkt) (d : Dev) (m : Memory) (q : List Instr), d.dbg.st = .stopped → exec (.packetForward t k) ⟨d, m, q⟩ = .next ⟨{ d with dbg.ingress := d.dbg.ingress ++ [.transit t k] }, m, q⟩) ∧
  (∀ (k : Pkt) (d : Dev) (m : Memory) (q : List Instr), d.dbg.st ≠ .stopped → d.dbg.ingress = [] → exec (.pktRd k) ⟨d, m, q⟩ = .next ⟨Dev.settle (d.request .rd k), m, q⟩) ∧
  (∀ (k : Pkt) (d : Dev) (m : Memory) (q : List Instr), d.dbg.st = .stopped → exec (.pktRd k) ⟨d, m, q⟩ = .next ⟨{ d with dbg.ingress := d.dbg.ingress ++ [.request .rd k { op := 0, aop := 0, cond := 0, operand := 0, compare := 0 }] }, m, q⟩) ∧
  (∀ (k : Pkt) (d : Dev) (m : Memory) (q : List Instr), d.dbg.st ≠ .stopped → d.dbg.ingress = [] → exec (.pktWr k) ⟨d, m, q⟩ = .next ⟨Dev.settle (d.request .wr k), m, q⟩) ∧
  (∀ (k : Pkt) (d : Dev) (m : Memory) (q : List Instr), d.dbg.st ≠ .stopped → d.dbg.ingress = [] → exec (.pktWrp k) ⟨d, m, q⟩ = .next ⟨Dev.settle (d.request .wrp k), m, q⟩) ∧
  (∀ (k : Pkt) (d : Dev) (m : Memory) (q : List Instr), d.dbg.st ≠ .stopped → d.dbg.ingress = [] → exec (.pktAtom k) ⟨d, m, q⟩ = .next ⟨Dev.settle (d.request .atom k), m, q⟩) ∧
  (∀ (k : Pkt) (d : Dev) (m : Memory) (q : List Instr), d.dbg.st ≠ .stopped → d.dbg.ingress = [] → exec (.pktAtomp k) ⟨d, m, q⟩ = .next ⟨Dev.settle (d.request .atomp k), m, q⟩) ∧
  (∀ (k : Pkt) (status : Nat) (d : Dev) (m : Memory) (q : List Instr), d.dbg.st ≠ .stopped → d.dbg.ingress = [] → exec (.pktRsp k status) ⟨d, m, q⟩ = .next ⟨Dev.settle (d.response k status), m, q⟩) ∧
  (∀ (k : Pkt) (r : SemReq) (d : Dev) (m : Memory) (q : List Instr), d.dbg.st ≠ .stopped → d.dbg.ingress = [] → exec (.pktSem k r) ⟨d, m, q⟩ = .next ⟨Dev.settle (d.semPacket k r), m, q⟩) ∧
  (∀ (k : Pkt) (tenant : Nat) (side : Bool) (d : Dev) (m : Memory) (q : List Instr), d.dbg.st ≠ .stopped → d.dbg.ingress = [] → exec (.pktSteer k tenant side) ⟨d, m, q⟩ = .next ⟨Dev.settle (d.steer k tenant side), m, q⟩) ∧
  (∀ (k : Pkt) (gq : Nat) (d : Dev) (m : Memory) (q : List Instr), d.dbg.st ≠ .stopped → d.dbg.ingress = [] → exec (.pktCnp k gq) ⟨d, m, q⟩ = .next ⟨Dev.settle (d.cnp k gq), m, q⟩) ∧
  (∀ (t : PType) (k : Pkt) (d : Dev) (m : Memory) (q : List Instr) (x : Dev), d.dbg.st ≠ .stopped → d.dbg.ingress = [] → k.bad = false → d.isMine k = false → d.undoOf t k = none → k.passed = false → d.fab.cfg.getLsbD 0 = true → k.hops < d.maxHop → d.forward t { k with hops := k.hops + 1 } .none (escapeVc k.vc) = (x, .sent) → exec (.packetForward t k) ⟨d, m, q⟩ = .next ⟨Dev.settle x, m, q⟩) ∧
  (∀ (k : Pkt) (k' : Pkt) (d : Dev) (m : Memory) (q : List Instr) (x : Dev), d.takesPacket .rd k .none k' → d.wake.received .rd k' = x → x.windowCheck k'.dstTen (faOff k'.addr) (reqLen .rd k') 1 = none → exec (.pktRd k) ⟨d, m, q⟩ = .next ⟨Dev.settle (x.serveHost .rd k' []), m, q⟩) ∧
  (∀ (k : Pkt) (k' : Pkt) (d : Dev) (m : Memory) (q : List Instr) (x : Dev), d.takesPacket .wr k .none k' → d.wake.received .wr k' = x → x.windowCheck k'.dstTen (faOff k'.addr) (reqLen .wr k') 2 = none → Tab.look 0 k'.dstTen x.rm.hold ≤ x.now → x.unmarked k'.dstTen (some (x.ten k'.dstTen).winPasid) (x.winIova k').toNat (reqLen .wr k') = [] → exec (.pktWr k) ⟨d, m, q⟩ = .next ⟨Dev.settle (x.serveHost .wr k' []), m, q⟩) ∧
  (∀ (k : Pkt) (k' : Pkt) (d : Dev) (m : Memory) (q : List Instr) (x : Dev), d.takesPacket .wrp k .none k' → d.wake.received .wrp k' = x → x.windowCheck k'.dstTen (faOff k'.addr) (reqLen .wrp k') 2 = none → Tab.look 0 k'.dstTen x.rm.hold ≤ x.now → x.unmarked k'.dstTen (some (x.ten k'.dstTen).winPasid) (x.winIova k').toNat (reqLen .wrp k') = [] → exec (.pktWrp k) ⟨d, m, q⟩ = .next ⟨Dev.settle (x.serveHost .wrp k' []), m, q⟩) ∧
  (∀ (k : Pkt) (k' : Pkt) (d : Dev) (m : Memory) (q : List Instr) (x : Dev), d.takesPacket .atom k .none k' → d.wake.received .atom k' = x → x.windowCheck k'.dstTen (faOff k'.addr) (reqLen .atom k') 4 = none → Tab.look 0 k'.dstTen x.rm.hold ≤ x.now → x.unmarked k'.dstTen (some (x.ten k'.dstTen).winPasid) (x.winIova k').toNat (reqLen .atom k') = [] → k'.aux ≤ 9 → k'.addr.toNat % 8 = 0 → exec (.pktAtom k) ⟨d, m, q⟩ = .next ⟨Dev.settle (x.serveHost .atom k' []), m, q⟩) ∧
  (∀ (k : Pkt) (k' : Pkt) (d : Dev) (m : Memory) (q : List Instr) (x : Dev), d.takesPacket .atomp k .none k' → d.wake.received .atomp k' = x → x.windowCheck k'.dstTen (faOff k'.addr) (reqLen .atomp k') 4 = none → Tab.look 0 k'.dstTen x.rm.hold ≤ x.now → x.unmarked k'.dstTen (some (x.ten k'.dstTen).winPasid) (x.winIova k').toNat (reqLen .atomp k') = [] → k'.aux ≤ 9 → k'.addr.toNat % 8 = 0 → exec (.pktAtomp k) ⟨d, m, q⟩ = .next ⟨Dev.settle (x.serveHost .atomp k' []), m, q⟩) ∧
  (∀ (k : Pkt) (k' : Pkt) (status : Nat) (d : Dev) (m : Memory) (q : List Instr) (x : Dev) (y : Txn) (idx : Nat) (off : Nat) (len : Nat), d.takesPacket (if k.data.isEmpty then .rsp else .rspd) k .none k' → d.wake.received (if k.data.isEmpty then .rsp else .rspd) k' = x → x.twn.failedNode ≠ some k'.dst → k'.echo = false → (x.tq.txns.find? fun y => decide (y.gq = k'.qglobal) && decide (y.serial = k'.serial)) = some y → Status.ofCode status = .ok → y.for_ = .op idx off len → exec (.pktRsp k status) ⟨d, m, q⟩ = .next ⟨Dev.settle ((x.retire y).segAnswer y idx off len k'.data).retryPieces, m, q⟩) ∧
  (∀ (k : Pkt) (k' : Pkt) (r : SemReq) (d : Dev) (m : Memory) (q : List Instr) (x : Dev) (y : Dev) (v : W64), d.takesPacket .sem k (.sem r) k' → d.wake.received .sem k' = x → x.fenced k'.dstTen = false → (x.ten k'.dstTen).winSize ≠ 0 → (x.ten k'.dstTen).winFlags / 4 % 2 = 1 → x.semOwner (k'.addr.toNat % 2 ^ 18) = k'.dstTen + 1 → (r.op = 0x30 ∧ r.aop ≤ 9) ∨ (r.op = 0x31 ∧ r.cond ≤ 3) ∨ r.op = 0x32 → x.semDo (k'.addr.toNat % 2 ^ 18) r = (y, some v) → exec (.pktSem k r) ⟨d, m, q⟩ = .next ⟨Dev.settle (y.answer k' .ok [v] 8), m, q⟩) ∧
  (∀ (k : Pkt) (k' : Pkt) (tenant : Nat) (side : Bool) (d : Dev) (m : Memory) (q : List Instr) (x : Dev), d.takesPacket .steer { k with alias_ := false } (.steer tenant side) k' → d.wake.received .steer k' = x → exec (.pktSteer k tenant side) ⟨d, m, q⟩ = .next ⟨Dev.settle { x with fab.side := Tab.put false (16 * (k.src / 2) + tenant % 16) side x.fab.side }, m, q⟩) ∧
  (∀ (k : Pkt) (k' : Pkt) (gq : Nat) (d : Dev) (m : Memory) (q : List Instr) (x : Dev), d.takesPacket .cnp { k with alias_ := false } (.cnp gq) k' → d.wake.received .cnp k' = x → exec (.pktCnp k gq) ⟨d, m, q⟩ = .next ⟨Dev.settle (x.congest gq k.src), m, q⟩)

/-- HELLOs go out on every ACTIVE port and a received one sets the neighbour; its loss clears it; a packet that waited for its time tries the escape channel; sending limits recover; time exchanges go to the parent and are answered; the lock is lost; FABRIC_READY is entered; a read of FAB_TIME's low word latches the high one; the counters clear. What it takes beside the rules is the model's own reading (log 1, 79, 160, 162). A clause in which nothing changes, the device expecting no such event, is log 1. -/
def Obligations.FabricTimeAndTopologyCommands : Prop :=
  (∀ (d : Dev) (m : Memory) (q : List Instr), exec (.helloSend) ⟨d, m, q⟩ = .next ⟨((List.range 64).filter fun p => decide ((d.reparent.lport p).st = .active)).foldl Dev.sendHello d.reparent, m, q⟩) ∧
  (∀ (p : Nat) (d : Dev) (m : Memory) (q : List Instr), p < 64 → d.silent p = true → exec (.neighbourTimeout p) ⟨d, m, q⟩ = .next ⟨Dev.settle (d.loseNeighbour p), m, q⟩) ∧
  (∀ (p : Nat) (h : Hello) (d : Dev) (m : Memory) (q : List Instr), p < 64 → (d.lport p).st = .active → exec (.pktHello p h) ⟨d, m, q⟩ = .next ⟨Dev.settle ((({ d with fab.nbr := Tab.put {} p (d.nbrOf h) d.fab.nbr }).postIf ((d.nbrOf h).dup && !(Tab.look ({} : Nbr) p d.fab.nbr).dup) Src.fabDupId p).reparent.retryFab), m, q⟩) ∧
  (∀ (p : Nat) (h : Hello) (d : Dev) (m : Memory) (q : List Instr), p < 64 → (d.lport p).st ≠ .active → exec (.pktHello p h) ⟨d, m, q⟩ = .next ⟨d, m, q⟩) ∧
  (∀ (n : Nat) (d : Dev) (m : Memory) (q : List Instr) (x : WPkt), d.waiter n = some x → (d.forward x.t x.pkt x.body true).2 = .sent → exec (.escapeTimeout n) ⟨d, m, q⟩ = .next ⟨Dev.settle (Dev.putWait (d.forward x.t x.pkt x.body true).1 (d.fab.wait.eraseIdx n)), m, q⟩) ∧
  (∀ (n : Nat) (d : Dev) (m : Memory) (q : List Instr) (x : WPkt), d.waiter n = some x → (d.forward x.t x.pkt x.body true).2 = .noRoute → exec (.escapeTimeout n) ⟨d, m, q⟩ = .next ⟨Dev.settle (((Dev.putWait (d.forward x.t x.pkt x.body true).1 (d.fab.wait.eraseIdx n)).countNoRoute x.pkt.port).refuse x.t x.pkt .pathFailure), m, q⟩) ∧
  (∀ (n : Nat) (d : Dev) (m : Memory) (q : List Instr) (x : WPkt), d.waiter n = some x → (d.forward x.t x.pkt x.body true).2 = .waits → exec (.escapeTimeout n) ⟨d, m, q⟩ = .next ⟨Dev.settle (Dev.putWait (d.forward x.t x.pkt x.body true).1 (d.fab.wait.set n { x with escape := true })), m, q⟩) ∧
  (∀ (n : Nat) (d : Dev) (m : Memory) (q : List Instr), d.waiter n = none → exec (.escapeTimeout n) ⟨d, m, q⟩ = .next ⟨d, m, q⟩) ∧
  (∀ (d : Dev) (m : Memory) (q : List Instr), exec (.congestionRecovery) ⟨d, m, q⟩ = .next ⟨{ d with fab.pairs := (d.fab.pairs.map (Pair.recover · d.now)).filter fun p => decide (p.limit < 64000) }, m, q⟩) ∧
  (∀ (d : Dev) (m : Memory) (q : List Instr) (p : Nat), d.fab.parent = some p → exec (.tsyncExchange) ⟨d, m, q⟩ = .next ⟨{ d.sendOn p .tsync 8 (.tsync d.fab.time none) with fab.t1 := some d.fab.time }, m, q⟩) ∧
  (∀ (d : Dev) (m : Memory) (q : List Instr), d.fab.parent = none → exec (.tsyncExchange) ⟨d, m, q⟩ = .next ⟨d, m, q⟩) ∧
  (∀ (p : Nat) (t1 : W64) (d : Dev) (m : Memory) (q : List Instr), p < 64 → exec (.pktTsync p t1 none) ⟨d, m, q⟩ = .next ⟨d.sendOn p .tsync 24 (.tsync t1.toNat (some (d.fab.time, d.fab.time))), m, q⟩) ∧
  (∀ (p : Nat) (t1 : W64) (d : Dev) (m : Memory) (q : List Instr) (t2 : W64) (t3 : W64), p < 64 → d.fab.parent = some p → d.fab.t1 = some t1.toNat → exec (.pktTsync p t1 ((some (t2, t3)))) ⟨d, m, q⟩ = .next ⟨Dev.settle (d.offsetFound ((((t2.toNat : Int) - t1.toNat) - ((d.fab.time : Int) - t3.toNat)) / 2)), m, q⟩) ∧
  (∀ (d : Dev) (m : Memory) (q : List Instr), d.noExchange = true → exec (.timeLockLoss) ⟨d, m, q⟩ = .next ⟨Dev.settle d.unlock, m, q⟩) ∧
  (∀ (d : Dev) (m : Memory) (q : List Instr), d.fabricMay = true → exec (.fabricReadyEntry) ⟨d, m, q⟩ = .next ⟨{ d with boot.stage := .fabricReady, boot.items := Tab.put .notStarted 8 .up d.boot.items }, m, q⟩) ∧
  (∀ (d : Dev) (m : Memory) (q : List Instr), d.fabricMay = false → exec (.fabricReadyEntry) ⟨d, m, q⟩ = .next ⟨d, m, q⟩) ∧
  (∀ (d : Dev) (m : Memory) (q : List Instr), d.linkUp = true → d.memReq 0 = true → exec (.fabTimeLoRead) ⟨d, m, q⟩ = .next ⟨{ d with fab.latched := BitVec.ofNat 32 (d.fab.time / 2 ^ 32) }, m, q⟩) ∧
  (∀ (d : Dev) (m : Memory) (q : List Instr), d.linkUp = true → d.memReq 0 = true → exec (.fabCntClr 0) ⟨d, m, q⟩ = .next ⟨{ d with fab.retractTx := 0, fab.retractRx := 0, fab.stale := 0 }, m, q⟩) ∧
  (∀ (which : Nat) (d : Dev) (m : Memory) (q : List Instr), d.linkUp = true → d.memReq 0 = true → which ≠ 0 → exec (.fabCntClr which) ⟨d, m, q⟩ = .next ⟨{ d with fab.noroute := 0, fab.malformed := 0, fab.unserved := 0 }, m, q⟩)

/-- A flushed path acknowledges the writes it carried; an owner's acknowledgement ends the write it names once its subscribers answered or their leases ran out; each subscription message has its effect; leases renew, expire and are asked for again; the next line of a stream is fetched, and a filled line serves the reads that wait; held writes of a taken-over window are admitted; the counters clear. What it takes beside the rules is the model's own reading (log 1, 29, 75, 76, 155, 156). A clause in which nothing changes, the device expecting no such event, is log 1. -/
def Obligations.RemoteMemoryCommands : Prop :=
  (∀ (path : Nat) (d : Dev) (m : Memory) (q : List Instr), d.dbg.st ≠ .stopped → d.dbg.ingress = [] → exec (.targetWriteAck path) ⟨d, m, q⟩ = .next ⟨Dev.settle (d.flushed path), m, q⟩) ∧
  (∀ (src : Nat) (gq : Nat) (serial : W32) (d : Dev) (m : Memory) (q : List Instr) (w : PendW), d.ackedWrite src gq serial = some w → w.flushed = true → (w.subs = [] ∨ w.expiry ≤ d.fab.time) → exec (.ownerWriteAck src gq serial) ⟨d, m, q⟩ = .next ⟨Dev.settle (({ d with rm.pend := without w d.rm.pend }).answer w.pkt .ok w.pkt.data (8 * w.pkt.data.length)), m, q⟩) ∧
  (∀ (src : Nat) (gq : Nat) (serial : W32) (d : Dev) (m : Memory) (q : List Instr), d.ackedWrite src gq serial = none → exec (.ownerWriteAck src gq serial) ⟨d, m, q⟩ = .next ⟨d, m, q⟩) ∧
  (∀ (k : Pkt) (stream : Nat) (span : W64) (d : Dev) (m : Memory) (q : List Instr), d.dbg.st ≠ .stopped → d.dbg.ingress = [] → exec (.subctlSubscribe k stream span) ⟨d, m, q⟩ = .next ⟨Dev.settle (d.subctl 1 k stream span), m, q⟩) ∧
  (∀ (k : Pkt) (stream : Nat) (expiry : W64) (d : Dev) (m : Memory) (q : List Instr), d.dbg.st ≠ .stopped → d.dbg.ingress = [] → exec (.subctlGrant k stream expiry) ⟨d, m, q⟩ = .next ⟨Dev.settle (d.subctl 2 k stream expiry), m, q⟩) ∧
  (∀ (k : Pkt) (stream : Nat) (reason : Nat) (d : Dev) (m : Memory) (q : List Instr), d.dbg.st ≠ .stopped → d.dbg.ingress = [] → exec (.subctlRefuse k stream reason) ⟨d, m, q⟩ = .next ⟨Dev.settle (d.subctl 3 k stream (BitVec.ofNat 64 reason)), m, q⟩) ∧
  (∀ (k : Pkt) (stream : Nat) (expiry : W64) (d : Dev) (m : Memory) (q : List Instr), d.dbg.st ≠ .stopped → d.dbg.ingress = [] → exec (.subctlRenew k stream expiry) ⟨d, m, q⟩ = .next ⟨Dev.settle (d.subctl 4 k stream expiry), m, q⟩) ∧
  (∀ (k : Pkt) (stream : Nat) (span : W64) (d : Dev) (m : Memory) (q : List Instr), d.dbg.st ≠ .stopped → d.dbg.ingress = [] → exec (.subctlInval k stream span) ⟨d, m, q⟩ = .next ⟨Dev.settle (d.subctl 5 k stream span), m, q⟩) ∧
  (∀ (k : Pkt) (stream : Nat) (d : Dev) (m : Memory) (q : List Instr), d.dbg.st ≠ .stopped → d.dbg.ingress = [] → exec (.subctlInvack k stream) ⟨d, m, q⟩ = .next ⟨Dev.settle (d.subctl 6 k stream 0), m, q⟩) ∧
  (∀ (k : Pkt) (stream : Nat) (d : Dev) (m : Memory) (q : List Instr), d.dbg.st ≠ .stopped → d.dbg.ingress = [] → exec (.subctlBreak k stream) ⟨d, m, q⟩ = .next ⟨Dev.settle (d.subctl 7 k stream 0), m, q⟩) ∧
  (∀ (k : Pkt) (stream : Nat) (d : Dev) (m : Memory) (q : List Instr), d.dbg.st ≠ .stopped → d.dbg.ingress = [] → exec (.subctlUnsub k stream) ⟨d, m, q⟩ = .next ⟨Dev.settle (d.subctl 8 k stream 0), m, q⟩) ∧
  (∀ (d : Dev) (m : Memory) (q : List Instr), d.dbg.st ≠ .stopped → exec (.leaseRenewTimer) ⟨d, m, q⟩ = .next ⟨Dev.settle d.renewLeases, m, q⟩) ∧
  (∀ (t : Nat) (s : Nat) (d : Dev) (m : Memory) (q : List Instr), t < 16 → s < 32 → d.dbg.st ≠ .stopped → (d.stream t s).st = .granted → d.leaseLive (d.stream t s) = false → exec (.leaseExpiry t s) ⟨d, m, q⟩ = .next ⟨Dev.settle (d.loseLease t s), m, q⟩) ∧
  (∀ (d : Dev) (m : Memory) (q : List Instr), d.dbg.st ≠ .stopped → exec (.subscribeRetry) ⟨d, m, q⟩ = .next ⟨Dev.settle d.retrySubs, m, q⟩) ∧
  (∀ (t : Nat) (s : Nat) (d : Dev) (m : Memory) (q : List Instr) (n : Nat), t < 16 → s < 32 → d.dbg.st ≠ .stopped → d.fenced t = false → d.leaseLive (d.stream t s) = true → d.prefetchTurn t s = true → d.nextLine t s = some n → d.grantable 2 t 1 = true → exec (.prefetchIssue t s) ⟨d, m, q⟩ = .next ⟨Dev.settle ((d.spendTenant t 4096).fetchLine t s n), m, q⟩) ∧
  (∀ (t : Nat) (s : Nat) (line : Nat) (d : Dev) (m : Memory) (q : List Instr) (l : Line), t < 16 → s < 32 → d.filled t s line = some l → l.data ≠ [] → l.st = .fetching → d.leaseLive (d.stream t s) = true → exec (.lineFillDone t s line) ⟨d, m, q⟩ = .next ⟨Dev.settle (d.serveLine t s l), m, q⟩) ∧
  (∀ (t : Nat) (s : Nat) (line : Nat) (d : Dev) (m : Memory) (q : List Instr) (l : Line), t < 16 → s < 32 → d.filled t s line = some l → l.data ≠ [] → l.st = .doomed → exec (.lineFillDone t s line) ⟨d, m, q⟩ = .next ⟨Dev.settle (((d.forwardWaiters l).freeLine l).countDisc l), m, q⟩) ∧
  (∀ (t : Nat) (d : Dev) (m : Memory) (q : List Instr), t < 16 → d.dbg.st ≠ .stopped → Tab.look 0 t d.rm.hold ≤ d.now → exec (.takeoverWriteHoldEnd t) ⟨d, m, q⟩ = .next ⟨Dev.settle (d.endHold t), m, q⟩) ∧
  (∀ (t : Nat) (s : Nat) (d : Dev) (m : Memory) (q : List Instr), d.linkUp = true → (d.memReq (t + 1) = true ∨ d.memReq 0 = true) → t < 16 → s < 32 → exec (.tenStreamCntClr t s 0) ⟨d, m, q⟩ = .next ⟨d.setStream t s fun x => { x with hit := 0 }, m, q⟩) ∧
  (∀ (t : Nat) (s : Nat) (d : Dev) (m : Memory) (q : List Instr), d.linkUp = true → (d.memReq (t + 1) = true ∨ d.memReq 0 = true) → t < 16 → s < 32 → exec (.tenStreamCntClr t s 1) ⟨d, m, q⟩ = .next ⟨d.setStream t s fun x => { x with miss := 0 }, m, q⟩) ∧
  (∀ (t : Nat) (s : Nat) (which : Nat) (d : Dev) (m : Memory) (q : List Instr), d.linkUp = true → (d.memReq (t + 1) = true ∨ d.memReq 0 = true) → t < 16 → s < 32 → 2 ≤ which → exec (.tenStreamCntClr t s which) ⟨d, m, q⟩ = .next ⟨d.setStream t s fun x => { x with disc := 0 }, m, q⟩) ∧
  (∀ (path : Nat) (d : Dev) (m : Memory) (q : List Instr), d.dbg.st ≠ .stopped → d.dbg.ingress = [] → exec (.targetWriteAck path) ⟨d, m, q⟩ = .next ⟨Dev.settle (Dev.ackWrites { d with rm.pend := d.rm.pend.map fun (w : PendW) => (if w.path = path then { w with flushed := true } else w : PendW) }), m, q⟩) ∧
  (∀ (k : Pkt) (k' : Pkt) (stream : Nat) (span : W64) (d : Dev) (m : Memory) (q : List Instr) (x : Dev) (s : Sub), d.takesPacket .subctl k (.sub 1 0 stream span) k' → d.wake.received .subctl k' = x → x.subRefused k' stream span = none → s = { node := k'.src, ten := k'.srcTen, stream, t := k'.dstTen, lo := faOff k'.addr, len := span.toNat, expiry := x.fab.time + 100000 } → exec (.subctlSubscribe k stream span) ⟨d, m, q⟩ = .next ⟨Dev.settle (Dev.sendSub { x with rm.subs := (x.rm.subs.filter fun y => !(decide (y.node = k'.src) && decide (y.ten = k'.srcTen) && decide (y.stream = stream) && decide (y.t = k'.dstTen))) ++ [s] } s 2 0 (faOff k'.addr) (BitVec.ofNat 64 s.expiry)), m, q⟩) ∧
  (∀ (k : Pkt) (k' : Pkt) (stream : Nat) (expiry : W64) (d : Dev) (m : Memory) (q : List Instr) (x : Dev), d.takesPacket .subctl k (.sub 2 0 stream expiry) k' → d.wake.received .subctl k' = x → (x.stream k'.dstTen stream).st = .subscribing → faNode (x.stream k'.dstTen stream).base / 2 = k'.src / 2 → exec (.subctlGrant k stream expiry) ⟨d, m, q⟩ = .next ⟨Dev.settle (x.setStream k'.dstTen stream fun y => { y with st := .granted, lease := some expiry.toNat, page := 0, reason := 0 }), m, q⟩) ∧
  (∀ (k : Pkt) (k' : Pkt) (stream : Nat) (reason : Nat) (d : Dev) (m : Memory) (q : List Instr) (x : Dev), d.takesPacket .subctl k (.sub 3 0 stream (BitVec.ofNat 64 reason)) k' → d.wake.received .subctl k' = x → (x.stream k'.dstTen stream).st = .subscribing → faNode (x.stream k'.dstTen stream).base / 2 = k'.src / 2 → exec (.subctlRefuse k stream reason) ⟨d, m, q⟩ = .next ⟨Dev.settle (x.setStream k'.dstTen stream fun y => { y with st := .refused, lease := none, reason := (BitVec.ofNat 64 reason).toNat }), m, q⟩) ∧
  (∀ (k : Pkt) (k' : Pkt) (stream : Nat) (expiry : W64) (d : Dev) (m : Memory) (q : List Instr) (x : Dev), d.takesPacket .subctl k (.sub 4 0 stream expiry) k' → d.wake.received .subctl k' = x → (x.stream k'.dstTen stream).st = .granted → faNode (x.stream k'.dstTen stream).base / 2 = k'.src / 2 → exec (.subctlRenew k stream expiry) ⟨d, m, q⟩ = .next ⟨Dev.settle (x.setStream k'.dstTen stream fun y => { y with lease := some expiry.toNat }), m, q⟩) ∧
  (∀ (k : Pkt) (k' : Pkt) (stream : Nat) (span : W64) (d : Dev) (m : Memory) (q : List Instr) (x : Dev) (y : Dev), d.takesPacket .subctl k (.sub 5 0 stream span) k' → d.wake.received .subctl k' = x → (x.stream k'.dstTen stream).st ≠ .absent → faNode (x.stream k'.dstTen stream).base / 2 = k'.src / 2 → x.discardLines k'.dstTen stream ((x.stream k'.dstTen stream).base.toNat / 2 ^ 48 * 2 ^ 48 + faOff k'.addr) span.toNat = y → exec (.subctlInval k stream span) ⟨d, m, q⟩ = .next ⟨Dev.settle (((y.rm.lines.filter fun l => decide (l.t = k'.dstTen) && decide (l.s = stream) && decide (l.st = .doomed)).foldl Dev.forwardWaiters y).sendStream k'.dstTen stream 6 (faOff k'.addr) 0).1, m, q⟩) ∧
  (∀ (k : Pkt) (k' : Pkt) (stream : Nat) (d : Dev) (m : Memory) (q : List Instr) (x : Dev) (w : PendW), d.takesPacket .subctl k (.sub 6 0 stream 0) k' → d.wake.received .subctl k' = x → (x.rm.pend.find? fun w => w.subs.contains (k'.src, k'.srcTen, stream) && decide (faOff w.pkt.addr = faOff k'.addr)) = some w → exec (.subctlInvack k stream) ⟨d, m, q⟩ = .next ⟨Dev.settle (Dev.ackWrites { x with rm.pend := x.rm.pend.map fun y => if y = w then { w with subs := without (k'.src, k'.srcTen, stream) w.subs } else y }), m, q⟩) ∧
  (∀ (k : Pkt) (k' : Pkt) (stream : Nat) (d : Dev) (m : Memory) (q : List Instr) (x : Dev), d.takesPacket .subctl k (.sub 7 0 stream 0) k' → d.wake.received .subctl k' = x → (x.stream k'.dstTen stream).st = .granted → faNode (x.stream k'.dstTen stream).base / 2 = k'.src / 2 → exec (.subctlBreak k stream) ⟨d, m, q⟩ = .next ⟨Dev.settle (x.loseLease k'.dstTen stream), m, q⟩) ∧
  (∀ (k : Pkt) (k' : Pkt) (stream : Nat) (d : Dev) (m : Memory) (q : List Instr) (x : Dev), d.takesPacket .subctl k (.sub 8 0 stream 0) k' → d.wake.received .subctl k' = x → exec (.subctlUnsub k stream) ⟨d, m, q⟩ = .next ⟨Dev.settle { x with rm.subs := x.rm.subs.filter fun y => !(decide (y.node = k'.src) && decide (y.ten = k'.srcTen) && decide (y.stream = stream) && decide (y.t = k'.dstTen)) }, m, q⟩)

/-- A Translation Completion is taken; a visible descriptor's pages are asked for ahead; an invalidation drops what it covers and completes when the reads on it have; a page response or its timeout ends the access that waits; a write that enables page requests lets the function ask again; a write of a key range drops the tenant's translations; the registers and counters follow. What it takes beside the rules is the model's own reading (log 1, 16, 18, 25, 74). A clause in which nothing changes, the device expecting no such event, is log 1. -/
def Obligations.TranslationCommands : Prop :=
  (∀ (fn : Nat) (tag : Nat) (c' : AtsCpl) (d : Dev) (m : Memory) (q : List Instr), fn < 17 → d.dbg.st ≠ .stopped → d.dbg.ingress = [] → exec (.atsTranslationCompletion fn tag c') ⟨d, m, q⟩ = .next ⟨Dev.settle (d.atsDone fn tag c'), m, q⟩) ∧
  (∀ (fn : Nat) (tag : Nat) (c' : AtsCpl) (d : Dev) (m : Memory) (q : List Instr), fn < 17 → d.dbg.st = .stopped → exec (.atsTranslationCompletion fn tag c') ⟨d, m, q⟩ = .next ⟨{ d with dbg.ingress := d.dbg.ingress ++ [.ats fn tag c'] }, m, q⟩) ∧
  (∀ (t : Nat) (q' : Nat) (idx : Nat) (d' : Desc) (d : Dev) (m : Memory) (q : List Instr), t < 16 → q' < 64 → d.mayPre t q' idx = true → exec (.pretranslateIssue t q' idx d') ⟨d, m, q⟩ = .next ⟨d.pretranslate t q' idx d', m, q⟩) ∧
  (∀ (t : Nat) (q' : Nat) (idx : Nat) (d' : Desc) (d : Dev) (m : Memory) (q : List Instr), t < 16 → q' < 64 → d.mayPre t q' idx = false → exec (.pretranslateIssue t q' idx d') ⟨d, m, q⟩ = .next ⟨d, m, q⟩) ∧
  (∀ (fn : Nat) (itag : Nat) (pasid : Option Nat) (global : Bool) (base : W64) (len : Nat) (d : Dev) (m : Memory) (q : List Instr), fn < 17 → exec (.atsInvalidateRequest fn itag pasid global base len) ⟨d, m, q⟩ = .next ⟨Dev.settle (d.invalidateXlt fn itag pasid global base len), m, q⟩) ∧
  (∀ (d : Dev) (m : Memory) (q : List Instr) (i : Inval), d.dbg.st ≠ .stopped → d.invalDone d.xlt.invals [] = some i → exec (.invalidationComplete) ⟨d, m, q⟩ = .next ⟨({ d with xlt.invals := without i d.xlt.invals }).emit (.invCompletion i.fn i.itag), m, q⟩) ∧
  (∀ (d : Dev) (m : Memory) (q : List Instr), d.dbg.st = .stopped → exec (.invalidationComplete) ⟨d, m, q⟩ = .next ⟨d, m, q⟩) ∧
  (∀ (fn : Nat) (prgi : Nat) (code : Nat) (d : Dev) (m : Memory) (q : List Instr), fn < 17 → d.dbg.st ≠ .stopped → d.dbg.ingress = [] → exec (.prgResponse fn prgi code) ⟨d, m, q⟩ = .next ⟨Dev.settle (d.prgDone fn prgi code), m, q⟩) ∧
  (∀ (fn : Nat) (prgi : Nat) (d : Dev) (m : Memory) (q : List Instr) (x : PageReq), fn < 17 → d.asked fn prgi = some x → x.at_ + d.priLimit ≤ d.now → exec (.priTimeout fn prgi) ⟨d, m, q⟩ = .next ⟨Dev.settle (((d.setPages (without x d.xlt.pages)).failAccess x.acc .timeout).post Src.xltPriTimeout (accUnit x.acc) (fnDom fn)), m, q⟩) ∧
  (∀ (fn : Nat) (prgi : Nat) (d : Dev) (m : Memory) (q : List Instr), fn < 17 → d.asked fn prgi = none → exec (.priTimeout fn prgi) ⟨d, m, q⟩ = .next ⟨d, m, q⟩) ∧
  (∀ (fn : Nat) (d : Dev) (m : Memory) (q : List Instr), d.linkUp = true → d.fnPresent fn = true → (d.fn fn).flr = false → fn < 17 → (d.fn fn).flr = false → exec (.priEnableWrite fn) ⟨d, m, q⟩ = .next ⟨{ d.setFn fn (fun g => { g with priEn := true }) with xlt.stopped := d.xlt.stopped &&& ~~~(1#17 <<< fn) }, m, q⟩) ∧
  (∀ (t : Nat) (k : Nat) (val : W32) (d : Dev) (m : Memory) (q : List Instr), d.linkUp = true → d.memReq 0 = true → t < 16 → k < 8 → exec (.xltKeyrangeWrite t .base k val) ⟨d, m, q⟩ = .next ⟨Dev.settle ((d.setTen t fun x => { x with krBase := Tab.put 0 k val x.krBase }).forget fun f _ _ _ => decide (f = t + 1)), m, q⟩) ∧
  (∀ (t : Nat) (k : Nat) (val : W32) (d : Dev) (m : Memory) (q : List Instr), d.linkUp = true → d.memReq 0 = true → t < 16 → k < 8 → exec (.xltKeyrangeWrite t .lim k val) ⟨d, m, q⟩ = .next ⟨Dev.settle ((d.setTen t fun x => { x with krLim := Tab.put 0 k val x.krLim }).forget fun f _ _ _ => decide (f = t + 1)), m, q⟩) ∧
  (∀ (t : Nat) (k : Nat) (val : W32) (d : Dev) (m : Memory) (q : List Instr), d.linkUp = true → d.memReq 0 = true → t < 16 → k < 8 → exec (.xltKeyrangeWrite t .ctl k val) ⟨d, m, q⟩ = .next ⟨Dev.settle ((d.setTen t fun x => { x with krCtl := Tab.put 0 k (val &&& 0x13F) x.krCtl }).forget fun f _ _ _ => decide (f = t + 1)), m, q⟩) ∧
  (∀ (t : Nat) (k : Nat) (val : W32) (d : Dev) (m : Memory) (q : List Instr), d.linkUp = true → d.memReq 0 = true → t < 16 → k < 8 → exec (.xltKeyrangeWrite t .keydef k val) ⟨d, m, q⟩ = .next ⟨Dev.settle ((d.setTen t fun x => { x with keydef := val &&& 0x3F }).forget fun f _ _ _ => decide (f = t + 1)), m, q⟩) ∧
  (∀ (k : Nat) (val : W32) (d : Dev) (m : Memory) (q : List Instr), d.linkUp = true → d.memReq 0 = true → k < 16 → exec (.xltHmapWrite 0 k val) ⟨d, m, q⟩ = .next ⟨{ d with xlt.hmapBase := Tab.put 0 k val d.xlt.hmapBase }, m, q⟩) ∧
  (∀ (k : Nat) (val : W32) (d : Dev) (m : Memory) (q : List Instr), d.linkUp = true → d.memReq 0 = true → k < 16 → exec (.xltHmapWrite 1 k val) ⟨d, m, q⟩ = .next ⟨{ d with xlt.hmapLim := Tab.put 0 k val d.xlt.hmapLim }, m, q⟩) ∧
  (∀ (which : Nat) (k : Nat) (val : W32) (d : Dev) (m : Memory) (q : List Instr), d.linkUp = true → d.memReq 0 = true → 2 ≤ which → k < 16 → exec (.xltHmapWrite which k val) ⟨d, m, q⟩ = .next ⟨{ d with xlt.hmapCtl := Tab.put 0 k (val &&& 0x107) d.xlt.hmapCtl }, m, q⟩) ∧
  (∀ (d : Dev) (m : Memory) (q : List Instr), d.linkUp = true → d.memReq 0 = true → exec (.xltInvcntClr) ⟨d, m, q⟩ = .next ⟨{ d with xlt.received := 0, xlt.flushes := 0 }, m, q⟩) ∧
  (∀ (d : Dev) (m : Memory) (q : List Instr), d.linkUp = true → d.memReq 0 = true → exec (.xltPrecntClr) ⟨d, m, q⟩ = .next ⟨{ d with xlt.preUsed := 0, xlt.preDisc := 0 }, m, q⟩) ∧
  (∀ (fn : Nat) (d : Dev) (m : Memory) (q : List Instr), d.linkUp = true → d.memReq 0 = true → fn < 17 → exec (.xltPricntClr fn) ⟨d, m, q⟩ = .next ⟨{ d with xlt.denied := Tab.put 0 fn 0 d.xlt.denied }, m, q⟩) ∧
  (∀ (fn : Nat) (tag : Nat) (c' : AtsCpl) (d : Dev) (m : Memory) (q : List Instr) (y : AtsReq) (a : Access) (e : Xent), fn < 17 → d.dbg.st ≠ .stopped → d.dbg.ingress = [] → (d.xlt.ats.find? fun y => decide (y.fn = fn) && decide (y.tag = tag)) = some y → y.off = false → y.stale = false → y.acc = some a → c'.fail = false → (c'.r || c'.w) = true → c'.pa.toNat % 2 ^ c'.sizeLog2 = 0 → Dev.entryOf { d with xlt.ats := without y d.xlt.ats } fn y.pasid y.iova.toNat c' = e → exec (.atsTranslationCompletion fn tag c') ⟨d, m, q⟩ = .next ⟨Dev.settle ((Dev.goOn { d with xlt.ats := without y d.xlt.ats, xlt.tlb := touch 16384 e d.xlt.tlb, xlt.micro := if a.engine < 16 then Tab.put [] a.engine (touch 64 e (Tab.look [] a.engine d.xlt.micro)) d.xlt.micro else d.xlt.micro } a e).retryReads.retryAts), m, q⟩) ∧
  (∀ (fn : Nat) (prgi : Nat) (d : Dev) (m : Memory) (q : List Instr) (y : PageReq), fn < 17 → d.dbg.st ≠ .stopped → d.dbg.ingress = [] → (d.xlt.pages.find? fun y => decide (y.fn = fn) && decide (y.prgi = prgi) && y.sent) = some y → y.acc.op = none → exec (.prgResponse fn prgi 0) ⟨d, m, q⟩ = .next ⟨Dev.settle (((d.setPages (without y d.xlt.pages)).askAts { fn, tag := 0, pasid := y.acc.pasid, iova := y.acc.iova, acc := some y.acc }).sendPages), m, q⟩)

/-- While the device runs and nothing waits each collective message is served as its kind says; the root closes an instance at its deadline; children late past the grace are counted missing, or fail the instance where something of theirs was folded; a dropped group is given up; an engine folds its next input, or its tenant waits for a scratch unit; the counters clear. What it takes beside the rules is the model's own reading (log 1, 15, 22, 23, 24, 26, 157 to 159). A clause in which nothing changes, the device expecting no such event, is log 1. -/
def Obligations.CollectiveCommands : Prop :=
  (∀ (m' : CollMsg) (d : Dev) (m : Memory) (q : List Instr), d.dbg.st ≠ .stopped → d.dbg.ingress = [] → exec (.collContrib m') ⟨d, m, q⟩ = .next ⟨Dev.settle (d.collIn 1 m' (noFinal 0)), m, q⟩) ∧
  (∀ (m' : CollMsg) (d : Dev) (m : Memory) (q : List Instr), d.dbg.st = .stopped → exec (.collContrib m') ⟨d, m, q⟩ = .next ⟨{ d with dbg.ingress := d.dbg.ingress ++ [.coll 1 m' (noFinal 0)] }, m, q⟩) ∧
  (∀ (m' : CollMsg) (d : Dev) (m : Memory) (q : List Instr), d.dbg.st ≠ .stopped → d.dbg.ingress = [] → exec (.collPartial m') ⟨d, m, q⟩ = .next ⟨Dev.settle (d.collIn 2 m' (noFinal 0)), m, q⟩) ∧
  (∀ (m' : CollMsg) (d : Dev) (m : Memory) (q : List Instr), d.dbg.st ≠ .stopped → d.dbg.ingress = [] → exec (.collClose m') ⟨d, m, q⟩ = .next ⟨Dev.settle (d.collIn 3 m' (noFinal 0)), m, q⟩) ∧
  (∀ (m' : CollMsg) (d : Dev) (m : Memory) (q : List Instr), d.dbg.st ≠ .stopped → d.dbg.ingress = [] → exec (.collCloseAck m') ⟨d, m, q⟩ = .next ⟨Dev.settle (d.collIn 4 m' (noFinal 0)), m, q⟩) ∧
  (∀ (m' : CollMsg) (f : FinalInfo) (d : Dev) (m : Memory) (q : List Instr), d.dbg.st ≠ .stopped → d.dbg.ingress = [] → exec (.collFinal m' f) ⟨d, m, q⟩ = .next ⟨Dev.settle (d.collIn 5 m' f), m, q⟩) ∧
  (∀ (m' : CollMsg) (status : Nat) (d : Dev) (m : Memory) (q : List Instr), d.dbg.st ≠ .stopped → d.dbg.ingress = [] → exec (.collLeave m' status) ⟨d, m, q⟩ = .next ⟨Dev.settle (d.collIn 6 m' (noFinal status)), m, q⟩) ∧
  (∀ (m' : CollMsg) (d : Dev) (m : Memory) (q : List Instr), d.dbg.st ≠ .stopped → d.dbg.ingress = [] → exec (.collCarry m') ⟨d, m, q⟩ = .next ⟨Dev.settle (d.collIn 7 m' (noFinal 0)), m, q⟩) ∧
  (∀ (t : Nat) (g : Nat) (k : Nat) (d : Dev) (m : Memory) (q : List Instr) (x : Inst), t < 16 → g < 256 → d.timedInst t g k = some x → d.self t g = 0 → x.closed = false → (collP x.desc).deadline ≠ 0 → x.started + 1000 * (collP x.desc).deadline ≤ d.now → exec (.collDeadline t g k) ⟨d, m, q⟩ = .next ⟨Dev.settle (d.deadlineClose t g k x), m, q⟩) ∧
  (∀ (t : Nat) (g : Nat) (k : Nat) (d : Dev) (m : Memory) (q : List Instr), t < 16 → g < 256 → d.timedInst t g k = none → exec (.collDeadline t g k) ⟨d, m, q⟩ = .next ⟨d, m, q⟩) ∧
  (∀ (t : Nat) (g : Nat) (k : Nat) (d : Dev) (m : Memory) (q : List Instr) (x : Inst), t < 16 → g < 256 → d.timedInst t g k = some x → x.closed = true → d.lateChildren t g x ≠ [] → d.lateFolded t g x = true → d.graceOver x = true → exec (.collGraceTimeout t g k) ⟨d, m, q⟩ = .next ⟨Dev.settle (d.leaveInst t g x), m, q⟩) ∧
  (∀ (t : Nat) (g : Nat) (k : Nat) (d : Dev) (m : Memory) (q : List Instr) (x : Inst), t < 16 → g < 256 → d.timedInst t g k = some x → x.closed = true → d.lateChildren t g x ≠ [] → d.lateFolded t g x = false → d.graceOver x = true → exec (.collGraceTimeout t g k) ⟨d, m, q⟩ = .next ⟨Dev.settle (d.missLate t g k x), m, q⟩) ∧
  (∀ (t : Nat) (g : Nat) (d : Dev) (m : Memory) (q : List Instr), t < 16 → g < 256 → d.dbg.st ≠ .stopped → (d.group t g).dropping = true → exec (.collDropTimeout t g) ⟨d, m, q⟩ = .next ⟨Dev.settle (d.dropNow t g), m, q⟩) ∧
  (∀ (e : Nat) (d : Dev) (m : Memory) (q : List Instr) (x : Inst) (f : FoldIn), e < 4 → d.foldNext e = some (x, f) → (Tab.look ({} : Chunk) f.chunk x.chunks).acc.isSome = true → exec (.reduceFoldStep e) ⟨d, m, q⟩ = .next ⟨Dev.settle (d.foldIn x f), m, q⟩) ∧
  (∀ (e : Nat) (d : Dev) (m : Memory) (q : List Instr) (x : Inst) (f : FoldIn) (y : Dev), e < 4 → d.foldNext e = some (x, f) → (Tab.look ({} : Chunk) f.chunk x.chunks).acc.isSome = false → d.claim 1 x.t 1 = (y, true) → exec (.reduceFoldStep e) ⟨d, m, q⟩ = .next ⟨Dev.settle (y.foldIn x f), m, q⟩) ∧
  (∀ (e : Nat) (d : Dev) (m : Memory) (q : List Instr) (x : Inst) (f : FoldIn) (y : Dev), e < 4 → d.foldNext e = some (x, f) → (Tab.look ({} : Chunk) f.chunk x.chunks).acc.isSome = false → d.claim 1 x.t 1 = (y, false) → exec (.reduceFoldStep e) ⟨d, m, q⟩ = .next ⟨y, m, q⟩) ∧
  (∀ (e : Nat) (d : Dev) (m : Memory) (q : List Instr), e < 4 → d.foldNext e = none → exec (.reduceFoldStep e) ⟨d, m, q⟩ = .next ⟨d, m, q⟩) ∧
  (∀ (d : Dev) (m : Memory) (q : List Instr), d.linkUp = true → d.memReq 0 = true → exec (.colCntClr) ⟨d, m, q⟩ = .next ⟨{ d with col.closes := 0, col.quorumFail := 0, col.restores := 0 }, m, q⟩) ∧
  (∀ (m' : CollMsg) (k' : CollMsg) (f' : FinalInfo) (d : Dev) (m : Memory) (q : List Instr) (x : Dev), d.takesColl 1 m' (noFinal 0) k' f' → (d.notifyMark .coll (d.collHeader 1 m')).collCounted 1 k' = x → (childrenOf (x.group k'.tenant k'.group).total (x.self k'.tenant k'.group)).contains k'.member = true → interior (x.group k'.tenant k'.group).total k'.member = false → (x.group k'.tenant k'.group).finalised < k'.inst → exec (.collContrib m') ⟨d, m, q⟩ = .next ⟨Dev.settle ((x.collData k' k'.elems false).checkInst k'.tenant k'.group k'.inst), m, q⟩) ∧
  (∀ (m' : CollMsg) (k' : CollMsg) (f' : FinalInfo) (d : Dev) (m : Memory) (q : List Instr) (x : Dev), d.takesColl 2 m' (noFinal 0) k' f' → (d.notifyMark .coll (d.collHeader 2 m')).collCounted 2 k' = x → (childrenOf (x.group k'.tenant k'.group).total (x.self k'.tenant k'.group)).contains k'.member = true → interior (x.group k'.tenant k'.group).total k'.member = true → (x.group k'.tenant k'.group).finalised < k'.inst → exec (.collPartial m') ⟨d, m, q⟩ = .next ⟨Dev.settle ((x.collData k' k'.elems true).checkInst k'.tenant k'.group k'.inst), m, q⟩) ∧
  (∀ (m' : CollMsg) (k' : CollMsg) (f' : FinalInfo) (d : Dev) (m : Memory) (q : List Instr) (x : Dev) (y : Dev) (i : Inst), d.takesColl 3 m' (noFinal 0) k' f' → (d.notifyMark .coll (d.collHeader 3 m')).collCounted 3 k' = x → (x.group k'.tenant k'.group).finalised < k'.inst → x.self k'.tenant k'.group ≠ 0 → x.openInst k'.tenant k'.group k'.inst = (y, i) → i.closed = false → exec (.collClose m') ⟨d, m, q⟩ = .next ⟨Dev.settle (y.closeDown i), m, q⟩) ∧
  (∀ (m' : CollMsg) (k' : CollMsg) (f' : FinalInfo) (d : Dev) (m : Memory) (q : List Instr) (x : Dev) (i : Inst), d.takesColl 4 m' (noFinal 0) k' f' → (d.notifyMark .coll (d.collHeader 4 m')).collCounted 4 k' = x → k'.toNode = none → x.instAt k'.tenant k'.group k'.inst = some i → i.closed = true → (i.acks.any fun a => decide (a.1 = k'.member)) = false → (closers (x.group k'.tenant k'.group).total (x.self k'.tenant k'.group)).contains k'.member = true → exec (.collCloseAck m') ⟨d, m, q⟩ = .next ⟨Dev.settle ((x.setInst { i with acks := i.acks ++ [(k'.member, k'.admitted)] }).checkInst k'.tenant k'.group k'.inst), m, q⟩) ∧
  (∀ (m' : CollMsg) (f : FinalInfo) (k' : CollMsg) (f' : FinalInfo) (d : Dev) (m : Memory) (q : List Instr) (x : Dev), d.takesColl 5 m' f k' f' → (d.notifyMark .coll (d.collHeader 5 m')).collCounted 5 k' = x → f'.refusal = false → k'.chunk = 0xFFFFFFFF → exec (.collFinal m' f) ⟨d, m, q⟩ = .next ⟨Dev.settle (x.finalHead k' f'), m, q⟩) ∧
  (∀ (m' : CollMsg) (f : FinalInfo) (k' : CollMsg) (f' : FinalInfo) (d : Dev) (m : Memory) (q : List Instr) (x : Dev), d.takesColl 5 m' f k' f' → (d.notifyMark .coll (d.collHeader 5 m')).collCounted 5 k' = x → f'.refusal = false → k'.chunk ≠ 0xFFFFFFFF → exec (.collFinal m' f) ⟨d, m, q⟩ = .next ⟨Dev.settle (x.finalChunk k'), m, q⟩) ∧
  (∀ (m' : CollMsg) (status : Nat) (k' : CollMsg) (f' : FinalInfo) (d : Dev) (m : Memory) (q : List Instr) (x : Dev) (y : Dev) (i : Inst), d.takesColl 6 m' (noFinal status) k' f' → (d.notifyMark .coll (d.collHeader 6 m')).collCounted 6 k' = x → (x.group k'.tenant k'.group).finalised < k'.inst → x.self k'.tenant k'.group = 0 → x.openInst k'.tenant k'.group k'.inst = (y, i) → exec (.collLeave m' status) ⟨d, m, q⟩ = .next ⟨Dev.settle ((y.rootLeave i k'.member (Status.ofCode f'.status)).checkInst k'.tenant k'.group k'.inst), m, q⟩) ∧
  (∀ (m' : CollMsg) (k' : CollMsg) (f' : FinalInfo) (d : Dev) (m : Memory) (q : List Instr) (x : Dev), d.takesColl 7 m' (noFinal 0) k' f' → (d.notifyMark .coll (d.collHeader 7 m')).collCounted 7 k' = x → x.self k'.tenant k'.group = 0 → (x.col.carries.find? fun c => decide (c.t = k'.tenant) && decide (c.g = k'.group) && decide (c.member = k'.member)) = none → x.grantable 1 k'.tenant 1 = true → exec (.collCarry m') ⟨d, m, q⟩ = .next ⟨Dev.settle (Dev.take { x with col.carries := x.col.carries ++ [{ t := k'.tenant, g := k'.group, member := k'.member, shape := k'.shape, chunks := [(k'.chunk, k'.elems)], inst := k'.inst }] } 1 k'.tenant 1), m, q⟩)

/-- A PAIR is accepted or refused; pieces of a snapshot join a mirror, and the last is acknowledged; new journal entries are applied and acknowledged; an acknowledgement releases what waited; a BEAT is recorded and one sent; a DOWN or the failure timer ends the partnership, unless the partner's HELLOs still come; the hold decides between CLEAVE and failure; losing the port cleaves, and its return pairs again; a pairing times out; the counter clears. What it takes beside the rules is the model's own reading (log 1, 34, 36, 104, 105). A clause in which nothing changes, the device expecting no such event, is log 1. -/
def Obligations.TwinCommands : Prop :=
  (∀ (m' : PairMsg) (d : Dev) (m : Memory) (q : List Instr), (d.twn.st = .pairing ∨ d.twn.st = .solo) → d.samePkg m' = true → d.pairOk m' = true → exec (.twnPair m') ⟨d, m, q⟩ = .next ⟨Dev.settle (d.pairAccept m'), m, q⟩) ∧
  (∀ (m' : PairMsg) (d : Dev) (m : Memory) (q : List Instr), (d.twn.st = .pairing ∨ d.twn.st = .solo) → d.samePkg m' = true → d.pairOk m' = false → exec (.twnPair m') ⟨d, m, q⟩ = .next ⟨Dev.settle (d.pairRefuse m'), m, q⟩) ∧
  (∀ (m' : PairMsg) (d : Dev) (m : Memory) (q : List Instr), (d.twn.st = .pairing ∨ d.twn.st = .solo) → d.samePkg m' = false → exec (.twnPair m') ⟨d, m, q⟩ = .next ⟨Dev.settle ((d.post Src.fabPkgMismatch 0).pairRefuse m'), m, q⟩) ∧
  (∀ (m' : PairMsg) (d : Dev) (m : Memory) (q : List Instr), d.twn.st = .off → exec (.twnPair m') ⟨d, m, q⟩ = .next ⟨d, m, q⟩) ∧
  (∀ (t : Nat) (off : Nat) (a : Snap) (d : Dev) (m : Memory) (q : List Instr), t < 16 → (d.twn.st = .syncing ∨ d.twn.st = .paired) → exec (.twnSnap t off true a) ⟨d, m, q⟩ = .next ⟨Dev.settle ((d.takeSnap t off true a).jack (d.twn.japplied + 1)), m, q⟩) ∧
  (∀ (t : Nat) (off : Nat) (a : Snap) (d : Dev) (m : Memory) (q : List Instr), t < 16 → (d.twn.st = .syncing ∨ d.twn.st = .paired) → exec (.twnSnap t off false a) ⟨d, m, q⟩ = .next ⟨d.takeSnap t off false a, m, q⟩) ∧
  (∀ (jseq : Nat) (entries : List JEntry) (d : Dev) (m : Memory) (q : List Instr), (d.twn.st = .syncing ∨ d.twn.st = .paired) → jseq ≤ d.twn.japplied + 1 → exec (.twnJrnl jseq entries) ⟨d, m, q⟩ = .next ⟨Dev.settle (((d.newEntries jseq entries).foldl Dev.applyEntry d).jack (d.twn.japplied + (d.newEntries jseq entries).length)), m, q⟩) ∧
  (∀ (jseq : Nat) (entries : List JEntry) (d : Dev) (m : Memory) (q : List Instr), d.twn.japplied + 1 < jseq → exec (.twnJrnl jseq entries) ⟨d, m, q⟩ = .next ⟨d, m, q⟩) ∧
  (∀ (jseq : Nat) (d : Dev) (m : Memory) (q : List Instr), d.twn.jacked < jseq → jseq < d.twn.jnext → exec (.twnJack jseq) ⟨d, m, q⟩ = .next ⟨Dev.settle (d.journalAcked jseq), m, q⟩) ∧
  (∀ (jseq : Nat) (d : Dev) (m : Memory) (q : List Instr), (jseq ≤ d.twn.jacked ∨ d.twn.jnext ≤ jseq) → exec (.twnJack jseq) ⟨d, m, q⟩ = .next ⟨d, m, q⟩) ∧
  (∀ (tstate : Nat) (jseq : Nat) (d : Dev) (m : Memory) (q : List Instr), exec (.twnBeat tstate jseq) ⟨d, m, q⟩ = .next ⟨{ d with twn.beat := some (d.now, tstate, jseq) }, m, q⟩) ∧
  (∀ (d : Dev) (m : Memory) (q : List Instr), d.twn.enabled = true → (d.lport 64).st = .active → exec (.twnBeatSend) ⟨d, m, q⟩ = .next ⟨d.twin 0x02 0xFF (d.twn.st.code + 2 ^ 32 * d.twn.japplied), m, q⟩) ∧
  (∀ (cause : Nat) (d : Dev) (m : Memory) (q : List Instr), exec (.twnDown cause) ⟨d, m, q⟩ = .next ⟨Dev.settle d.partnerFailed, m, q⟩) ∧
  (∀ (d : Dev) (m : Memory) (q : List Instr), d.twn.aliveIn = false → (d.lport 64).st ≠ .active → d.twn.enabled = true → d.twn.st = .paired → (d.partnerHellos.any fun a => decide (d.now < a + 3000000)) = true → max d.twn.aliveLost (d.lport 64).leftAt + 20000 ≤ d.now → exec (.twnFailureTimer) ⟨d, m, q⟩ = .next ⟨{ d with twn.holdAt := some d.now }, m, q⟩) ∧
  (∀ (d : Dev) (m : Memory) (q : List Instr), d.twn.aliveIn = false → (d.lport 64).st ≠ .active → d.twn.enabled = true → (d.partnerHellos.any fun a => decide (d.now < a + 3000000)) = false → max d.twn.aliveLost (d.lport 64).leftAt + 20000 ≤ d.now → exec (.twnFailureTimer) ⟨d, m, q⟩ = .next ⟨Dev.settle d.partnerFailed, m, q⟩) ∧
  (∀ (d : Dev) (m : Memory) (q : List Instr), d.twn.aliveIn = true → exec (.twnFailureTimer) ⟨d, m, q⟩ = .next ⟨d, m, q⟩) ∧
  (∀ (d : Dev) (m : Memory) (q : List Instr) (a : Nat), d.twn.holdAt = some a → (d.partnerHellos.any fun b => decide (a < b)) = true → exec (.twnHelloHold) ⟨d, m, q⟩ = .next ⟨Dev.settle d.enterCleave, m, q⟩) ∧
  (∀ (d : Dev) (m : Memory) (q : List Instr) (a : Nat), d.twn.holdAt = some a → (d.partnerHellos.any fun b => decide (a < b)) = false → (d.partnerHellos.all fun b => decide (b + 3000000 ≤ d.now)) = true → exec (.twnHelloHold) ⟨d, m, q⟩ = .next ⟨Dev.settle (({ d with twn.holdAt := none }).partnerFailed), m, q⟩) ∧
  (∀ (d : Dev) (m : Memory) (q : List Instr), (d.lport 64).st ≠ .active → d.twn.aliveIn = true → (d.twn.st = .syncing ∨ d.twn.st = .paired) → exec (.twnPortLost) ⟨d, m, q⟩ = .next ⟨Dev.settle d.enterCleave, m, q⟩) ∧
  (∀ (d : Dev) (m : Memory) (q : List Instr), (d.lport 64).st = .active → d.twn.aliveIn = false → exec (.twnPortLost) ⟨d, m, q⟩ = .next ⟨d.setLport 64 fun l => { l with st := .down, stAt := d.now, leftAt := d.now }, m, q⟩) ∧
  (∀ (d : Dev) (m : Memory) (q : List Instr), (d.lport 64).st = .active → (d.twn.st = .pairing ∨ d.twn.st = .solo) → exec (.twnPortActive) ⟨d, m, q⟩ = .next ⟨d.sendPair, m, q⟩) ∧
  (∀ (d : Dev) (m : Memory) (q : List Instr), (d.lport 64).st = .active → d.twn.st = .cleave → d.twn.cfg.getLsbD 0 = true → exec (.twnPortActive) ⟨d, m, q⟩ = .next ⟨Dev.settle ((d.setTst .pairing).sendPair), m, q⟩) ∧
  (∀ (d : Dev) (m : Memory) (q : List Instr), d.twn.st = .pairing → exec (.twnPairingTimeout) ⟨d, m, q⟩ = .next ⟨Dev.settle (d.endTwin 0x0800 .timeout), m, q⟩) ∧
  (∀ (d : Dev) (m : Memory) (q : List Instr), d.twn.st ≠ .pairing → exec (.twnPairingTimeout) ⟨d, m, q⟩ = .next ⟨d, m, q⟩) ∧
  (∀ (d : Dev) (m : Memory) (q : List Instr), d.linkUp = true → d.memReq 0 = true → exec (.twnCntClr) ⟨d, m, q⟩ = .next ⟨{ d with twn.stale := 0 }, m, q⟩)

/-- A telemetry frame is written to its place; timestamps go to the compute dies; a dump that does not fire times out, and a fired one ends when its record is written; a scheduled stop cuts every link at once and its record completes; a stop ends at its limit; the statistics clear; reads latch high words; an EXTEST-class TAP instruction resets a running device and holds it, any other releases it. What it takes beside the rules is the model's own reading (log 1, 114, 115, 116). A clause in which nothing changes, the device expecting no such event, is log 1. -/
def Obligations.DebugCommands : Prop :=
  (∀ (d : Dev) (m : Memory) (q : List Instr) (dest : W64) (period : Nat) (n : Nat), d.dbg.tlm = some (dest, period, n) → d.dbg.st ≠ .stopped → d.dbg.tlmAt + 1000 * period ≤ d.now → exec (.tlmFrame) ⟨d, m, q⟩ = .next ⟨Dev.settle (d.writeFrame dest period n), m, q⟩) ∧
  (∀ (d : Dev) (m : Memory) (q : List Instr), d.dbg.tlm = none → exec (.tlmFrame) ⟨d, m, q⟩ = .next ⟨d, m, q⟩) ∧
  (∀ (d : Dev) (m : Memory) (q : List Instr), d.dbg.cfg.toNat / 2 ^ 16 = 0 → exec (.tsSend) ⟨d, m, q⟩ = .next ⟨d, m, q⟩) ∧
  (∀ (d : Dev) (m : Memory) (q : List Instr), d.dbg.cfg.toNat / 2 ^ 16 ≠ 0 → d.dbg.tsAt + 1000 * (d.dbg.cfg.toNat / 2 ^ 16) ≤ d.now → exec (.tsSend) ⟨d, m, q⟩ = .next ⟨(List.range 8).foldl (fun (d : Dev) p => if (d.hport p).st = .active && (d.hport p).feat.getLsbD 3 then d.facet p 3 (debugFlits 16) (.facetTime p (BitVec.ofNat 64 d.fab.time) (bNat d.timeLocked)) else d) { d with dbg.tsAt := d.now }, m, q⟩) ∧
  (∀ (t : Nat) (d : Dev) (m : Memory) (q : List Instr) (x : Dump), t < 16 → Tab.look none t d.dbg.dumps = some x → x.firing = none → d.dbg.st ≠ .stopped → x.at_ + 600000000000 ≤ d.now → exec (.dumpTimeout t) ⟨d, m, q⟩ = .next ⟨({ d with dbg.dumps := Tab.put none t none d.dbg.dumps }).finishAccs (fun a => decide (a.opcode = 0x0A04) && decide (a.arg = t)) .timeout [0], m, q⟩) ∧
  (∀ (t : Nat) (d : Dev) (m : Memory) (q : List Instr) (x : Dump) (gq : Nat) (idx : Nat) (st : Status), t < 16 → Tab.look none t d.dbg.dumps = some x → x.firing = some (gq, idx) → x.status = some st → d.recordWritten gq idx = true → exec (.dumpDone t) ⟨d, m, q⟩ = .next ⟨(({ d with dbg.dumps := Tab.put none t none d.dbg.dumps } : Dev).trace 0x0B t 0 gq st.code (some { layer := x.layer, operator := x.operator, range := x.stp }) x.bytes).finishAccs (fun a => decide (a.opcode = 0x0A04) && decide (a.arg = t)) (if x.failed then .accessDenied else st) [x.bytes], m, q⟩) ∧
  (∀ (d : Dev) (m : Memory) (q : List Instr), d.dbg.st = .scheduled → (d.dbg.cause ≠ 3 ∨ d.dbg.stopFt ≤ d.fab.time) → exec (.stopCut) ⟨d, m, q⟩ = .next ⟨d.wake.cutNow, m, q⟩) ∧
  (∀ (d : Dev) (m : Memory) (q : List Instr), d.dbg.st = .scheduled → d.dbg.cause = 3 → d.fab.time < d.dbg.stopFt → exec (.stopCut) ⟨d, m, q⟩ = .next ⟨d, m, q⟩) ∧
  (∀ (d : Dev) (m : Memory) (q : List Instr), d.dbg.st = .stopped → d.dbg.record = false → exec (.stopRecordDone) ⟨d, m, q⟩ = .next ⟨({ d with dbg.record := true }).finishAccs (fun a => decide (a.opcode = 0x0A00)) .ok [], m, q⟩) ∧
  (∀ (d : Dev) (m : Memory) (q : List Instr), d.dbg.cfg.toNat / 256 % 256 ≠ 0 → d.dbg.cutAt + 100000000 * (d.dbg.cfg.toNat / 256 % 256) ≤ d.now → exec (.maxstopExpiry) ⟨d, m, q⟩ = .next ⟨Dev.settle (d.resume 1), m, q⟩) ∧
  (∀ (d : Dev) (m : Memory) (q : List Instr), d.linkUp = true → d.memReq 0 = true → exec (.dbgTrstatClr) ⟨d, m, q⟩ = .next ⟨{ d with dbg.trace := [], dbg.lost := 0 }, m, q⟩) ∧
  (∀ (d : Dev) (m : Memory) (q : List Instr), d.linkUp = true → d.memReq 0 = true → exec (.dbgTlmstatClr) ⟨d, m, q⟩ = .next ⟨{ d with dbg.frames := 0, dbg.skipped := 0 }, m, q⟩) ∧
  (∀ (d : Dev) (m : Memory) (q : List Instr), d.linkUp = true → d.memReq 0 = true → exec (.dbgStopvalLoRead true) ⟨d, m, q⟩ = .next ⟨{ d with dbg.cycHi := BitVec.ofNat 32 (d.dbg.stopCyc / 2 ^ 32) }, m, q⟩) ∧
  (∀ (d : Dev) (m : Memory) (q : List Instr), d.linkUp = true → d.memReq 0 = true → exec (.dbgStopvalLoRead false) ⟨d, m, q⟩ = .next ⟨{ d with dbg.ftHi := BitVec.ofNat 32 (d.dbg.stopFt / 2 ^ 32) }, m, q⟩) ∧
  (∀ (instr : Nat) (d : Dev) (m : Memory) (q : List Instr), 3 ≤ instr → instr ≤ 7 → 4 ≤ d.boot.stage.code → d.jad.latched = false → exec (.tapInstructionLoad instr) ⟨d, m, q⟩ = .next ⟨Dev.settle ({ { ({ d with jad.tap := instr }).devReset .tap with jad.bscanDr := true } with jad.bscanHold := true }), m, q⟩) ∧
  (∀ (instr : Nat) (d : Dev) (m : Memory) (q : List Instr), instr ≤ 2 → exec (.tapInstructionLoad instr) ⟨d, m, q⟩ = .next ⟨{ d with jad.tap := instr, jad.bscanHold := false }, m, q⟩) ∧
  (∀ (instr : Nat) (d : Dev) (m : Memory) (q : List Instr), 7 < instr → exec (.tapInstructionLoad instr) ⟨d, m, q⟩ = .next ⟨{ d with jad.tap := 0, jad.bscanHold := false }, m, q⟩) ∧
  (∀ (d : Dev) (m : Memory) (q : List Instr), exec (.trstAssert) ⟨d, m, q⟩ = .next ⟨{ d with jad.tap := 1, jad.bscanHold := false }, m, q⟩)

/-- Inclusions that waited for their memory are stored; FLT_ACK acknowledges every record; a tenant's acknowledges its own below class 5; severities and the pin threshold are written unless locked; the inclusions and the rejection flag clear. What it takes beside the rules is the model's own reading (log 1, 121, 122, 176). A clause in which nothing changes, the device expecting no such event, is log 1. -/
def Obligations.FaultRegisterCommands : Prop :=
  (∀ (d : Dev) (m : Memory) (q : List Instr), d.domain 3 = 3 → exec (.inclusionDeferredWrite) ⟨d, m, q⟩ = .next ⟨d.flt.waiting.foldl Dev.storeIncl { d with flt.waiting := [] }, m, q⟩) ∧
  (∀ (d : Dev) (m : Memory) (q : List Instr), d.domain 3 ≠ 3 → exec (.inclusionDeferredWrite) ⟨d, m, q⟩ = .next ⟨d, m, q⟩) ∧
  (∀ (d : Dev) (m : Memory) (q : List Instr), d.linkUp = true → d.memReq 0 = true → exec (.fltAckAll) ⟨d, m, q⟩ = .next ⟨d.ackAll, m, q⟩) ∧
  (∀ (t : Nat) (d : Dev) (m : Memory) (q : List Instr), d.linkUp = true → (d.memReq (t + 1) = true ∨ d.memReq 0 = true) → t < 16 → exec (.tenFstatClr t) ⟨d, m, q⟩ = .next ⟨{ d with flt.log := d.flt.log.map fun r => (if r.dom = some t && decide (r.cls < 5) then { r with acked := true } else r : Rec) }, m, q⟩) ∧
  (∀ (w : Nat) (val : W32) (d : Dev) (m : Memory) (q : List Instr), d.linkUp = true → d.memReq 0 = true → w < 32 → d.flt.lock = false → exec (.fltSevWrite w val) ⟨d, m, q⟩ = .next ⟨{ d with flt := (List.range 8).foldl (fun f j => f.setSev (8 * w + j) (val.toNat / 16 ^ j % 16)) d.flt }, m, q⟩) ∧
  (∀ (w : Nat) (val : W32) (d : Dev) (m : Memory) (q : List Instr), d.linkUp = true → d.memReq 0 = true → w < 32 → d.flt.lock = true → exec (.fltSevWrite w val) ⟨d, m, q⟩ = .next ⟨d, m, q⟩) ∧
  (∀ (val : W32) (d : Dev) (m : Memory) (q : List Instr), d.linkUp = true → d.memReq 0 = true → d.flt.lock = false → exec (.fltCfgWrite val) ⟨d, m, q⟩ = .next ⟨{ d with flt.pinThr := val.toNat % 8, flt.lock := val.getLsbD 3 }, m, q⟩) ∧
  (∀ (val : W32) (d : Dev) (m : Memory) (q : List Instr), d.linkUp = true → d.memReq 0 = true → d.flt.lock = true → exec (.fltCfgWrite val) ⟨d, m, q⟩ = .next ⟨d, m, q⟩) ∧
  (∀ (d : Dev) (m : Memory) (q : List Instr), d.linkUp = true → d.memReq 0 = true → exec (.fltInclclr) ⟨d, m, q⟩ = .next ⟨{ d with flt.incl := [] }, m, q⟩) ∧
  (∀ (d : Dev) (m : Memory) (q : List Instr), d.linkUp = true → d.memReq 0 = true → exec (.fltStatSevRejClr) ⟨d, m, q⟩ = .next ⟨{ d with flt.sevRej := false }, m, q⟩)

/-- A sideband command arrives; a doorbell enqueues the commands behind the tail, and one with a bad count is reported; head writes free the slots read, and a notice slot freed after a loss takes the overflow notice first; vectors are set; each MCTP message is answered; the step that runs next is firmware's, the second priority's or a tenant's in turn; an unknown opcode is answered UNSUPPORTED. What it takes beside the rules is the model's own reading (log 1, 30, 37, 38, 65, 66, 67, 145, 149). A clause in which nothing changes, the device expecting no such event, is log 1. -/
def Obligations.MailboxCommands : Prop :=
  (∀ (p : Nat) (h : CmdHdr) (d : Dev) (m : Memory) (q : List Instr), p < 8 → exec (.sidebandCommand p h) ⟨d, m, q⟩ = .next ⟨Dev.settle (d.sideband p (pathFn h.req.path) { h with req := { h.req with path := .sideband p (pathFn h.req.path) } }), m, q⟩) ∧
  (∀ (fn : Nat) (tail : W16) (msgs : List CmdHdr) (d : Dev) (m : Memory) (q : List Instr), d.linkUp = true → d.memReq fn = true → fn < 17 → d.servedFn fn = true → (d.fn fn).flr = false → (tail - (d.fn fn).cmdTail).toNat < 2 ^ 15 → (tail - (d.fn fn).cmdHead).toNat ≤ 16 → exec (.mbxCmdDoorbell fn tail msgs) ⟨d, m, q⟩ = .next ⟨(d.rung fn (tail - (d.fn fn).cmdTail).toNat msgs).setFn fn fun g => { g with cmdTail := tail }, m, q⟩) ∧
  (∀ (fn : Nat) (tail : W16) (msgs : List CmdHdr) (d : Dev) (m : Memory) (q : List Instr), d.linkUp = true → d.memReq fn = true → fn < 17 → d.servedFn fn = true → (d.fn fn).flr = false → (2 ^ 15 ≤ (tail - (d.fn fn).cmdTail).toNat ∨ 16 < (tail - (d.fn fn).cmdHead).toNat) → exec (.mbxCmdDoorbell fn tail msgs) ⟨d, m, q⟩ = .next ⟨Dev.settle (d.post Src.mbxProto 0xFF (fnDom fn)), m, q⟩) ∧
  (∀ (fn : Nat) (idx : W16) (d : Dev) (m : Memory) (q : List Instr), d.linkUp = true → d.memReq fn = true → fn < 17 → d.servedFn fn = true → (d.fn fn).flr = false → exec (.mbxRspHeadWrite fn idx) ⟨d, m, q⟩ = .next ⟨(d.setFn fn fun g => { g with rspHead := idx }).flushRsp fn, m, q⟩) ∧
  (∀ (fn : Nat) (idx : W16) (d : Dev) (m : Memory) (q : List Instr), d.linkUp = true → d.memReq fn = true → fn < 17 → d.servedFn fn = false → exec (.mbxRspHeadWrite fn idx) ⟨d, m, q⟩ = .next ⟨d, m, q⟩) ∧
  (∀ (fn : Nat) (idx : W16) (d : Dev) (m : Memory) (q : List Instr), d.linkUp = true → d.memReq fn = true → fn < 17 → d.servedFn fn = true → ((d.setFn fn fun g => { g with ntcHead := idx }).fn fn).overflowDue = false → exec (.mbxNtcHeadWrite fn idx) ⟨d, m, q⟩ = .next ⟨d.setFn fn fun g => { g with ntcHead := idx }, m, q⟩) ∧
  (∀ (fn : Nat) (idx : W16) (d : Dev) (m : Memory) (q : List Instr), d.linkUp = true → d.memReq fn = true → fn < 17 → d.servedFn fn = true → (d.fn fn).flr = false → ((d.setFn fn fun g => { g with ntcHead := idx }).fn fn).overflowDue = true → exec (.mbxNtcHeadWrite fn idx) ⟨d, m, q⟩ = .next ⟨((d.setFn fn fun g => { g with ntcHead := idx }).setFn fn fun g => { g with lostNow := 0 }).ringNotice fn (overflowNotice fn ((d.setFn fn fun g => { g with ntcHead := idx }).fn fn).lostNow), m, q⟩) ∧
  (∀ (fn : Nat) (irq : Nat) (ntc : Nat) (d : Dev) (m : Memory) (q : List Instr), d.linkUp = true → d.memReq fn = true → fn < 17 → d.servedFn fn = true → (d.fn fn).flr = false → irq ≤ 8 → ntc ≤ 8 → exec (.mbxCtlWrite fn irq ntc) ⟨d, m, q⟩ = .next ⟨((d.setFn fn fun g => { g with irqDest := irq, ntcDest := ntc }).flushVecs fn).flushHeld fn, m, q⟩) ∧
  (∀ (fn : Nat) (irq : Nat) (ntc : Nat) (d : Dev) (m : Memory) (q : List Instr), d.linkUp = true → d.memReq fn = true → fn < 17 → d.servedFn fn = true → (d.fn fn).flr = false → (8 < irq ∨ 8 < ntc) → exec (.mbxCtlWrite fn irq ntc) ⟨d, m, q⟩ = .next ⟨Dev.settle (d.post Src.mbxProto 0xFF (fnDom fn)), m, q⟩) ∧
  (∀ (addr : Nat) (d : Dev) (m : Memory) (q : List Instr) (e : Byte), d.jad.released = true → addr = d.smbAddr → exec (.mctpMessage addr true ((.setEid e))) ⟨d, m, q⟩ = .next ⟨({ d with jad.eid := e }).control 1 [e.toNat], m, q⟩) ∧
  (∀ (addr : Nat) (d : Dev) (m : Memory) (q : List Instr), d.jad.released = true → addr = d.smbAddr → exec (.mctpMessage addr true .getEid) ⟨d, m, q⟩ = .next ⟨d.control 2 [d.jad.eid.toNat], m, q⟩) ∧
  (∀ (addr : Nat) (d : Dev) (m : Memory) (q : List Instr), d.jad.released = true → addr = d.smbAddr → exec (.mctpMessage addr true .getTypes) ⟨d, m, q⟩ = .next ⟨d.control 5 [0x00, 0x05, 0x7E], m, q⟩) ∧
  (∀ (addr : Nat) (d : Dev) (m : Memory) (q : List Instr), d.jad.released = true → addr = d.smbAddr → exec (.mctpMessage addr true .getUuid) ⟨d, m, q⟩ = .next ⟨d.control 3 [Config.mctpUuid.toNat], m, q⟩) ∧
  (∀ (addr : Nat) (d : Dev) (m : Memory) (q : List Instr), d.jad.released = true → addr = d.smbAddr → exec (.mctpMessage addr true .getVersion) ⟨d, m, q⟩ = .next ⟨d.control 4 [Config.mctpVersion.toNat], m, q⟩) ∧
  (∀ (addr : Nat) (d : Dev) (m : Memory) (q : List Instr) (r : SpdmReq), d.jad.released = true → addr = d.smbAddr → d.up = true → exec (.mctpMessage addr true ((.spdm r))) ⟨d, m, q⟩ = .next ⟨Dev.settle (d.spdmAnswer 1 none r), m, q⟩) ∧
  (∀ (addr : Nat) (d : Dev) (m : Memory) (q : List Instr) (h : CmdHdr), d.jad.released = true → addr = d.smbAddr → exec (.mctpMessage addr true ((.oxsum Config.vendorId h))) ⟨d, m, q⟩ = .next ⟨Dev.settle (d.mctpCommand { h with req := { h.req with path := .mctp } }), m, q⟩) ∧
  (∀ (addr : Nat) (d : Dev) (m : Memory) (q : List Instr) (n : Nat), d.jad.released = true → addr = d.smbAddr → exec (.mctpMessage addr true ((.unsupported n))) ⟨d, m, q⟩ = .next ⟨d.emit .mctpError, m, q⟩) ∧
  (∀ (addr : Nat) (pec : Bool) (x : MctpMsg) (d : Dev) (m : Memory) (q : List Instr), (pec = false ∨ addr ≠ d.smbAddr) → exec (.mctpMessage addr pec x) ⟨d, m, q⟩ = .next ⟨d, m, q⟩) ∧
  (∀ (d : Dev) (m : Memory) (q : List Instr), exec (.conikStepSelect true) ⟨d, m, q⟩ = .next ⟨{ d with mbx.lastP2 := false }, m, q⟩) ∧
  (∀ (d : Dev) (m : Memory) (q : List Instr) (w : Wait), d.mbx.cur = none → d.nextP2 = some w → d.turnP3 = none → exec (.conikStepSelect false) ⟨d, m, q⟩ = .next ⟨{ d.take1 0 w with mbx.lastP2 := true }, m, q⟩) ∧
  (∀ (d : Dev) (m : Memory) (q : List Instr) (t : Nat) (v : Wait), d.mbx.cur = none → d.nextP2 = none → d.turnP3 = some (t, v) → exec (.conikStepSelect false) ⟨d, m, q⟩ = .next ⟨{ d.take1 (t + 1) v with mbx.lastP2 := false, mbx.turn := (t + 1) % 16 }, m, q⟩) ∧
  (∀ (d : Dev) (m : Memory) (q : List Instr), d.mbx.cur = none → d.nextP2 = none → d.turnP3 = none → exec (.conikStepSelect false) ⟨d, m, q⟩ = .next ⟨d, m, q⟩) ∧
  (∀ (r : Req) (opcode : W16) (d : Dev) (m : Memory) (q : List Instr) (e : Dev), (opsOfGroup d.mbx.oxMin (opcode.toNat / 256)).contains (opcode.toNat % 256) = false → d.admits { op := opcode.toNat, tn := true, m := true, rcv := false, dev := true, len := r.length, live := true, blind := true } r = (e, true) → exec (.oxsumUnknownOpcode r opcode) ⟨d, m, q⟩ = .next ⟨Dev.settle (e.deny { op := opcode.toNat, tn := true, m := true, rcv := false, dev := true, len := r.length, live := true, blind := true } r .unsupported), m, q⟩) ∧
  (∀ (r : Req) (opcode : W16) (d : Dev) (m : Memory) (q : List Instr), (opsOfGroup d.mbx.oxMin (opcode.toNat / 256)).contains (opcode.toNat % 256) = true → exec (.oxsumUnknownOpcode r opcode) ⟨d, m, q⟩ = .next ⟨d, m, q⟩)

/-- An admitted command of these groups has its effect: the tenant's resources, ports, window and queues change as it says and its answer carries what it asked for; what a rule refuses is answered with the status the rule names and changes nothing else. What it takes beside the rules is the model's own reading (log 21, 68, 69, 70). -/
def Obligations.TenantAndQueueCommands : Prop :=
  (∀ (r : Req) (a : Assign) (c : Cmd) (d d' : Dev) (m : Memory) (ps : List Instr), c = { op := 0x0200, named := true, len := 40, fence := true, change := true, objs := [.tenant r.tenant.toNat], ok := assignFields a } → d.admits c r = (d', true) → d'.partnerServes r.tenant.toNat = false → d'.assignFits r.tenant.toNat a = true → exec (.tenAssign r a) ⟨d, m, ps⟩ = .next ⟨Dev.settle ((d'.assignTen r.tenant.toNat a).okay c r), m, ps⟩) ∧
  (∀ (r : Req) (a : Assign) (c : Cmd) (d d' : Dev) (m : Memory) (ps : List Instr), c = { op := 0x0200, named := true, len := 40, fence := true, change := true, objs := [.tenant r.tenant.toNat], ok := assignFields a } → d.admits c r = (d', true) → d'.partnerServes r.tenant.toNat = false → d'.assignFits r.tenant.toNat a = false → exec (.tenAssign r a) ⟨d, m, ps⟩ = .next ⟨Dev.settle (d'.deny c r .noResource), m, ps⟩) ∧
  (∀ (r : Req) (c : Cmd) (d d' : Dev) (m : Memory) (ps : List Instr), c = { op := 0x0201, named := true, acc := true, change := true, objs := [.tenant r.tenant.toNat] } → d.admits c r = (d', true) → d'.partnerServes r.tenant.toNat = false → exec (.tenRelease r) ⟨d, m, ps⟩ = .next ⟨Dev.settle ((d'.started c r [.tenant r.tenant.toNat]).trStart r.tenant.toNat 2), m, ps⟩) ∧
  (∀ (r : Req) (ports : BitVec 8) (c : Cmd) (d d' : Dev) (m : Memory) (ps : List Instr), c = { op := 0x0202, named := true, len := 4, fence := true, change := true, objs := [.tenant r.tenant.toNat] } → d.admits c r = (d', true) → exec (.tenBind r ports) ⟨d, m, ps⟩ = .next ⟨Dev.settle ((((d'.bindTen r.tenant.toNat ports).okay c r).flushVecs (r.tenant.toNat + 1)).flushHeld (r.tenant.toNat + 1)), m, ps⟩) ∧
  (∀ (r : Req) (c : Cmd) (d d' : Dev) (m : Memory) (ps : List Instr), c = { op := 0x0203, pf := false, tn := true, live := true, objs := [.tenant r.tenant.toNat] } → d.admits c r = (d', true) → exec (.tenQuery r) ⟨d, m, ps⟩ = .next ⟨Dev.settle (d'.okay c r (d'.tenAnswer r.tenant.toNat)), m, ps⟩) ∧
  (∀ (r : Req) (c : Cmd) (d d' : Dev) (m : Memory) (ps : List Instr), c = { op := 0x0204, pf := false, tn := true, acc := true, objs := [.tenant r.tenant.toNat] } → d.admits c r = (d', true) → exec (.tenReset r) ⟨d, m, ps⟩ = .next ⟨Dev.settle ((d'.started c r [.tenant r.tenant.toNat]).trStart r.tenant.toNat (if pathFn r.path = 0 then 2 else 1)), m, ps⟩) ∧
  (∀ (r : Req) (base : W64) (size : W64) (pasid : Nat) (xflags : W32) (c : Cmd) (d d' : Dev) (m : Memory) (ps : List Instr), c = { op := 0x0210, pf := false, tn := true, len := 24, acc := true, fence := true, change := true, objs := [.tenant r.tenant.toNat], ok := decide (base.toNat % 4096 = 0) && decide (size.toNat % 4096 = 0) && decide (size.toNat ≤ 2 ^ 48) && decide (base.toNat + size.toNat ≤ 2 ^ 64) && decide (xflags.toNat < 8) && decide (pasid < 2 ^ 20) } → d.admits c r = (d', true) → (d'.ten r.tenant.toNat).serving = 0 → exec (.tenExport r base size pasid xflags) ⟨d, m, ps⟩ = .next ⟨Dev.settle ((d'.okay c r).setWindow r.tenant.toNat base size pasid xflags 0), m, ps⟩) ∧
  (∀ (r : Req) (base : W64) (size : W64) (pasid : Nat) (xflags : W32) (c : Cmd) (d d' : Dev) (m : Memory) (ps : List Instr), c = { op := 0x0210, pf := false, tn := true, len := 24, acc := true, fence := true, change := true, objs := [.tenant r.tenant.toNat], ok := decide (base.toNat % 4096 = 0) && decide (size.toNat % 4096 = 0) && decide (size.toNat ≤ 2 ^ 48) && decide (base.toNat + size.toNat ≤ 2 ^ 64) && decide (xflags.toNat < 8) && decide (pasid < 2 ^ 20) } → d.admits c r = (d', true) → (d'.ten r.tenant.toNat).serving ≠ 0 → exec (.tenExport r base size pasid xflags) ⟨d, m, ps⟩ = .next ⟨Dev.settle ((d'.started c r [.tenant r.tenant.toNat]).setWindow r.tenant.toNat base size pasid xflags (d'.ten r.tenant.toNat).serving), m, ps⟩) ∧
  (∀ (r : Req) (q : QArgs) (c : Cmd) (d d' : Dev) (m : Memory) (ps : List Instr), c = { op := 0x0300, pf := false, tn := true, len := 28, change := true, objs := [.queue r.tenant.toNat q.queue], ok := queueFields q } → d.admits c r = (d', true) → (d'.queue (64 * r.tenant.toNat + q.queue)).st = .absent → d'.queuesOf r.tenant.toNat < ((d'.ten r.tenant.toNat).assign.getD {}).queues → exec (.qCreate r q) ⟨d, m, ps⟩ = .next ⟨Dev.settle ((d'.createQueue r.tenant.toNat q).okay c r [64 * r.tenant.toNat + q.queue]), m, ps⟩) ∧
  (∀ (r : Req) (q : QArgs) (c : Cmd) (d d' : Dev) (m : Memory) (ps : List Instr), c = { op := 0x0300, pf := false, tn := true, len := 28, change := true, objs := [.queue r.tenant.toNat q.queue], ok := queueFields q } → d.admits c r = (d', true) → (d'.queue (64 * r.tenant.toNat + q.queue)).st ≠ .absent → exec (.qCreate r q) ⟨d, m, ps⟩ = .next ⟨Dev.settle (d'.deny c r .badState), m, ps⟩) ∧
  (∀ (r : Req) (q : Nat) (c : Cmd) (d d' : Dev) (m : Memory) (ps : List Instr), c = { op := 0x0301, pf := false, tn := true, len := 4, change := true, objs := [.queue r.tenant.toNat q], ok := decide (q < 64) } → d.admits c r = (d', true) → (d'.queue (64 * r.tenant.toNat + q)).st = .stopped → exec (.qDestroy r q) ⟨d, m, ps⟩ = .next ⟨Dev.settle ((d'.destroyQueue r.tenant.toNat q).okay c r), m, ps⟩) ∧
  (∀ (r : Req) (q : Nat) (c : Cmd) (d d' : Dev) (m : Memory) (ps : List Instr), c = { op := 0x0302, pf := false, tn := true, len := 4, change := true, objs := [.queue r.tenant.toNat q], ok := decide (q < 64) } → d.admits c r = (d', true) → d'.mayRun r.tenant.toNat q = true → (d'.queue (64 * r.tenant.toNat + q)).ringFault = false → exec (.qStart r q) ⟨d, m, ps⟩ = .next ⟨Dev.settle ((d'.setQueue (64 * r.tenant.toNat + q) fun x => { x with st := .running, fetched := [] }).okay c r), m, ps⟩) ∧
  (∀ (r : Req) (q : Nat) (c : Cmd) (d d' : Dev) (m : Memory) (ps : List Instr), c = { op := 0x0302, pf := false, tn := true, len := 4, change := true, objs := [.queue r.tenant.toNat q], ok := decide (q < 64) } → d.admits c r = (d', true) → d'.mayRun r.tenant.toNat q = true → (d'.queue (64 * r.tenant.toNat + q)).ringFault = true → exec (.qStart r q) ⟨d, m, ps⟩ = .next ⟨Dev.settle (d'.probeRing c r r.tenant.toNat q), m, ps⟩) ∧
  (∀ (r : Req) (q : Nat) (c : Cmd) (d d' : Dev) (m : Memory) (ps : List Instr), c = { op := 0x0302, pf := false, tn := true, len := 4, change := true, objs := [.queue r.tenant.toNat q], ok := decide (q < 64) } → d.admits c r = (d', true) → d'.mayRun r.tenant.toNat q = false → exec (.qStart r q) ⟨d, m, ps⟩ = .next ⟨Dev.settle (d'.deny c r .badState), m, ps⟩) ∧
  (∀ (r : Req) (q : Nat) (smode : Nat) (c : Cmd) (d d' : Dev) (m : Memory) (ps : List Instr), c = { op := 0x0303, pf := false, tn := true, len := 4, acc := true, change := true, objs := [.queue r.tenant.toNat q], ok := decide (q < 64) && decide (smode ≤ 1) } → d.admits c r = (d', true) → ([QSt.running, .draining, .aborting].contains (d'.queue (64 * r.tenant.toNat + q)).st) = true → (d'.quench (64 * r.tenant.toNat + q) smode).opsOf (64 * r.tenant.toNat + q) = [] → exec (.qStop r q smode) ⟨d, m, ps⟩ = .next ⟨Dev.settle (((d'.quench (64 * r.tenant.toNat + q) smode).drained (64 * r.tenant.toNat + q)).okay c r), m, ps⟩) ∧
  (∀ (r : Req) (q : Nat) (c : Cmd) (d d' : Dev) (m : Memory) (ps : List Instr), c = { op := 0x0303, pf := false, tn := true, len := 4, acc := true, change := true, objs := [.queue r.tenant.toNat q], ok := decide (q < 64) && decide (0 ≤ 1) } → d.admits c r = (d', true) → ([QSt.running, .draining, .aborting].contains (d'.queue (64 * r.tenant.toNat + q)).st) = true → (d'.quench (64 * r.tenant.toNat + q) 0).opsOf (64 * r.tenant.toNat + q) ≠ [] → exec (.qStop r q 0) ⟨d, m, ps⟩ = .next ⟨Dev.settle ((d'.quench (64 * r.tenant.toNat + q) 0).started c r [.queue r.tenant.toNat q]), m, ps⟩) ∧
  (∀ (r : Req) (q : Nat) (desc : Nat) (c : Cmd) (d d' : Dev) (m : Memory) (ps : List Instr), c = { op := 0x0304, pf := false, tn := true, len := 8, objs := [.queue r.tenant.toNat q], ok := decide (q < 64) && decide (desc < 2 ^ 32) && (d.belowHead (64 * r.tenant.toNat + q) desc || decide ((BitVec.ofNat 32 desc - (d.queue (64 * r.tenant.toNat + q)).head).toNat < ((d.queue (64 * r.tenant.toNat + q)).tail - (d.queue (64 * r.tenant.toNat + q)).head).toNat)) } → d.admits c r = (d', true) → d'.belowHead (64 * r.tenant.toNat + q) desc = false → (d'.queue (64 * r.tenant.toNat + q)).recs.contains desc = false → (d'.opAt (64 * r.tenant.toNat + q) desc).isSome = true → exec (.qAbort r q desc) ⟨d, m, ps⟩ = .next ⟨Dev.settle ((d'.endOp (64 * r.tenant.toNat + q) desc .aborted).okay c r), m, ps⟩) ∧
  (∀ (r : Req) (q : Nat) (desc : Nat) (c : Cmd) (d d' : Dev) (m : Memory) (ps : List Instr), c = { op := 0x0304, pf := false, tn := true, len := 8, objs := [.queue r.tenant.toNat q], ok := decide (q < 64) && decide (desc < 2 ^ 32) && (d.belowHead (64 * r.tenant.toNat + q) desc || decide ((BitVec.ofNat 32 desc - (d.queue (64 * r.tenant.toNat + q)).head).toNat < ((d.queue (64 * r.tenant.toNat + q)).tail - (d.queue (64 * r.tenant.toNat + q)).head).toNat)) } → d.admits c r = (d', true) → d'.belowHead (64 * r.tenant.toNat + q) desc = true → exec (.qAbort r q desc) ⟨d, m, ps⟩ = .next ⟨Dev.settle (d'.deny c r .alreadyComplete), m, ps⟩) ∧
  (∀ (r : Req) (q : Nat) (c : Cmd) (d d' : Dev) (m : Memory) (ps : List Instr), c = { op := 0x0305, pf := false, tn := true, len := 4, live := true, objs := [.queue r.tenant.toNat q], ok := decide (q < 64) } → d.admits c r = (d', true) → exec (.qQuery r q) ⟨d, m, ps⟩ = .next ⟨Dev.settle (d'.okay c r [(d'.queue (64 * r.tenant.toNat + q)).st.code, (d'.queue (64 * r.tenant.toNat + q)).last.code, (d'.queue (64 * r.tenant.toNat + q)).head.toNat, (d'.queue (64 * r.tenant.toNat + q)).tail.toNat, (d'.opsOf (64 * r.tenant.toNat + q)).length]), m, ps⟩) ∧
  (∀ (r : Req) (pasid : Nat) (fflags : W32) (c : Cmd) (d d' : Dev) (m : Memory) (ps : List Instr), c = { op := 0x0400, pf := false, tn := true, len := 8, acc := true, ok := decide (pasid < 2 ^ 20) && decide (fflags.toNat < 2) } → d.admits c r = (d', true) → exec (.xltFlush r pasid fflags) ⟨d, m, ps⟩ = .next ⟨Dev.settle ((d'.flushXlt r.tenant.toNat pasid fflags).okay c r), m, ps⟩) ∧
  (∀ (r : Req) (stream : Nat) (base : W64) (span : W64) (pageLog2 : Nat) (depth : Nat) (c : Cmd) (d d' : Dev) (m : Memory) (ps : List Instr), c = { op := 0x0410, pf := false, tn := true, len := 24, change := true, objs := [.stream r.tenant.toNat stream], ok := d.streamFields r.tenant.toNat stream base span pageLog2 depth } → d.admits c r = (d', true) → (d'.stream r.tenant.toNat stream).st = .absent → exec (.streamDeclare r stream base span pageLog2 depth) ⟨d, m, ps⟩ = .next ⟨Dev.settle (((d'.declareStream r.tenant.toNat stream base span pageLog2 depth).okay c r).subscribe r.tenant.toNat stream), m, ps⟩) ∧
  (∀ (r : Req) (stream : Nat) (c : Cmd) (d d' : Dev) (m : Memory) (ps : List Instr), c = { op := 0x0411, pf := false, tn := true, len := 4, acc := true, change := true, objs := [.stream r.tenant.toNat stream], ok := decide (stream < 32) } → d.admits c r = (d', true) → (d'.stream r.tenant.toNat stream).st ≠ .absent → exec (.streamWithdraw r stream) ⟨d, m, ps⟩ = .next ⟨Dev.settle ((d'.withdrawStream r.tenant.toNat stream).okay c r), m, ps⟩) ∧
  (∀ (r : Req) (stream : Nat) (c : Cmd) (d d' : Dev) (m : Memory) (ps : List Instr), c = { op := 0x0411, pf := false, tn := true, len := 4, acc := true, change := true, objs := [.stream r.tenant.toNat stream], ok := decide (stream < 32) } → d.admits c r = (d', true) → (d'.stream r.tenant.toNat stream).st = .absent → exec (.streamWithdraw r stream) ⟨d, m, ps⟩ = .next ⟨Dev.settle (d'.deny c r .badState), m, ps⟩)

/-- An admitted command of this group answers what it asked for, sets the reset going, begins to write or reads a slot of the boot flash, activates or confirms a slot, or resets a host port. Each stage of a flash write changes the bytes of its slot, and the check of the whole image ends the sequence with its status. What it takes beside the rules is the model's own reading (log 1, 47, 48, 49, 147). A clause in which nothing changes, the device expecting no such event, is log 1. -/
def Obligations.DeviceAndFirmwareCommands : Prop :=
  (∀ (r : Req) (c : Cmd) (d d' : Dev) (m : Memory) (ps : List Instr), c = { op := 0x0100, tn := true, m := true, dev := true, live := true } → d.admits c r = (d', true) → exec (.devVersion r) ⟨d, m, ps⟩ = .next ⟨Dev.settle (d'.okay c r [d'.boot.oxMaj.toNat, d'.mbx.oxMin, d'.boot.fwVer.toNat, d'.boot.stage.code]), m, ps⟩) ∧
  (∀ (r : Req) (group : Nat) (c : Cmd) (d d' : Dev) (m : Memory) (ps : List Instr), c = { op := 0x0101, tn := true, m := true, dev := true, live := true, len := 4 } → d.admits c r = (d', true) → exec (.devOpcodes r group) ⟨d, m, ps⟩ = .next ⟨Dev.settle (d'.okay c r [opBitmap d'.mbx.oxMin group]), m, ps⟩) ∧
  (∀ (r : Req) (c : Cmd) (d d' : Dev) (m : Memory) (ps : List Instr), c = { op := 0x0102, m := true, rcv := true, live := true } → d.admits c r = (d', true) → exec (.devStatus r) ⟨d, m, ps⟩ = .next ⟨Dev.settle ((if r.path = .mctp then { d' with jad.smbAlert := false } else d').okay c r ((if r.path = .mctp then { d' with jad.smbAlert := false } else d').statusWords m)), m, ps⟩) ∧
  (∀ (r : Req) (c : Cmd) (d d' : Dev) (m : Memory) (ps : List Instr), c = { op := 0x0103, m := true, live := true } → d.admits c r = (d', true) → exec (.devIdentity r) ⟨d, m, ps⟩ = .next ⟨Dev.settle (d'.okay c r d'.identityWords), m, ps⟩) ∧
  (∀ (r : Req) (mode : Nat) (c : Cmd) (d d' : Dev) (m : Memory) (ps : List Instr), c = { op := 0x0104, m := true, rcv := true, live := true, len := 4, ok := decide (mode = 0) } → d.admits c r = (d', true) → exec (.devReset r mode) ⟨d, m, ps⟩ = .next ⟨Dev.settle ({ d'.okay c r with mbx.resetAt := some (d'.now + 1000000) }), m, ps⟩) ∧
  (∀ (d : Dev) (m : Memory) (q : List Instr), d.mbx.resetAt.isSome = true → exec (.devResetApply) ⟨d, m, q⟩ = .next ⟨Dev.settle (({ d with mbx.resetAt := none }).devReset .cmd), m, q⟩) ∧
  (∀ (d : Dev) (m : Memory) (q : List Instr), d.mbx.resetAt = none → exec (.devResetApply) ⟨d, m, q⟩ = .next ⟨d, m, q⟩) ∧
  (∀ (r : Req) (slot : Nat) (final : Bool) (offset : Nat) (data : List Byte) (c : Cmd) (d d' : Dev) (m : Memory) (ps : List Instr), c = { op := 0x0110, m := true, rcv := true, acc := true, len := 16 + data.length, objs := [.flash], ok := decide (slot < 2) && flashRange slot offset data.length } → d.admits c r = (d', true) → d'.flashRefused slot offset = false → exec (.flashWrite r slot final offset data) ⟨d, m, ps⟩ = .next ⟨Dev.settle (d'.flashBegin c r slot final offset data), m, ps⟩) ∧
  (∀ (r : Req) (slot : Nat) (final : Bool) (offset : Nat) (data : List Byte) (c : Cmd) (d d' : Dev) (m : Memory) (ps : List Instr), c = { op := 0x0110, m := true, rcv := true, acc := true, len := 16 + data.length, objs := [.flash], ok := decide (slot < 2) && flashRange slot offset data.length } → d.admits c r = (d', true) → d'.flashRefused slot offset = true → exec (.flashWrite r slot final offset data) ⟨d, m, ps⟩ = .next ⟨Dev.settle (d'.deny c r .badState), m, ps⟩) ∧
  (∀ (d : Dev) (m : Memory) (q : List Instr) (j : FlJob), d.mbx.flJob = some j → j.erase = true → j.check = false → exec (.flashEraseDone) ⟨d, m, q⟩ = .next ⟨Dev.settle (d.flashWritten j), (m.erase (areaOf j.slot).1 (areaOf j.slot).2).write ((areaOf j.slot).1 + j.off) j.data, q⟩) ∧
  (∀ (d : Dev) (m : Memory) (q : List Instr), d.mbx.flJob = none → exec (.flashEraseDone) ⟨d, m, q⟩ = .next ⟨d, m, q⟩) ∧
  (∀ (d : Dev) (m : Memory) (q : List Instr) (j : FlJob), d.mbx.flJob = some j → j.erase = false → j.check = false → exec (.flashProgramDone) ⟨d, m, q⟩ = .next ⟨Dev.settle (d.flashWritten j), m.write ((areaOf j.slot).1 + j.off) j.data, q⟩) ∧
  (∀ (d : Dev) (m : Memory) (q : List Instr), d.mbx.flJob = none → exec (.flashProgramDone) ⟨d, m, q⟩ = .next ⟨d, m, q⟩) ∧
  (∀ (d : Dev) (m : Memory) (q : List Instr) (j : FlJob), d.mbx.flJob = some j → j.check = true → exec (.flashFinalCheck) ⟨d, m, q⟩ = .next ⟨Dev.settle (d.flashChecked j (checkStatus d.flash m (j.slot = 1))), m, q⟩) ∧
  (∀ (r : Req) (slot : Nat) (offset : Nat) (dlen : Nat) (c : Cmd) (d d' : Dev) (m : Memory) (ps : List Instr), c = { op := 0x0111, m := true, rcv := true, len := 16, objs := [.flash], ok := decide (slot < 3) && flashRange slot offset dlen } → d.admits c r = (d', true) → exec (.flashRead r slot offset dlen) ⟨d, m, ps⟩ = .next ⟨Dev.settle (d'.okay c r ((m.read ((areaOf slot).1 + offset) dlen).map (·.toNat))), m, ps⟩) ∧
  (∀ (r : Req) (slot : Nat) (c : Cmd) (d d' : Dev) (m : Memory) (ps : List Instr), c = { op := 0x0112, m := true, len := 4, objs := [.flash], ok := decide (slot < 2) } → d.admits c r = (d', true) → exec (.fwActivate r slot) ⟨d, m, ps⟩ = .next ⟨Dev.settle (if d'.imageGood m (slot = 1) then d'.okay c r else d'.deny c r .badState), if d'.imageGood m (slot = 1) then dirWrite m (slot = 1) true else m, ps⟩) ∧
  (∀ (r : Req) (c : Cmd) (d d' : Dev) (m : Memory) (ps : List Instr), c = { op := 0x0113, m := true, objs := [.flash] } → d.admits c r = (d', true) → d'.onTrial m = true → exec (.fwConfirm r) ⟨d, m, ps⟩ = .next ⟨Dev.settle (d'.okay c r), dirWrite m d'.boot.slot false, ps⟩) ∧
  (∀ (r : Req) (c : Cmd) (d d' : Dev) (m : Memory) (ps : List Instr), c = { op := 0x0113, m := true, objs := [.flash] } → d.admits c r = (d', true) → d'.onTrial m = false → exec (.fwConfirm r) ⟨d, m, ps⟩ = .next ⟨Dev.settle (d'.deny c r .badState), m, ps⟩) ∧
  (∀ (r : Req) (port : Nat) (c : Cmd) (d d' : Dev) (m : Memory) (ps : List Instr), c = { op := 0x0120, len := 4, item := some 5, ok := decide (port < 8) } → d.admits c r = (d', true) → exec (.hportReset r port) ⟨d, m, ps⟩ = .next ⟨Dev.settle ((d'.enterHr port true).okay c r), m, ps⟩)

/-- An admitted command of these groups answers the fabric's state, sets the package ID, the time, routes or a trunk, resets links, sets or drops a collective group, or reads or writes a semaphore of its tenant's; what a rule refuses is answered with the status the rule names. What it takes beside the rules is the model's own reading (log 14, 71, 72). -/
def Obligations.FabricAndCollectiveCommands : Prop :=
  (∀ (r : Req) (c : Cmd) (d d' : Dev) (m : Memory) (ps : List Instr), c = { op := 0x0500, m := true, live := true } → d.admits c r = (d', true) → exec (.fabStatus r) ⟨d, m, ps⟩ = .next ⟨Dev.settle (d'.okay c r d'.fabWords), m, ps⟩) ∧
  (∀ (r : Req) (pkgid : Nat) (c : Cmd) (d d' : Dev) (m : Memory) (ps : List Instr), c = { op := 0x0501, m := true, len := 4, ok := decide (pkgid < 2048) } → d.admits c r = (d', true) → d'.fab.node = none → exec (.fabSetPkgid r pkgid) ⟨d, m, ps⟩ = .next ⟨Dev.settle ((({ d' with fab.pkgid := some pkgid, fab.node := some (2 * pkgid + bNat d'.jad.straps.side) }).reparent).okay c r), m, ps⟩) ∧
  (∀ (r : Req) (pkgid : Nat) (c : Cmd) (d d' : Dev) (m : Memory) (ps : List Instr), c = { op := 0x0501, m := true, len := 4, ok := decide (pkgid < 2048) } → d.admits c r = (d', true) → d'.fab.node.isSome = true → exec (.fabSetPkgid r pkgid) ⟨d, m, ps⟩ = .next ⟨Dev.settle (d'.deny c r .badState), m, ps⟩) ∧
  (∀ (r : Req) (ftime : W64) (tflags : W32) (c : Cmd) (d d' : Dev) (m : Memory) (ps : List Instr), c = { op := 0x0502, len := 16, ok := decide (d.fab.time ≤ ftime.toNat) && decide (tflags.toNat < 2) } → d.admits c r = (d', true) → exec (.fabTimeSet r ftime tflags) ⟨d, m, ps⟩ = .next ⟨Dev.settle ((({ d' with fab.time := ftime.toNat, fab.slew := 0, fab.holdTo := none, fab.ppsEn := tflags.getLsbD 0, fab.timeSet := true }).reparent).okay c r), m, ps⟩) ∧
  (∀ (r : Req) (first : Nat) (entries : List W32) (c : Cmd) (d d' : Dev) (m : Memory) (ps : List Instr), c = { op := 0x0503, len := 4 + 4 * entries.length, ok := decide (1 ≤ entries.length) && decide (entries.length ≤ 1019) && decide (first + entries.length ≤ 4096) && entries.all routeOk } → d.admits c r = (d', true) → exec (.fabRouteWrite r first entries) ⟨d, m, ps⟩ = .next ⟨Dev.settle (((d'.putRoutes first entries).retryFab).okay c r), m, ps⟩) ∧
  (∀ (r : Req) (trunk : Nat) (ports : BitVec 64) (c : Cmd) (d d' : Dev) (m : Memory) (ps : List Instr), c = { op := 0x0504, len := 16, acc := true, objs := [.trunk trunk], ok := d.trunkOk trunk ports } → d.admits c r = (d', true) → exec (.fabTrunk r trunk ports) ⟨d, m, ps⟩ = .next ⟨Dev.settle ((({ d' with fab.trunks := Tab.put 0 trunk ports d'.fab.trunks }).retryFab).okay c r), m, ps⟩) ∧
  (∀ (r : Req) (port : Nat) (c : Cmd) (d d' : Dev) (m : Memory) (ps : List Instr), c = { op := 0x0505, len := 4, acc := true, item := some 4, objs := [resetObj port], ok := decide (port < 64) || (decide (0x80 ≤ port) && decide (port < 0x88)) } → d.admits c r = (d', true) → d'.resetPorts port ≠ [] → ((d'.resetPorts port).any fun p => (d'.lport p).dark) = false → exec (.linkReset r port) ⟨d, m, ps⟩ = .next ⟨Dev.settle ((d'.resetPorts port).foldl Dev.linkReset (d'.started c r [resetObj port])), m, ps⟩) ∧
  (∀ (r : Req) (port : Nat) (c : Cmd) (d d' : Dev) (m : Memory) (ps : List Instr), c = { op := 0x0505, len := 4, acc := true, item := some 4, objs := [resetObj port], ok := decide (port < 64) || (decide (0x80 ≤ port) && decide (port < 0x88)) } → d.admits c r = (d', true) → d'.resetPorts port = [] → exec (.linkReset r port) ⟨d, m, ps⟩ = .next ⟨Dev.settle (d'.deny c r .badState), m, ps⟩) ∧
  (∀ (r : Req) (group : Nat) (total : Nat) (first : Nat) (members : List Nat) (c : Cmd) (d d' : Dev) (m : Memory) (ps : List Instr), c = { op := 0x0600, pf := false, tn := true, len := 8 + 2 * members.length, change := true, objs := [.group r.tenant.toNat group], ok := decide (group < 256) && decide (2 ≤ total) && decide (total ≤ 4096) && decide (1 ≤ members.length) && decide (members.length ≤ 2036) && decide (first + members.length ≤ total) && (decide (first = 0) || (decide (first = (d.group r.tenant.toNat group).received) && decide (total = (d.group r.tenant.toNat group).total))) } → d.admits c r = (d', true) → d'.groupBusy r.tenant.toNat group first = false → ((d'.groupWith r.tenant.toNat group total first members).received < total ∨ d'.namesSelf r.tenant.toNat (d'.groupWith r.tenant.toNat group total first members).members = true) → exec (.colGroupSet r group total first members) ⟨d, m, ps⟩ = .next ⟨Dev.settle ((d'.putGroup r.tenant.toNat group total first members).okay c r), m, ps⟩) ∧
  (∀ (r : Req) (group : Nat) (total : Nat) (first : Nat) (members : List Nat) (c : Cmd) (d d' : Dev) (m : Memory) (ps : List Instr), c = { op := 0x0600, pf := false, tn := true, len := 8 + 2 * members.length, change := true, objs := [.group r.tenant.toNat group], ok := decide (group < 256) && decide (2 ≤ total) && decide (total ≤ 4096) && decide (1 ≤ members.length) && decide (members.length ≤ 2036) && decide (first + members.length ≤ total) && (decide (first = 0) || (decide (first = (d.group r.tenant.toNat group).received) && decide (total = (d.group r.tenant.toNat group).total))) } → d.admits c r = (d', true) → d'.groupBusy r.tenant.toNat group first = true → exec (.colGroupSet r group total first members) ⟨d, m, ps⟩ = .next ⟨Dev.settle (d'.deny c r .busy), m, ps⟩) ∧
  (∀ (r : Req) (group : Nat) (total : Nat) (first : Nat) (members : List Nat) (c : Cmd) (d d' : Dev) (m : Memory) (ps : List Instr), c = { op := 0x0600, pf := false, tn := true, len := 8 + 2 * members.length, change := true, objs := [.group r.tenant.toNat group], ok := decide (group < 256) && decide (2 ≤ total) && decide (total ≤ 4096) && decide (1 ≤ members.length) && decide (members.length ≤ 2036) && decide (first + members.length ≤ total) && (decide (first = 0) || (decide (first = (d.group r.tenant.toNat group).received) && decide (total = (d.group r.tenant.toNat group).total))) } → d.admits c r = (d', true) → d'.groupBusy r.tenant.toNat group first = false → total ≤ (d'.groupWith r.tenant.toNat group total first members).received → d'.namesSelf r.tenant.toNat (d'.groupWith r.tenant.toNat group total first members).members = false → exec (.colGroupSet r group total first members) ⟨d, m, ps⟩ = .next ⟨Dev.settle ((d'.setGroup r.tenant.toNat group fun _ => {}).deny c r .badField), m, ps⟩) ∧
  (∀ (r : Req) (group : Nat) (c : Cmd) (d d' : Dev) (m : Memory) (ps : List Instr), c = { op := 0x0601, pf := false, tn := true, len := 4, acc := true, change := true, objs := [.group r.tenant.toNat group], ok := decide (group < 256) } → d.admits c r = (d', true) → (d'.group r.tenant.toNat group).total ≠ 0 → (d'.journalCfg r.tenant.toNat 0x0601 [group]).groupOpen r.tenant.toNat group = false → exec (.colGroupDrop r group) ⟨d, m, ps⟩ = .next ⟨Dev.settle (((d'.journalCfg r.tenant.toNat 0x0601 [group]).freeGroup r.tenant.toNat group).okay c r), m, ps⟩) ∧
  (∀ (r : Req) (group : Nat) (c : Cmd) (d d' : Dev) (m : Memory) (ps : List Instr), c = { op := 0x0601, pf := false, tn := true, len := 4, acc := true, change := true, objs := [.group r.tenant.toNat group], ok := decide (group < 256) } → d.admits c r = (d', true) → (d'.group r.tenant.toNat group).total ≠ 0 → (d'.journalCfg r.tenant.toNat 0x0601 [group]).groupOpen r.tenant.toNat group = true → exec (.colGroupDrop r group) ⟨d, m, ps⟩ = .next ⟨Dev.settle (((d'.journalCfg r.tenant.toNat 0x0601 [group]).started c r [.group r.tenant.toNat group]).setGroup r.tenant.toNat group fun x => { x with dropping := true }), m, ps⟩) ∧
  (∀ (r : Req) (group : Nat) (c : Cmd) (d d' : Dev) (m : Memory) (ps : List Instr), c = { op := 0x0601, pf := false, tn := true, len := 4, acc := true, change := true, objs := [.group r.tenant.toNat group], ok := decide (group < 256) } → d.admits c r = (d', true) → (d'.group r.tenant.toNat group).total = 0 → exec (.colGroupDrop r group) ⟨d, m, ps⟩ = .next ⟨Dev.settle (d'.deny c r .badState), m, ps⟩) ∧
  (∀ (r : Req) (group : Nat) (c : Cmd) (d d' : Dev) (m : Memory) (ps : List Instr), c = { op := 0x0602, pf := false, tn := true, len := 4, live := true, objs := [.group r.tenant.toNat group], ok := decide (group < 256) } → d.admits c r = (d', true) → exec (.colStatus r group) ⟨d, m, ps⟩ = .next ⟨Dev.settle (d'.okay c r [(d'.group r.tenant.toNat group).finalised, (d'.group r.tenant.toNat group).present, (d'.group r.tenant.toNat group).missing, (d'.group r.tenant.toNat group).late]), m, ps⟩) ∧
  (∀ (r : Req) (index : Nat) (c : Cmd) (d d' : Dev) (m : Memory) (ps : List Instr), c = { op := 0x0610, pf := false, tn := true, len := 4 } → d.admits c r = (d', true) → d'.semOwner index = r.tenant.toNat + 1 → exec (.semRead r index) ⟨d, m, ps⟩ = .next ⟨Dev.settle (d'.okay c r [(d'.semSeen index).toNat]), m, ps⟩) ∧
  (∀ (r : Req) (index : Nat) (c : Cmd) (d d' : Dev) (m : Memory) (ps : List Instr), c = { op := 0x0610, pf := false, tn := true, len := 4 } → d.admits c r = (d', true) → d'.semOwner index ≠ r.tenant.toNat + 1 → exec (.semRead r index) ⟨d, m, ps⟩ = .next ⟨Dev.settle (d'.deny c r .accessDenied), m, ps⟩) ∧
  (∀ (r : Req) (index : Nat) (value : W64) (c : Cmd) (d d' : Dev) (m : Memory) (ps : List Instr), c = { op := 0x0611, pf := false, tn := true, len := 16 } → d.admits c r = (d', true) → d'.semOwner index = r.tenant.toNat + 1 → exec (.semWrite r index value) ⟨d, m, ps⟩ = .next ⟨Dev.settle ((d'.semSet index value).okay c r), m, ps⟩) ∧
  (∀ (r : Req) (index : Nat) (value : W64) (c : Cmd) (d d' : Dev) (m : Memory) (ps : List Instr), c = { op := 0x0611, pf := false, tn := true, len := 16 } → d.admits c r = (d', true) → d'.semOwner index ≠ r.tenant.toNat + 1 → exec (.semWrite r index value) ⟨d, m, ps⟩ = .next ⟨Dev.settle (d'.deny c r .accessDenied), m, ps⟩)

/-- An admitted command of this group adds or removes a shadow region, seals, restores, drops an epoch or answers the vault's state, or erases, programs or reads raw blocks; what a rule refuses is answered with the status the rule names. What it takes beside the rules is the model's own reading (log 19, 41, 96, 102, 103). -/
def Obligations.VaultCommandGroup : Prop :=
  (∀ (r : Req) (region : Nat) (base : W64) (size : W64) (pasid : Nat) (c : Cmd) (d d' : Dev) (m : Memory) (ps : List Instr), c = { op := 0x0700, pf := false, tn := true, item := some 6, len := 28, objs := [.region r.tenant.toNat region], change := true, ok := decide (region < 16) && decide (base.toNat % granuleSize = 0) && decide (0 < size.toNat) && decide (size.toNat ≤ 2 ^ 40) && decide (size.toNat % granuleSize = 0) && decide (pasid < 2 ^ 20) } → d.admits c r = (d', true) → (Tab.look none region (d'.vten r.tenant.toNat).regions).isSome = false → d'.regionsFit r.tenant.toNat size.toNat = true → exec (.vltShadowAdd r region base size pasid) ⟨d, m, ps⟩ = .next ⟨Dev.settle ((d'.addRegion r.tenant.toNat region base size.toNat pasid).okay c r), m, ps⟩) ∧
  (∀ (r : Req) (region : Nat) (base : W64) (size : W64) (pasid : Nat) (c : Cmd) (d d' : Dev) (m : Memory) (ps : List Instr), c = { op := 0x0700, pf := false, tn := true, item := some 6, len := 28, objs := [.region r.tenant.toNat region], change := true, ok := decide (region < 16) && decide (base.toNat % granuleSize = 0) && decide (0 < size.toNat) && decide (size.toNat ≤ 2 ^ 40) && decide (size.toNat % granuleSize = 0) && decide (pasid < 2 ^ 20) } → d.admits c r = (d', true) → (Tab.look none region (d'.vten r.tenant.toNat).regions).isSome = true → exec (.vltShadowAdd r region base size pasid) ⟨d, m, ps⟩ = .next ⟨Dev.settle (d'.deny c r .badState), m, ps⟩) ∧
  (∀ (r : Req) (region : Nat) (c : Cmd) (d d' : Dev) (m : Memory) (ps : List Instr), c = { op := 0x0701, pf := false, tn := true, item := some 6, len := 4, acc := true, objs := [.region r.tenant.toNat region], change := true, ok := decide (region < 16) } → d.admits c r = (d', true) → (Tab.look none region (d'.vten r.tenant.toNat).regions).isSome = true → (d'.vten r.tenant.toNat).sealing = none → (d'.vten r.tenant.toNat).restoring = none → exec (.vltShadowRemove r region) ⟨d, m, ps⟩ = .next ⟨Dev.settle ((d'.removeRegion r.tenant.toNat region).okay c r), m, ps⟩) ∧
  (∀ (r : Req) (region : Nat) (c : Cmd) (d d' : Dev) (m : Memory) (ps : List Instr), c = { op := 0x0701, pf := false, tn := true, item := some 6, len := 4, acc := true, objs := [.region r.tenant.toNat region], change := true, ok := decide (region < 16) } → d.admits c r = (d', true) → (Tab.look none region (d'.vten r.tenant.toNat).regions) = none → exec (.vltShadowRemove r region) ⟨d, m, ps⟩ = .next ⟨Dev.settle (d'.deny c r .badState), m, ps⟩) ∧
  (∀ (r : Req) (tag : W64) (c : Cmd) (d d' : Dev) (m : Memory) (ps : List Instr), c = { op := 0x0702, pf := false, tn := true, item := some 6, len := 8, acc := true, objs := (.tenant r.tenant.toNat :: allRegions r.tenant.toNat) } → d.admits c r = (d', true) → d'.maySeal r.tenant.toNat = true → exec (.vltSeal r tag) ⟨d, m, ps⟩ = .next ⟨Dev.settle ((d'.started c r (.tenant r.tenant.toNat :: allRegions r.tenant.toNat)).sealPoint r.tenant.toNat tag), m, ps⟩) ∧
  (∀ (r : Req) (tag : W64) (c : Cmd) (d d' : Dev) (m : Memory) (ps : List Instr), c = { op := 0x0702, pf := false, tn := true, item := some 6, len := 8, acc := true, objs := (.tenant r.tenant.toNat :: allRegions r.tenant.toNat) } → d.admits c r = (d', true) → d'.maySeal r.tenant.toNat = false → exec (.vltSeal r tag) ⟨d, m, ps⟩ = .next ⟨Dev.settle (d'.deny c r .noResource), m, ps⟩) ∧
  (∀ (r : Req) (epoch : W64) (source : Nat) (c : Cmd) (d d' : Dev) (m : Memory) (ps : List Instr), c = { op := 0x0703, pf := false, tn := true, item := some 6, len := 16, acc := true, objs := (.tenant r.tenant.toNat :: allRegions r.tenant.toNat), ok := decide (source < 2) } → d.admits c r = (d', true) → d'.restorable r.tenant.toNat epoch.toNat source = true → exec (.vltRestore r epoch source) ⟨d, m, ps⟩ = .next ⟨Dev.settle ((d'.started c r (.tenant r.tenant.toNat :: allRegions r.tenant.toNat)).beginRestore r.tenant.toNat epoch.toNat source), m, ps⟩) ∧
  (∀ (r : Req) (epoch : W64) (source : Nat) (c : Cmd) (d d' : Dev) (m : Memory) (ps : List Instr), c = { op := 0x0703, pf := false, tn := true, item := some 6, len := 16, acc := true, objs := (.tenant r.tenant.toNat :: allRegions r.tenant.toNat), ok := decide (source < 2) } → d.admits c r = (d', true) → d'.restorable r.tenant.toNat epoch.toNat source = false → exec (.vltRestore r epoch source) ⟨d, m, ps⟩ = .next ⟨Dev.settle (d'.deny c r .badState), m, ps⟩) ∧
  (∀ (r : Req) (c : Cmd) (d d' : Dev) (m : Memory) (ps : List Instr), c = { op := 0x0704, pf := false, tn := true, item := some 6, live := true } → d.admits c r = (d', true) → exec (.vltQuery r) ⟨d, m, ps⟩ = .next ⟨Dev.settle (d'.okay c r (d'.vltWords r.tenant.toNat)), m, ps⟩) ∧
  (∀ (r : Req) (epoch : W64) (c : Cmd) (d d' : Dev) (m : Memory) (ps : List Instr), c = { op := 0x0705, pf := false, tn := true, item := some 6, len := 8 } → d.admits c r = (d', true) → (d'.sealAt r.tenant.toNat epoch.toNat).isSome = true → d'.epochUsed r.tenant.toNat epoch.toNat = false → exec (.vltEpochDrop r epoch) ⟨d, m, ps⟩ = .next ⟨Dev.settle (((d'.dropEpoch r.tenant.toNat epoch.toNat).sendDrop r.tenant.toNat epoch.toNat).okay c r), m, ps⟩) ∧
  (∀ (r : Req) (epoch : W64) (c : Cmd) (d d' : Dev) (m : Memory) (ps : List Instr), c = { op := 0x0705, pf := false, tn := true, item := some 6, len := 8 } → d.admits c r = (d', true) → d'.sealAt r.tenant.toNat epoch.toNat = none → exec (.vltEpochDrop r epoch) ⟨d, m, ps⟩ = .next ⟨Dev.settle (d'.deny c r .badField), m, ps⟩) ∧
  (∀ (r : Req) (die : Nat) (block : Nat) (c : Cmd) (d d' : Dev) (m : Memory) (ps : List Instr), c = { op := 0x0710, item := some 6, len := 8, acc := true, objs := [.block die block], ok := decide (die < 8) && decide (block < 4096) } → d.admits c r = (d', true) → d'.rawRefused r.path (4096 * die + block) = none → exec (.vltRawErase r die block) ⟨d, m, ps⟩ = .next ⟨Dev.settle ((d'.started c r [.block die block]).setBlk (4096 * die + block) fun b => { b with written := 1024 }), m, ps⟩) ∧
  (∀ (r : Req) (die : Nat) (block : Nat) (c : Cmd) (d d' : Dev) (m : Memory) (ps : List Instr) (st : Status), c = { op := 0x0710, item := some 6, len := 8, acc := true, objs := [.block die block], ok := decide (die < 8) && decide (block < 4096) } → d.admits c r = (d', true) → d'.rawRefused r.path (4096 * die + block) = some st → exec (.vltRawErase r die block) ⟨d, m, ps⟩ = .next ⟨Dev.settle (d'.deny c r st), m, ps⟩) ∧
  (∀ (r : Req) (die : Nat) (plane : Nat) (block : Nat) (page : Nat) (pattern : W32) (c : Cmd) (d d' : Dev) (m : Memory) (ps : List Instr), c = { op := 0x0711, item := some 6, len := 16, acc := true, objs := [.block die block], ok := decide (die < 8) && decide (block < 4096) && decide (plane = block % 4) && decide (page < 1024) } → d.admits c r = (d', true) → d'.rawRefused r.path (4096 * die + block) = none → (d'.blk (4096 * die + block)).written ≤ page → exec (.vltRawProgram r die plane block page pattern) ⟨d, m, ps⟩ = .next ⟨Dev.settle ({ d'.started c r [.block die block] with vlt.raw := d'.vlt.raw ++ [(4096 * die + block, page, pattern)] }), m, ps⟩) ∧
  (∀ (r : Req) (die : Nat) (plane : Nat) (block : Nat) (page : Nat) (pattern : W32) (c : Cmd) (d d' : Dev) (m : Memory) (ps : List Instr), c = { op := 0x0711, item := some 6, len := 16, acc := true, objs := [.block die block], ok := decide (die < 8) && decide (block < 4096) && decide (plane = block % 4) && decide (page < 1024) } → d.admits c r = (d', true) → d'.rawRefused r.path (4096 * die + block) = none → page < (d'.blk (4096 * die + block)).written → exec (.vltRawProgram r die plane block page pattern) ⟨d, m, ps⟩ = .next ⟨Dev.settle ((d'.deny c r .notErased).post Src.vltProgRefused 0), m, ps⟩) ∧
  (∀ (r : Req) (die : Nat) (plane : Nat) (block : Nat) (page : Nat) (offset : Nat) (dlen : Nat) (c : Cmd) (d d' : Dev) (m : Memory) (ps : List Instr) (w : W32), c = { op := 0x0712, item := some 6, len := 16, objs := [.block die block], ok := decide (die < 8) && decide (block < 4096) && decide (plane = block % 4) && decide (page < 1024) && decide (16 ≤ dlen) && decide (dlen ≤ 4064) && decide (offset + dlen ≤ 16384) } → d.admits c r = (d', true) → d'.rawRefused r.path (4096 * die + block) = none → Tab.look none page (d'.blk (4096 * die + block)).pattern = some w → exec (.vltRawRead r die plane block page offset dlen) ⟨d, m, ps⟩ = .next ⟨Dev.settle (d'.okay c r (patternBytes w offset dlen)), m, ps⟩) ∧
  (∀ (r : Req) (die : Nat) (plane : Nat) (block : Nat) (page : Nat) (offset : Nat) (dlen : Nat) (c : Cmd) (d d' : Dev) (m : Memory) (ps : List Instr), c = { op := 0x0712, item := some 6, len := 16, objs := [.block die block], ok := decide (die < 8) && decide (block < 4096) && decide (plane = block % 4) && decide (page < 1024) && decide (16 ≤ dlen) && decide (dlen ≤ 4064) && decide (offset + dlen ≤ 16384) } → d.admits c r = (d', true) → d'.rawRefused r.path (4096 * die + block) = none → Tab.look none page (d'.blk (4096 * die + block)).pattern = none → exec (.vltRawRead r die plane block page offset dlen) ⟨d, m, ps⟩ = .next ⟨Dev.settle ((d'.drawBytes dlen).2.okay c r (d'.drawBytes dlen).1), m, ps⟩)

/-- An admitted command of these groups pairs, leaves, rejoins or takes over the Twin partner, answers its state and the security module's, starts the self-tests, zeroises, rekeys a link, or begins and finishes an authentication; what a rule refuses is answered with the status the rule names. What it takes beside the rules is the model's own reading (log 40, 42, 107, 110). -/
def Obligations.TwinAndSecurityCommandGroup : Prop :=
  (∀ (r : Req) (c : Cmd) (d d' : Dev) (m : Memory) (ps : List Instr), c = { op := 0x0800, m := true, item := some 7, len := 4, acc := true } → d.admits c r = (d', true) → d'.twn.st = .off → exec (.twnEnable r true) ⟨d, m, ps⟩ = .next ⟨Dev.settle ((d'.started c r []).twinOn), m, ps⟩) ∧
  (∀ (r : Req) (c : Cmd) (d d' : Dev) (m : Memory) (ps : List Instr), c = { op := 0x0800, m := true, item := some 7, len := 4, acc := true } → d.admits c r = (d', true) → d'.twn.st ≠ .off → exec (.twnEnable r true) ⟨d, m, ps⟩ = .next ⟨Dev.settle (d'.deny c r .badState), m, ps⟩) ∧
  (∀ (r : Req) (c : Cmd) (d d' : Dev) (m : Memory) (ps : List Instr), c = { op := 0x0800, m := true, item := some 7, len := 4, acc := true } → d.admits c r = (d', true) → exec (.twnEnable r false) ⟨d, m, ps⟩ = .next ⟨Dev.settle (d'.leaveTwin c r), m, ps⟩) ∧
  (∀ (r : Req) (c : Cmd) (d d' : Dev) (m : Memory) (ps : List Instr), c = { op := 0x0801, m := true, item := some 7, live := true } → d.admits c r = (d', true) → exec (.twnStatus r) ⟨d, m, ps⟩ = .next ⟨Dev.settle (d'.okay c r [d'.twn.st.code, bNat d'.twn.partnerSide, d'.twn.jlag]), m, ps⟩) ∧
  (∀ (r : Req) (c : Cmd) (d d' : Dev) (m : Memory) (ps : List Instr), c = { op := 0x0802, m := true, item := some 7, acc := true } → d.admits c r = (d', true) → d'.twn.st = .cleave → (d'.lport 64).st = .active → exec (.twnRejoin r) ⟨d, m, ps⟩ = .next ⟨Dev.settle (((d'.started c r []).setTst .pairing).sendPair), m, ps⟩) ∧
  (∀ (r : Req) (c : Cmd) (d d' : Dev) (m : Memory) (ps : List Instr), c = { op := 0x0802, m := true, item := some 7, acc := true } → d.admits c r = (d', true) → d'.twn.st = .solo → (d'.lport 64).st = .active → exec (.twnRejoin r) ⟨d, m, ps⟩ = .next ⟨Dev.settle ((d'.started c r []).sendPair), m, ps⟩) ∧
  (∀ (r : Req) (c : Cmd) (d d' : Dev) (m : Memory) (ps : List Instr), c = { op := 0x0802, m := true, item := some 7, acc := true } → d.admits c r = (d', true) → (d'.lport 64).st ≠ .active → exec (.twnRejoin r) ⟨d, m, ps⟩ = .next ⟨Dev.settle (d'.deny c r .badState), m, ps⟩) ∧
  (∀ (r : Req) (c : Cmd) (d d' : Dev) (m : Memory) (ps : List Instr), c = { op := 0x0803, m := true, item := some 7, acc := true } → d.admits c r = (d', true) → d'.twn.st = .cleave → exec (.twnTakeover r) ⟨d, m, ps⟩ = .next ⟨Dev.settle (((d'.started c r []).takeover false).endTwin 0x0803 .ok), m, ps⟩) ∧
  (∀ (r : Req) (c : Cmd) (d d' : Dev) (m : Memory) (ps : List Instr), c = { op := 0x0900, m := true, live := true } → d.admits c r = (d', true) → exec (.secStatus r) ⟨d, m, ps⟩ = .next ⟨Dev.settle (d'.okay c r [d'.sec.mode.code, (d'.authOf r.path).role, d'.sec.passed.toNat]), m, ps⟩) ∧
  (∀ (r : Req) (c : Cmd) (d d' : Dev) (m : Memory) (ps : List Instr), c = { op := 0x0901, acc := true } → d.admits c r = (d', true) → exec (.secSelftest r) ⟨d, m, ps⟩ = .next ⟨Dev.settle ({ d'.started c r [] with sec.selftest := true }), m, ps⟩) ∧
  (∀ (r : Req) (confirm : W32) (c : Cmd) (d d' : Dev) (m : Memory) (ps : List Instr), c = { op := 0x0902, m := true, live := true, len := 4, acc := true, ok := decide (confirm.toNat = 0x5A45524F) } → d.admits c r = (d', true) → exec (.secZeroise r confirm) ⟨d, m, ps⟩ = .next ⟨Dev.settle (((d'.zeroise).post Src.secZeroised 0).okay c r), m, ps⟩) ∧
  (∀ (r : Req) (port : Nat) (c : Cmd) (d d' : Dev) (m : Memory) (ps : List Instr), c = { op := 0x0903, len := 4, acc := true, objs := [.port port], ok := decide (port ≤ 64) } → d.admits c r = (d', true) → (d'.authOf r.path).role = 1 → d'.active port = true → d'.keyService = true → exec (.secRekey r port) ⟨d, m, ps⟩ = .next ⟨Dev.settle ((d'.started c r [.port port] ((d'.keyxOf port).genTx * 2 ^ 32 + (d'.keyxOf port).genRx)).rekey port), m, ps⟩) ∧
  (∀ (r : Req) (port : Nat) (c : Cmd) (d d' : Dev) (m : Memory) (ps : List Instr), c = { op := 0x0903, len := 4, acc := true, objs := [.port port], ok := decide (port ≤ 64) } → d.admits c r = (d', true) → (d'.authOf r.path).role ≠ 1 → exec (.secRekey r port) ⟨d, m, ps⟩ = .next ⟨Dev.settle (d'.deny c r .accessDenied), m, ps⟩) ∧
  (∀ (r : Req) (role : Nat) (c : Cmd) (d d' : Dev) (m : Memory) (ps : List Instr), c = { op := 0x0910, m := true, len := 4, ok := decide (role < 4) } → d.admits c r = (d', true) → d'.authLocked r = false → (role = 0 ∨ d'.keyService = true) → exec (.secAuthBegin r role) ⟨d, m, ps⟩ = .next ⟨Dev.settle ((d'.authBegin r role).okay c r [(d'.rand 384).1.toNat]), m, ps⟩) ∧
  (∀ (r : Req) (role : Nat) (c : Cmd) (d d' : Dev) (m : Memory) (ps : List Instr), c = { op := 0x0910, m := true, len := 4, ok := decide (role < 4) } → d.admits c r = (d', true) → d'.authLocked r = true → exec (.secAuthBegin r role) ⟨d, m, ps⟩ = .next ⟨Dev.settle (d'.deny c r .busy), m, ps⟩) ∧
  (∀ (r : Req) (role : Nat) (sig : Nat) (c : Cmd) (d d' : Dev) (m : Memory) (ps : List Instr) (n : BitVec 384), c = { op := 0x0911, m := true, len := 100, ok := decide (role < 4) } → d.admits c r = (d', true) → d'.authNonce r = some (n, role) → d'.keyService = true → exec (.secAuthFinish r role sig) ⟨d, m, ps⟩ = .next ⟨Dev.settle (if d'.authPasses role n sig then (d'.authTaken r role).okay c r else (d'.authFailed r).deny c r .authFailed), m, ps⟩) ∧
  (∀ (r : Req) (role : Nat) (sig : Nat) (c : Cmd) (d d' : Dev) (m : Memory) (ps : List Instr) (n : BitVec 384) (want : Nat), c = { op := 0x0911, m := true, len := 100, ok := decide (role < 4) } → d.admits c r = (d', true) → d'.authNonce r = some (n, want) → role ≠ want → exec (.secAuthFinish r role sig) ⟨d, m, ps⟩ = .next ⟨Dev.settle (d'.deny c r .badState), m, ps⟩) ∧
  (∀ (r : Req) (role : Nat) (sig : Nat) (c : Cmd) (d d' : Dev) (m : Memory) (ps : List Instr), c = { op := 0x0911, m := true, len := 100, ok := decide (role < 4) } → d.admits c r = (d', true) → d'.authNonce r = none → exec (.secAuthFinish r role sig) ⟨d, m, ps⟩ = .next ⟨Dev.settle (d'.deny c r .badState), m, ps⟩)

/-- An admitted command of these groups polishes a port's channels, answers lustre, maps or lasers, moves a lane, swaps a position's laser, changes the power state or the darkened ports, answers the sensors or sets their limits; what a rule refuses is answered with the status the rule names. What it takes beside the rules is the model's own reading (log 40, 43, 44, 54, 87, 89). -/
def Obligations.OpticalAndPowerCommandGroup : Prop :=
  (∀ (r : Req) (port : Nat) (lambda : Nat) (c : Cmd) (d d' : Dev) (m : Memory) (ps : List Instr), c = { op := 0x0B00, item := some 3, len := 4, acc := true, objs := [.port port], ok := decide (port < 64) && lambdaOk lambda } → d.admits c r = (d', true) → d'.active port = true → (Tab.look none (port / 16) d'.cal.cmd).isSome = false → d'.polishChans port lambda ≠ [] → exec (.optPolish r port lambda) ⟨d, m, ps⟩ = .next ⟨Dev.settle ((d'.started c r [.port port] (256 * port + lambda)).polishAll port (d'.polishChans port lambda)), m, ps⟩) ∧
  (∀ (r : Req) (port : Nat) (lambda : Nat) (c : Cmd) (d d' : Dev) (m : Memory) (ps : List Instr), c = { op := 0x0B00, item := some 3, len := 4, acc := true, objs := [.port port], ok := decide (port < 64) && lambdaOk lambda } → d.admits c r = (d', true) → d'.active port = false → exec (.optPolish r port lambda) ⟨d, m, ps⟩ = .next ⟨Dev.settle (d'.deny c r .badState), m, ps⟩) ∧
  (∀ (r : Req) (port : Nat) (c : Cmd) (d d' : Dev) (m : Memory) (ps : List Instr), c = { op := 0x0B01, item := some 3, live := true, len := 4, objs := [.port port], ok := decide (port < 64) } → d.admits c r = (d', true) → exec (.optLustre r port) ⟨d, m, ps⟩ = .next ⟨Dev.settle (d'.okay c r ((List.range 18).map fun k => d'.lustreWord port k)), m, ps⟩) ∧
  (∀ (r : Req) (port : Nat) (c : Cmd) (d d' : Dev) (m : Memory) (ps : List Instr), c = { op := 0x0B02, item := some 2, live := true, len := 4, objs := [.port port], ok := decide (port < 64) } → d.admits c r = (d', true) → exec (.walMap r port) ⟨d, m, ps⟩ = .next ⟨Dev.settle (d'.okay c r ((List.range 18).map fun k => mapAt (d'.wport port).tx k)), m, ps⟩) ∧
  (∀ (r : Req) (port : Nat) (lane : Nat) (lambda : Nat) (c : Cmd) (d d' : Dev) (m : Memory) (ps : List Instr) (k : Nat), c = { op := 0x0B03, item := some 2, len := 4, acc := true, objs := [.port port], ok := decide (port < 64) && decide (lane < 16) && lambdaOk lambda } → d.admits c r = (d', true) → d'.active port = false → d'.mapDest port lambda = some k → exec (.walMove r port lane lambda) ⟨d, m, ps⟩ = .next ⟨Dev.settle ((d'.remap port lane k).okay c r), m, ps⟩) ∧
  (∀ (r : Req) (port : Nat) (lane : Nat) (lambda : Nat) (c : Cmd) (d d' : Dev) (m : Memory) (ps : List Instr) (a : Nat), c = { op := 0x0B03, item := some 2, len := 4, acc := true, objs := [.port port], ok := decide (port < 64) && decide (lane < 16) && lambdaOk lambda } → d.admits c r = (d', true) → d'.active port = true → laneAt (d'.wport port).tx lane = some a → d'.noDest port lambda = false → exec (.walMove r port lane lambda) ⟨d, m, ps⟩ = .next ⟨Dev.settle ((d'.started c r [.port port]).queueMove port lane a lambda), m, ps⟩) ∧
  (∀ (r : Req) (port : Nat) (lane : Nat) (lambda : Nat) (c : Cmd) (d d' : Dev) (m : Memory) (ps : List Instr) (a : Nat), c = { op := 0x0B03, item := some 2, len := 4, acc := true, objs := [.port port], ok := decide (port < 64) && decide (lane < 16) && lambdaOk lambda } → d.admits c r = (d', true) → d'.active port = true → laneAt (d'.wport port).tx lane = some a → d'.noDest port lambda = true → exec (.walMove r port lane lambda) ⟨d, m, ps⟩ = .next ⟨Dev.settle (d'.deny c r .noResource), m, ps⟩) ∧
  (∀ (r : Req) (ruby : Nat) (pos : Nat) (c : Cmd) (d d' : Dev) (m : Memory) (ps : List Instr), c = { op := 0x0B04, item := some 2, len := 4, acc := true, objs := [.laser ruby pos], ok := decide (ruby < 2) && decide (pos < 18) } → d.admits c r = (d', true) → d'.swappable ruby pos = true → (Tab.look ({} : Ruby) ruby d'.las.ruby).linkOk = true → exec (.lasSwap r ruby pos) ⟨d, m, ps⟩ = .next ⟨Dev.settle ((d'.started c r [.laser ruby pos]).startSwap ruby pos (some r.seq.toNat)), m, ps⟩) ∧
  (∀ (r : Req) (ruby : Nat) (pos : Nat) (c : Cmd) (d d' : Dev) (m : Memory) (ps : List Instr), c = { op := 0x0B04, item := some 2, len := 4, acc := true, objs := [.laser ruby pos], ok := decide (ruby < 2) && decide (pos < 18) } → d.admits c r = (d', true) → d'.swappable ruby pos = false → exec (.lasSwap r ruby pos) ⟨d, m, ps⟩ = .next ⟨Dev.settle (d'.deny c r .badState), m, ps⟩) ∧
  (∀ (r : Req) (ruby : Nat) (c : Cmd) (d d' : Dev) (m : Memory) (ps : List Instr), c = { op := 0x0B05, item := some 2, live := true, len := 4, minor := 1, ok := decide (ruby < 2) } → d.admits c r = (d', true) → exec (.lasStatus r ruby) ⟨d, m, ps⟩ = .next ⟨Dev.settle (d'.okay c r ((List.range 36).flatMap fun j => [(d'.laser (36 * ruby + j)).st.code, (d'.laser (36 * ruby + j)).current])), m, ps⟩) ∧
  (∀ (r : Req) (state : Nat) (c : Cmd) (d d' : Dev) (m : Memory) (ps : List Instr), c = { op := 0x0C00, m := true, len := 4, acc := true, ok := decide (state = 0) || decide (state = 2) || decide (state = 3) } → d.admits c r = (d', true) → d'.pwr.state ≠ 3 → d'.pwr.busy = false → d'.pwr.state = state → d'.enteringAo = false → exec (.pwrSet r state) ⟨d, m, ps⟩ = .next ⟨Dev.settle (d'.okay c r), m, ps⟩) ∧
  (∀ (r : Req) (c : Cmd) (d d' : Dev) (m : Memory) (ps : List Instr), c = { op := 0x0C00, m := true, len := 4, acc := true, ok := decide (2 = 0) || decide (2 = 2) || decide (2 = 3) } → d.admits c r = (d', true) → d'.pwr.state = 0 → d'.pwr.busy = false → d'.darkRefused = false → d'.enteringAo = false → exec (.pwrSet r 2) ⟨d, m, ps⟩ = .next ⟨Dev.settle (((d'.started c r [] 2).wake).enterDark), m, ps⟩) ∧
  (∀ (r : Req) (c : Cmd) (d d' : Dev) (m : Memory) (ps : List Instr), c = { op := 0x0C00, m := true, len := 4, acc := true, ok := decide (2 = 0) || decide (2 = 2) || decide (2 = 3) } → d.admits c r = (d', true) → d'.pwr.state = 0 → d'.pwr.busy = false → d'.darkRefused = true → exec (.pwrSet r 2) ⟨d, m, ps⟩ = .next ⟨Dev.settle (d'.deny c r .badState), m, ps⟩) ∧
  (∀ (r : Req) (c : Cmd) (d d' : Dev) (m : Memory) (ps : List Instr), c = { op := 0x0C00, m := true, len := 4, acc := true, ok := decide (3 = 0) || decide (3 = 2) || decide (3 = 3) } → d.admits c r = (d', true) → d'.pwr.state ≠ 3 → d'.pwr.busy = false → d'.enteringAo = false → exec (.pwrSet r 3) ⟨d, m, ps⟩ = .next ⟨Dev.settle ((d'.started c r [] 3).sleep), m, ps⟩) ∧
  (∀ (r : Req) (c : Cmd) (d d' : Dev) (m : Memory) (ps : List Instr), c = { op := 0x0C00, m := true, len := 4, acc := true, ok := decide (0 = 0) || decide (0 = 2) || decide (0 = 3) } → d.admits c r = (d', true) → d'.pwr.state = 2 → d'.pwr.busy = false → d'.enteringAo = false → exec (.pwrSet r 0) ⟨d, m, ps⟩ = .next ⟨Dev.settle ((d'.started c r [] 0).leaveDark), m, ps⟩) ∧
  (∀ (r : Req) (state : Nat) (c : Cmd) (d d' : Dev) (m : Memory) (ps : List Instr), c = { op := 0x0C00, m := true, len := 4, acc := true, ok := decide (state = 0) || decide (state = 2) || decide (state = 3) } → d.admits c r = (d', true) → d'.pwr.state ≠ 3 → d'.pwr.busy = true → d'.pwr.target < state → d'.enteringAo = false → exec (.pwrSet r state) ⟨d, m, ps⟩ = .next ⟨Dev.settle (d'.deny c r .busy), m, ps⟩) ∧
  (∀ (r : Req) (mask : BitVec 64) (c : Cmd) (d d' : Dev) (m : Memory) (ps : List Instr), c = { op := 0x0C01, len := 8, acc := true } → d.admits c r = (d', true) → d'.pwr.busy = true → exec (.pwrDarkPorts r mask) ⟨d, m, ps⟩ = .next ⟨Dev.settle (d'.deny c r .busy), m, ps⟩) ∧
  (∀ (r : Req) (mask : BitVec 64) (c : Cmd) (d d' : Dev) (m : Memory) (ps : List Instr), c = { op := 0x0C01, len := 8, acc := true } → d.admits c r = (d', true) → d'.pwr.busy = false → d'.pwr.dark = mask → exec (.pwrDarkPorts r mask) ⟨d, m, ps⟩ = .next ⟨Dev.settle (d'.okay c r), m, ps⟩) ∧
  (∀ (r : Req) (mask : BitVec 64) (c : Cmd) (d d' : Dev) (m : Memory) (ps : List Instr), c = { op := 0x0C01, len := 8, acc := true } → d.admits c r = (d', true) → d'.pwr.busy = false → d'.pwr.dark ≠ mask → d'.pwr.state ≠ 2 → (d'.wake.setDark mask).pwr.seq ≠ [] → exec (.pwrDarkPorts r mask) ⟨d, m, ps⟩ = .next ⟨Dev.settle ({ (d'.wake.setDark mask).started c r [] with pwr.busy := true }), m, ps⟩) ∧
  (∀ (r : Req) (mask : BitVec 64) (c : Cmd) (d d' : Dev) (m : Memory) (ps : List Instr), c = { op := 0x0C01, len := 8, acc := true } → d.admits c r = (d', true) → d'.pwr.busy = false → d'.pwr.dark ≠ mask → d'.pwr.state = 2 → exec (.pwrDarkPorts r mask) ⟨d, m, ps⟩ = .next ⟨Dev.settle (({ d' with pwr.darkSaved := mask }).okay c r), m, ps⟩) ∧
  (∀ (r : Req) (c : Cmd) (d d' : Dev) (m : Memory) (ps : List Instr), c = { op := 0x0C02, m := true, live := true } → d.admits c r = (d', true) → exec (.thmRead r) ⟨d, m, ps⟩ = .next ⟨Dev.settle (d'.okay c r (58 :: (List.range 58).map fun n => (d'.sensor n).word)), m, ps⟩) ∧
  (∀ (r : Req) (sensor : Nat) (warn : Int) (rise : Int) (c : Cmd) (d d' : Dev) (m : Memory) (ps : List Instr), c = { op := 0x0C03, len := 8, ok := decide (sensor < 58) && decide (warn ≤ limitOf sensor) && decide (0 ≤ rise) && decide (rise ≤ riseReset sensor) } → d.admits c r = (d', true) → exec (.thmLimits r sensor warn rise) ⟨d, m, ps⟩ = .next ⟨Dev.settle ((d'.setSensor sensor fun g => { g with warn := some warn, rise := some rise }).okay c r), m, ps⟩)

/-- An admitted command of this group schedules a stop, resumes, answers the waits, a queue's snapshot or counters, registers a dump, or sets the telemetry export; what a rule refuses is answered with the status the rule names. What it takes beside the rules is the model's own reading (log 115, 116). -/
def Obligations.DebugCommandGroup : Prop :=
  (∀ (r : Req) (scope : Nat) (ftime : W64) (c : Cmd) (d d' : Dev) (m : Memory) (ps : List Instr), c = { op := 0x0A00, m := true, live := true, len := 16, acc := true, ok := decide (scope = 0) || (decide (scope = 1) && decide (d.fab.time + 100000 ≤ ftime.toNat)) } → d.admits c r = (d', true) → d'.dbg.st = .running → (scope ≠ 1 ∨ d'.timeLocked = true) → exec (.dbgStop r scope ftime) ⟨d, m, ps⟩ = .next ⟨Dev.settle ((d'.started c r []).scheduleStop scope ftime), m, ps⟩) ∧
  (∀ (r : Req) (scope : Nat) (ftime : W64) (c : Cmd) (d d' : Dev) (m : Memory) (ps : List Instr), c = { op := 0x0A00, m := true, live := true, len := 16, acc := true, ok := decide (scope = 0) || (decide (scope = 1) && decide (d.fab.time + 100000 ≤ ftime.toNat)) } → d.admits c r = (d', true) → d'.dbg.st ≠ .running → exec (.dbgStop r scope ftime) ⟨d, m, ps⟩ = .next ⟨Dev.settle (d'.deny c r .badState), m, ps⟩) ∧
  (∀ (r : Req) (c : Cmd) (d d' : Dev) (m : Memory) (ps : List Instr), c = { op := 0x0A01, m := true, live := true, acc := true } → d.admits c r = (d', true) → d'.dbg.st = .running → exec (.dbgResume r) ⟨d, m, ps⟩ = .next ⟨Dev.settle (d'.deny c r .badState), m, ps⟩) ∧
  (∀ (r : Req) (c : Cmd) (d d' : Dev) (m : Memory) (ps : List Instr), c = { op := 0x0A01, m := true, live := true, acc := true } → d.admits c r = (d', true) → d'.dbg.st = .scheduled → exec (.dbgResume r) ⟨d, m, ps⟩ = .next ⟨Dev.settle ((({ d' with dbg.st := .running }).finishAccs (fun a => decide (a.opcode = 0x0A00)) .aborted []).okay c r), m, ps⟩) ∧
  (∀ (r : Req) (c : Cmd) (d d' : Dev) (m : Memory) (ps : List Instr), c = { op := 0x0A01, m := true, live := true, acc := true } → d.admits c r = (d', true) → d'.dbg.st = .stopped → exec (.dbgResume r) ⟨d, m, ps⟩ = .next ⟨Dev.settle ((d'.resume 0).okay c r), m, ps⟩) ∧
  (∀ (r : Req) (c : Cmd) (d d' : Dev) (m : Memory) (ps : List Instr), c = { op := 0x0A02, tn := true, dev := true, live := true, len := 4 } → d.admits c r = (d', true) → exec (.dbgWaitfor r 0) ⟨d, m, ps⟩ = .next ⟨Dev.settle (({ d' with dbg.graphs := Tab.put none (min r.tenant.toNat 16) (some (d'.edges (viewQueues r.tenant.toNat))) d'.dbg.graphs }).edgeReply c r 0 (d'.edges (viewQueues r.tenant.toNat))), m, ps⟩) ∧
  (∀ (r : Req) (first : Nat) (c : Cmd) (d d' : Dev) (m : Memory) (ps : List Instr) (es : List Edge), c = { op := 0x0A02, tn := true, dev := true, live := true, len := 4 } → d.admits c r = (d', true) → first ≠ 0 → Tab.look none (min r.tenant.toNat 16) d'.dbg.graphs = some es → first < es.length → exec (.dbgWaitfor r first) ⟨d, m, ps⟩ = .next ⟨Dev.settle (d'.edgeReply c r first es), m, ps⟩) ∧
  (∀ (r : Req) (q : Nat) (c : Cmd) (d d' : Dev) (m : Memory) (ps : List Instr), c = { op := 0x0A03, tn := true, live := true, len := 4, ok := decide (q < 64), objs := [.queue r.tenant.toNat q] } → d.admits c r = (d', true) → exec (.dbgQsnap r q) ⟨d, m, ps⟩ = .next ⟨Dev.settle (d'.okay c r (d'.qsnap (64 * r.tenant.toNat + q))), m, ps⟩) ∧
  (∀ (r : Req) (layer : W16) (operator : W16) (stp : W32) (dest : W64) (maxlen : W64) (c : Cmd) (d d' : Dev) (m : Memory) (ps : List Instr), c = { op := 0x0A04, tn := true, live := true, len := 24, acc := true, minor := 2, ok := decide (dest.toNat % 4096 = 0) && decide (0 < maxlen.toNat) && decide (maxlen.toNat ≤ 2 ^ 40) } → d.admits c r = (d', true) → (Tab.look none r.tenant.toNat d'.dbg.dumps).isSome = false → exec (.dbgTensorDump r layer operator stp dest maxlen) ⟨d, m, ps⟩ = .next ⟨Dev.settle ({ d'.started c r [] r.tenant.toNat with dbg.dumps := Tab.put none r.tenant.toNat (some { layer, operator, stp, dest, maxlen := maxlen.toNat, at_ := d'.now }) d'.dbg.dumps }), m, ps⟩) ∧
  (∀ (r : Req) (layer : W16) (operator : W16) (stp : W32) (dest : W64) (maxlen : W64) (c : Cmd) (d d' : Dev) (m : Memory) (ps : List Instr), c = { op := 0x0A04, tn := true, live := true, len := 24, acc := true, minor := 2, ok := decide (dest.toNat % 4096 = 0) && decide (0 < maxlen.toNat) && decide (maxlen.toNat ≤ 2 ^ 40) } → d.admits c r = (d', true) → (Tab.look none r.tenant.toNat d'.dbg.dumps).isSome = true → exec (.dbgTensorDump r layer operator stp dest maxlen) ⟨d, m, ps⟩ = .next ⟨Dev.settle (d'.deny c r .busy), m, ps⟩) ∧
  (∀ (r : Req) (set : Nat) (first : Nat) (num : Nat) (c : Cmd) (d d' : Dev) (m : Memory) (ps : List Instr), c = { op := 0x0A10, tn := true, dev := true, live := true, len := 8, ok := decide (0 < num) && decide (num ≤ 509) && (setSize set).any fun n => decide (first + num ≤ n) } → d.admits c r = (d', true) → (2 ≤ set ∨ r.tenant = 0xFF) → (set < 2 ∨ r.tenant.toNat < 16) → exec (.cntRead r set first num) ⟨d, m, ps⟩ = .next ⟨Dev.settle (d'.okay c r ((List.range num).map fun i => d'.counter set r.tenant.toNat (first + i))), m, ps⟩) ∧
  (∀ (r : Req) (set : Nat) (first : Nat) (num : Nat) (c : Cmd) (d d' : Dev) (m : Memory) (ps : List Instr), c = { op := 0x0A10, tn := true, dev := true, live := true, len := 8, ok := decide (0 < num) && decide (num ≤ 509) && (setSize set).any fun n => decide (first + num ≤ n) } → d.admits c r = (d', true) → set < 2 → r.tenant ≠ 0xFF → exec (.cntRead r set first num) ⟨d, m, ps⟩ = .next ⟨Dev.settle (d'.deny c r .accessDenied), m, ps⟩) ∧
  (∀ (r : Req) (dest : W64) (period : Nat) (c : Cmd) (d d' : Dev) (m : Memory) (ps : List Instr), c = { op := 0x0A11, live := true, len := 16, ok := decide (period = 0) || (decide (100 ≤ period) && decide (period ≤ 1000000) && decide (dest.toNat % 2 ^ 21 = 0)) } → d.admits c r = (d', true) → exec (.tlmExport r dest period) ⟨d, m, ps⟩ = .next ⟨Dev.settle (({ d' with dbg.tlm := if period = 0 then none else some (dest, period, 0), dbg.tlmAt := d'.now }).okay c r), m, ps⟩)

/-- For every state with a command at the front of its queue, a step answers what that command's effect answers on the state whose queue is the rest. What it takes beside the rules is the model's own reading (log 9). -/
def Obligations.StepTakesTheFrontCommand : Prop :=
  ∀ (s : State) (c : Instr) (r : List Instr), s.pending = c :: r → step s = exec c { s with pending := r }

/-- The model's own choice (log 2): with an empty queue, nothing kept back by a stop, no fault on its way and no version of the partner waiting, a step answers a next state in which 250 ns of local time have passed, fabric time has advanced as `Fab.advance` says, and the boot flash and the empty queue are as before. -/
def Obligations.EmptyQueueLetsTimePass : Prop :=
  ∀ s : State, s.pending = [] → s.dev.dbg.ingress = [] → s.dev.flt.due = [] → s.dev.vlt.mirq = [] → ∃ t : State, step s = .next t ∧ t.mem = s.mem ∧ t.pending = [] ∧
    t.dev.now = s.dev.now + 250 ∧ t.dev.fab = s.dev.fab.advance (s.dev.now + 250)

/-- For every command and every state: where every unit the operands name exists the command answers a next state, and where one does not it stops with the fault that says so. What it takes beside the rules is the model's own reading (log 119). -/
def Obligations.CommandsCompleteOrNameNoUnit : Prop :=
  ∀ (i : Instr) (s : State), (i.wf = true → ∃ t : State, exec i s = .next t) ∧ (i.wf = false → exec i s = .fault .noSuchUnit)

/-- For every command and state, the state a command answers holds the same waiting commands; and for every command but the erase and the program of a slot, FW_ACTIVATE, FW_CONFIRM and the entry to HOST_READY, every byte of the boot flash reads after it as before. -/
def Obligations.CommandsLeaveTheQueueAndTheFlashAlone : Prop :=
  ∀ (i : Instr) (s t : State), exec i s = .next t → t.pending = s.pending ∧ (flashWriter i = false → ∀ a : Nat, Memory.readByte t.mem a = Memory.readByte s.mem a)

/-- Refusing a command, and a first step that does not let the command pass, change the function's rings and vectors, the flits and messages on their way out, whether an MCTP command is outstanding, and the journal where the answer waits for the partner; every other part of the device is as before, but that an answer INTERNAL fires FW_INTERNAL, and a first step answers INTERNAL only where Conik's memory failed it. What it takes beside the rules is the model's own reading (log 8, 30). -/
def Obligations.RefusalsOnlyAnswer : Prop :=
  ∀ (d : Dev) (c : Cmd) (r : Req) (st : Status) (gens : List (Nat × Nat)),
    (∃ (fns : Tab Fn) (b : Bool) (ps : Tab HPort) (n : Nat) (gs : List (Nat × Guard)) (w : List (JEntry × Option Guard)) (k : Nat) (o : List Out),
      d.deny c r st = { d.postIf (decide (st = .internal)) Src.fwInternal 0 with mbx.fns := fns, mbx.mctpBusy := b, fct.ports := ps, twn.jnext := n, twn.guards := gs, twn.jwait := w, twn.mseq := k, out := o }) ∧
    ((d.firstStep c r gens).2 = false → ∃ (fw : Bool) (fns : Tab Fn) (b : Bool) (ps : Tab HPort) (n : Nat) (gs : List (Nat × Guard)) (w : List (JEntry × Option Guard)) (k : Nat) (o : List Out),
      (fw = true → r.fwErr = true) ∧
      (d.firstStep c r gens).1 = { d.postIf fw Src.fwInternal 0 with mbx.fns := fns, mbx.mctpBusy := b, fct.ports := ps, twn.jnext := n, twn.guards := gs, twn.jwait := w, twn.mseq := k, out := o })

/-- For a piece of an image within its area, the erase and the program leave every byte outside that area as it was. -/
def Obligations.SlotWritesStayInTheirArea : Prop :=
  ∀ (s t : State) (j : FlJob), s.dev.mbx.flJob = some j → j.off + j.data.length ≤ (areaOf j.slot).2 →
    (exec .flashEraseDone s = .next t ∨ exec .flashProgramDone s = .next t) → ∀ a : Nat,
    (a < (areaOf j.slot).1 ∨ (areaOf j.slot).1 + (areaOf j.slot).2 ≤ a) → Memory.readByte t.mem a = Memory.readByte s.mem a

/-- After the program of a piece each of its bytes reads at its place; after the erase and program of the first piece so it does, and every other byte of the slot's area reads as erased. -/
def Obligations.SlotWritesStoreTheirBytes : Prop :=
  ∀ (s t : State) (j : FlJob), s.dev.mbx.flJob = some j → j.check = false →
    (exec .flashProgramDone s = .next t → j.erase = false → ∀ n : Nat, n < j.data.length → Memory.readByte t.mem ((areaOf j.slot).1 + j.off + n) = j.data.getD n 0) ∧
    (exec .flashEraseDone s = .next t → j.erase = true → (∀ n : Nat, n < j.data.length → Memory.readByte t.mem ((areaOf j.slot).1 + j.off + n) = j.data.getD n 0) ∧
      ∀ a : Nat, (areaOf j.slot).1 ≤ a → a < (areaOf j.slot).1 + (areaOf j.slot).2 → (a < (areaOf j.slot).1 + j.off ∨ (areaOf j.slot).1 + j.off + j.data.length ≤ a) →
        Memory.readByte t.mem a = Memory.erased)

/-- Writing the directory makes the copy that was not selected the selected one, with the slot and the trial bit written and a SEQ one higher; every byte outside that copy's 4 KiB reads as before. A SEQ of 2^32 − 1 is left out: the rule does not say what follows it. -/
def Obligations.DirectoryReadsBack : Prop :=
  ∀ (m : Memory) (act trial : Bool) (k : Nat) (x : BootDir), dirNow m = some (k, x) → x.seq + 1 < 2 ^ 32 →
    dirNow (dirWrite m act trial) = some (1 - k, { ok := true, seq := x.seq + 1, active := act, trial }) ∧
    ∀ a : Nat, (a < 4096 * (1 - k) ∨ 4096 * (1 - k) + 4096 ≤ a) → Memory.readByte (dirWrite m act trial) a = Memory.readByte m a

/-- From every state whose flash is in canonical form (addresses rising, no entry equal to an erased byte), a step that answers a next state answers one whose flash is. -/
def Obligations.FlashStaysCanonical : Prop :=
  ∀ s t : State, s.memOk = true → step s = .next t → t.memOk = true

/-- The configuration registers whose reset column gives a value hold it in the reset state, those of each unit of an array alike; no command waits, and the flash is in canonical form and reads as erased everywhere (the last is the model's choice, log 4). What it takes beside the rules is the model's own reading (log 3, 4). -/
def Obligations.ResetState : Prop :=
  State.reset.dev.thm.cfg = 0x1C ∧ State.reset.dev.pwr.cfg = 0x0A01 ∧ State.reset.dev.pwr.budget = 0x0B40 ∧ State.reset.dev.vlt.cfg = 0x01070800 ∧
    State.reset.dev.twn.cfg = 1 ∧ State.reset.dev.fab.cfg = 0x32101021 ∧ State.reset.dev.col.cfg = 0x114 ∧ State.reset.dev.xlt.cfg = 0x6408 ∧
    State.reset.dev.cal.cfg = 0xA506CC50 ∧ State.reset.dev.dbg.cfg = 0x03E83200 ∧ State.reset.dev.dbg.trcfg = 0x21FFF ∧ State.reset.dev.dbg.trmask = 0x1FFFF ∧
    (∀ p : Nat, (State.reset.dev.lport p).cfg = 0x2415 ∧ (State.reset.dev.lport p).st = .down) ∧ State.reset.dev.jad.rstCause = 1 ∧
    State.reset.memOk = true ∧ State.reset.pending = [] ∧ ∀ a : Nat, Memory.readByte State.reset.mem a = Memory.erased

/-- From every state whose waiting commands name units that exist, as many steps as commands wait answer a next state whose queue is empty, and whose flash is in canonical form where it was before. What it takes beside the rules is the model's own reading (log 119). -/
def Obligations.QueueRunsToItsEnd : Prop :=
  ∀ s : State, s.queueOk = true → ∃ t : State, Host.Core.run Sys2Proof.core s.pending.length s = .next t ∧ t.pending = [] ∧ (s.memOk = true → t.memOk = true)

/-- Where the generic statuses let a command pass, the device serves it in this stage, its tenant is the path's and not in TR, its issuer may send it, its length and fields are right, its bring-up item is up, a stopped device serves it, fewer than 8 of its source's commands are in progress if it may answer ACCEPTED, none in progress names its object, a tenant's objects are still of the generation of its arrival, and Conik's memory served it. What it takes beside the rules is the model's own reading (log 8). -/
def Obligations.AdmittedCommandsPassEveryCheck : Prop :=
  ∀ (d : Dev) (c : Cmd) (r : Req) (gens : List (Nat × Nat)), d.generic c r gens = none →
    (d.boot.stage = .recovery → c.rcv = true) ∧
    (d.up = true ∨ d.boot.stage = .recovery ∨ c.op = 0x0102 ∨ (c.op = 0x0C00 ∧ d.boot.stage = .dormant)) ∧
    (pathFn r.path ≠ 0 → r.tenant.toNat + 1 = pathFn r.path ∧ d.fenced r.tenant.toNat = false ∧ c.tn = true) ∧
    (pathFn r.path = 0 → c.tenantOk (decide (r.path = .mctp)) r.tenant.toNat = true ∧ (r.path = .mctp → c.m = true)) ∧
    c.minor ≤ d.mbx.oxMin ∧ r.length = c.len ∧ (c.blind = false → r.rsvd = false ∧ c.ok = true) ∧
    (∀ n : Nat, c.item = some n → d.itemSt n = .up) ∧
    (d.stopped = true → c.live = true) ∧
    (c.acc = true → (d.mbx.acc.filter fun a => decide (a.opcode ≠ 0x0302) && sameSource a.req.path r.path).length < 8) ∧
    (busyExempt c.op = false → ∀ a ∈ d.mbx.acc, a.blocks c (pathFn r.path) = false) ∧
    (pathFn r.path ≠ 0 → ∀ o ∈ c.objs, genOf gens o = genOf d.mbx.gens o) ∧ r.fwErr = false

/-- Where the device serves the path of a VF, or of a sideband message of a tenant, a command that carries another tenant and repeats no kept response is answered BAD_TENANT and has no effect beyond that answer. -/
def Obligations.TenantFieldMustBeTheSenders : Prop :=
  ∀ (d : Dev) (c : Cmd) (r : Req) (gens : List (Nat × Nat)), d.up = true → d.servedPath r.path = true → d.keptFor r c.op = none →
    pathFn r.path ≠ 0 → r.tenant.toNat + 1 ≠ pathFn r.path → d.firstStep c r gens = (d.reply c.op r .badTenant, false)

/-- A command that would take its effect but for a nonzero reserved field or STATUS is answered BAD_FIELD, and one that would but for its LENGTH is answered BAD_LENGTH; neither has an effect beyond its answer. -/
def Obligations.HeaderErrorsAreAnswered : Prop :=
  ∀ (d : Dev) (c : Cmd) (r : Req) (gens : List (Nat × Nat)), c.blind = false →
    (d.firstStep c { r with rsvd := false } gens = (d, true) → r.rsvd = true → d.firstStep c r gens = (d.reply c.op r .badField, false)) ∧
    (d.firstStep c { r with length := c.len } gens = (d, true) → r.length ≠ c.len → d.firstStep c r gens = (d.reply c.op r .badLength, false))

/-- A copy qualifies exactly when its MAGIC and CRC are right; of two that qualify the one with the higher SEQ selects the slot, one alone selects it, and with none slot A is booted. -/
def Obligations.BootDirectoryChoice : Prop :=
  ∀ (m : Memory), (∀ k : Nat, (dirCopy m k).isSome = true ↔ Memory.num m (4096 * k) 4 = 0x48584431 ∧ Memory.num m (4096 * k + 12) 4 = (crc32c (m.read (4096 * k) 12)).toNat) ∧
    (∀ a b : BootDir, dirCopy m 0 = some a → dirCopy m 1 = some b → (a.seq < b.seq → dirSlot m = b.active) ∧ (b.seq < a.seq → dirSlot m = a.active)) ∧
    (∀ a : BootDir, (dirCopy m 0 = some a → dirCopy m 1 = none → dirSlot m = a.active) ∧ (dirCopy m 0 = none → dirCopy m 1 = some a → dirSlot m = a.active)) ∧
    (dirCopy m 0 = none → dirCopy m 1 = none → dirSlot m = false)

/-- After the level is worked out anew it is the largest of g, b, 4 while a comparator of a non-Onyx sensor is active, and EXT_LEVEL while THERM_IN_N is low. -/
def Obligations.ThrottleLevelInForce : Prop :=
  ∀ d : Dev, d.relevel.thm.level = max (max d.thm.g d.thm.b) (max (if (List.range 50).any fun n => (d.sensor n).limit then 4 else 0) (if (Tab.look {} 1 d.jad.ain).level then d.thm.cfg.toNat % 8 else 0))

/-- An admitted TWN_TAKEOVER is answered BAD_STATE, and changes nothing else, unless the pair is in CLEAVE. -/
def Obligations.TakeoverOnlyInCleave : Prop :=
  (∀ (r : Req) (c : Cmd) (d d' : Dev) (m : Memory) (ps : List Instr), c = { op := 0x0803, m := true, item := some 7, acc := true } → d.admits c r = (d', true) → d'.twn.st ≠ .cleave → exec (.twnTakeover r) ⟨d, m, ps⟩ = .next ⟨Dev.settle (d'.deny c r .badState), m, ps⟩)

/-- Each raw command that is admitted but whose path does not hold the debug role is answered ACCESS_DENIED, and changes nothing else; with the role an erase of a test block of a die present is served. -/
def Obligations.RawCommandsNeedTheDebugRole : Prop :=
  (∀ (r : Req) (die : Nat) (block : Nat) (c : Cmd) (d d' : Dev) (m : Memory) (ps : List Instr), c = { op := 0x0710, item := some 6, len := 8, acc := true, objs := [.block die block], ok := decide (die < 8) && decide (block < 4096) } → d.admits c r = (d', true) → d'.debugRole r.path = false → exec (.vltRawErase r die block) ⟨d, m, ps⟩ = .next ⟨Dev.settle (d'.deny c r .accessDenied), m, ps⟩) ∧
  (∀ (r : Req) (die : Nat) (block : Nat) (c : Cmd) (d d' : Dev) (m : Memory) (ps : List Instr), c = { op := 0x0710, item := some 6, len := 8, acc := true, objs := [.block die block], ok := decide (die < 8) && decide (block < 4096) } → d.admits c r = (d', true) → d'.debugRole r.path = true → d'.dieIn (4096 * die + block) = true → isTest (4096 * die + block) = true → exec (.vltRawErase r die block) ⟨d, m, ps⟩ = .next ⟨Dev.settle ((d'.started c r [.block die block]).setBlk (4096 * die + block) fun b => { b with written := 1024 }), m, ps⟩) ∧
  (∀ (r : Req) (die : Nat) (plane : Nat) (block : Nat) (page : Nat) (pattern : W32) (c : Cmd) (d d' : Dev) (m : Memory) (ps : List Instr), c = { op := 0x0711, item := some 6, len := 16, acc := true, objs := [.block die block], ok := decide (die < 8) && decide (block < 4096) && decide (plane = block % 4) && decide (page < 1024) } → d.admits c r = (d', true) → d'.debugRole r.path = false → exec (.vltRawProgram r die plane block page pattern) ⟨d, m, ps⟩ = .next ⟨Dev.settle (d'.deny c r .accessDenied), m, ps⟩) ∧
  (∀ (r : Req) (die : Nat) (plane : Nat) (block : Nat) (page : Nat) (offset : Nat) (dlen : Nat) (c : Cmd) (d d' : Dev) (m : Memory) (ps : List Instr), c = { op := 0x0712, item := some 6, len := 16, objs := [.block die block], ok := decide (die < 8) && decide (block < 4096) && decide (plane = block % 4) && decide (page < 1024) && decide (16 ≤ dlen) && decide (dlen ≤ 4064) && decide (offset + dlen ≤ 16384) } → d.admits c r = (d', true) → d'.debugRole r.path = false → exec (.vltRawRead r die plane block page offset dlen) ⟨d, m, ps⟩ = .next ⟨Dev.settle (d'.deny c r .accessDenied), m, ps⟩)

/-- Over a tick in which nothing that waited takes effect, fabric time stays or rises: by the tick's 250 ns and one more at most, or by the time since a hold's end; it stays where a follower that is ahead holds it. -/
def Obligations.FabricTimeNeverDecreases : Prop :=
  ∀ d : Dev, d.dbg.ingress = [] → d.flt.due = [] → d.vlt.mirq = [] → d.fab.time ≤ d.tick.fab.time ∧
    (d.fab.holdTo = none → d.fab.time + 249 ≤ d.tick.fab.time ∧ d.tick.fab.time ≤ d.fab.time + 251) ∧
    (∀ h : Nat, d.fab.holdTo = some h → d.now + 250 < h → d.tick.fab.time = d.fab.time) ∧
    (∀ h : Nat, d.fab.holdTo = some h → h ≤ d.now + 250 → d.tick.fab.time = d.fab.time + (d.now + 250 - h) ∧ d.tick.fab.holdTo = none)

/-- Creating or destroying a queue leaves every other queue of the device as it was; the queue created is stopped, empty and as its arguments say, the one destroyed is absent, and both keep the serial numbers used. -/
def Obligations.QueueChangesTouchOneQueue : Prop :=
  ∀ (d : Dev) (t : Nat) (a : QArgs) (gq : Nat), (gq ≠ 64 * t + a.queue → (d.createQueue t a).queue gq = d.queue gq ∧ (d.destroyQueue t a.queue).queue gq = d.queue gq) ∧
    ((d.createQueue t a).queue (64 * t + a.queue)).st = .stopped ∧ ((d.createQueue t a).queue (64 * t + a.queue)).ring = a.ring ∧
    ((d.createQueue t a).queue (64 * t + a.queue)).head = 0 ∧ ((d.createQueue t a).queue (64 * t + a.queue)).tail = 0 ∧
    ((d.createQueue t a).queue (64 * t + a.queue)).serial = (d.queue (64 * t + a.queue)).serial ∧
    ((d.destroyQueue t a.queue).queue (64 * t + a.queue)).st = .absent ∧ ((d.destroyQueue t a.queue).queue (64 * t + a.queue)).serial = (d.queue (64 * t + a.queue)).serial
end

