-- ==== Sys2Proof/Laws/Tab.lean ====
section
/-! SUPPORT. Sparse tables and the flash: reading after writing, and the canonical form every write keeps. -/

namespace Sys2Proof.Machine

variable {α : Type} [DecidableEq α]

/-- A lower bound for the indices may be lowered. -/
theorem Tab.wfFrom_mono (d : α) (t : Tab α) (lo lo' : Nat) (h : Tab.wfFrom d lo t = true) (hl : lo' ≤ lo) : Tab.wfFrom d lo' t = true := by
  cases t with
  | nil => rfl
  | cons e r =>
    simp only [Tab.wfFrom, Bool.and_eq_true, decide_eq_true_eq] at h ⊢
    exact ⟨⟨by omega, h.1.2⟩, h.2⟩

/-- Entries left out by a filter leave the canonical form. -/
theorem Tab.wfFrom_filter (d : α) (t : Tab α) (lo : Nat) (p : Nat × α → Bool) (h : Tab.wfFrom d lo t = true) :
    Tab.wfFrom d lo (t.filter p) = true := by
  induction t generalizing lo with
  | nil => rfl
  | cons e r ih =>
    simp only [Tab.wfFrom, Bool.and_eq_true, decide_eq_true_eq] at h
    by_cases hp : p e = true
    · rw [List.filter_cons_of_pos hp]
      simp only [Tab.wfFrom, Bool.and_eq_true, decide_eq_true_eq]
      exact ⟨h.1, ih _ h.2⟩
    · rw [List.filter_cons_of_neg hp]
      exact Tab.wfFrom_mono d _ _ _ (ih _ h.2) (by omega)

theorem Tab.wfFrom_drop (d : α) (t : Tab α) (lo k : Nat) (h : Tab.wfFrom d lo t = true) : Tab.wfFrom d lo (Tab.drop k t) = true :=
  Tab.wfFrom_filter d t lo _ h

omit [DecidableEq α] in
/-- A dropped index reads as the default; every other as before. -/
theorem Tab.look_drop_same (d : α) (t : Tab α) (k : Nat) : Tab.look d k (Tab.drop k t) = d := by
  induction t with
  | nil => rfl
  | cons e r ih =>
    by_cases h : e.1 = k
    · simpa [Tab.drop, h] using ih
    · simp only [Tab.drop, ne_eq, h, not_false_eq_true, decide_true, List.filter_cons_of_pos, Tab.look, if_false]
      exact ih

omit [DecidableEq α] in
theorem Tab.look_drop_ne (d : α) (t : Tab α) (j k : Nat) (hj : j ≠ k) : Tab.look d j (Tab.drop k t) = Tab.look d j t := by
  induction t with
  | nil => rfl
  | cons e r ih =>
    by_cases h : e.1 = k
    · have hne : ¬ e.1 = j := by omega
      simp only [Tab.look, hne, if_false]
      simpa [Tab.drop, h] using ih
    · by_cases h2 : e.1 = j
      · simp [Tab.drop, Tab.look, h2, hj]
      · simp only [Tab.drop, ne_eq, h, not_false_eq_true, decide_true, List.filter_cons_of_pos, Tab.look, h2, if_false]
        exact ih

/-- A write keeps the canonical form. -/
theorem Tab.wfFrom_put (d : α) (t : Tab α) (lo k : Nat) (v : α) (h : Tab.wfFrom d lo t = true) (hk : lo ≤ k) :
    Tab.wfFrom d lo (Tab.put d k v t) = true := by
  induction t generalizing lo with
  | nil =>
    simp only [Tab.put]
    split
    · rfl
    · simp_all [Tab.wfFrom]
  | cons e r ih =>
    have hw := h
    simp only [Tab.wfFrom, Bool.and_eq_true, decide_eq_true_eq] at h
    simp only [Tab.put]
    split
    · split
      · exact Tab.wfFrom_drop d _ lo k hw
      · rename_i h1 h2
        simp only [Tab.wfFrom, Bool.and_eq_true, decide_eq_true_eq]
        exact ⟨⟨hk, h2⟩, ⟨⟨by omega, h.1.2⟩, h.2⟩⟩
    · split
      · rename_i h1 h2
        split
        · exact Tab.wfFrom_drop d r lo k (Tab.wfFrom_mono d r _ _ h.2 (by omega))
        · rename_i h3
          simp only [Tab.wfFrom, Bool.and_eq_true, decide_eq_true_eq]
          exact ⟨⟨hk, h3⟩, h2 ▸ h.2⟩
      · rename_i h1 h2
        simp only [Tab.wfFrom, Bool.and_eq_true, decide_eq_true_eq]
        exact ⟨h.1, ih _ h.2 (by omega)⟩

theorem Tab.wf_put (d : α) (t : Tab α) (k : Nat) (v : α) (h : Tab.wf d t = true) : Tab.wf d (Tab.put d k v t) = true :=
  Tab.wfFrom_put d t 0 k v h (Nat.zero_le k)

theorem Tab.wf_upd (d : α) (t : Tab α) (k : Nat) (f : α → α) (h : Tab.wf d t = true) : Tab.wf d (Tab.upd d k f t) = true :=
  Tab.wf_put d t k _ h

@[simp] theorem Tab.wf_nil (d : α) : Tab.wf d ([] : Tab α) = true := rfl

/-- A write leaves every other index alone. -/
theorem Tab.look_put_ne (d : α) (t : Tab α) (j k : Nat) (v : α) (h : j ≠ k) : Tab.look d j (Tab.put d k v t) = Tab.look d j t := by
  have h' : ¬ k = j := fun e => h e.symm
  induction t with
  | nil =>
    simp only [Tab.put]
    split <;> simp [Tab.look, h']
  | cons e r ih =>
    simp only [Tab.put]
    split
    · split
      · exact Tab.look_drop_ne d _ j k h
      · simp [Tab.look, h']
    · split
      · rename_i h1 h2
        have : ¬ e.1 = j := by omega
        split <;> simp [Tab.look, this, h', Tab.look_drop_ne d r j k h]
      · by_cases hj : e.1 = j <;> simp [Tab.look, hj, ih]

/-- Reading what was written. -/
@[simp] theorem Tab.look_put_same (d : α) (t : Tab α) (k : Nat) (v : α) : Tab.look d k (Tab.put d k v t) = v := by
  induction t with
  | nil =>
    simp only [Tab.put]
    split
    · rename_i h1
      simp [Tab.look, h1]
    · simp [Tab.look]
  | cons e r ih =>
    simp only [Tab.put]
    split
    · split
      · rename_i h1 h2
        rw [Tab.look_drop_same, h2]
      · simp [Tab.look]
    · split
      · split
        · rename_i h3
          rw [Tab.look_drop_same, h3]
        · simp [Tab.look]
      · rename_i h1 h2
        have hne : ¬ e.1 = k := fun x => h2 x.symm
        simp only [Tab.look, hne, if_false]
        exact ih

@[simp] theorem Tab.look_upd_same (d : α) (t : Tab α) (k : Nat) (f : α → α) :
    Tab.look d k (Tab.upd d k f t) = f (Tab.look d k t) := Tab.look_put_same d t k _

theorem Tab.look_upd_ne (d : α) (t : Tab α) (j k : Nat) (f : α → α) (h : j ≠ k) :
    Tab.look d j (Tab.upd d k f t) = Tab.look d j t := Tab.look_put_ne d t j k _ h

omit [DecidableEq α] in
@[simp] theorem Tab.look_nil (d : α) (k : Nat) : Tab.look d k ([] : Tab α) = d := rfl

/-! ### The flash -/

theorem Memory.writeByte_wf (m : Memory) (a : Nat) (v : Byte) (h : m.wf = true) : (m.writeByte a v).wf = true := Tab.wf_put _ m a v h

theorem Memory.write_wf (m : Memory) (a : Nat) (l : List Byte) (h : m.wf = true) : (m.write a l).wf = true := by
  induction l generalizing m a with
  | nil => exact h
  | cons v r ih => exact ih _ _ (Memory.writeByte_wf m a v h)

theorem Memory.erase_wf (m : Memory) (a n : Nat) (h : m.wf = true) : (m.erase a n).wf = true := Tab.wfFrom_filter _ m 0 _ h

theorem Memory.readByte_writeByte_same (m : Memory) (a : Nat) (v : Byte) : (m.writeByte a v).readByte a = v :=
  Tab.look_put_same _ m a v

theorem Memory.readByte_writeByte_ne (m : Memory) (a b : Nat) (v : Byte) (h : b ≠ a) : (m.writeByte a v).readByte b = m.readByte b :=
  Tab.look_put_ne _ m b a v h

/-- Bytes below or above a written range stand as before. -/
theorem Memory.readByte_write_outside (m : Memory) (a b : Nat) (l : List Byte) (h : b < a ∨ a + l.length ≤ b) :
    (m.write a l).readByte b = m.readByte b := by
  induction l generalizing m a with
  | nil => rfl
  | cons v r ih =>
    simp only [List.length_cons] at h
    show ((m.writeByte a v).write (a + 1) r).readByte b = m.readByte b
    rw [ih (m.writeByte a v) (a + 1) (by omega), Memory.readByte_writeByte_ne m a b v (by omega)]

end Sys2Proof.Machine
end

