-- ==== Sys2Proof/Laws/Access.lean ====
section
/-! SUPPORT. Reading a unit after a unit was written: the same one holds the new value, every other the old one. -/

namespace Sys2Proof.Machine

/-- Messages sent one after another join the log, newest first. -/
theorem Dev.emits_eq (d : Dev) (l : List Out) :
    d.emits l = { d with out := (l.filter fun o => d.jad.pwrOk || o.alwaysOn).reverse ++ d.out } := by
  induction l generalizing d with
  | nil => simp [Dev.emits]
  | cons o r ih =>
    rw [show d.emits (o :: r) = (d.emit o).emits r from rfl, ih]
    by_cases h : (d.jad.pwrOk || o.alwaysOn) = true <;> simp [Dev.emit, h]


@[simp] theorem Dev.fn_setFn_same (d : Dev) (f : Nat) (g : Fn → Fn) : (d.setFn f g).fn f = g (d.fn f) := Tab.look_upd_same ..
@[simp] theorem Dev.fn_setFn_ne (d : Dev) (f f' : Nat) (g : Fn → Fn) (h : f' ≠ f) : (d.setFn f g).fn f' = d.fn f' :=
  Tab.look_upd_ne _ _ _ _ _ h
@[simp] theorem Dev.fn_emit (d : Dev) (o : Out) (f : Nat) : (d.emit o).fn f = d.fn f := rfl
@[simp] theorem Dev.fn_emits (d : Dev) (o : List Out) (f : Nat) : (d.emits o).fn f = d.fn f := by rw [Dev.emits_eq]; rfl
@[simp] theorem Dev.ten_setTen_same (d : Dev) (t : Nat) (g : Tenant → Tenant) : (d.setTen t g).ten t = g (d.ten t) := Tab.look_upd_same ..
@[simp] theorem Dev.ten_setTen_ne (d : Dev) (t t' : Nat) (g : Tenant → Tenant) (h : t' ≠ t) : (d.setTen t g).ten t' = d.ten t' :=
  Tab.look_upd_ne _ _ _ _ _ h
@[simp] theorem Dev.ten_emit (d : Dev) (o : Out) (t : Nat) : (d.emit o).ten t = d.ten t := rfl
@[simp] theorem Dev.ten_emits (d : Dev) (o : List Out) (t : Nat) : (d.emits o).ten t = d.ten t := by rw [Dev.emits_eq]; rfl
@[simp] theorem Dev.queue_setQueue_same (d : Dev) (gq : Nat) (g : Queue → Queue) : (d.setQueue gq g).queue gq = g (d.queue gq) := Tab.look_upd_same ..
@[simp] theorem Dev.queue_setQueue_ne (d : Dev) (gq gq' : Nat) (g : Queue → Queue) (h : gq' ≠ gq) : (d.setQueue gq g).queue gq' = d.queue gq' :=
  Tab.look_upd_ne _ _ _ _ _ h
@[simp] theorem Dev.queue_emit (d : Dev) (o : Out) (gq : Nat) : (d.emit o).queue gq = d.queue gq := rfl
@[simp] theorem Dev.queue_emits (d : Dev) (o : List Out) (gq : Nat) : (d.emits o).queue gq = d.queue gq := by rw [Dev.emits_eq]; rfl
@[simp] theorem Dev.hport_setHport_same (d : Dev) (p : Nat) (g : HPort → HPort) : (d.setHport p g).hport p = g (d.hport p) := Tab.look_upd_same ..
@[simp] theorem Dev.hport_setHport_ne (d : Dev) (p p' : Nat) (g : HPort → HPort) (h : p' ≠ p) : (d.setHport p g).hport p' = d.hport p' :=
  Tab.look_upd_ne _ _ _ _ _ h
@[simp] theorem Dev.hport_emit (d : Dev) (o : Out) (p : Nat) : (d.emit o).hport p = d.hport p := rfl
@[simp] theorem Dev.hport_emits (d : Dev) (o : List Out) (p : Nat) : (d.emits o).hport p = d.hport p := by rw [Dev.emits_eq]; rfl
@[simp] theorem Dev.lport_setLport_same (d : Dev) (p : Nat) (g : LPort → LPort) : (d.setLport p g).lport p = g (d.lport p) := Tab.look_upd_same ..
@[simp] theorem Dev.lport_setLport_ne (d : Dev) (p p' : Nat) (g : LPort → LPort) (h : p' ≠ p) : (d.setLport p g).lport p' = d.lport p' :=
  Tab.look_upd_ne _ _ _ _ _ h
@[simp] theorem Dev.lport_emit (d : Dev) (o : Out) (p : Nat) : (d.emit o).lport p = d.lport p := rfl
@[simp] theorem Dev.lport_emits (d : Dev) (o : List Out) (p : Nat) : (d.emits o).lport p = d.lport p := by rw [Dev.emits_eq]; rfl
@[simp] theorem Dev.ring_setRing_same (d : Dev) (x : Nat) (f : Ring → Ring) : (d.setRing x f).ring x = f (d.ring x) := Tab.look_upd_same ..
@[simp] theorem Dev.ring_setRing_ne (d : Dev) (x x' : Nat) (f : Ring → Ring) (h : x' ≠ x) : (d.setRing x f).ring x' = d.ring x' :=
  Tab.look_upd_ne _ _ _ _ _ h
@[simp] theorem Dev.ring_emit (d : Dev) (o : Out) (x : Nat) : (d.emit o).ring x = d.ring x := rfl
@[simp] theorem Dev.ring_emits (d : Dev) (o : List Out) (x : Nat) : (d.emits o).ring x = d.ring x := by rw [Dev.emits_eq]; rfl
@[simp] theorem Dev.laser_setLaser_same (d : Dev) (j : Nat) (f : Laser → Laser) : (d.setLaser j f).laser j = f (d.laser j) := Tab.look_upd_same ..
@[simp] theorem Dev.laser_setLaser_ne (d : Dev) (j j' : Nat) (f : Laser → Laser) (h : j' ≠ j) : (d.setLaser j f).laser j' = d.laser j' :=
  Tab.look_upd_ne _ _ _ _ _ h
@[simp] theorem Dev.laser_emit (d : Dev) (o : Out) (j : Nat) : (d.emit o).laser j = d.laser j := rfl
@[simp] theorem Dev.laser_emits (d : Dev) (o : List Out) (j : Nat) : (d.emits o).laser j = d.laser j := by rw [Dev.emits_eq]; rfl
@[simp] theorem Dev.posn_setPosn_same (d : Dev) (i : Nat) (f : Pos → Pos) : (d.setPosn i f).posn i = f (d.posn i) := Tab.look_upd_same ..
@[simp] theorem Dev.posn_setPosn_ne (d : Dev) (i i' : Nat) (f : Pos → Pos) (h : i' ≠ i) : (d.setPosn i f).posn i' = d.posn i' :=
  Tab.look_upd_ne _ _ _ _ _ h
@[simp] theorem Dev.posn_emit (d : Dev) (o : Out) (i : Nat) : (d.emit o).posn i = d.posn i := rfl
@[simp] theorem Dev.posn_emits (d : Dev) (o : List Out) (i : Nat) : (d.emits o).posn i = d.posn i := by rw [Dev.emits_eq]; rfl
@[simp] theorem Dev.wport_setWport_same (d : Dev) (p : Nat) (f : WPort → WPort) : (d.setWport p f).wport p = f (d.wport p) := Tab.look_upd_same ..
@[simp] theorem Dev.wport_setWport_ne (d : Dev) (p p' : Nat) (f : WPort → WPort) (h : p' ≠ p) : (d.setWport p f).wport p' = d.wport p' :=
  Tab.look_upd_ne _ _ _ _ _ h
@[simp] theorem Dev.wport_emit (d : Dev) (o : Out) (p : Nat) : (d.emit o).wport p = d.wport p := rfl
@[simp] theorem Dev.wport_emits (d : Dev) (o : List Out) (p : Nat) : (d.emits o).wport p = d.wport p := by rw [Dev.emits_eq]; rfl
@[simp] theorem Dev.chan_setChan_same (d : Dev) (x : Nat) (f : Chan → Chan) : (d.setChan x f).chan x = f (d.chan x) := Tab.look_upd_same ..
@[simp] theorem Dev.chan_setChan_ne (d : Dev) (x x' : Nat) (f : Chan → Chan) (h : x' ≠ x) : (d.setChan x f).chan x' = d.chan x' :=
  Tab.look_upd_ne _ _ _ _ _ h
@[simp] theorem Dev.chan_emit (d : Dev) (o : Out) (x : Nat) : (d.emit o).chan x = d.chan x := rfl
@[simp] theorem Dev.chan_emits (d : Dev) (o : List Out) (x : Nat) : (d.emits o).chan x = d.chan x := by rw [Dev.emits_eq]; rfl
@[simp] theorem Dev.vten_setVten_same (d : Dev) (t : Nat) (f : VTen → VTen) : (d.setVten t f).vten t = f (d.vten t) := Tab.look_upd_same ..
@[simp] theorem Dev.vten_setVten_ne (d : Dev) (t t' : Nat) (f : VTen → VTen) (h : t' ≠ t) : (d.setVten t f).vten t' = d.vten t' :=
  Tab.look_upd_ne _ _ _ _ _ h
@[simp] theorem Dev.vten_emit (d : Dev) (o : Out) (t : Nat) : (d.emit o).vten t = d.vten t := rfl
@[simp] theorem Dev.vten_emits (d : Dev) (o : List Out) (t : Nat) : (d.emits o).vten t = d.vten t := by rw [Dev.emits_eq]; rfl
@[simp] theorem Dev.keyxOf_setKeyx_same (d : Dev) (p : Nat) (f : KeyX → KeyX) : (d.setKeyx p f).keyxOf p = f (d.keyxOf p) := Tab.look_upd_same ..
@[simp] theorem Dev.keyxOf_setKeyx_ne (d : Dev) (p p' : Nat) (f : KeyX → KeyX) (h : p' ≠ p) : (d.setKeyx p f).keyxOf p' = d.keyxOf p' :=
  Tab.look_upd_ne _ _ _ _ _ h
@[simp] theorem Dev.keyxOf_emit (d : Dev) (o : Out) (p : Nat) : (d.emit o).keyxOf p = d.keyxOf p := rfl
@[simp] theorem Dev.keyxOf_emits (d : Dev) (o : List Out) (p : Nat) : (d.emits o).keyxOf p = d.keyxOf p := by rw [Dev.emits_eq]; rfl
@[simp] theorem Dev.sensor_setSensor_same (d : Dev) (s : Nat) (f : Sensor → Sensor) : (d.setSensor s f).sensor s = f (d.sensor s) := Tab.look_upd_same ..
@[simp] theorem Dev.sensor_setSensor_ne (d : Dev) (s s' : Nat) (f : Sensor → Sensor) (h : s' ≠ s) : (d.setSensor s f).sensor s' = d.sensor s' :=
  Tab.look_upd_ne _ _ _ _ _ h
@[simp] theorem Dev.sensor_emit (d : Dev) (o : Out) (s : Nat) : (d.emit o).sensor s = d.sensor s := rfl
@[simp] theorem Dev.sensor_emits (d : Dev) (o : List Out) (s : Nat) : (d.emits o).sensor s = d.sensor s := by rw [Dev.emits_eq]; rfl
@[simp] theorem Dev.blk_setBlk_same (d : Dev) (i : Nat) (f : Blk → Blk) : (d.setBlk i f).blk i = f (d.blk i) := Tab.look_upd_same ..
@[simp] theorem Dev.blk_setBlk_ne (d : Dev) (i i' : Nat) (f : Blk → Blk) (h : i' ≠ i) : (d.setBlk i f).blk i' = d.blk i' :=
  Tab.look_upd_ne _ _ _ _ _ h
@[simp] theorem Dev.blk_emit (d : Dev) (o : Out) (i : Nat) : (d.emit o).blk i = d.blk i := rfl
@[simp] theorem Dev.blk_emits (d : Dev) (o : List Out) (i : Nat) : (d.emits o).blk i = d.blk i := by rw [Dev.emits_eq]; rfl
@[simp] theorem Dev.group_setGroup_same (d : Dev) (t g : Nat) (f : Group → Group) : (d.setGroup t g f).group t g = f (d.group t g) := Tab.look_upd_same ..
@[simp] theorem Dev.group_emit (d : Dev) (o : Out) (t g : Nat) : (d.emit o).group t g = d.group t g := rfl
@[simp] theorem Dev.group_emits (d : Dev) (o : List Out) (t g : Nat) : (d.emits o).group t g = d.group t g := by rw [Dev.emits_eq]; rfl
@[simp] theorem Dev.stream_setStream_same (d : Dev) (t s : Nat) (f : Stream → Stream) : (d.setStream t s f).stream t s = f (d.stream t s) := Tab.look_upd_same ..
@[simp] theorem Dev.stream_emit (d : Dev) (o : Out) (t s : Nat) : (d.emit o).stream t s = d.stream t s := rfl
@[simp] theorem Dev.stream_emits (d : Dev) (o : List Out) (t s : Nat) : (d.emits o).stream t s = d.stream t s := by rw [Dev.emits_eq]; rfl
@[simp] theorem Dev.clus_setClus_same (d : Dev) (p c : Nat) (f : Clus → Clus) : (d.setClus p c f).clus p c = f (d.clus p c) := by
  simp [Dev.clus, Dev.setClus]

/-- Of the Vault, a tenant's update changes that tenant alone. -/
@[simp] theorem Dev.setVten_vlt_st (d : Dev) (t : Nat) (f : VTen → VTen) : (d.setVten t f).vlt.st = d.vlt.st := rfl

end Sys2Proof.Machine
end

