-- ==== Sys2Proof/Laws/State.lean ====
section
/-! SUPPORT. The state: one lemma for each field and each named update, and what an updated unit reads as. -/

namespace Sys2Proof.Machine

/-! ### A state with its device replaced -/

@[simp] theorem State.withDev_dev (s : State) (d : Dev) : (s.withDev d).dev = d := rfl
@[simp] theorem State.withDev_mem (s : State) (d : Dev) : (s.withDev d).mem = s.mem := rfl
@[simp] theorem State.withDev_pending (s : State) (d : Dev) : (s.withDev d).pending = s.pending := rfl
@[simp] theorem State.withDev_withDev (s : State) (d e : Dev) : (s.withDev d).withDev e = s.withDev e := rfl

/-! ### setFn -/

@[simp] theorem Dev.setFn_jad (d : Dev) (f : Nat) (g : Fn → Fn) : (d.setFn f g).jad = d.jad := rfl
@[simp] theorem Dev.setFn_boot (d : Dev) (f : Nat) (g : Fn → Fn) : (d.setFn f g).boot = d.boot := rfl
@[simp] theorem Dev.setFn_flash (d : Dev) (f : Nat) (g : Fn → Fn) : (d.setFn f g).flash = d.flash := rfl
@[simp] theorem Dev.setFn_fuses (d : Dev) (f : Nat) (g : Fn → Fn) : (d.setFn f g).fuses = d.fuses := rfl
@[simp] theorem Dev.setFn_pwr (d : Dev) (f : Nat) (g : Fn → Fn) : (d.setFn f g).pwr = d.pwr := rfl
@[simp] theorem Dev.setFn_thm (d : Dev) (f : Nat) (g : Fn → Fn) : (d.setFn f g).thm = d.thm := rfl
@[simp] theorem Dev.setFn_flt (d : Dev) (f : Nat) (g : Fn → Fn) : (d.setFn f g).flt = d.flt := rfl
@[simp] theorem Dev.setFn_fct (d : Dev) (f : Nat) (g : Fn → Fn) : (d.setFn f g).fct = d.fct := rfl
@[simp] theorem Dev.setFn_tq (d : Dev) (f : Nat) (g : Fn → Fn) : (d.setFn f g).tq = d.tq := rfl
@[simp] theorem Dev.setFn_xlt (d : Dev) (f : Nat) (g : Fn → Fn) : (d.setFn f g).xlt = d.xlt := rfl
@[simp] theorem Dev.setFn_rm (d : Dev) (f : Nat) (g : Fn → Fn) : (d.setFn f g).rm = d.rm := rfl
@[simp] theorem Dev.setFn_col (d : Dev) (f : Nat) (g : Fn → Fn) : (d.setFn f g).col = d.col := rfl
@[simp] theorem Dev.setFn_fab (d : Dev) (f : Nat) (g : Fn → Fn) : (d.setFn f g).fab = d.fab := rfl
@[simp] theorem Dev.setFn_lnk (d : Dev) (f : Nat) (g : Fn → Fn) : (d.setFn f g).lnk = d.lnk := rfl
@[simp] theorem Dev.setFn_opt (d : Dev) (f : Nat) (g : Fn → Fn) : (d.setFn f g).opt = d.opt := rfl
@[simp] theorem Dev.setFn_las (d : Dev) (f : Nat) (g : Fn → Fn) : (d.setFn f g).las = d.las := rfl
@[simp] theorem Dev.setFn_cal (d : Dev) (f : Nat) (g : Fn → Fn) : (d.setFn f g).cal = d.cal := rfl
@[simp] theorem Dev.setFn_calNv (d : Dev) (f : Nat) (g : Fn → Fn) : (d.setFn f g).calNv = d.calNv := rfl
@[simp] theorem Dev.setFn_vlt (d : Dev) (f : Nat) (g : Fn → Fn) : (d.setFn f g).vlt = d.vlt := rfl
@[simp] theorem Dev.setFn_onyx (d : Dev) (f : Nat) (g : Fn → Fn) : (d.setFn f g).onyx = d.onyx := rfl
@[simp] theorem Dev.setFn_twn (d : Dev) (f : Nat) (g : Fn → Fn) : (d.setFn f g).twn = d.twn := rfl
@[simp] theorem Dev.setFn_twnPr (d : Dev) (f : Nat) (g : Fn → Fn) : (d.setFn f g).twnPr = d.twnPr := rfl
@[simp] theorem Dev.setFn_sec (d : Dev) (f : Nat) (g : Fn → Fn) : (d.setFn f g).sec = d.sec := rfl
@[simp] theorem Dev.setFn_secNv (d : Dev) (f : Nat) (g : Fn → Fn) : (d.setFn f g).secNv = d.secNv := rfl
@[simp] theorem Dev.setFn_dbg (d : Dev) (f : Nat) (g : Fn → Fn) : (d.setFn f g).dbg = d.dbg := rfl
@[simp] theorem Dev.setFn_out (d : Dev) (f : Nat) (g : Fn → Fn) : (d.setFn f g).out = d.out := rfl
@[simp] theorem Dev.setFn_free (d : Dev) (f : Nat) (g : Fn → Fn) : (d.setFn f g).free = d.free := rfl
@[simp] theorem Dev.setFn_now (d : Dev) (f : Nat) (g : Fn → Fn) : (d.setFn f g).now = d.now := rfl

/-! ### setTen -/

@[simp] theorem Dev.setTen_jad (d : Dev) (t : Nat) (g : Tenant → Tenant) : (d.setTen t g).jad = d.jad := rfl
@[simp] theorem Dev.setTen_boot (d : Dev) (t : Nat) (g : Tenant → Tenant) : (d.setTen t g).boot = d.boot := rfl
@[simp] theorem Dev.setTen_flash (d : Dev) (t : Nat) (g : Tenant → Tenant) : (d.setTen t g).flash = d.flash := rfl
@[simp] theorem Dev.setTen_fuses (d : Dev) (t : Nat) (g : Tenant → Tenant) : (d.setTen t g).fuses = d.fuses := rfl
@[simp] theorem Dev.setTen_pwr (d : Dev) (t : Nat) (g : Tenant → Tenant) : (d.setTen t g).pwr = d.pwr := rfl
@[simp] theorem Dev.setTen_thm (d : Dev) (t : Nat) (g : Tenant → Tenant) : (d.setTen t g).thm = d.thm := rfl
@[simp] theorem Dev.setTen_flt (d : Dev) (t : Nat) (g : Tenant → Tenant) : (d.setTen t g).flt = d.flt := rfl
@[simp] theorem Dev.setTen_fct (d : Dev) (t : Nat) (g : Tenant → Tenant) : (d.setTen t g).fct = d.fct := rfl
@[simp] theorem Dev.setTen_mbx (d : Dev) (t : Nat) (g : Tenant → Tenant) : (d.setTen t g).mbx = d.mbx := rfl
@[simp] theorem Dev.setTen_xlt (d : Dev) (t : Nat) (g : Tenant → Tenant) : (d.setTen t g).xlt = d.xlt := rfl
@[simp] theorem Dev.setTen_rm (d : Dev) (t : Nat) (g : Tenant → Tenant) : (d.setTen t g).rm = d.rm := rfl
@[simp] theorem Dev.setTen_col (d : Dev) (t : Nat) (g : Tenant → Tenant) : (d.setTen t g).col = d.col := rfl
@[simp] theorem Dev.setTen_fab (d : Dev) (t : Nat) (g : Tenant → Tenant) : (d.setTen t g).fab = d.fab := rfl
@[simp] theorem Dev.setTen_lnk (d : Dev) (t : Nat) (g : Tenant → Tenant) : (d.setTen t g).lnk = d.lnk := rfl
@[simp] theorem Dev.setTen_opt (d : Dev) (t : Nat) (g : Tenant → Tenant) : (d.setTen t g).opt = d.opt := rfl
@[simp] theorem Dev.setTen_las (d : Dev) (t : Nat) (g : Tenant → Tenant) : (d.setTen t g).las = d.las := rfl
@[simp] theorem Dev.setTen_cal (d : Dev) (t : Nat) (g : Tenant → Tenant) : (d.setTen t g).cal = d.cal := rfl
@[simp] theorem Dev.setTen_calNv (d : Dev) (t : Nat) (g : Tenant → Tenant) : (d.setTen t g).calNv = d.calNv := rfl
@[simp] theorem Dev.setTen_vlt (d : Dev) (t : Nat) (g : Tenant → Tenant) : (d.setTen t g).vlt = d.vlt := rfl
@[simp] theorem Dev.setTen_onyx (d : Dev) (t : Nat) (g : Tenant → Tenant) : (d.setTen t g).onyx = d.onyx := rfl
@[simp] theorem Dev.setTen_twn (d : Dev) (t : Nat) (g : Tenant → Tenant) : (d.setTen t g).twn = d.twn := rfl
@[simp] theorem Dev.setTen_twnPr (d : Dev) (t : Nat) (g : Tenant → Tenant) : (d.setTen t g).twnPr = d.twnPr := rfl
@[simp] theorem Dev.setTen_sec (d : Dev) (t : Nat) (g : Tenant → Tenant) : (d.setTen t g).sec = d.sec := rfl
@[simp] theorem Dev.setTen_secNv (d : Dev) (t : Nat) (g : Tenant → Tenant) : (d.setTen t g).secNv = d.secNv := rfl
@[simp] theorem Dev.setTen_dbg (d : Dev) (t : Nat) (g : Tenant → Tenant) : (d.setTen t g).dbg = d.dbg := rfl
@[simp] theorem Dev.setTen_out (d : Dev) (t : Nat) (g : Tenant → Tenant) : (d.setTen t g).out = d.out := rfl
@[simp] theorem Dev.setTen_free (d : Dev) (t : Nat) (g : Tenant → Tenant) : (d.setTen t g).free = d.free := rfl
@[simp] theorem Dev.setTen_now (d : Dev) (t : Nat) (g : Tenant → Tenant) : (d.setTen t g).now = d.now := rfl

/-! ### setQueue -/

@[simp] theorem Dev.setQueue_jad (d : Dev) (gq : Nat) (g : Queue → Queue) : (d.setQueue gq g).jad = d.jad := rfl
@[simp] theorem Dev.setQueue_boot (d : Dev) (gq : Nat) (g : Queue → Queue) : (d.setQueue gq g).boot = d.boot := rfl
@[simp] theorem Dev.setQueue_flash (d : Dev) (gq : Nat) (g : Queue → Queue) : (d.setQueue gq g).flash = d.flash := rfl
@[simp] theorem Dev.setQueue_fuses (d : Dev) (gq : Nat) (g : Queue → Queue) : (d.setQueue gq g).fuses = d.fuses := rfl
@[simp] theorem Dev.setQueue_pwr (d : Dev) (gq : Nat) (g : Queue → Queue) : (d.setQueue gq g).pwr = d.pwr := rfl
@[simp] theorem Dev.setQueue_thm (d : Dev) (gq : Nat) (g : Queue → Queue) : (d.setQueue gq g).thm = d.thm := rfl
@[simp] theorem Dev.setQueue_flt (d : Dev) (gq : Nat) (g : Queue → Queue) : (d.setQueue gq g).flt = d.flt := rfl
@[simp] theorem Dev.setQueue_fct (d : Dev) (gq : Nat) (g : Queue → Queue) : (d.setQueue gq g).fct = d.fct := rfl
@[simp] theorem Dev.setQueue_mbx (d : Dev) (gq : Nat) (g : Queue → Queue) : (d.setQueue gq g).mbx = d.mbx := rfl
@[simp] theorem Dev.setQueue_xlt (d : Dev) (gq : Nat) (g : Queue → Queue) : (d.setQueue gq g).xlt = d.xlt := rfl
@[simp] theorem Dev.setQueue_rm (d : Dev) (gq : Nat) (g : Queue → Queue) : (d.setQueue gq g).rm = d.rm := rfl
@[simp] theorem Dev.setQueue_col (d : Dev) (gq : Nat) (g : Queue → Queue) : (d.setQueue gq g).col = d.col := rfl
@[simp] theorem Dev.setQueue_fab (d : Dev) (gq : Nat) (g : Queue → Queue) : (d.setQueue gq g).fab = d.fab := rfl
@[simp] theorem Dev.setQueue_lnk (d : Dev) (gq : Nat) (g : Queue → Queue) : (d.setQueue gq g).lnk = d.lnk := rfl
@[simp] theorem Dev.setQueue_opt (d : Dev) (gq : Nat) (g : Queue → Queue) : (d.setQueue gq g).opt = d.opt := rfl
@[simp] theorem Dev.setQueue_las (d : Dev) (gq : Nat) (g : Queue → Queue) : (d.setQueue gq g).las = d.las := rfl
@[simp] theorem Dev.setQueue_cal (d : Dev) (gq : Nat) (g : Queue → Queue) : (d.setQueue gq g).cal = d.cal := rfl
@[simp] theorem Dev.setQueue_calNv (d : Dev) (gq : Nat) (g : Queue → Queue) : (d.setQueue gq g).calNv = d.calNv := rfl
@[simp] theorem Dev.setQueue_vlt (d : Dev) (gq : Nat) (g : Queue → Queue) : (d.setQueue gq g).vlt = d.vlt := rfl
@[simp] theorem Dev.setQueue_onyx (d : Dev) (gq : Nat) (g : Queue → Queue) : (d.setQueue gq g).onyx = d.onyx := rfl
@[simp] theorem Dev.setQueue_twn (d : Dev) (gq : Nat) (g : Queue → Queue) : (d.setQueue gq g).twn = d.twn := rfl
@[simp] theorem Dev.setQueue_twnPr (d : Dev) (gq : Nat) (g : Queue → Queue) : (d.setQueue gq g).twnPr = d.twnPr := rfl
@[simp] theorem Dev.setQueue_sec (d : Dev) (gq : Nat) (g : Queue → Queue) : (d.setQueue gq g).sec = d.sec := rfl
@[simp] theorem Dev.setQueue_secNv (d : Dev) (gq : Nat) (g : Queue → Queue) : (d.setQueue gq g).secNv = d.secNv := rfl
@[simp] theorem Dev.setQueue_dbg (d : Dev) (gq : Nat) (g : Queue → Queue) : (d.setQueue gq g).dbg = d.dbg := rfl
@[simp] theorem Dev.setQueue_out (d : Dev) (gq : Nat) (g : Queue → Queue) : (d.setQueue gq g).out = d.out := rfl
@[simp] theorem Dev.setQueue_free (d : Dev) (gq : Nat) (g : Queue → Queue) : (d.setQueue gq g).free = d.free := rfl
@[simp] theorem Dev.setQueue_now (d : Dev) (gq : Nat) (g : Queue → Queue) : (d.setQueue gq g).now = d.now := rfl

/-! ### setHport -/

@[simp] theorem Dev.setHport_jad (d : Dev) (p : Nat) (g : HPort → HPort) : (d.setHport p g).jad = d.jad := rfl
@[simp] theorem Dev.setHport_boot (d : Dev) (p : Nat) (g : HPort → HPort) : (d.setHport p g).boot = d.boot := rfl
@[simp] theorem Dev.setHport_flash (d : Dev) (p : Nat) (g : HPort → HPort) : (d.setHport p g).flash = d.flash := rfl
@[simp] theorem Dev.setHport_fuses (d : Dev) (p : Nat) (g : HPort → HPort) : (d.setHport p g).fuses = d.fuses := rfl
@[simp] theorem Dev.setHport_pwr (d : Dev) (p : Nat) (g : HPort → HPort) : (d.setHport p g).pwr = d.pwr := rfl
@[simp] theorem Dev.setHport_thm (d : Dev) (p : Nat) (g : HPort → HPort) : (d.setHport p g).thm = d.thm := rfl
@[simp] theorem Dev.setHport_flt (d : Dev) (p : Nat) (g : HPort → HPort) : (d.setHport p g).flt = d.flt := rfl
@[simp] theorem Dev.setHport_mbx (d : Dev) (p : Nat) (g : HPort → HPort) : (d.setHport p g).mbx = d.mbx := rfl
@[simp] theorem Dev.setHport_tq (d : Dev) (p : Nat) (g : HPort → HPort) : (d.setHport p g).tq = d.tq := rfl
@[simp] theorem Dev.setHport_xlt (d : Dev) (p : Nat) (g : HPort → HPort) : (d.setHport p g).xlt = d.xlt := rfl
@[simp] theorem Dev.setHport_rm (d : Dev) (p : Nat) (g : HPort → HPort) : (d.setHport p g).rm = d.rm := rfl
@[simp] theorem Dev.setHport_col (d : Dev) (p : Nat) (g : HPort → HPort) : (d.setHport p g).col = d.col := rfl
@[simp] theorem Dev.setHport_fab (d : Dev) (p : Nat) (g : HPort → HPort) : (d.setHport p g).fab = d.fab := rfl
@[simp] theorem Dev.setHport_lnk (d : Dev) (p : Nat) (g : HPort → HPort) : (d.setHport p g).lnk = d.lnk := rfl
@[simp] theorem Dev.setHport_opt (d : Dev) (p : Nat) (g : HPort → HPort) : (d.setHport p g).opt = d.opt := rfl
@[simp] theorem Dev.setHport_las (d : Dev) (p : Nat) (g : HPort → HPort) : (d.setHport p g).las = d.las := rfl
@[simp] theorem Dev.setHport_cal (d : Dev) (p : Nat) (g : HPort → HPort) : (d.setHport p g).cal = d.cal := rfl
@[simp] theorem Dev.setHport_calNv (d : Dev) (p : Nat) (g : HPort → HPort) : (d.setHport p g).calNv = d.calNv := rfl
@[simp] theorem Dev.setHport_vlt (d : Dev) (p : Nat) (g : HPort → HPort) : (d.setHport p g).vlt = d.vlt := rfl
@[simp] theorem Dev.setHport_onyx (d : Dev) (p : Nat) (g : HPort → HPort) : (d.setHport p g).onyx = d.onyx := rfl
@[simp] theorem Dev.setHport_twn (d : Dev) (p : Nat) (g : HPort → HPort) : (d.setHport p g).twn = d.twn := rfl
@[simp] theorem Dev.setHport_twnPr (d : Dev) (p : Nat) (g : HPort → HPort) : (d.setHport p g).twnPr = d.twnPr := rfl
@[simp] theorem Dev.setHport_sec (d : Dev) (p : Nat) (g : HPort → HPort) : (d.setHport p g).sec = d.sec := rfl
@[simp] theorem Dev.setHport_secNv (d : Dev) (p : Nat) (g : HPort → HPort) : (d.setHport p g).secNv = d.secNv := rfl
@[simp] theorem Dev.setHport_dbg (d : Dev) (p : Nat) (g : HPort → HPort) : (d.setHport p g).dbg = d.dbg := rfl
@[simp] theorem Dev.setHport_out (d : Dev) (p : Nat) (g : HPort → HPort) : (d.setHport p g).out = d.out := rfl
@[simp] theorem Dev.setHport_free (d : Dev) (p : Nat) (g : HPort → HPort) : (d.setHport p g).free = d.free := rfl
@[simp] theorem Dev.setHport_now (d : Dev) (p : Nat) (g : HPort → HPort) : (d.setHport p g).now = d.now := rfl

/-! ### setLport -/

@[simp] theorem Dev.setLport_jad (d : Dev) (p : Nat) (g : LPort → LPort) : (d.setLport p g).jad = d.jad := rfl
@[simp] theorem Dev.setLport_boot (d : Dev) (p : Nat) (g : LPort → LPort) : (d.setLport p g).boot = d.boot := rfl
@[simp] theorem Dev.setLport_flash (d : Dev) (p : Nat) (g : LPort → LPort) : (d.setLport p g).flash = d.flash := rfl
@[simp] theorem Dev.setLport_fuses (d : Dev) (p : Nat) (g : LPort → LPort) : (d.setLport p g).fuses = d.fuses := rfl
@[simp] theorem Dev.setLport_pwr (d : Dev) (p : Nat) (g : LPort → LPort) : (d.setLport p g).pwr = d.pwr := rfl
@[simp] theorem Dev.setLport_thm (d : Dev) (p : Nat) (g : LPort → LPort) : (d.setLport p g).thm = d.thm := rfl
@[simp] theorem Dev.setLport_flt (d : Dev) (p : Nat) (g : LPort → LPort) : (d.setLport p g).flt = d.flt := rfl
@[simp] theorem Dev.setLport_fct (d : Dev) (p : Nat) (g : LPort → LPort) : (d.setLport p g).fct = d.fct := rfl
@[simp] theorem Dev.setLport_mbx (d : Dev) (p : Nat) (g : LPort → LPort) : (d.setLport p g).mbx = d.mbx := rfl
@[simp] theorem Dev.setLport_tq (d : Dev) (p : Nat) (g : LPort → LPort) : (d.setLport p g).tq = d.tq := rfl
@[simp] theorem Dev.setLport_xlt (d : Dev) (p : Nat) (g : LPort → LPort) : (d.setLport p g).xlt = d.xlt := rfl
@[simp] theorem Dev.setLport_rm (d : Dev) (p : Nat) (g : LPort → LPort) : (d.setLport p g).rm = d.rm := rfl
@[simp] theorem Dev.setLport_col (d : Dev) (p : Nat) (g : LPort → LPort) : (d.setLport p g).col = d.col := rfl
@[simp] theorem Dev.setLport_fab (d : Dev) (p : Nat) (g : LPort → LPort) : (d.setLport p g).fab = d.fab := rfl
@[simp] theorem Dev.setLport_opt (d : Dev) (p : Nat) (g : LPort → LPort) : (d.setLport p g).opt = d.opt := rfl
@[simp] theorem Dev.setLport_las (d : Dev) (p : Nat) (g : LPort → LPort) : (d.setLport p g).las = d.las := rfl
@[simp] theorem Dev.setLport_cal (d : Dev) (p : Nat) (g : LPort → LPort) : (d.setLport p g).cal = d.cal := rfl
@[simp] theorem Dev.setLport_calNv (d : Dev) (p : Nat) (g : LPort → LPort) : (d.setLport p g).calNv = d.calNv := rfl
@[simp] theorem Dev.setLport_vlt (d : Dev) (p : Nat) (g : LPort → LPort) : (d.setLport p g).vlt = d.vlt := rfl
@[simp] theorem Dev.setLport_onyx (d : Dev) (p : Nat) (g : LPort → LPort) : (d.setLport p g).onyx = d.onyx := rfl
@[simp] theorem Dev.setLport_twn (d : Dev) (p : Nat) (g : LPort → LPort) : (d.setLport p g).twn = d.twn := rfl
@[simp] theorem Dev.setLport_twnPr (d : Dev) (p : Nat) (g : LPort → LPort) : (d.setLport p g).twnPr = d.twnPr := rfl
@[simp] theorem Dev.setLport_sec (d : Dev) (p : Nat) (g : LPort → LPort) : (d.setLport p g).sec = d.sec := rfl
@[simp] theorem Dev.setLport_secNv (d : Dev) (p : Nat) (g : LPort → LPort) : (d.setLport p g).secNv = d.secNv := rfl
@[simp] theorem Dev.setLport_dbg (d : Dev) (p : Nat) (g : LPort → LPort) : (d.setLport p g).dbg = d.dbg := rfl
@[simp] theorem Dev.setLport_out (d : Dev) (p : Nat) (g : LPort → LPort) : (d.setLport p g).out = d.out := rfl
@[simp] theorem Dev.setLport_free (d : Dev) (p : Nat) (g : LPort → LPort) : (d.setLport p g).free = d.free := rfl
@[simp] theorem Dev.setLport_now (d : Dev) (p : Nat) (g : LPort → LPort) : (d.setLport p g).now = d.now := rfl

/-! ### setRing -/

@[simp] theorem Dev.setRing_jad (d : Dev) (x : Nat) (g : Ring → Ring) : (d.setRing x g).jad = d.jad := rfl
@[simp] theorem Dev.setRing_boot (d : Dev) (x : Nat) (g : Ring → Ring) : (d.setRing x g).boot = d.boot := rfl
@[simp] theorem Dev.setRing_flash (d : Dev) (x : Nat) (g : Ring → Ring) : (d.setRing x g).flash = d.flash := rfl
@[simp] theorem Dev.setRing_fuses (d : Dev) (x : Nat) (g : Ring → Ring) : (d.setRing x g).fuses = d.fuses := rfl
@[simp] theorem Dev.setRing_pwr (d : Dev) (x : Nat) (g : Ring → Ring) : (d.setRing x g).pwr = d.pwr := rfl
@[simp] theorem Dev.setRing_thm (d : Dev) (x : Nat) (g : Ring → Ring) : (d.setRing x g).thm = d.thm := rfl
@[simp] theorem Dev.setRing_flt (d : Dev) (x : Nat) (g : Ring → Ring) : (d.setRing x g).flt = d.flt := rfl
@[simp] theorem Dev.setRing_fct (d : Dev) (x : Nat) (g : Ring → Ring) : (d.setRing x g).fct = d.fct := rfl
@[simp] theorem Dev.setRing_mbx (d : Dev) (x : Nat) (g : Ring → Ring) : (d.setRing x g).mbx = d.mbx := rfl
@[simp] theorem Dev.setRing_tq (d : Dev) (x : Nat) (g : Ring → Ring) : (d.setRing x g).tq = d.tq := rfl
@[simp] theorem Dev.setRing_xlt (d : Dev) (x : Nat) (g : Ring → Ring) : (d.setRing x g).xlt = d.xlt := rfl
@[simp] theorem Dev.setRing_rm (d : Dev) (x : Nat) (g : Ring → Ring) : (d.setRing x g).rm = d.rm := rfl
@[simp] theorem Dev.setRing_col (d : Dev) (x : Nat) (g : Ring → Ring) : (d.setRing x g).col = d.col := rfl
@[simp] theorem Dev.setRing_fab (d : Dev) (x : Nat) (g : Ring → Ring) : (d.setRing x g).fab = d.fab := rfl
@[simp] theorem Dev.setRing_lnk (d : Dev) (x : Nat) (g : Ring → Ring) : (d.setRing x g).lnk = d.lnk := rfl
@[simp] theorem Dev.setRing_las (d : Dev) (x : Nat) (g : Ring → Ring) : (d.setRing x g).las = d.las := rfl
@[simp] theorem Dev.setRing_cal (d : Dev) (x : Nat) (g : Ring → Ring) : (d.setRing x g).cal = d.cal := rfl
@[simp] theorem Dev.setRing_calNv (d : Dev) (x : Nat) (g : Ring → Ring) : (d.setRing x g).calNv = d.calNv := rfl
@[simp] theorem Dev.setRing_vlt (d : Dev) (x : Nat) (g : Ring → Ring) : (d.setRing x g).vlt = d.vlt := rfl
@[simp] theorem Dev.setRing_onyx (d : Dev) (x : Nat) (g : Ring → Ring) : (d.setRing x g).onyx = d.onyx := rfl
@[simp] theorem Dev.setRing_twn (d : Dev) (x : Nat) (g : Ring → Ring) : (d.setRing x g).twn = d.twn := rfl
@[simp] theorem Dev.setRing_twnPr (d : Dev) (x : Nat) (g : Ring → Ring) : (d.setRing x g).twnPr = d.twnPr := rfl
@[simp] theorem Dev.setRing_sec (d : Dev) (x : Nat) (g : Ring → Ring) : (d.setRing x g).sec = d.sec := rfl
@[simp] theorem Dev.setRing_secNv (d : Dev) (x : Nat) (g : Ring → Ring) : (d.setRing x g).secNv = d.secNv := rfl
@[simp] theorem Dev.setRing_dbg (d : Dev) (x : Nat) (g : Ring → Ring) : (d.setRing x g).dbg = d.dbg := rfl
@[simp] theorem Dev.setRing_out (d : Dev) (x : Nat) (g : Ring → Ring) : (d.setRing x g).out = d.out := rfl
@[simp] theorem Dev.setRing_free (d : Dev) (x : Nat) (g : Ring → Ring) : (d.setRing x g).free = d.free := rfl
@[simp] theorem Dev.setRing_now (d : Dev) (x : Nat) (g : Ring → Ring) : (d.setRing x g).now = d.now := rfl

/-! ### setChan -/

@[simp] theorem Dev.setChan_jad (d : Dev) (x : Nat) (g : Chan → Chan) : (d.setChan x g).jad = d.jad := rfl
@[simp] theorem Dev.setChan_boot (d : Dev) (x : Nat) (g : Chan → Chan) : (d.setChan x g).boot = d.boot := rfl
@[simp] theorem Dev.setChan_flash (d : Dev) (x : Nat) (g : Chan → Chan) : (d.setChan x g).flash = d.flash := rfl
@[simp] theorem Dev.setChan_fuses (d : Dev) (x : Nat) (g : Chan → Chan) : (d.setChan x g).fuses = d.fuses := rfl
@[simp] theorem Dev.setChan_pwr (d : Dev) (x : Nat) (g : Chan → Chan) : (d.setChan x g).pwr = d.pwr := rfl
@[simp] theorem Dev.setChan_thm (d : Dev) (x : Nat) (g : Chan → Chan) : (d.setChan x g).thm = d.thm := rfl
@[simp] theorem Dev.setChan_flt (d : Dev) (x : Nat) (g : Chan → Chan) : (d.setChan x g).flt = d.flt := rfl
@[simp] theorem Dev.setChan_fct (d : Dev) (x : Nat) (g : Chan → Chan) : (d.setChan x g).fct = d.fct := rfl
@[simp] theorem Dev.setChan_mbx (d : Dev) (x : Nat) (g : Chan → Chan) : (d.setChan x g).mbx = d.mbx := rfl
@[simp] theorem Dev.setChan_tq (d : Dev) (x : Nat) (g : Chan → Chan) : (d.setChan x g).tq = d.tq := rfl
@[simp] theorem Dev.setChan_xlt (d : Dev) (x : Nat) (g : Chan → Chan) : (d.setChan x g).xlt = d.xlt := rfl
@[simp] theorem Dev.setChan_rm (d : Dev) (x : Nat) (g : Chan → Chan) : (d.setChan x g).rm = d.rm := rfl
@[simp] theorem Dev.setChan_col (d : Dev) (x : Nat) (g : Chan → Chan) : (d.setChan x g).col = d.col := rfl
@[simp] theorem Dev.setChan_fab (d : Dev) (x : Nat) (g : Chan → Chan) : (d.setChan x g).fab = d.fab := rfl
@[simp] theorem Dev.setChan_lnk (d : Dev) (x : Nat) (g : Chan → Chan) : (d.setChan x g).lnk = d.lnk := rfl
@[simp] theorem Dev.setChan_opt (d : Dev) (x : Nat) (g : Chan → Chan) : (d.setChan x g).opt = d.opt := rfl
@[simp] theorem Dev.setChan_las (d : Dev) (x : Nat) (g : Chan → Chan) : (d.setChan x g).las = d.las := rfl
@[simp] theorem Dev.setChan_calNv (d : Dev) (x : Nat) (g : Chan → Chan) : (d.setChan x g).calNv = d.calNv := rfl
@[simp] theorem Dev.setChan_vlt (d : Dev) (x : Nat) (g : Chan → Chan) : (d.setChan x g).vlt = d.vlt := rfl
@[simp] theorem Dev.setChan_onyx (d : Dev) (x : Nat) (g : Chan → Chan) : (d.setChan x g).onyx = d.onyx := rfl
@[simp] theorem Dev.setChan_twn (d : Dev) (x : Nat) (g : Chan → Chan) : (d.setChan x g).twn = d.twn := rfl
@[simp] theorem Dev.setChan_twnPr (d : Dev) (x : Nat) (g : Chan → Chan) : (d.setChan x g).twnPr = d.twnPr := rfl
@[simp] theorem Dev.setChan_sec (d : Dev) (x : Nat) (g : Chan → Chan) : (d.setChan x g).sec = d.sec := rfl
@[simp] theorem Dev.setChan_secNv (d : Dev) (x : Nat) (g : Chan → Chan) : (d.setChan x g).secNv = d.secNv := rfl
@[simp] theorem Dev.setChan_dbg (d : Dev) (x : Nat) (g : Chan → Chan) : (d.setChan x g).dbg = d.dbg := rfl
@[simp] theorem Dev.setChan_out (d : Dev) (x : Nat) (g : Chan → Chan) : (d.setChan x g).out = d.out := rfl
@[simp] theorem Dev.setChan_free (d : Dev) (x : Nat) (g : Chan → Chan) : (d.setChan x g).free = d.free := rfl
@[simp] theorem Dev.setChan_now (d : Dev) (x : Nat) (g : Chan → Chan) : (d.setChan x g).now = d.now := rfl

/-! ### setLaser -/

@[simp] theorem Dev.setLaser_jad (d : Dev) (j : Nat) (g : Laser → Laser) : (d.setLaser j g).jad = d.jad := rfl
@[simp] theorem Dev.setLaser_boot (d : Dev) (j : Nat) (g : Laser → Laser) : (d.setLaser j g).boot = d.boot := rfl
@[simp] theorem Dev.setLaser_flash (d : Dev) (j : Nat) (g : Laser → Laser) : (d.setLaser j g).flash = d.flash := rfl
@[simp] theorem Dev.setLaser_fuses (d : Dev) (j : Nat) (g : Laser → Laser) : (d.setLaser j g).fuses = d.fuses := rfl
@[simp] theorem Dev.setLaser_pwr (d : Dev) (j : Nat) (g : Laser → Laser) : (d.setLaser j g).pwr = d.pwr := rfl
@[simp] theorem Dev.setLaser_thm (d : Dev) (j : Nat) (g : Laser → Laser) : (d.setLaser j g).thm = d.thm := rfl
@[simp] theorem Dev.setLaser_flt (d : Dev) (j : Nat) (g : Laser → Laser) : (d.setLaser j g).flt = d.flt := rfl
@[simp] theorem Dev.setLaser_fct (d : Dev) (j : Nat) (g : Laser → Laser) : (d.setLaser j g).fct = d.fct := rfl
@[simp] theorem Dev.setLaser_mbx (d : Dev) (j : Nat) (g : Laser → Laser) : (d.setLaser j g).mbx = d.mbx := rfl
@[simp] theorem Dev.setLaser_tq (d : Dev) (j : Nat) (g : Laser → Laser) : (d.setLaser j g).tq = d.tq := rfl
@[simp] theorem Dev.setLaser_xlt (d : Dev) (j : Nat) (g : Laser → Laser) : (d.setLaser j g).xlt = d.xlt := rfl
@[simp] theorem Dev.setLaser_rm (d : Dev) (j : Nat) (g : Laser → Laser) : (d.setLaser j g).rm = d.rm := rfl
@[simp] theorem Dev.setLaser_col (d : Dev) (j : Nat) (g : Laser → Laser) : (d.setLaser j g).col = d.col := rfl
@[simp] theorem Dev.setLaser_fab (d : Dev) (j : Nat) (g : Laser → Laser) : (d.setLaser j g).fab = d.fab := rfl
@[simp] theorem Dev.setLaser_lnk (d : Dev) (j : Nat) (g : Laser → Laser) : (d.setLaser j g).lnk = d.lnk := rfl
@[simp] theorem Dev.setLaser_opt (d : Dev) (j : Nat) (g : Laser → Laser) : (d.setLaser j g).opt = d.opt := rfl
@[simp] theorem Dev.setLaser_cal (d : Dev) (j : Nat) (g : Laser → Laser) : (d.setLaser j g).cal = d.cal := rfl
@[simp] theorem Dev.setLaser_calNv (d : Dev) (j : Nat) (g : Laser → Laser) : (d.setLaser j g).calNv = d.calNv := rfl
@[simp] theorem Dev.setLaser_vlt (d : Dev) (j : Nat) (g : Laser → Laser) : (d.setLaser j g).vlt = d.vlt := rfl
@[simp] theorem Dev.setLaser_onyx (d : Dev) (j : Nat) (g : Laser → Laser) : (d.setLaser j g).onyx = d.onyx := rfl
@[simp] theorem Dev.setLaser_twn (d : Dev) (j : Nat) (g : Laser → Laser) : (d.setLaser j g).twn = d.twn := rfl
@[simp] theorem Dev.setLaser_twnPr (d : Dev) (j : Nat) (g : Laser → Laser) : (d.setLaser j g).twnPr = d.twnPr := rfl
@[simp] theorem Dev.setLaser_sec (d : Dev) (j : Nat) (g : Laser → Laser) : (d.setLaser j g).sec = d.sec := rfl
@[simp] theorem Dev.setLaser_secNv (d : Dev) (j : Nat) (g : Laser → Laser) : (d.setLaser j g).secNv = d.secNv := rfl
@[simp] theorem Dev.setLaser_dbg (d : Dev) (j : Nat) (g : Laser → Laser) : (d.setLaser j g).dbg = d.dbg := rfl
@[simp] theorem Dev.setLaser_out (d : Dev) (j : Nat) (g : Laser → Laser) : (d.setLaser j g).out = d.out := rfl
@[simp] theorem Dev.setLaser_free (d : Dev) (j : Nat) (g : Laser → Laser) : (d.setLaser j g).free = d.free := rfl
@[simp] theorem Dev.setLaser_now (d : Dev) (j : Nat) (g : Laser → Laser) : (d.setLaser j g).now = d.now := rfl

/-! ### setPosn -/

@[simp] theorem Dev.setPosn_jad (d : Dev) (i : Nat) (g : Pos → Pos) : (d.setPosn i g).jad = d.jad := rfl
@[simp] theorem Dev.setPosn_boot (d : Dev) (i : Nat) (g : Pos → Pos) : (d.setPosn i g).boot = d.boot := rfl
@[simp] theorem Dev.setPosn_flash (d : Dev) (i : Nat) (g : Pos → Pos) : (d.setPosn i g).flash = d.flash := rfl
@[simp] theorem Dev.setPosn_fuses (d : Dev) (i : Nat) (g : Pos → Pos) : (d.setPosn i g).fuses = d.fuses := rfl
@[simp] theorem Dev.setPosn_pwr (d : Dev) (i : Nat) (g : Pos → Pos) : (d.setPosn i g).pwr = d.pwr := rfl
@[simp] theorem Dev.setPosn_thm (d : Dev) (i : Nat) (g : Pos → Pos) : (d.setPosn i g).thm = d.thm := rfl
@[simp] theorem Dev.setPosn_flt (d : Dev) (i : Nat) (g : Pos → Pos) : (d.setPosn i g).flt = d.flt := rfl
@[simp] theorem Dev.setPosn_fct (d : Dev) (i : Nat) (g : Pos → Pos) : (d.setPosn i g).fct = d.fct := rfl
@[simp] theorem Dev.setPosn_mbx (d : Dev) (i : Nat) (g : Pos → Pos) : (d.setPosn i g).mbx = d.mbx := rfl
@[simp] theorem Dev.setPosn_tq (d : Dev) (i : Nat) (g : Pos → Pos) : (d.setPosn i g).tq = d.tq := rfl
@[simp] theorem Dev.setPosn_xlt (d : Dev) (i : Nat) (g : Pos → Pos) : (d.setPosn i g).xlt = d.xlt := rfl
@[simp] theorem Dev.setPosn_rm (d : Dev) (i : Nat) (g : Pos → Pos) : (d.setPosn i g).rm = d.rm := rfl
@[simp] theorem Dev.setPosn_col (d : Dev) (i : Nat) (g : Pos → Pos) : (d.setPosn i g).col = d.col := rfl
@[simp] theorem Dev.setPosn_fab (d : Dev) (i : Nat) (g : Pos → Pos) : (d.setPosn i g).fab = d.fab := rfl
@[simp] theorem Dev.setPosn_lnk (d : Dev) (i : Nat) (g : Pos → Pos) : (d.setPosn i g).lnk = d.lnk := rfl
@[simp] theorem Dev.setPosn_opt (d : Dev) (i : Nat) (g : Pos → Pos) : (d.setPosn i g).opt = d.opt := rfl
@[simp] theorem Dev.setPosn_cal (d : Dev) (i : Nat) (g : Pos → Pos) : (d.setPosn i g).cal = d.cal := rfl
@[simp] theorem Dev.setPosn_calNv (d : Dev) (i : Nat) (g : Pos → Pos) : (d.setPosn i g).calNv = d.calNv := rfl
@[simp] theorem Dev.setPosn_vlt (d : Dev) (i : Nat) (g : Pos → Pos) : (d.setPosn i g).vlt = d.vlt := rfl
@[simp] theorem Dev.setPosn_onyx (d : Dev) (i : Nat) (g : Pos → Pos) : (d.setPosn i g).onyx = d.onyx := rfl
@[simp] theorem Dev.setPosn_twn (d : Dev) (i : Nat) (g : Pos → Pos) : (d.setPosn i g).twn = d.twn := rfl
@[simp] theorem Dev.setPosn_twnPr (d : Dev) (i : Nat) (g : Pos → Pos) : (d.setPosn i g).twnPr = d.twnPr := rfl
@[simp] theorem Dev.setPosn_sec (d : Dev) (i : Nat) (g : Pos → Pos) : (d.setPosn i g).sec = d.sec := rfl
@[simp] theorem Dev.setPosn_secNv (d : Dev) (i : Nat) (g : Pos → Pos) : (d.setPosn i g).secNv = d.secNv := rfl
@[simp] theorem Dev.setPosn_dbg (d : Dev) (i : Nat) (g : Pos → Pos) : (d.setPosn i g).dbg = d.dbg := rfl
@[simp] theorem Dev.setPosn_out (d : Dev) (i : Nat) (g : Pos → Pos) : (d.setPosn i g).out = d.out := rfl
@[simp] theorem Dev.setPosn_free (d : Dev) (i : Nat) (g : Pos → Pos) : (d.setPosn i g).free = d.free := rfl
@[simp] theorem Dev.setPosn_now (d : Dev) (i : Nat) (g : Pos → Pos) : (d.setPosn i g).now = d.now := rfl

/-! ### setWport -/

@[simp] theorem Dev.setWport_jad (d : Dev) (p : Nat) (g : WPort → WPort) : (d.setWport p g).jad = d.jad := rfl
@[simp] theorem Dev.setWport_boot (d : Dev) (p : Nat) (g : WPort → WPort) : (d.setWport p g).boot = d.boot := rfl
@[simp] theorem Dev.setWport_flash (d : Dev) (p : Nat) (g : WPort → WPort) : (d.setWport p g).flash = d.flash := rfl
@[simp] theorem Dev.setWport_fuses (d : Dev) (p : Nat) (g : WPort → WPort) : (d.setWport p g).fuses = d.fuses := rfl
@[simp] theorem Dev.setWport_pwr (d : Dev) (p : Nat) (g : WPort → WPort) : (d.setWport p g).pwr = d.pwr := rfl
@[simp] theorem Dev.setWport_thm (d : Dev) (p : Nat) (g : WPort → WPort) : (d.setWport p g).thm = d.thm := rfl
@[simp] theorem Dev.setWport_flt (d : Dev) (p : Nat) (g : WPort → WPort) : (d.setWport p g).flt = d.flt := rfl
@[simp] theorem Dev.setWport_fct (d : Dev) (p : Nat) (g : WPort → WPort) : (d.setWport p g).fct = d.fct := rfl
@[simp] theorem Dev.setWport_mbx (d : Dev) (p : Nat) (g : WPort → WPort) : (d.setWport p g).mbx = d.mbx := rfl
@[simp] theorem Dev.setWport_tq (d : Dev) (p : Nat) (g : WPort → WPort) : (d.setWport p g).tq = d.tq := rfl
@[simp] theorem Dev.setWport_xlt (d : Dev) (p : Nat) (g : WPort → WPort) : (d.setWport p g).xlt = d.xlt := rfl
@[simp] theorem Dev.setWport_rm (d : Dev) (p : Nat) (g : WPort → WPort) : (d.setWport p g).rm = d.rm := rfl
@[simp] theorem Dev.setWport_col (d : Dev) (p : Nat) (g : WPort → WPort) : (d.setWport p g).col = d.col := rfl
@[simp] theorem Dev.setWport_fab (d : Dev) (p : Nat) (g : WPort → WPort) : (d.setWport p g).fab = d.fab := rfl
@[simp] theorem Dev.setWport_lnk (d : Dev) (p : Nat) (g : WPort → WPort) : (d.setWport p g).lnk = d.lnk := rfl
@[simp] theorem Dev.setWport_opt (d : Dev) (p : Nat) (g : WPort → WPort) : (d.setWport p g).opt = d.opt := rfl
@[simp] theorem Dev.setWport_cal (d : Dev) (p : Nat) (g : WPort → WPort) : (d.setWport p g).cal = d.cal := rfl
@[simp] theorem Dev.setWport_calNv (d : Dev) (p : Nat) (g : WPort → WPort) : (d.setWport p g).calNv = d.calNv := rfl
@[simp] theorem Dev.setWport_vlt (d : Dev) (p : Nat) (g : WPort → WPort) : (d.setWport p g).vlt = d.vlt := rfl
@[simp] theorem Dev.setWport_onyx (d : Dev) (p : Nat) (g : WPort → WPort) : (d.setWport p g).onyx = d.onyx := rfl
@[simp] theorem Dev.setWport_twn (d : Dev) (p : Nat) (g : WPort → WPort) : (d.setWport p g).twn = d.twn := rfl
@[simp] theorem Dev.setWport_twnPr (d : Dev) (p : Nat) (g : WPort → WPort) : (d.setWport p g).twnPr = d.twnPr := rfl
@[simp] theorem Dev.setWport_sec (d : Dev) (p : Nat) (g : WPort → WPort) : (d.setWport p g).sec = d.sec := rfl
@[simp] theorem Dev.setWport_secNv (d : Dev) (p : Nat) (g : WPort → WPort) : (d.setWport p g).secNv = d.secNv := rfl
@[simp] theorem Dev.setWport_dbg (d : Dev) (p : Nat) (g : WPort → WPort) : (d.setWport p g).dbg = d.dbg := rfl
@[simp] theorem Dev.setWport_out (d : Dev) (p : Nat) (g : WPort → WPort) : (d.setWport p g).out = d.out := rfl
@[simp] theorem Dev.setWport_free (d : Dev) (p : Nat) (g : WPort → WPort) : (d.setWport p g).free = d.free := rfl
@[simp] theorem Dev.setWport_now (d : Dev) (p : Nat) (g : WPort → WPort) : (d.setWport p g).now = d.now := rfl

/-! ### setVten -/

@[simp] theorem Dev.setVten_jad (d : Dev) (t : Nat) (g : VTen → VTen) : (d.setVten t g).jad = d.jad := rfl
@[simp] theorem Dev.setVten_boot (d : Dev) (t : Nat) (g : VTen → VTen) : (d.setVten t g).boot = d.boot := rfl
@[simp] theorem Dev.setVten_flash (d : Dev) (t : Nat) (g : VTen → VTen) : (d.setVten t g).flash = d.flash := rfl
@[simp] theorem Dev.setVten_fuses (d : Dev) (t : Nat) (g : VTen → VTen) : (d.setVten t g).fuses = d.fuses := rfl
@[simp] theorem Dev.setVten_pwr (d : Dev) (t : Nat) (g : VTen → VTen) : (d.setVten t g).pwr = d.pwr := rfl
@[simp] theorem Dev.setVten_thm (d : Dev) (t : Nat) (g : VTen → VTen) : (d.setVten t g).thm = d.thm := rfl
@[simp] theorem Dev.setVten_flt (d : Dev) (t : Nat) (g : VTen → VTen) : (d.setVten t g).flt = d.flt := rfl
@[simp] theorem Dev.setVten_fct (d : Dev) (t : Nat) (g : VTen → VTen) : (d.setVten t g).fct = d.fct := rfl
@[simp] theorem Dev.setVten_mbx (d : Dev) (t : Nat) (g : VTen → VTen) : (d.setVten t g).mbx = d.mbx := rfl
@[simp] theorem Dev.setVten_tq (d : Dev) (t : Nat) (g : VTen → VTen) : (d.setVten t g).tq = d.tq := rfl
@[simp] theorem Dev.setVten_xlt (d : Dev) (t : Nat) (g : VTen → VTen) : (d.setVten t g).xlt = d.xlt := rfl
@[simp] theorem Dev.setVten_rm (d : Dev) (t : Nat) (g : VTen → VTen) : (d.setVten t g).rm = d.rm := rfl
@[simp] theorem Dev.setVten_col (d : Dev) (t : Nat) (g : VTen → VTen) : (d.setVten t g).col = d.col := rfl
@[simp] theorem Dev.setVten_fab (d : Dev) (t : Nat) (g : VTen → VTen) : (d.setVten t g).fab = d.fab := rfl
@[simp] theorem Dev.setVten_lnk (d : Dev) (t : Nat) (g : VTen → VTen) : (d.setVten t g).lnk = d.lnk := rfl
@[simp] theorem Dev.setVten_opt (d : Dev) (t : Nat) (g : VTen → VTen) : (d.setVten t g).opt = d.opt := rfl
@[simp] theorem Dev.setVten_las (d : Dev) (t : Nat) (g : VTen → VTen) : (d.setVten t g).las = d.las := rfl
@[simp] theorem Dev.setVten_cal (d : Dev) (t : Nat) (g : VTen → VTen) : (d.setVten t g).cal = d.cal := rfl
@[simp] theorem Dev.setVten_calNv (d : Dev) (t : Nat) (g : VTen → VTen) : (d.setVten t g).calNv = d.calNv := rfl
@[simp] theorem Dev.setVten_onyx (d : Dev) (t : Nat) (g : VTen → VTen) : (d.setVten t g).onyx = d.onyx := rfl
@[simp] theorem Dev.setVten_twn (d : Dev) (t : Nat) (g : VTen → VTen) : (d.setVten t g).twn = d.twn := rfl
@[simp] theorem Dev.setVten_twnPr (d : Dev) (t : Nat) (g : VTen → VTen) : (d.setVten t g).twnPr = d.twnPr := rfl
@[simp] theorem Dev.setVten_sec (d : Dev) (t : Nat) (g : VTen → VTen) : (d.setVten t g).sec = d.sec := rfl
@[simp] theorem Dev.setVten_secNv (d : Dev) (t : Nat) (g : VTen → VTen) : (d.setVten t g).secNv = d.secNv := rfl
@[simp] theorem Dev.setVten_dbg (d : Dev) (t : Nat) (g : VTen → VTen) : (d.setVten t g).dbg = d.dbg := rfl
@[simp] theorem Dev.setVten_out (d : Dev) (t : Nat) (g : VTen → VTen) : (d.setVten t g).out = d.out := rfl
@[simp] theorem Dev.setVten_free (d : Dev) (t : Nat) (g : VTen → VTen) : (d.setVten t g).free = d.free := rfl
@[simp] theorem Dev.setVten_now (d : Dev) (t : Nat) (g : VTen → VTen) : (d.setVten t g).now = d.now := rfl

/-! ### setBlk -/

@[simp] theorem Dev.setBlk_jad (d : Dev) (i : Nat) (g : Blk → Blk) : (d.setBlk i g).jad = d.jad := rfl
@[simp] theorem Dev.setBlk_boot (d : Dev) (i : Nat) (g : Blk → Blk) : (d.setBlk i g).boot = d.boot := rfl
@[simp] theorem Dev.setBlk_flash (d : Dev) (i : Nat) (g : Blk → Blk) : (d.setBlk i g).flash = d.flash := rfl
@[simp] theorem Dev.setBlk_fuses (d : Dev) (i : Nat) (g : Blk → Blk) : (d.setBlk i g).fuses = d.fuses := rfl
@[simp] theorem Dev.setBlk_pwr (d : Dev) (i : Nat) (g : Blk → Blk) : (d.setBlk i g).pwr = d.pwr := rfl
@[simp] theorem Dev.setBlk_thm (d : Dev) (i : Nat) (g : Blk → Blk) : (d.setBlk i g).thm = d.thm := rfl
@[simp] theorem Dev.setBlk_flt (d : Dev) (i : Nat) (g : Blk → Blk) : (d.setBlk i g).flt = d.flt := rfl
@[simp] theorem Dev.setBlk_fct (d : Dev) (i : Nat) (g : Blk → Blk) : (d.setBlk i g).fct = d.fct := rfl
@[simp] theorem Dev.setBlk_mbx (d : Dev) (i : Nat) (g : Blk → Blk) : (d.setBlk i g).mbx = d.mbx := rfl
@[simp] theorem Dev.setBlk_tq (d : Dev) (i : Nat) (g : Blk → Blk) : (d.setBlk i g).tq = d.tq := rfl
@[simp] theorem Dev.setBlk_xlt (d : Dev) (i : Nat) (g : Blk → Blk) : (d.setBlk i g).xlt = d.xlt := rfl
@[simp] theorem Dev.setBlk_rm (d : Dev) (i : Nat) (g : Blk → Blk) : (d.setBlk i g).rm = d.rm := rfl
@[simp] theorem Dev.setBlk_col (d : Dev) (i : Nat) (g : Blk → Blk) : (d.setBlk i g).col = d.col := rfl
@[simp] theorem Dev.setBlk_fab (d : Dev) (i : Nat) (g : Blk → Blk) : (d.setBlk i g).fab = d.fab := rfl
@[simp] theorem Dev.setBlk_lnk (d : Dev) (i : Nat) (g : Blk → Blk) : (d.setBlk i g).lnk = d.lnk := rfl
@[simp] theorem Dev.setBlk_opt (d : Dev) (i : Nat) (g : Blk → Blk) : (d.setBlk i g).opt = d.opt := rfl
@[simp] theorem Dev.setBlk_las (d : Dev) (i : Nat) (g : Blk → Blk) : (d.setBlk i g).las = d.las := rfl
@[simp] theorem Dev.setBlk_cal (d : Dev) (i : Nat) (g : Blk → Blk) : (d.setBlk i g).cal = d.cal := rfl
@[simp] theorem Dev.setBlk_calNv (d : Dev) (i : Nat) (g : Blk → Blk) : (d.setBlk i g).calNv = d.calNv := rfl
@[simp] theorem Dev.setBlk_vlt (d : Dev) (i : Nat) (g : Blk → Blk) : (d.setBlk i g).vlt = d.vlt := rfl
@[simp] theorem Dev.setBlk_twn (d : Dev) (i : Nat) (g : Blk → Blk) : (d.setBlk i g).twn = d.twn := rfl
@[simp] theorem Dev.setBlk_twnPr (d : Dev) (i : Nat) (g : Blk → Blk) : (d.setBlk i g).twnPr = d.twnPr := rfl
@[simp] theorem Dev.setBlk_sec (d : Dev) (i : Nat) (g : Blk → Blk) : (d.setBlk i g).sec = d.sec := rfl
@[simp] theorem Dev.setBlk_secNv (d : Dev) (i : Nat) (g : Blk → Blk) : (d.setBlk i g).secNv = d.secNv := rfl
@[simp] theorem Dev.setBlk_dbg (d : Dev) (i : Nat) (g : Blk → Blk) : (d.setBlk i g).dbg = d.dbg := rfl
@[simp] theorem Dev.setBlk_out (d : Dev) (i : Nat) (g : Blk → Blk) : (d.setBlk i g).out = d.out := rfl
@[simp] theorem Dev.setBlk_free (d : Dev) (i : Nat) (g : Blk → Blk) : (d.setBlk i g).free = d.free := rfl
@[simp] theorem Dev.setBlk_now (d : Dev) (i : Nat) (g : Blk → Blk) : (d.setBlk i g).now = d.now := rfl

/-! ### setSensor -/

@[simp] theorem Dev.setSensor_jad (d : Dev) (n : Nat) (g : Sensor → Sensor) : (d.setSensor n g).jad = d.jad := rfl
@[simp] theorem Dev.setSensor_boot (d : Dev) (n : Nat) (g : Sensor → Sensor) : (d.setSensor n g).boot = d.boot := rfl
@[simp] theorem Dev.setSensor_flash (d : Dev) (n : Nat) (g : Sensor → Sensor) : (d.setSensor n g).flash = d.flash := rfl
@[simp] theorem Dev.setSensor_fuses (d : Dev) (n : Nat) (g : Sensor → Sensor) : (d.setSensor n g).fuses = d.fuses := rfl
@[simp] theorem Dev.setSensor_pwr (d : Dev) (n : Nat) (g : Sensor → Sensor) : (d.setSensor n g).pwr = d.pwr := rfl
@[simp] theorem Dev.setSensor_flt (d : Dev) (n : Nat) (g : Sensor → Sensor) : (d.setSensor n g).flt = d.flt := rfl
@[simp] theorem Dev.setSensor_fct (d : Dev) (n : Nat) (g : Sensor → Sensor) : (d.setSensor n g).fct = d.fct := rfl
@[simp] theorem Dev.setSensor_mbx (d : Dev) (n : Nat) (g : Sensor → Sensor) : (d.setSensor n g).mbx = d.mbx := rfl
@[simp] theorem Dev.setSensor_tq (d : Dev) (n : Nat) (g : Sensor → Sensor) : (d.setSensor n g).tq = d.tq := rfl
@[simp] theorem Dev.setSensor_xlt (d : Dev) (n : Nat) (g : Sensor → Sensor) : (d.setSensor n g).xlt = d.xlt := rfl
@[simp] theorem Dev.setSensor_rm (d : Dev) (n : Nat) (g : Sensor → Sensor) : (d.setSensor n g).rm = d.rm := rfl
@[simp] theorem Dev.setSensor_col (d : Dev) (n : Nat) (g : Sensor → Sensor) : (d.setSensor n g).col = d.col := rfl
@[simp] theorem Dev.setSensor_fab (d : Dev) (n : Nat) (g : Sensor → Sensor) : (d.setSensor n g).fab = d.fab := rfl
@[simp] theorem Dev.setSensor_lnk (d : Dev) (n : Nat) (g : Sensor → Sensor) : (d.setSensor n g).lnk = d.lnk := rfl
@[simp] theorem Dev.setSensor_opt (d : Dev) (n : Nat) (g : Sensor → Sensor) : (d.setSensor n g).opt = d.opt := rfl
@[simp] theorem Dev.setSensor_las (d : Dev) (n : Nat) (g : Sensor → Sensor) : (d.setSensor n g).las = d.las := rfl
@[simp] theorem Dev.setSensor_cal (d : Dev) (n : Nat) (g : Sensor → Sensor) : (d.setSensor n g).cal = d.cal := rfl
@[simp] theorem Dev.setSensor_calNv (d : Dev) (n : Nat) (g : Sensor → Sensor) : (d.setSensor n g).calNv = d.calNv := rfl
@[simp] theorem Dev.setSensor_vlt (d : Dev) (n : Nat) (g : Sensor → Sensor) : (d.setSensor n g).vlt = d.vlt := rfl
@[simp] theorem Dev.setSensor_onyx (d : Dev) (n : Nat) (g : Sensor → Sensor) : (d.setSensor n g).onyx = d.onyx := rfl
@[simp] theorem Dev.setSensor_twn (d : Dev) (n : Nat) (g : Sensor → Sensor) : (d.setSensor n g).twn = d.twn := rfl
@[simp] theorem Dev.setSensor_twnPr (d : Dev) (n : Nat) (g : Sensor → Sensor) : (d.setSensor n g).twnPr = d.twnPr := rfl
@[simp] theorem Dev.setSensor_sec (d : Dev) (n : Nat) (g : Sensor → Sensor) : (d.setSensor n g).sec = d.sec := rfl
@[simp] theorem Dev.setSensor_secNv (d : Dev) (n : Nat) (g : Sensor → Sensor) : (d.setSensor n g).secNv = d.secNv := rfl
@[simp] theorem Dev.setSensor_dbg (d : Dev) (n : Nat) (g : Sensor → Sensor) : (d.setSensor n g).dbg = d.dbg := rfl
@[simp] theorem Dev.setSensor_out (d : Dev) (n : Nat) (g : Sensor → Sensor) : (d.setSensor n g).out = d.out := rfl
@[simp] theorem Dev.setSensor_free (d : Dev) (n : Nat) (g : Sensor → Sensor) : (d.setSensor n g).free = d.free := rfl
@[simp] theorem Dev.setSensor_now (d : Dev) (n : Nat) (g : Sensor → Sensor) : (d.setSensor n g).now = d.now := rfl

/-! ### emit -/

@[simp] theorem Dev.emit_jad (d : Dev) (o : Out) : (d.emit o).jad = d.jad := rfl
@[simp] theorem Dev.emit_boot (d : Dev) (o : Out) : (d.emit o).boot = d.boot := rfl
@[simp] theorem Dev.emit_flash (d : Dev) (o : Out) : (d.emit o).flash = d.flash := rfl
@[simp] theorem Dev.emit_fuses (d : Dev) (o : Out) : (d.emit o).fuses = d.fuses := rfl
@[simp] theorem Dev.emit_pwr (d : Dev) (o : Out) : (d.emit o).pwr = d.pwr := rfl
@[simp] theorem Dev.emit_thm (d : Dev) (o : Out) : (d.emit o).thm = d.thm := rfl
@[simp] theorem Dev.emit_flt (d : Dev) (o : Out) : (d.emit o).flt = d.flt := rfl
@[simp] theorem Dev.emit_fct (d : Dev) (o : Out) : (d.emit o).fct = d.fct := rfl
@[simp] theorem Dev.emit_mbx (d : Dev) (o : Out) : (d.emit o).mbx = d.mbx := rfl
@[simp] theorem Dev.emit_tq (d : Dev) (o : Out) : (d.emit o).tq = d.tq := rfl
@[simp] theorem Dev.emit_xlt (d : Dev) (o : Out) : (d.emit o).xlt = d.xlt := rfl
@[simp] theorem Dev.emit_rm (d : Dev) (o : Out) : (d.emit o).rm = d.rm := rfl
@[simp] theorem Dev.emit_col (d : Dev) (o : Out) : (d.emit o).col = d.col := rfl
@[simp] theorem Dev.emit_fab (d : Dev) (o : Out) : (d.emit o).fab = d.fab := rfl
@[simp] theorem Dev.emit_lnk (d : Dev) (o : Out) : (d.emit o).lnk = d.lnk := rfl
@[simp] theorem Dev.emit_opt (d : Dev) (o : Out) : (d.emit o).opt = d.opt := rfl
@[simp] theorem Dev.emit_las (d : Dev) (o : Out) : (d.emit o).las = d.las := rfl
@[simp] theorem Dev.emit_cal (d : Dev) (o : Out) : (d.emit o).cal = d.cal := rfl
@[simp] theorem Dev.emit_calNv (d : Dev) (o : Out) : (d.emit o).calNv = d.calNv := rfl
@[simp] theorem Dev.emit_vlt (d : Dev) (o : Out) : (d.emit o).vlt = d.vlt := rfl
@[simp] theorem Dev.emit_onyx (d : Dev) (o : Out) : (d.emit o).onyx = d.onyx := rfl
@[simp] theorem Dev.emit_twn (d : Dev) (o : Out) : (d.emit o).twn = d.twn := rfl
@[simp] theorem Dev.emit_twnPr (d : Dev) (o : Out) : (d.emit o).twnPr = d.twnPr := rfl
@[simp] theorem Dev.emit_sec (d : Dev) (o : Out) : (d.emit o).sec = d.sec := rfl
@[simp] theorem Dev.emit_secNv (d : Dev) (o : Out) : (d.emit o).secNv = d.secNv := rfl
@[simp] theorem Dev.emit_dbg (d : Dev) (o : Out) : (d.emit o).dbg = d.dbg := rfl
@[simp] theorem Dev.emit_free (d : Dev) (o : Out) : (d.emit o).free = d.free := rfl
@[simp] theorem Dev.emit_now (d : Dev) (o : Out) : (d.emit o).now = d.now := rfl

/-! ### post -/

@[simp] theorem Dev.post_jad (d : Dev) (src unit : Nat) (dom : Option Nat) (detail : Nat) : (d.post src unit dom detail).jad = d.jad := rfl
@[simp] theorem Dev.post_boot (d : Dev) (src unit : Nat) (dom : Option Nat) (detail : Nat) : (d.post src unit dom detail).boot = d.boot := rfl
@[simp] theorem Dev.post_flash (d : Dev) (src unit : Nat) (dom : Option Nat) (detail : Nat) : (d.post src unit dom detail).flash = d.flash := rfl
@[simp] theorem Dev.post_fuses (d : Dev) (src unit : Nat) (dom : Option Nat) (detail : Nat) : (d.post src unit dom detail).fuses = d.fuses := rfl
@[simp] theorem Dev.post_pwr (d : Dev) (src unit : Nat) (dom : Option Nat) (detail : Nat) : (d.post src unit dom detail).pwr = d.pwr := rfl
@[simp] theorem Dev.post_thm (d : Dev) (src unit : Nat) (dom : Option Nat) (detail : Nat) : (d.post src unit dom detail).thm = d.thm := rfl
@[simp] theorem Dev.post_fct (d : Dev) (src unit : Nat) (dom : Option Nat) (detail : Nat) : (d.post src unit dom detail).fct = d.fct := rfl
@[simp] theorem Dev.post_mbx (d : Dev) (src unit : Nat) (dom : Option Nat) (detail : Nat) : (d.post src unit dom detail).mbx = d.mbx := rfl
@[simp] theorem Dev.post_tq (d : Dev) (src unit : Nat) (dom : Option Nat) (detail : Nat) : (d.post src unit dom detail).tq = d.tq := rfl
@[simp] theorem Dev.post_xlt (d : Dev) (src unit : Nat) (dom : Option Nat) (detail : Nat) : (d.post src unit dom detail).xlt = d.xlt := rfl
@[simp] theorem Dev.post_rm (d : Dev) (src unit : Nat) (dom : Option Nat) (detail : Nat) : (d.post src unit dom detail).rm = d.rm := rfl
@[simp] theorem Dev.post_col (d : Dev) (src unit : Nat) (dom : Option Nat) (detail : Nat) : (d.post src unit dom detail).col = d.col := rfl
@[simp] theorem Dev.post_fab (d : Dev) (src unit : Nat) (dom : Option Nat) (detail : Nat) : (d.post src unit dom detail).fab = d.fab := rfl
@[simp] theorem Dev.post_lnk (d : Dev) (src unit : Nat) (dom : Option Nat) (detail : Nat) : (d.post src unit dom detail).lnk = d.lnk := rfl
@[simp] theorem Dev.post_opt (d : Dev) (src unit : Nat) (dom : Option Nat) (detail : Nat) : (d.post src unit dom detail).opt = d.opt := rfl
@[simp] theorem Dev.post_las (d : Dev) (src unit : Nat) (dom : Option Nat) (detail : Nat) : (d.post src unit dom detail).las = d.las := rfl
@[simp] theorem Dev.post_cal (d : Dev) (src unit : Nat) (dom : Option Nat) (detail : Nat) : (d.post src unit dom detail).cal = d.cal := rfl
@[simp] theorem Dev.post_calNv (d : Dev) (src unit : Nat) (dom : Option Nat) (detail : Nat) : (d.post src unit dom detail).calNv = d.calNv := rfl
@[simp] theorem Dev.post_vlt (d : Dev) (src unit : Nat) (dom : Option Nat) (detail : Nat) : (d.post src unit dom detail).vlt = d.vlt := rfl
@[simp] theorem Dev.post_onyx (d : Dev) (src unit : Nat) (dom : Option Nat) (detail : Nat) : (d.post src unit dom detail).onyx = d.onyx := rfl
@[simp] theorem Dev.post_twn (d : Dev) (src unit : Nat) (dom : Option Nat) (detail : Nat) : (d.post src unit dom detail).twn = d.twn := rfl
@[simp] theorem Dev.post_twnPr (d : Dev) (src unit : Nat) (dom : Option Nat) (detail : Nat) : (d.post src unit dom detail).twnPr = d.twnPr := rfl
@[simp] theorem Dev.post_sec (d : Dev) (src unit : Nat) (dom : Option Nat) (detail : Nat) : (d.post src unit dom detail).sec = d.sec := rfl
@[simp] theorem Dev.post_secNv (d : Dev) (src unit : Nat) (dom : Option Nat) (detail : Nat) : (d.post src unit dom detail).secNv = d.secNv := rfl
@[simp] theorem Dev.post_dbg (d : Dev) (src unit : Nat) (dom : Option Nat) (detail : Nat) : (d.post src unit dom detail).dbg = d.dbg := rfl
@[simp] theorem Dev.post_out (d : Dev) (src unit : Nat) (dom : Option Nat) (detail : Nat) : (d.post src unit dom detail).out = d.out := rfl
@[simp] theorem Dev.post_free (d : Dev) (src unit : Nat) (dom : Option Nat) (detail : Nat) : (d.post src unit dom detail).free = d.free := rfl
@[simp] theorem Dev.post_now (d : Dev) (src unit : Nat) (dom : Option Nat) (detail : Nat) : (d.post src unit dom detail).now = d.now := rfl

/-! ### setAuth -/

@[simp] theorem Dev.setAuth_jad (d : Dev) (p : Path) (a : AuthP) : (d.setAuth p a).jad = d.jad := rfl
@[simp] theorem Dev.setAuth_boot (d : Dev) (p : Path) (a : AuthP) : (d.setAuth p a).boot = d.boot := rfl
@[simp] theorem Dev.setAuth_flash (d : Dev) (p : Path) (a : AuthP) : (d.setAuth p a).flash = d.flash := rfl
@[simp] theorem Dev.setAuth_fuses (d : Dev) (p : Path) (a : AuthP) : (d.setAuth p a).fuses = d.fuses := rfl
@[simp] theorem Dev.setAuth_pwr (d : Dev) (p : Path) (a : AuthP) : (d.setAuth p a).pwr = d.pwr := rfl
@[simp] theorem Dev.setAuth_thm (d : Dev) (p : Path) (a : AuthP) : (d.setAuth p a).thm = d.thm := rfl
@[simp] theorem Dev.setAuth_flt (d : Dev) (p : Path) (a : AuthP) : (d.setAuth p a).flt = d.flt := rfl
@[simp] theorem Dev.setAuth_fct (d : Dev) (p : Path) (a : AuthP) : (d.setAuth p a).fct = d.fct := rfl
@[simp] theorem Dev.setAuth_mbx (d : Dev) (p : Path) (a : AuthP) : (d.setAuth p a).mbx = d.mbx := rfl
@[simp] theorem Dev.setAuth_tq (d : Dev) (p : Path) (a : AuthP) : (d.setAuth p a).tq = d.tq := rfl
@[simp] theorem Dev.setAuth_xlt (d : Dev) (p : Path) (a : AuthP) : (d.setAuth p a).xlt = d.xlt := rfl
@[simp] theorem Dev.setAuth_rm (d : Dev) (p : Path) (a : AuthP) : (d.setAuth p a).rm = d.rm := rfl
@[simp] theorem Dev.setAuth_col (d : Dev) (p : Path) (a : AuthP) : (d.setAuth p a).col = d.col := rfl
@[simp] theorem Dev.setAuth_fab (d : Dev) (p : Path) (a : AuthP) : (d.setAuth p a).fab = d.fab := rfl
@[simp] theorem Dev.setAuth_lnk (d : Dev) (p : Path) (a : AuthP) : (d.setAuth p a).lnk = d.lnk := rfl
@[simp] theorem Dev.setAuth_opt (d : Dev) (p : Path) (a : AuthP) : (d.setAuth p a).opt = d.opt := rfl
@[simp] theorem Dev.setAuth_las (d : Dev) (p : Path) (a : AuthP) : (d.setAuth p a).las = d.las := rfl
@[simp] theorem Dev.setAuth_cal (d : Dev) (p : Path) (a : AuthP) : (d.setAuth p a).cal = d.cal := rfl
@[simp] theorem Dev.setAuth_calNv (d : Dev) (p : Path) (a : AuthP) : (d.setAuth p a).calNv = d.calNv := rfl
@[simp] theorem Dev.setAuth_vlt (d : Dev) (p : Path) (a : AuthP) : (d.setAuth p a).vlt = d.vlt := rfl
@[simp] theorem Dev.setAuth_onyx (d : Dev) (p : Path) (a : AuthP) : (d.setAuth p a).onyx = d.onyx := rfl
@[simp] theorem Dev.setAuth_twn (d : Dev) (p : Path) (a : AuthP) : (d.setAuth p a).twn = d.twn := rfl
@[simp] theorem Dev.setAuth_twnPr (d : Dev) (p : Path) (a : AuthP) : (d.setAuth p a).twnPr = d.twnPr := rfl
@[simp] theorem Dev.setAuth_secNv (d : Dev) (p : Path) (a : AuthP) : (d.setAuth p a).secNv = d.secNv := rfl
@[simp] theorem Dev.setAuth_dbg (d : Dev) (p : Path) (a : AuthP) : (d.setAuth p a).dbg = d.dbg := rfl
@[simp] theorem Dev.setAuth_out (d : Dev) (p : Path) (a : AuthP) : (d.setAuth p a).out = d.out := rfl
@[simp] theorem Dev.setAuth_free (d : Dev) (p : Path) (a : AuthP) : (d.setAuth p a).free = d.free := rfl
@[simp] theorem Dev.setAuth_now (d : Dev) (p : Path) (a : AuthP) : (d.setAuth p a).now = d.now := rfl

/-! ### setKeyx -/

@[simp] theorem Dev.setKeyx_jad (d : Dev) (p : Nat) (g : KeyX → KeyX) : (d.setKeyx p g).jad = d.jad := rfl
@[simp] theorem Dev.setKeyx_boot (d : Dev) (p : Nat) (g : KeyX → KeyX) : (d.setKeyx p g).boot = d.boot := rfl
@[simp] theorem Dev.setKeyx_flash (d : Dev) (p : Nat) (g : KeyX → KeyX) : (d.setKeyx p g).flash = d.flash := rfl
@[simp] theorem Dev.setKeyx_fuses (d : Dev) (p : Nat) (g : KeyX → KeyX) : (d.setKeyx p g).fuses = d.fuses := rfl
@[simp] theorem Dev.setKeyx_pwr (d : Dev) (p : Nat) (g : KeyX → KeyX) : (d.setKeyx p g).pwr = d.pwr := rfl
@[simp] theorem Dev.setKeyx_thm (d : Dev) (p : Nat) (g : KeyX → KeyX) : (d.setKeyx p g).thm = d.thm := rfl
@[simp] theorem Dev.setKeyx_flt (d : Dev) (p : Nat) (g : KeyX → KeyX) : (d.setKeyx p g).flt = d.flt := rfl
@[simp] theorem Dev.setKeyx_fct (d : Dev) (p : Nat) (g : KeyX → KeyX) : (d.setKeyx p g).fct = d.fct := rfl
@[simp] theorem Dev.setKeyx_mbx (d : Dev) (p : Nat) (g : KeyX → KeyX) : (d.setKeyx p g).mbx = d.mbx := rfl
@[simp] theorem Dev.setKeyx_tq (d : Dev) (p : Nat) (g : KeyX → KeyX) : (d.setKeyx p g).tq = d.tq := rfl
@[simp] theorem Dev.setKeyx_xlt (d : Dev) (p : Nat) (g : KeyX → KeyX) : (d.setKeyx p g).xlt = d.xlt := rfl
@[simp] theorem Dev.setKeyx_rm (d : Dev) (p : Nat) (g : KeyX → KeyX) : (d.setKeyx p g).rm = d.rm := rfl
@[simp] theorem Dev.setKeyx_col (d : Dev) (p : Nat) (g : KeyX → KeyX) : (d.setKeyx p g).col = d.col := rfl
@[simp] theorem Dev.setKeyx_fab (d : Dev) (p : Nat) (g : KeyX → KeyX) : (d.setKeyx p g).fab = d.fab := rfl
@[simp] theorem Dev.setKeyx_lnk (d : Dev) (p : Nat) (g : KeyX → KeyX) : (d.setKeyx p g).lnk = d.lnk := rfl
@[simp] theorem Dev.setKeyx_opt (d : Dev) (p : Nat) (g : KeyX → KeyX) : (d.setKeyx p g).opt = d.opt := rfl
@[simp] theorem Dev.setKeyx_las (d : Dev) (p : Nat) (g : KeyX → KeyX) : (d.setKeyx p g).las = d.las := rfl
@[simp] theorem Dev.setKeyx_cal (d : Dev) (p : Nat) (g : KeyX → KeyX) : (d.setKeyx p g).cal = d.cal := rfl
@[simp] theorem Dev.setKeyx_calNv (d : Dev) (p : Nat) (g : KeyX → KeyX) : (d.setKeyx p g).calNv = d.calNv := rfl
@[simp] theorem Dev.setKeyx_vlt (d : Dev) (p : Nat) (g : KeyX → KeyX) : (d.setKeyx p g).vlt = d.vlt := rfl
@[simp] theorem Dev.setKeyx_onyx (d : Dev) (p : Nat) (g : KeyX → KeyX) : (d.setKeyx p g).onyx = d.onyx := rfl
@[simp] theorem Dev.setKeyx_twn (d : Dev) (p : Nat) (g : KeyX → KeyX) : (d.setKeyx p g).twn = d.twn := rfl
@[simp] theorem Dev.setKeyx_twnPr (d : Dev) (p : Nat) (g : KeyX → KeyX) : (d.setKeyx p g).twnPr = d.twnPr := rfl
@[simp] theorem Dev.setKeyx_secNv (d : Dev) (p : Nat) (g : KeyX → KeyX) : (d.setKeyx p g).secNv = d.secNv := rfl
@[simp] theorem Dev.setKeyx_dbg (d : Dev) (p : Nat) (g : KeyX → KeyX) : (d.setKeyx p g).dbg = d.dbg := rfl
@[simp] theorem Dev.setKeyx_out (d : Dev) (p : Nat) (g : KeyX → KeyX) : (d.setKeyx p g).out = d.out := rfl
@[simp] theorem Dev.setKeyx_free (d : Dev) (p : Nat) (g : KeyX → KeyX) : (d.setKeyx p g).free = d.free := rfl
@[simp] theorem Dev.setKeyx_now (d : Dev) (p : Nat) (g : KeyX → KeyX) : (d.setKeyx p g).now = d.now := rfl

/-! ### setOp -/

@[simp] theorem Dev.setOp_jad (d : Dev) (o : Op) : (d.setOp o).jad = d.jad := rfl
@[simp] theorem Dev.setOp_boot (d : Dev) (o : Op) : (d.setOp o).boot = d.boot := rfl
@[simp] theorem Dev.setOp_flash (d : Dev) (o : Op) : (d.setOp o).flash = d.flash := rfl
@[simp] theorem Dev.setOp_fuses (d : Dev) (o : Op) : (d.setOp o).fuses = d.fuses := rfl
@[simp] theorem Dev.setOp_pwr (d : Dev) (o : Op) : (d.setOp o).pwr = d.pwr := rfl
@[simp] theorem Dev.setOp_thm (d : Dev) (o : Op) : (d.setOp o).thm = d.thm := rfl
@[simp] theorem Dev.setOp_flt (d : Dev) (o : Op) : (d.setOp o).flt = d.flt := rfl
@[simp] theorem Dev.setOp_fct (d : Dev) (o : Op) : (d.setOp o).fct = d.fct := rfl
@[simp] theorem Dev.setOp_mbx (d : Dev) (o : Op) : (d.setOp o).mbx = d.mbx := rfl
@[simp] theorem Dev.setOp_xlt (d : Dev) (o : Op) : (d.setOp o).xlt = d.xlt := rfl
@[simp] theorem Dev.setOp_rm (d : Dev) (o : Op) : (d.setOp o).rm = d.rm := rfl
@[simp] theorem Dev.setOp_col (d : Dev) (o : Op) : (d.setOp o).col = d.col := rfl
@[simp] theorem Dev.setOp_fab (d : Dev) (o : Op) : (d.setOp o).fab = d.fab := rfl
@[simp] theorem Dev.setOp_lnk (d : Dev) (o : Op) : (d.setOp o).lnk = d.lnk := rfl
@[simp] theorem Dev.setOp_opt (d : Dev) (o : Op) : (d.setOp o).opt = d.opt := rfl
@[simp] theorem Dev.setOp_las (d : Dev) (o : Op) : (d.setOp o).las = d.las := rfl
@[simp] theorem Dev.setOp_cal (d : Dev) (o : Op) : (d.setOp o).cal = d.cal := rfl
@[simp] theorem Dev.setOp_calNv (d : Dev) (o : Op) : (d.setOp o).calNv = d.calNv := rfl
@[simp] theorem Dev.setOp_vlt (d : Dev) (o : Op) : (d.setOp o).vlt = d.vlt := rfl
@[simp] theorem Dev.setOp_onyx (d : Dev) (o : Op) : (d.setOp o).onyx = d.onyx := rfl
@[simp] theorem Dev.setOp_twn (d : Dev) (o : Op) : (d.setOp o).twn = d.twn := rfl
@[simp] theorem Dev.setOp_twnPr (d : Dev) (o : Op) : (d.setOp o).twnPr = d.twnPr := rfl
@[simp] theorem Dev.setOp_sec (d : Dev) (o : Op) : (d.setOp o).sec = d.sec := rfl
@[simp] theorem Dev.setOp_secNv (d : Dev) (o : Op) : (d.setOp o).secNv = d.secNv := rfl
@[simp] theorem Dev.setOp_dbg (d : Dev) (o : Op) : (d.setOp o).dbg = d.dbg := rfl
@[simp] theorem Dev.setOp_out (d : Dev) (o : Op) : (d.setOp o).out = d.out := rfl
@[simp] theorem Dev.setOp_free (d : Dev) (o : Op) : (d.setOp o).free = d.free := rfl
@[simp] theorem Dev.setOp_now (d : Dev) (o : Op) : (d.setOp o).now = d.now := rfl

/-! ### setInner -/

@[simp] theorem Dev.setInner_jad (d : Dev) (n : Nat) (g : Inner → Inner) : (d.setInner n g).jad = d.jad := rfl
@[simp] theorem Dev.setInner_boot (d : Dev) (n : Nat) (g : Inner → Inner) : (d.setInner n g).boot = d.boot := rfl
@[simp] theorem Dev.setInner_flash (d : Dev) (n : Nat) (g : Inner → Inner) : (d.setInner n g).flash = d.flash := rfl
@[simp] theorem Dev.setInner_fuses (d : Dev) (n : Nat) (g : Inner → Inner) : (d.setInner n g).fuses = d.fuses := rfl
@[simp] theorem Dev.setInner_pwr (d : Dev) (n : Nat) (g : Inner → Inner) : (d.setInner n g).pwr = d.pwr := rfl
@[simp] theorem Dev.setInner_thm (d : Dev) (n : Nat) (g : Inner → Inner) : (d.setInner n g).thm = d.thm := rfl
@[simp] theorem Dev.setInner_flt (d : Dev) (n : Nat) (g : Inner → Inner) : (d.setInner n g).flt = d.flt := rfl
@[simp] theorem Dev.setInner_mbx (d : Dev) (n : Nat) (g : Inner → Inner) : (d.setInner n g).mbx = d.mbx := rfl
@[simp] theorem Dev.setInner_tq (d : Dev) (n : Nat) (g : Inner → Inner) : (d.setInner n g).tq = d.tq := rfl
@[simp] theorem Dev.setInner_xlt (d : Dev) (n : Nat) (g : Inner → Inner) : (d.setInner n g).xlt = d.xlt := rfl
@[simp] theorem Dev.setInner_rm (d : Dev) (n : Nat) (g : Inner → Inner) : (d.setInner n g).rm = d.rm := rfl
@[simp] theorem Dev.setInner_col (d : Dev) (n : Nat) (g : Inner → Inner) : (d.setInner n g).col = d.col := rfl
@[simp] theorem Dev.setInner_fab (d : Dev) (n : Nat) (g : Inner → Inner) : (d.setInner n g).fab = d.fab := rfl
@[simp] theorem Dev.setInner_lnk (d : Dev) (n : Nat) (g : Inner → Inner) : (d.setInner n g).lnk = d.lnk := rfl
@[simp] theorem Dev.setInner_opt (d : Dev) (n : Nat) (g : Inner → Inner) : (d.setInner n g).opt = d.opt := rfl
@[simp] theorem Dev.setInner_las (d : Dev) (n : Nat) (g : Inner → Inner) : (d.setInner n g).las = d.las := rfl
@[simp] theorem Dev.setInner_cal (d : Dev) (n : Nat) (g : Inner → Inner) : (d.setInner n g).cal = d.cal := rfl
@[simp] theorem Dev.setInner_calNv (d : Dev) (n : Nat) (g : Inner → Inner) : (d.setInner n g).calNv = d.calNv := rfl
@[simp] theorem Dev.setInner_vlt (d : Dev) (n : Nat) (g : Inner → Inner) : (d.setInner n g).vlt = d.vlt := rfl
@[simp] theorem Dev.setInner_onyx (d : Dev) (n : Nat) (g : Inner → Inner) : (d.setInner n g).onyx = d.onyx := rfl
@[simp] theorem Dev.setInner_twn (d : Dev) (n : Nat) (g : Inner → Inner) : (d.setInner n g).twn = d.twn := rfl
@[simp] theorem Dev.setInner_twnPr (d : Dev) (n : Nat) (g : Inner → Inner) : (d.setInner n g).twnPr = d.twnPr := rfl
@[simp] theorem Dev.setInner_sec (d : Dev) (n : Nat) (g : Inner → Inner) : (d.setInner n g).sec = d.sec := rfl
@[simp] theorem Dev.setInner_secNv (d : Dev) (n : Nat) (g : Inner → Inner) : (d.setInner n g).secNv = d.secNv := rfl
@[simp] theorem Dev.setInner_dbg (d : Dev) (n : Nat) (g : Inner → Inner) : (d.setInner n g).dbg = d.dbg := rfl
@[simp] theorem Dev.setInner_out (d : Dev) (n : Nat) (g : Inner → Inner) : (d.setInner n g).out = d.out := rfl
@[simp] theorem Dev.setInner_free (d : Dev) (n : Nat) (g : Inner → Inner) : (d.setInner n g).free = d.free := rfl
@[simp] theorem Dev.setInner_now (d : Dev) (n : Nat) (g : Inner → Inner) : (d.setInner n g).now = d.now := rfl

/-! ### setItem -/

@[simp] theorem Dev.setItem_jad (d : Dev) (n : Nat) (st : ItemSt) : (d.setItem n st).jad = d.jad := rfl
@[simp] theorem Dev.setItem_flash (d : Dev) (n : Nat) (st : ItemSt) : (d.setItem n st).flash = d.flash := rfl
@[simp] theorem Dev.setItem_fuses (d : Dev) (n : Nat) (st : ItemSt) : (d.setItem n st).fuses = d.fuses := rfl
@[simp] theorem Dev.setItem_pwr (d : Dev) (n : Nat) (st : ItemSt) : (d.setItem n st).pwr = d.pwr := rfl
@[simp] theorem Dev.setItem_thm (d : Dev) (n : Nat) (st : ItemSt) : (d.setItem n st).thm = d.thm := rfl
@[simp] theorem Dev.setItem_flt (d : Dev) (n : Nat) (st : ItemSt) : (d.setItem n st).flt = d.flt := rfl
@[simp] theorem Dev.setItem_fct (d : Dev) (n : Nat) (st : ItemSt) : (d.setItem n st).fct = d.fct := rfl
@[simp] theorem Dev.setItem_mbx (d : Dev) (n : Nat) (st : ItemSt) : (d.setItem n st).mbx = d.mbx := rfl
@[simp] theorem Dev.setItem_tq (d : Dev) (n : Nat) (st : ItemSt) : (d.setItem n st).tq = d.tq := rfl
@[simp] theorem Dev.setItem_xlt (d : Dev) (n : Nat) (st : ItemSt) : (d.setItem n st).xlt = d.xlt := rfl
@[simp] theorem Dev.setItem_rm (d : Dev) (n : Nat) (st : ItemSt) : (d.setItem n st).rm = d.rm := rfl
@[simp] theorem Dev.setItem_col (d : Dev) (n : Nat) (st : ItemSt) : (d.setItem n st).col = d.col := rfl
@[simp] theorem Dev.setItem_fab (d : Dev) (n : Nat) (st : ItemSt) : (d.setItem n st).fab = d.fab := rfl
@[simp] theorem Dev.setItem_lnk (d : Dev) (n : Nat) (st : ItemSt) : (d.setItem n st).lnk = d.lnk := rfl
@[simp] theorem Dev.setItem_opt (d : Dev) (n : Nat) (st : ItemSt) : (d.setItem n st).opt = d.opt := rfl
@[simp] theorem Dev.setItem_las (d : Dev) (n : Nat) (st : ItemSt) : (d.setItem n st).las = d.las := rfl
@[simp] theorem Dev.setItem_cal (d : Dev) (n : Nat) (st : ItemSt) : (d.setItem n st).cal = d.cal := rfl
@[simp] theorem Dev.setItem_calNv (d : Dev) (n : Nat) (st : ItemSt) : (d.setItem n st).calNv = d.calNv := rfl
@[simp] theorem Dev.setItem_vlt (d : Dev) (n : Nat) (st : ItemSt) : (d.setItem n st).vlt = d.vlt := rfl
@[simp] theorem Dev.setItem_onyx (d : Dev) (n : Nat) (st : ItemSt) : (d.setItem n st).onyx = d.onyx := rfl
@[simp] theorem Dev.setItem_twn (d : Dev) (n : Nat) (st : ItemSt) : (d.setItem n st).twn = d.twn := rfl
@[simp] theorem Dev.setItem_twnPr (d : Dev) (n : Nat) (st : ItemSt) : (d.setItem n st).twnPr = d.twnPr := rfl
@[simp] theorem Dev.setItem_sec (d : Dev) (n : Nat) (st : ItemSt) : (d.setItem n st).sec = d.sec := rfl
@[simp] theorem Dev.setItem_secNv (d : Dev) (n : Nat) (st : ItemSt) : (d.setItem n st).secNv = d.secNv := rfl
@[simp] theorem Dev.setItem_dbg (d : Dev) (n : Nat) (st : ItemSt) : (d.setItem n st).dbg = d.dbg := rfl
@[simp] theorem Dev.setItem_out (d : Dev) (n : Nat) (st : ItemSt) : (d.setItem n st).out = d.out := rfl
@[simp] theorem Dev.setItem_free (d : Dev) (n : Nat) (st : ItemSt) : (d.setItem n st).free = d.free := rfl
@[simp] theorem Dev.setItem_now (d : Dev) (n : Nat) (st : ItemSt) : (d.setItem n st).now = d.now := rfl

/-! ### setLevel -/

@[simp] theorem Dev.setLevel_boot (d : Dev) (i : Nat) (v : Bool) : (d.setLevel i v).boot = d.boot := rfl
@[simp] theorem Dev.setLevel_flash (d : Dev) (i : Nat) (v : Bool) : (d.setLevel i v).flash = d.flash := rfl
@[simp] theorem Dev.setLevel_fuses (d : Dev) (i : Nat) (v : Bool) : (d.setLevel i v).fuses = d.fuses := rfl
@[simp] theorem Dev.setLevel_pwr (d : Dev) (i : Nat) (v : Bool) : (d.setLevel i v).pwr = d.pwr := rfl
@[simp] theorem Dev.setLevel_thm (d : Dev) (i : Nat) (v : Bool) : (d.setLevel i v).thm = d.thm := rfl
@[simp] theorem Dev.setLevel_flt (d : Dev) (i : Nat) (v : Bool) : (d.setLevel i v).flt = d.flt := rfl
@[simp] theorem Dev.setLevel_fct (d : Dev) (i : Nat) (v : Bool) : (d.setLevel i v).fct = d.fct := rfl
@[simp] theorem Dev.setLevel_mbx (d : Dev) (i : Nat) (v : Bool) : (d.setLevel i v).mbx = d.mbx := rfl
@[simp] theorem Dev.setLevel_tq (d : Dev) (i : Nat) (v : Bool) : (d.setLevel i v).tq = d.tq := rfl
@[simp] theorem Dev.setLevel_xlt (d : Dev) (i : Nat) (v : Bool) : (d.setLevel i v).xlt = d.xlt := rfl
@[simp] theorem Dev.setLevel_rm (d : Dev) (i : Nat) (v : Bool) : (d.setLevel i v).rm = d.rm := rfl
@[simp] theorem Dev.setLevel_col (d : Dev) (i : Nat) (v : Bool) : (d.setLevel i v).col = d.col := rfl
@[simp] theorem Dev.setLevel_fab (d : Dev) (i : Nat) (v : Bool) : (d.setLevel i v).fab = d.fab := rfl
@[simp] theorem Dev.setLevel_lnk (d : Dev) (i : Nat) (v : Bool) : (d.setLevel i v).lnk = d.lnk := rfl
@[simp] theorem Dev.setLevel_opt (d : Dev) (i : Nat) (v : Bool) : (d.setLevel i v).opt = d.opt := rfl
@[simp] theorem Dev.setLevel_las (d : Dev) (i : Nat) (v : Bool) : (d.setLevel i v).las = d.las := rfl
@[simp] theorem Dev.setLevel_cal (d : Dev) (i : Nat) (v : Bool) : (d.setLevel i v).cal = d.cal := rfl
@[simp] theorem Dev.setLevel_calNv (d : Dev) (i : Nat) (v : Bool) : (d.setLevel i v).calNv = d.calNv := rfl
@[simp] theorem Dev.setLevel_vlt (d : Dev) (i : Nat) (v : Bool) : (d.setLevel i v).vlt = d.vlt := rfl
@[simp] theorem Dev.setLevel_onyx (d : Dev) (i : Nat) (v : Bool) : (d.setLevel i v).onyx = d.onyx := rfl
@[simp] theorem Dev.setLevel_twn (d : Dev) (i : Nat) (v : Bool) : (d.setLevel i v).twn = d.twn := rfl
@[simp] theorem Dev.setLevel_twnPr (d : Dev) (i : Nat) (v : Bool) : (d.setLevel i v).twnPr = d.twnPr := rfl
@[simp] theorem Dev.setLevel_sec (d : Dev) (i : Nat) (v : Bool) : (d.setLevel i v).sec = d.sec := rfl
@[simp] theorem Dev.setLevel_secNv (d : Dev) (i : Nat) (v : Bool) : (d.setLevel i v).secNv = d.secNv := rfl
@[simp] theorem Dev.setLevel_dbg (d : Dev) (i : Nat) (v : Bool) : (d.setLevel i v).dbg = d.dbg := rfl
@[simp] theorem Dev.setLevel_out (d : Dev) (i : Nat) (v : Bool) : (d.setLevel i v).out = d.out := rfl
@[simp] theorem Dev.setLevel_free (d : Dev) (i : Nat) (v : Bool) : (d.setLevel i v).free = d.free := rfl
@[simp] theorem Dev.setLevel_now (d : Dev) (i : Nat) (v : Bool) : (d.setLevel i v).now = d.now := rfl

/-! ### setStream -/

@[simp] theorem Dev.setStream_jad (d : Dev) (t s : Nat) (g : Stream → Stream) : (d.setStream t s g).jad = d.jad := rfl
@[simp] theorem Dev.setStream_boot (d : Dev) (t s : Nat) (g : Stream → Stream) : (d.setStream t s g).boot = d.boot := rfl
@[simp] theorem Dev.setStream_flash (d : Dev) (t s : Nat) (g : Stream → Stream) : (d.setStream t s g).flash = d.flash := rfl
@[simp] theorem Dev.setStream_fuses (d : Dev) (t s : Nat) (g : Stream → Stream) : (d.setStream t s g).fuses = d.fuses := rfl
@[simp] theorem Dev.setStream_pwr (d : Dev) (t s : Nat) (g : Stream → Stream) : (d.setStream t s g).pwr = d.pwr := rfl
@[simp] theorem Dev.setStream_thm (d : Dev) (t s : Nat) (g : Stream → Stream) : (d.setStream t s g).thm = d.thm := rfl
@[simp] theorem Dev.setStream_flt (d : Dev) (t s : Nat) (g : Stream → Stream) : (d.setStream t s g).flt = d.flt := rfl
@[simp] theorem Dev.setStream_fct (d : Dev) (t s : Nat) (g : Stream → Stream) : (d.setStream t s g).fct = d.fct := rfl
@[simp] theorem Dev.setStream_mbx (d : Dev) (t s : Nat) (g : Stream → Stream) : (d.setStream t s g).mbx = d.mbx := rfl
@[simp] theorem Dev.setStream_tq (d : Dev) (t s : Nat) (g : Stream → Stream) : (d.setStream t s g).tq = d.tq := rfl
@[simp] theorem Dev.setStream_xlt (d : Dev) (t s : Nat) (g : Stream → Stream) : (d.setStream t s g).xlt = d.xlt := rfl
@[simp] theorem Dev.setStream_col (d : Dev) (t s : Nat) (g : Stream → Stream) : (d.setStream t s g).col = d.col := rfl
@[simp] theorem Dev.setStream_fab (d : Dev) (t s : Nat) (g : Stream → Stream) : (d.setStream t s g).fab = d.fab := rfl
@[simp] theorem Dev.setStream_lnk (d : Dev) (t s : Nat) (g : Stream → Stream) : (d.setStream t s g).lnk = d.lnk := rfl
@[simp] theorem Dev.setStream_opt (d : Dev) (t s : Nat) (g : Stream → Stream) : (d.setStream t s g).opt = d.opt := rfl
@[simp] theorem Dev.setStream_las (d : Dev) (t s : Nat) (g : Stream → Stream) : (d.setStream t s g).las = d.las := rfl
@[simp] theorem Dev.setStream_cal (d : Dev) (t s : Nat) (g : Stream → Stream) : (d.setStream t s g).cal = d.cal := rfl
@[simp] theorem Dev.setStream_calNv (d : Dev) (t s : Nat) (g : Stream → Stream) : (d.setStream t s g).calNv = d.calNv := rfl
@[simp] theorem Dev.setStream_vlt (d : Dev) (t s : Nat) (g : Stream → Stream) : (d.setStream t s g).vlt = d.vlt := rfl
@[simp] theorem Dev.setStream_onyx (d : Dev) (t s : Nat) (g : Stream → Stream) : (d.setStream t s g).onyx = d.onyx := rfl
@[simp] theorem Dev.setStream_twn (d : Dev) (t s : Nat) (g : Stream → Stream) : (d.setStream t s g).twn = d.twn := rfl
@[simp] theorem Dev.setStream_twnPr (d : Dev) (t s : Nat) (g : Stream → Stream) : (d.setStream t s g).twnPr = d.twnPr := rfl
@[simp] theorem Dev.setStream_sec (d : Dev) (t s : Nat) (g : Stream → Stream) : (d.setStream t s g).sec = d.sec := rfl
@[simp] theorem Dev.setStream_secNv (d : Dev) (t s : Nat) (g : Stream → Stream) : (d.setStream t s g).secNv = d.secNv := rfl
@[simp] theorem Dev.setStream_dbg (d : Dev) (t s : Nat) (g : Stream → Stream) : (d.setStream t s g).dbg = d.dbg := rfl
@[simp] theorem Dev.setStream_out (d : Dev) (t s : Nat) (g : Stream → Stream) : (d.setStream t s g).out = d.out := rfl
@[simp] theorem Dev.setStream_free (d : Dev) (t s : Nat) (g : Stream → Stream) : (d.setStream t s g).free = d.free := rfl
@[simp] theorem Dev.setStream_now (d : Dev) (t s : Nat) (g : Stream → Stream) : (d.setStream t s g).now = d.now := rfl

/-! ### setLine -/

@[simp] theorem Dev.setLine_jad (d : Dev) (l : Line) : (d.setLine l).jad = d.jad := rfl
@[simp] theorem Dev.setLine_boot (d : Dev) (l : Line) : (d.setLine l).boot = d.boot := rfl
@[simp] theorem Dev.setLine_flash (d : Dev) (l : Line) : (d.setLine l).flash = d.flash := rfl
@[simp] theorem Dev.setLine_fuses (d : Dev) (l : Line) : (d.setLine l).fuses = d.fuses := rfl
@[simp] theorem Dev.setLine_pwr (d : Dev) (l : Line) : (d.setLine l).pwr = d.pwr := rfl
@[simp] theorem Dev.setLine_thm (d : Dev) (l : Line) : (d.setLine l).thm = d.thm := rfl
@[simp] theorem Dev.setLine_flt (d : Dev) (l : Line) : (d.setLine l).flt = d.flt := rfl
@[simp] theorem Dev.setLine_fct (d : Dev) (l : Line) : (d.setLine l).fct = d.fct := rfl
@[simp] theorem Dev.setLine_mbx (d : Dev) (l : Line) : (d.setLine l).mbx = d.mbx := rfl
@[simp] theorem Dev.setLine_tq (d : Dev) (l : Line) : (d.setLine l).tq = d.tq := rfl
@[simp] theorem Dev.setLine_xlt (d : Dev) (l : Line) : (d.setLine l).xlt = d.xlt := rfl
@[simp] theorem Dev.setLine_col (d : Dev) (l : Line) : (d.setLine l).col = d.col := rfl
@[simp] theorem Dev.setLine_fab (d : Dev) (l : Line) : (d.setLine l).fab = d.fab := rfl
@[simp] theorem Dev.setLine_lnk (d : Dev) (l : Line) : (d.setLine l).lnk = d.lnk := rfl
@[simp] theorem Dev.setLine_opt (d : Dev) (l : Line) : (d.setLine l).opt = d.opt := rfl
@[simp] theorem Dev.setLine_las (d : Dev) (l : Line) : (d.setLine l).las = d.las := rfl
@[simp] theorem Dev.setLine_cal (d : Dev) (l : Line) : (d.setLine l).cal = d.cal := rfl
@[simp] theorem Dev.setLine_calNv (d : Dev) (l : Line) : (d.setLine l).calNv = d.calNv := rfl
@[simp] theorem Dev.setLine_vlt (d : Dev) (l : Line) : (d.setLine l).vlt = d.vlt := rfl
@[simp] theorem Dev.setLine_onyx (d : Dev) (l : Line) : (d.setLine l).onyx = d.onyx := rfl
@[simp] theorem Dev.setLine_twn (d : Dev) (l : Line) : (d.setLine l).twn = d.twn := rfl
@[simp] theorem Dev.setLine_twnPr (d : Dev) (l : Line) : (d.setLine l).twnPr = d.twnPr := rfl
@[simp] theorem Dev.setLine_sec (d : Dev) (l : Line) : (d.setLine l).sec = d.sec := rfl
@[simp] theorem Dev.setLine_secNv (d : Dev) (l : Line) : (d.setLine l).secNv = d.secNv := rfl
@[simp] theorem Dev.setLine_dbg (d : Dev) (l : Line) : (d.setLine l).dbg = d.dbg := rfl
@[simp] theorem Dev.setLine_out (d : Dev) (l : Line) : (d.setLine l).out = d.out := rfl
@[simp] theorem Dev.setLine_free (d : Dev) (l : Line) : (d.setLine l).free = d.free := rfl
@[simp] theorem Dev.setLine_now (d : Dev) (l : Line) : (d.setLine l).now = d.now := rfl

/-! ### setGroup -/

@[simp] theorem Dev.setGroup_jad (d : Dev) (t n : Nat) (g : Group → Group) : (d.setGroup t n g).jad = d.jad := rfl
@[simp] theorem Dev.setGroup_boot (d : Dev) (t n : Nat) (g : Group → Group) : (d.setGroup t n g).boot = d.boot := rfl
@[simp] theorem Dev.setGroup_flash (d : Dev) (t n : Nat) (g : Group → Group) : (d.setGroup t n g).flash = d.flash := rfl
@[simp] theorem Dev.setGroup_fuses (d : Dev) (t n : Nat) (g : Group → Group) : (d.setGroup t n g).fuses = d.fuses := rfl
@[simp] theorem Dev.setGroup_pwr (d : Dev) (t n : Nat) (g : Group → Group) : (d.setGroup t n g).pwr = d.pwr := rfl
@[simp] theorem Dev.setGroup_thm (d : Dev) (t n : Nat) (g : Group → Group) : (d.setGroup t n g).thm = d.thm := rfl
@[simp] theorem Dev.setGroup_flt (d : Dev) (t n : Nat) (g : Group → Group) : (d.setGroup t n g).flt = d.flt := rfl
@[simp] theorem Dev.setGroup_fct (d : Dev) (t n : Nat) (g : Group → Group) : (d.setGroup t n g).fct = d.fct := rfl
@[simp] theorem Dev.setGroup_mbx (d : Dev) (t n : Nat) (g : Group → Group) : (d.setGroup t n g).mbx = d.mbx := rfl
@[simp] theorem Dev.setGroup_tq (d : Dev) (t n : Nat) (g : Group → Group) : (d.setGroup t n g).tq = d.tq := rfl
@[simp] theorem Dev.setGroup_xlt (d : Dev) (t n : Nat) (g : Group → Group) : (d.setGroup t n g).xlt = d.xlt := rfl
@[simp] theorem Dev.setGroup_rm (d : Dev) (t n : Nat) (g : Group → Group) : (d.setGroup t n g).rm = d.rm := rfl
@[simp] theorem Dev.setGroup_fab (d : Dev) (t n : Nat) (g : Group → Group) : (d.setGroup t n g).fab = d.fab := rfl
@[simp] theorem Dev.setGroup_lnk (d : Dev) (t n : Nat) (g : Group → Group) : (d.setGroup t n g).lnk = d.lnk := rfl
@[simp] theorem Dev.setGroup_opt (d : Dev) (t n : Nat) (g : Group → Group) : (d.setGroup t n g).opt = d.opt := rfl
@[simp] theorem Dev.setGroup_las (d : Dev) (t n : Nat) (g : Group → Group) : (d.setGroup t n g).las = d.las := rfl
@[simp] theorem Dev.setGroup_cal (d : Dev) (t n : Nat) (g : Group → Group) : (d.setGroup t n g).cal = d.cal := rfl
@[simp] theorem Dev.setGroup_calNv (d : Dev) (t n : Nat) (g : Group → Group) : (d.setGroup t n g).calNv = d.calNv := rfl
@[simp] theorem Dev.setGroup_vlt (d : Dev) (t n : Nat) (g : Group → Group) : (d.setGroup t n g).vlt = d.vlt := rfl
@[simp] theorem Dev.setGroup_onyx (d : Dev) (t n : Nat) (g : Group → Group) : (d.setGroup t n g).onyx = d.onyx := rfl
@[simp] theorem Dev.setGroup_twn (d : Dev) (t n : Nat) (g : Group → Group) : (d.setGroup t n g).twn = d.twn := rfl
@[simp] theorem Dev.setGroup_twnPr (d : Dev) (t n : Nat) (g : Group → Group) : (d.setGroup t n g).twnPr = d.twnPr := rfl
@[simp] theorem Dev.setGroup_sec (d : Dev) (t n : Nat) (g : Group → Group) : (d.setGroup t n g).sec = d.sec := rfl
@[simp] theorem Dev.setGroup_secNv (d : Dev) (t n : Nat) (g : Group → Group) : (d.setGroup t n g).secNv = d.secNv := rfl
@[simp] theorem Dev.setGroup_dbg (d : Dev) (t n : Nat) (g : Group → Group) : (d.setGroup t n g).dbg = d.dbg := rfl
@[simp] theorem Dev.setGroup_out (d : Dev) (t n : Nat) (g : Group → Group) : (d.setGroup t n g).out = d.out := rfl
@[simp] theorem Dev.setGroup_free (d : Dev) (t n : Nat) (g : Group → Group) : (d.setGroup t n g).free = d.free := rfl
@[simp] theorem Dev.setGroup_now (d : Dev) (t n : Nat) (g : Group → Group) : (d.setGroup t n g).now = d.now := rfl

/-! ### setInst -/

@[simp] theorem Dev.setInst_jad (d : Dev) (x : Inst) : (d.setInst x).jad = d.jad := rfl
@[simp] theorem Dev.setInst_boot (d : Dev) (x : Inst) : (d.setInst x).boot = d.boot := rfl
@[simp] theorem Dev.setInst_flash (d : Dev) (x : Inst) : (d.setInst x).flash = d.flash := rfl
@[simp] theorem Dev.setInst_fuses (d : Dev) (x : Inst) : (d.setInst x).fuses = d.fuses := rfl
@[simp] theorem Dev.setInst_pwr (d : Dev) (x : Inst) : (d.setInst x).pwr = d.pwr := rfl
@[simp] theorem Dev.setInst_thm (d : Dev) (x : Inst) : (d.setInst x).thm = d.thm := rfl
@[simp] theorem Dev.setInst_flt (d : Dev) (x : Inst) : (d.setInst x).flt = d.flt := rfl
@[simp] theorem Dev.setInst_fct (d : Dev) (x : Inst) : (d.setInst x).fct = d.fct := rfl
@[simp] theorem Dev.setInst_mbx (d : Dev) (x : Inst) : (d.setInst x).mbx = d.mbx := rfl
@[simp] theorem Dev.setInst_tq (d : Dev) (x : Inst) : (d.setInst x).tq = d.tq := rfl
@[simp] theorem Dev.setInst_xlt (d : Dev) (x : Inst) : (d.setInst x).xlt = d.xlt := rfl
@[simp] theorem Dev.setInst_rm (d : Dev) (x : Inst) : (d.setInst x).rm = d.rm := rfl
@[simp] theorem Dev.setInst_fab (d : Dev) (x : Inst) : (d.setInst x).fab = d.fab := rfl
@[simp] theorem Dev.setInst_lnk (d : Dev) (x : Inst) : (d.setInst x).lnk = d.lnk := rfl
@[simp] theorem Dev.setInst_opt (d : Dev) (x : Inst) : (d.setInst x).opt = d.opt := rfl
@[simp] theorem Dev.setInst_las (d : Dev) (x : Inst) : (d.setInst x).las = d.las := rfl
@[simp] theorem Dev.setInst_cal (d : Dev) (x : Inst) : (d.setInst x).cal = d.cal := rfl
@[simp] theorem Dev.setInst_calNv (d : Dev) (x : Inst) : (d.setInst x).calNv = d.calNv := rfl
@[simp] theorem Dev.setInst_vlt (d : Dev) (x : Inst) : (d.setInst x).vlt = d.vlt := rfl
@[simp] theorem Dev.setInst_onyx (d : Dev) (x : Inst) : (d.setInst x).onyx = d.onyx := rfl
@[simp] theorem Dev.setInst_twn (d : Dev) (x : Inst) : (d.setInst x).twn = d.twn := rfl
@[simp] theorem Dev.setInst_twnPr (d : Dev) (x : Inst) : (d.setInst x).twnPr = d.twnPr := rfl
@[simp] theorem Dev.setInst_sec (d : Dev) (x : Inst) : (d.setInst x).sec = d.sec := rfl
@[simp] theorem Dev.setInst_secNv (d : Dev) (x : Inst) : (d.setInst x).secNv = d.secNv := rfl
@[simp] theorem Dev.setInst_dbg (d : Dev) (x : Inst) : (d.setInst x).dbg = d.dbg := rfl
@[simp] theorem Dev.setInst_out (d : Dev) (x : Inst) : (d.setInst x).out = d.out := rfl
@[simp] theorem Dev.setInst_free (d : Dev) (x : Inst) : (d.setInst x).free = d.free := rfl
@[simp] theorem Dev.setInst_now (d : Dev) (x : Inst) : (d.setInst x).now = d.now := rfl

/-! ### setVer -/

@[simp] theorem Dev.setVer_jad (d : Dev) (v w : Ver) : (d.setVer v w).jad = d.jad := rfl
@[simp] theorem Dev.setVer_boot (d : Dev) (v w : Ver) : (d.setVer v w).boot = d.boot := rfl
@[simp] theorem Dev.setVer_flash (d : Dev) (v w : Ver) : (d.setVer v w).flash = d.flash := rfl
@[simp] theorem Dev.setVer_fuses (d : Dev) (v w : Ver) : (d.setVer v w).fuses = d.fuses := rfl
@[simp] theorem Dev.setVer_pwr (d : Dev) (v w : Ver) : (d.setVer v w).pwr = d.pwr := rfl
@[simp] theorem Dev.setVer_thm (d : Dev) (v w : Ver) : (d.setVer v w).thm = d.thm := rfl
@[simp] theorem Dev.setVer_flt (d : Dev) (v w : Ver) : (d.setVer v w).flt = d.flt := rfl
@[simp] theorem Dev.setVer_fct (d : Dev) (v w : Ver) : (d.setVer v w).fct = d.fct := rfl
@[simp] theorem Dev.setVer_mbx (d : Dev) (v w : Ver) : (d.setVer v w).mbx = d.mbx := rfl
@[simp] theorem Dev.setVer_tq (d : Dev) (v w : Ver) : (d.setVer v w).tq = d.tq := rfl
@[simp] theorem Dev.setVer_xlt (d : Dev) (v w : Ver) : (d.setVer v w).xlt = d.xlt := rfl
@[simp] theorem Dev.setVer_rm (d : Dev) (v w : Ver) : (d.setVer v w).rm = d.rm := rfl
@[simp] theorem Dev.setVer_col (d : Dev) (v w : Ver) : (d.setVer v w).col = d.col := rfl
@[simp] theorem Dev.setVer_fab (d : Dev) (v w : Ver) : (d.setVer v w).fab = d.fab := rfl
@[simp] theorem Dev.setVer_lnk (d : Dev) (v w : Ver) : (d.setVer v w).lnk = d.lnk := rfl
@[simp] theorem Dev.setVer_opt (d : Dev) (v w : Ver) : (d.setVer v w).opt = d.opt := rfl
@[simp] theorem Dev.setVer_las (d : Dev) (v w : Ver) : (d.setVer v w).las = d.las := rfl
@[simp] theorem Dev.setVer_cal (d : Dev) (v w : Ver) : (d.setVer v w).cal = d.cal := rfl
@[simp] theorem Dev.setVer_calNv (d : Dev) (v w : Ver) : (d.setVer v w).calNv = d.calNv := rfl
@[simp] theorem Dev.setVer_vlt (d : Dev) (v w : Ver) : (d.setVer v w).vlt = d.vlt := rfl
@[simp] theorem Dev.setVer_twn (d : Dev) (v w : Ver) : (d.setVer v w).twn = d.twn := rfl
@[simp] theorem Dev.setVer_twnPr (d : Dev) (v w : Ver) : (d.setVer v w).twnPr = d.twnPr := rfl
@[simp] theorem Dev.setVer_sec (d : Dev) (v w : Ver) : (d.setVer v w).sec = d.sec := rfl
@[simp] theorem Dev.setVer_secNv (d : Dev) (v w : Ver) : (d.setVer v w).secNv = d.secNv := rfl
@[simp] theorem Dev.setVer_dbg (d : Dev) (v w : Ver) : (d.setVer v w).dbg = d.dbg := rfl
@[simp] theorem Dev.setVer_out (d : Dev) (v w : Ver) : (d.setVer v w).out = d.out := rfl
@[simp] theorem Dev.setVer_free (d : Dev) (v w : Ver) : (d.setVer v w).free = d.free := rfl
@[simp] theorem Dev.setVer_now (d : Dev) (v w : Ver) : (d.setVer v w).now = d.now := rfl

/-! ### setPages -/

@[simp] theorem Dev.setPages_jad (d : Dev) (ps : List PageReq) : (d.setPages ps).jad = d.jad := rfl
@[simp] theorem Dev.setPages_boot (d : Dev) (ps : List PageReq) : (d.setPages ps).boot = d.boot := rfl
@[simp] theorem Dev.setPages_flash (d : Dev) (ps : List PageReq) : (d.setPages ps).flash = d.flash := rfl
@[simp] theorem Dev.setPages_fuses (d : Dev) (ps : List PageReq) : (d.setPages ps).fuses = d.fuses := rfl
@[simp] theorem Dev.setPages_pwr (d : Dev) (ps : List PageReq) : (d.setPages ps).pwr = d.pwr := rfl
@[simp] theorem Dev.setPages_thm (d : Dev) (ps : List PageReq) : (d.setPages ps).thm = d.thm := rfl
@[simp] theorem Dev.setPages_flt (d : Dev) (ps : List PageReq) : (d.setPages ps).flt = d.flt := rfl
@[simp] theorem Dev.setPages_fct (d : Dev) (ps : List PageReq) : (d.setPages ps).fct = d.fct := rfl
@[simp] theorem Dev.setPages_mbx (d : Dev) (ps : List PageReq) : (d.setPages ps).mbx = d.mbx := rfl
@[simp] theorem Dev.setPages_tq (d : Dev) (ps : List PageReq) : (d.setPages ps).tq = d.tq := rfl
@[simp] theorem Dev.setPages_rm (d : Dev) (ps : List PageReq) : (d.setPages ps).rm = d.rm := rfl
@[simp] theorem Dev.setPages_col (d : Dev) (ps : List PageReq) : (d.setPages ps).col = d.col := rfl
@[simp] theorem Dev.setPages_fab (d : Dev) (ps : List PageReq) : (d.setPages ps).fab = d.fab := rfl
@[simp] theorem Dev.setPages_lnk (d : Dev) (ps : List PageReq) : (d.setPages ps).lnk = d.lnk := rfl
@[simp] theorem Dev.setPages_opt (d : Dev) (ps : List PageReq) : (d.setPages ps).opt = d.opt := rfl
@[simp] theorem Dev.setPages_las (d : Dev) (ps : List PageReq) : (d.setPages ps).las = d.las := rfl
@[simp] theorem Dev.setPages_cal (d : Dev) (ps : List PageReq) : (d.setPages ps).cal = d.cal := rfl
@[simp] theorem Dev.setPages_calNv (d : Dev) (ps : List PageReq) : (d.setPages ps).calNv = d.calNv := rfl
@[simp] theorem Dev.setPages_vlt (d : Dev) (ps : List PageReq) : (d.setPages ps).vlt = d.vlt := rfl
@[simp] theorem Dev.setPages_onyx (d : Dev) (ps : List PageReq) : (d.setPages ps).onyx = d.onyx := rfl
@[simp] theorem Dev.setPages_twn (d : Dev) (ps : List PageReq) : (d.setPages ps).twn = d.twn := rfl
@[simp] theorem Dev.setPages_twnPr (d : Dev) (ps : List PageReq) : (d.setPages ps).twnPr = d.twnPr := rfl
@[simp] theorem Dev.setPages_sec (d : Dev) (ps : List PageReq) : (d.setPages ps).sec = d.sec := rfl
@[simp] theorem Dev.setPages_secNv (d : Dev) (ps : List PageReq) : (d.setPages ps).secNv = d.secNv := rfl
@[simp] theorem Dev.setPages_dbg (d : Dev) (ps : List PageReq) : (d.setPages ps).dbg = d.dbg := rfl
@[simp] theorem Dev.setPages_out (d : Dev) (ps : List PageReq) : (d.setPages ps).out = d.out := rfl
@[simp] theorem Dev.setPages_free (d : Dev) (ps : List PageReq) : (d.setPages ps).free = d.free := rfl
@[simp] theorem Dev.setPages_now (d : Dev) (ps : List PageReq) : (d.setPages ps).now = d.now := rfl

end Sys2Proof.Machine
end

