-- ==== Sys2Proof/Laws/Answer.lean ====
section
/-! SUPPORT. What sending an answer, a notice, a vector or a journal entry can change. -/

namespace Sys2Proof.Machine

/-- `e` is `d` but for the rings and vectors of functions, the flits and messages on their way out, the MCTP command outstanding, and the
journal's next number, guarded effects and waiting entries, and the number of the next Twin message. -/
def OnlyAnswers (d e : Dev) : Prop :=
  ∃ (fns : Tab Fn) (b : Bool) (ps : Tab HPort) (n : Nat) (gs : List (Nat × Guard)) (w : List (JEntry × Option Guard)) (m : Nat) (o : List Out),
    e = { d with mbx.fns := fns, mbx.mctpBusy := b, fct.ports := ps, twn.jnext := n, twn.guards := gs, twn.jwait := w, twn.mseq := m, out := o }

theorem OnlyAnswers.refl (d : Dev) : OnlyAnswers d d := ⟨_, _, _, _, _, _, _, _, rfl⟩

theorem OnlyAnswers.trans {a b c : Dev} (h : OnlyAnswers a b) (h' : OnlyAnswers b c) : OnlyAnswers a c := by
  obtain ⟨_, _, _, _, _, _, _, _, rfl⟩ := h
  obtain ⟨_, _, _, _, _, _, _, _, rfl⟩ := h'
  exact ⟨_, _, _, _, _, _, _, _, rfl⟩

theorem onlyAnswers_emit (d : Dev) (o : Out) : OnlyAnswers d (d.emit o) := ⟨_, _, _, _, _, _, _, _, rfl⟩

theorem onlyAnswers_emits (d : Dev) (os : List Out) : OnlyAnswers d (d.emits os) := by
  unfold Dev.emits
  induction os generalizing d with
  | nil => exact .refl d
  | cons x r ih => exact (onlyAnswers_emit d x).trans (ih _)

theorem onlyAnswers_setFn (d : Dev) (f : Nat) (g : Fn → Fn) : OnlyAnswers d (d.setFn f g) := ⟨_, _, _, _, _, _, _, _, rfl⟩
theorem onlyAnswers_setHport (d : Dev) (p : Nat) (g : HPort → HPort) : OnlyAnswers d (d.setHport p g) := ⟨_, _, _, _, _, _, _, _, rfl⟩

theorem onlyAnswers_facet (d : Dev) (p ch n : Nat) (m : Out) : OnlyAnswers d (d.facet p ch n m) :=
  (onlyAnswers_setHport d p _).trans ((onlyAnswers_setHport _ p _).trans (onlyAnswers_emits _ _))

/-- Signalling a vector. -/
theorem onlyAnswers_signal (d : Dev) (f v : Nat) : OnlyAnswers d (d.signal f v) := by
  unfold Dev.signal
  split
  · simp only
    split
    · exact onlyAnswers_emit ..
    · exact onlyAnswers_facet ..
  · exact onlyAnswers_setFn ..

theorem onlyAnswers_ringNotice (d : Dev) (f : Nat) (r : Reply) : OnlyAnswers d (d.ringNotice f r) := by
  unfold Dev.ringNotice
  split
  · exact onlyAnswers_setFn ..
  · exact (onlyAnswers_setFn ..).trans (onlyAnswers_signal ..)

/-- A notice of a function. -/
theorem onlyAnswers_notice (d : Dev) (f : Nat) (r : Reply) : OnlyAnswers d (d.notice f r) := by
  unfold Dev.notice
  simp only
  split
  · exact onlyAnswers_ringNotice ..
  · split
    · exact onlyAnswers_facet ..
    · split <;> exact onlyAnswers_setFn ..

/-- A journal entry. -/
theorem onlyAnswers_jsend (d : Dev) (e : JEntry) (g : Option Guard) : OnlyAnswers d (d.jsend e g) := by
  unfold Dev.jsend
  split
  · exact (onlyAnswers_emit d _).trans ⟨_, _, _, _, _, _, _, _, rfl⟩
  · exact ⟨_, _, _, _, _, _, _, _, rfl⟩

theorem onlyAnswers_journal (d : Dev) (k t ref v : Nat) (c : List W64) : OnlyAnswers d (d.journal k t ref v c) := by
  unfold Dev.journal
  split
  · exact onlyAnswers_jsend ..
  · exact .refl d

/-- A response in its slot. -/
theorem onlyAnswers_putRsp (d : Dev) (f : Nat) (b : Bool) (r : Reply) : OnlyAnswers d (d.putRsp f b r) := by
  unfold Dev.putRsp
  simp only
  split
  · exact onlyAnswers_setFn ..
  · exact (onlyAnswers_setFn ..).trans (onlyAnswers_signal ..)

/-- A response for a ring, in its slot or held. -/
theorem onlyAnswers_ringRsp (d : Dev) (f : Nat) (b : Bool) (r : Reply) : OnlyAnswers d (d.ringRsp f b r) := by
  unfold Dev.ringRsp
  split
  · exact onlyAnswers_setFn ..
  · exact onlyAnswers_putRsp ..

/-- A response or a final notice on its path. -/
theorem onlyAnswers_send (d : Dev) (p : Path) (b : Bool) (r : Reply) : OnlyAnswers d (d.send p b r) := by
  unfold Dev.send
  split
  · split
    · exact (onlyAnswers_emit d _).trans ⟨_, _, _, _, _, _, _, _, rfl⟩
    · exact onlyAnswers_notice ..
  · split
    · exact onlyAnswers_ringRsp ..
    · exact onlyAnswers_facet ..
    · exact onlyAnswers_emit ..

@[simp] theorem Dev.queue_journal (d : Dev) (k t ref v : Nat) (c : List W64) (gq : Nat) : (d.journal k t ref v c).queue gq = d.queue gq := by
  obtain ⟨_, _, _, _, _, _, _, _, h⟩ := onlyAnswers_journal d k t ref v c
  rw [h]; rfl

@[simp] theorem Dev.ten_journal (d : Dev) (k t ref v : Nat) (c : List W64) (u : Nat) : (d.journal k t ref v c).ten u = d.ten u := by
  obtain ⟨_, _, _, _, _, _, _, _, h⟩ := onlyAnswers_journal d k t ref v c
  rw [h]; rfl

theorem OnlyAnswers.ite {d a b : Dev} {p : Prop} [Decidable p] (h : OnlyAnswers d a) (h' : OnlyAnswers d b) : OnlyAnswers d (if p then a else b) := by
  split
  · exact h
  · exact h'

theorem onlyAnswers_hold (d : Dev) (t k p v : Nat) (g : Guard) (c : List W64) : OnlyAnswers d (d.hold t k p v g c) := by
  unfold Dev.hold; exact onlyAnswers_jsend ..

/-- A response on its path: beside the answer, FW_INTERNAL where a fresh one says INTERNAL. -/
theorem onlyAnswers_respond (d : Dev) (p : Path) (b : Bool) (r : Reply) :
    OnlyAnswers (d.postIf (decide (r.status = .internal) && !r.replayed) Src.fwInternal 0) (d.respond p b r) := by
  unfold Dev.respond
  refine OnlyAnswers.trans (OnlyAnswers.ite (onlyAnswers_setFn ..) (.refl _)) (OnlyAnswers.ite (onlyAnswers_hold ..) (onlyAnswers_send ..))

theorem onlyAnswers_mctpBusy (d : Dev) (b : Bool) : OnlyAnswers d { d with mbx.mctpBusy := b } := ⟨_, _, _, _, _, _, _, _, rfl⟩

theorem postIf_mctpBusy (d : Dev) (b w : Bool) (s u : Nat) : Dev.postIf { d with mbx.mctpBusy := b } w s u = { d.postIf w s u with mbx.mctpBusy := b } := by
  cases w <;> rfl

/-- The answer of a command. -/
theorem onlyAnswers_reply (d : Dev) (op : Nat) (r : Req) (st : Status) (l : List Nat) :
    OnlyAnswers (d.postIf (decide (st = .internal)) Src.fwInternal 0) (d.reply op r st l) := by
  unfold Dev.reply
  split
  · refine OnlyAnswers.trans ?_ (onlyAnswers_respond ..)
    simp only [postIf_mctpBusy, Bool.not_false, Bool.and_true]
    exact onlyAnswers_mctpBusy ..
  · refine OnlyAnswers.trans ?_ (onlyAnswers_respond ..)
    simp only [Bool.not_false, Bool.and_true]
    exact .refl _

/-- A kept response given again fires nothing. -/
theorem onlyAnswers_again (d : Dev) (r : Req) (op : Nat) (k : Reply) : OnlyAnswers d (d.again r op k) := by
  have key : ∀ (e : Dev) (p : Path), OnlyAnswers e (e.respond p r.noIrq { k with replayed := true }) := fun e p => by
    simpa [Dev.postIf] using onlyAnswers_respond e p r.noIrq { k with replayed := true }
  unfold Dev.again
  have h : OnlyAnswers d (if r.path = .mctp then { d with mbx.mctpBusy := false } else d) := .ite (onlyAnswers_mctpBusy ..) (.refl _)
  refine h.trans ?_
  generalize (if r.path = .mctp then { d with mbx.mctpBusy := false } else d) = e
  split
  · exact key ..
  · exact OnlyAnswers.ite (.refl _) (key ..)

end Sys2Proof.Machine
end

