-- ==== Sys2Proof/Laws/Run.lean ====
section
/-! SUPPORT. What a meaning can answer, the end of a step, and the step itself. -/

namespace Sys2Proof.Machine

/-- A meaning over the device answers a next state. -/
theorem State.run_eq (s : State) (f : Dev → Dev) : s.run f = .next (s.withDev (f s.dev)) := rfl

/-- A meaning that names a unit answers a next state where the unit exists, else the fault. -/
theorem State.runIf_eq (s : State) (ok : Bool) (f : Dev → Dev) :
    s.runIf ok f = if ok then .next (s.withDev (f s.dev)) else .fault .noSuchUnit := rfl

@[simp] theorem State.runIf_true (s : State) (f : Dev → Dev) : s.runIf true f = .next (s.withDev (f s.dev)) := rfl
@[simp] theorem State.runIf_false (s : State) (f : Dev → Dev) : s.runIf false f = .fault .noSuchUnit := rfl

/-- A packet takes its effect at once where the device runs and nothing waits before it. -/
theorem State.admit_running (s : State) (ok : Bool) (i : Late) (f : Dev → Dev) (h : ok = true) (hs : s.dev.dbg.st ≠ .stopped)
    (hi : s.dev.dbg.ingress = []) : s.intake ok i f = .next (s.withDev (f s.dev)) := by
  simp [State.intake, h, hs, hi]

/-- A packet waits where the device is stopped. -/
theorem State.admit_stopped (s : State) (ok : Bool) (i : Late) (f : Dev → Dev) (h : ok = true) (hs : s.dev.dbg.st = .stopped) :
    s.intake ok i f = .next (s.withDev { s.dev with dbg.ingress := s.dev.dbg.ingress ++ [i] }) := by
  simp [State.intake, h, hs]

/-- Nothing happens at the end of a step in which no fault has fired. -/
theorem Dev.settle_of_no_due (d : Dev) (h : d.flt.due = []) : d.settle = d := by
  unfold Dev.settle Dev.settleN
  rw [h]
  rfl

/-- Faults with a source outside the table go without effect (20 R826). -/
theorem Dev.handle_unknown (d : Dev) (p : Post) (h : resetClass p.src = none) : d.handle p = d := by
  simp [Dev.handle, h]

/-- A step takes the command at the front and runs it on the rest of the queue. -/
theorem step_cons (s : State) (c : Instr) (r : List Instr) (h : s.pending = c :: r) : step s = exec c { s with pending := r } := by
  simp [step, h]

/-- A step with no command waiting is a tick. -/
theorem step_nil (s : State) (h : s.pending = []) : step s = .next { s with dev := s.dev.tick } := by
  simp [step, h]

end Sys2Proof.Machine
end

