-- ==== Sys2Proof/Laws/Arrive.lean ====
section
/-! SUPPORT. What arrives and is served: a packet, a collective message and a request of a compute die. -/

namespace Sys2Proof.Machine

/-- Work that comes wakes the device and changes no port. -/
@[simp] theorem Dev.hport_wake (d : Dev) (p : Nat) : d.wake.hport p = d.hport p := by
  unfold Dev.wake
  split <;> rfl

/-- A packet that this device serves. -/
theorem Dev.arrive_takes {d : Dev} {t : PType} {k k' : Pkt} {b : Body} (serve : Dev → Pkt → Dev) (ht : t ≠ .unknown) (h : d.takesPacket t k b k') :
    d.arrive t k b serve = serve (d.wake.received t k') k' := by
  obtain ⟨-, -, hb, hm, hp, ha, hu⟩ := h
  have ha' : (k.alias_ && !d.serves k.dstTen) = false := by
    cases h : k.alias_
    · rfl
    · simp [ha h]
  simp [Dev.arrive, hb, ht, hm, hp, ha', hu]

/-- A collective message that this device serves, but for a refusal and for one of the failed partner. -/
theorem Dev.collIn_takes {d : Dev} {kind : Nat} {m m' : CollMsg} {f f' : FinalInfo} (h : d.takesColl kind m f m' f') (hr : kind = 5 → f'.refusal = false)
    (hs : kind = 4 → m'.toNode = none) : d.collIn kind m f = ((d.notifyMark .coll (d.collHeader kind m)).collCounted kind m').collTake kind m' f' := by
  obtain ⟨-, -, hb, hp, hp', ha, ho, hf, hc⟩ := h
  have ha' : (m.toNode.isNone && !d.serves m.tenant) = false := by
    cases h : m.toNode
    · simp [ha h]
    · simp
  have h5 : (decide (kind = 5) && f'.refusal) = false := by
    by_cases h : kind = 5
    · simp [hr h]
    · simp [h]
  have h4 : (decide (kind = 4) && m'.toNode.isSome) = false := by
    by_cases h : kind = 4
    · simp [hs h]
    · simp [h]
  unfold Dev.collIn
  simp only [hb, ha', hp, ho, if_true, Bool.false_eq_true, if_false]
  unfold Dev.coll
  simp only [hf, hp', h5, h4, hc, Bool.false_or, Bool.not_true, Bool.false_and, Bool.false_eq_true, if_false]

/-- A compute die's request for which the buffer has a unit. -/
theorem Dev.dieMsg_takes {d x : Dev} {kind p : Nat} {m : MemMsg} (h : d.takesDie kind p m) (hc : d.wake.claim 0 m.tenant 1 = (x, true)) :
    d.dieMsg kind p m = x.dieRun kind p m := by
  obtain ⟨-, -, -, ha, hm, hw⟩ := h
  have hw' : ((d.hport p).memWait.any fun x => decide (x.2.tenant = m.tenant)) = false := by
    simpa using hw
  simp only [Dev.dieMsg, Dev.hport_wake, ha, hm, hw', hc, ne_eq, not_true, if_false, Bool.not_true, Bool.false_eq_true]

end Sys2Proof.Machine
end

