-- ==== Sys2Proof/Laws/Crypto.lean ====
section
/-! SUPPORT. What the algorithms of 19 R786 undo: decryption of a block undoes its encryption (FIPS 197), and with it key unwrap undoes key wrap
(SP 800-38F), GCM decryption GCM encryption (SP 800-38D) and XTS decryption of whole blocks their encryption (SP 800-38E); and a PVK arrives as it was wrapped
(19 R803). -/

namespace Sys2Proof.Machine

/-! ### GF(2^8) as a field: products are linear in each factor, so that the field's laws follow from the eight bits -/

theorem xor_twice (a b p : Byte) : a ^^^ b = a ^^^ p ^^^ (b ^^^ p) := by
  rw [show a ^^^ p ^^^ (b ^^^ p) = a ^^^ b ^^^ (p ^^^ p) by ac_rfl]; simp

theorem gfTwice_xor (p x y : Byte) : gfTwice p (x ^^^ y) = gfTwice p x ^^^ gfTwice p y := by
  unfold gfTwice
  rw [BitVec.getLsbD_xor]
  cases x.getLsbD 7 <;> cases y.getLsbD 7 <;> simp only [BitVec.shiftLeft_xor_distrib, Bool.xor_false, Bool.xor_true, Bool.not_true, Bool.not_false, Bool.false_eq_true, if_true, if_false] <;>
    first | exact xor_twice _ _ _ | ac_rfl

theorem gfMul_xor (p a b x y : Byte) : gfMul p (a ^^^ b) x = gfMul p a x ^^^ gfMul p b x ∧ gfMul p a (x ^^^ y) = gfMul p a x ^^^ gfMul p a y := by
  have step : ∀ (l : List Nat) (f g : Nat → Byte) (r s : Byte), l.foldl (fun r i => gfTwice p r ^^^ (f i ^^^ g i)) (r ^^^ s) =
      l.foldl (fun r i => gfTwice p r ^^^ f i) r ^^^ l.foldl (fun r i => gfTwice p r ^^^ g i) s := by
    intro l f g
    induction l with
    | nil => intro r s; rfl
    | cons i l ih =>
      intro r s
      simp only [List.foldl_cons, gfTwice_xor]
      rw [← ih]
      congr 1
      ac_rfl
  have sum : ∀ (f g h : Nat → Byte), (∀ i, h i = f i ^^^ g i) → [7, 6, 5, 4, 3, 2, 1, 0].foldl (fun r i => gfTwice p r ^^^ h i) 0 =
      [7, 6, 5, 4, 3, 2, 1, 0].foldl (fun r i => gfTwice p r ^^^ f i) 0 ^^^ [7, 6, 5, 4, 3, 2, 1, 0].foldl (fun r i => gfTwice p r ^^^ g i) 0 := by
    intro f g h e
    rw [← step, show h = fun i => f i ^^^ g i from funext e]
    rfl
  refine ⟨sum _ _ _ fun i => ?_, sum _ _ _ fun i => ?_⟩
  · cases x.getLsbD i <;> simp
  · rw [BitVec.getLsbD_xor]
    cases x.getLsbD i <;> cases y.getLsbD i <;> simp

/-- A byte is the sum of its bits. -/
theorem byte_bits : ∀ x : Byte, x = (List.range 8).foldl (fun a i => a ^^^ (if x.getLsbD i then BitVec.twoPow 8 i else 0)) 0 := by decide +kernel

/-- Two linear maps that agree on the eight bits agree. -/
theorem linear_ext {f g : Byte → Byte} (hf : ∀ x y, f (x ^^^ y) = f x ^^^ f y) (hg : ∀ x y, g (x ^^^ y) = g x ^^^ g y)
    (h : ∀ i < 8, f (BitVec.twoPow 8 i) = g (BitVec.twoPow 8 i)) (x : Byte) : f x = g x := by
  have zero : ∀ {k : Byte → Byte}, (∀ x y, k (x ^^^ y) = k x ^^^ k y) → k 0 = 0 := fun {k} hk => by simpa using hk 0 0
  have fold : ∀ (l : List Nat) (a : Byte), (∀ i ∈ l, i < 8) → f a = g a →
      f (l.foldl (fun a i => a ^^^ (if x.getLsbD i then BitVec.twoPow 8 i else 0)) a) = g (l.foldl (fun a i => a ^^^ (if x.getLsbD i then BitVec.twoPow 8 i else 0)) a) := by
    intro l
    induction l with
    | nil => intro a _ e; exact e
    | cons i l ih =>
      intro a hl e
      refine ih _ (fun j hj => hl j (by simp [hj])) ?_
      rw [hf, hg, e]
      congr 1
      split
      · exact h i (hl i (by simp))
      · rw [zero hf, zero hg]
  rw [byte_bits x]
  exact fold _ _ (by simp) (by rw [zero hf, zero hg])

theorem gfMul_assoc (a b c : Byte) : gfMul aesPoly (gfMul aesPoly a b) c = gfMul aesPoly a (gfMul aesPoly b c) := by
  have l := fun a b x => (gfMul_xor aesPoly a b x 0).1
  have r := fun a x y => (gfMul_xor aesPoly a 0 x y).2
  refine linear_ext (f := fun c => gfMul aesPoly (gfMul aesPoly a b) c) (g := fun c => gfMul aesPoly a (gfMul aesPoly b c)) (by simp [r]) (by simp [r]) (fun k hk => ?_) c
  refine linear_ext (f := fun b => gfMul aesPoly (gfMul aesPoly a b) (BitVec.twoPow 8 k)) (g := fun b => gfMul aesPoly a (gfMul aesPoly b (BitVec.twoPow 8 k))) (by simp [r, l]) (by simp [r, l]) (fun j hj => ?_) b
  refine linear_ext (f := fun a => gfMul aesPoly (gfMul aesPoly a (BitVec.twoPow 8 j)) (BitVec.twoPow 8 k)) (g := fun a => gfMul aesPoly a (gfMul aesPoly (BitVec.twoPow 8 j) (BitVec.twoPow 8 k))) (by simp [l]) (by simp [l]) (fun i hi => ?_) a
  have basis : ∀ i < 8, ∀ j < 8, ∀ k < 8, gfMul aesPoly (gfMul aesPoly (BitVec.twoPow 8 i) (BitVec.twoPow 8 j)) (BitVec.twoPow 8 k) =
      gfMul aesPoly (BitVec.twoPow 8 i) (gfMul aesPoly (BitVec.twoPow 8 j) (BitVec.twoPow 8 k)) := by decide +kernel
  exact basis i hi j hj k hk

theorem gfMul_comm (a b : Byte) : gfMul aesPoly a b = gfMul aesPoly b a := by
  have l := fun a b x => (gfMul_xor aesPoly a b x 0).1
  have r := fun a x y => (gfMul_xor aesPoly a 0 x y).2
  refine linear_ext (f := fun a => gfMul aesPoly a b) (g := fun a => gfMul aesPoly b a) (by simp [l]) (by simp [r]) (fun i hi => ?_) a
  refine linear_ext (f := fun b => gfMul aesPoly (BitVec.twoPow 8 i) b) (g := fun b => gfMul aesPoly b (BitVec.twoPow 8 i)) (by simp [r]) (by simp [l]) (fun j hj => ?_) b
  have basis : ∀ i < 8, ∀ j < 8, gfMul aesPoly (BitVec.twoPow 8 i) (BitVec.twoPow 8 j) = gfMul aesPoly (BitVec.twoPow 8 j) (BitVec.twoPow 8 i) := by decide +kernel
  exact basis i hi j hj

theorem gfMul_one (a : Byte) : gfMul aesPoly 1 a = a :=
  linear_ext (f := fun a => gfMul aesPoly 1 a) (g := id) (fun x y => (gfMul_xor aesPoly 1 0 x y).2) (fun _ _ => rfl) (by decide +kernel) a

theorem gfPow_add (a : Byte) (m n : Nat) : gfPow aesPoly a (m + n) = gfMul aesPoly (gfPow aesPoly a m) (gfPow aesPoly a n) := by
  induction m with
  | zero => rw [Nat.zero_add, gfPow, gfMul_one]
  | succ m ih => rw [Nat.succ_add, gfPow, gfPow, ih, gfMul_assoc]

theorem gfPow_mul (a : Byte) (m n : Nat) : gfPow aesPoly (gfPow aesPoly a m) n = gfPow aesPoly a (m * n) := by
  induction n with
  | zero => rfl
  | succ n ih => rw [gfPow, ih, ← gfPow_add]; congr 1; rw [Nat.mul_succ, Nat.add_comm]

/-- Squaring is linear. -/
theorem gfPow_two_xor (x y : Byte) : gfPow aesPoly (x ^^^ y) 2 = gfPow aesPoly x 2 ^^^ gfPow aesPoly y 2 := by
  have sq : ∀ a, gfPow aesPoly a 2 = gfMul aesPoly a a := fun a => by
    rw [gfPow, gfPow, gfPow, gfMul_comm a 1, gfMul_one]
  rw [sq, sq, sq, (gfMul_xor aesPoly x y _ 0).1, (gfMul_xor aesPoly x 0 x y).2, (gfMul_xor aesPoly y 0 x y).2, gfMul_comm y x]
  generalize gfMul aesPoly x x = p
  generalize gfMul aesPoly x y = r
  generalize gfMul aesPoly y y = t
  rw [show p ^^^ r ^^^ (r ^^^ t) = p ^^^ t ^^^ (r ^^^ r) by ac_rfl]
  simp

/-- a^256 = a. -/
theorem gfPow_256 (a : Byte) : gfPow aesPoly a 256 = a := by
  have lin : ∀ n, ∀ x y : Byte, gfPow aesPoly (x ^^^ y) (2 ^ n) = gfPow aesPoly x (2 ^ n) ^^^ gfPow aesPoly y (2 ^ n) := by
    intro n
    induction n with
    | zero => intro x y; simp only [Nat.pow_zero, gfPow]; rw [gfMul_comm _ 1, gfMul_comm x 1, gfMul_comm y 1, gfMul_one, gfMul_one, gfMul_one]
    | succ n ih => intro x y; rw [Nat.pow_succ, ← gfPow_mul, ih, gfPow_two_xor, gfPow_mul, gfPow_mul]
  exact linear_ext (f := fun a => gfPow aesPoly a (2 ^ 8)) (g := id) (lin 8) (fun _ _ => rfl) (by
    have sq : ∀ a n, gfPow aesPoly a (2 ^ (n + 1)) = gfPow aesPoly (gfPow aesPoly a 2) (2 ^ n) := fun a n => by rw [gfPow_mul, Nat.pow_succ, Nat.mul_comm]
    have one : ∀ a, gfPow aesPoly a (2 ^ 0) = a := fun a => by rw [Nat.pow_zero, gfPow, gfPow, gfMul_comm, gfMul_one]
    intro i hi
    simp only [sq _ 7, sq _ 6, sq _ 5, sq _ 4, sq _ 3, sq _ 2, sq _ 1, sq _ 0, one, id]
    revert i
    decide +kernel) a

theorem gfInv_gfInv (a : Byte) : gfPow aesPoly (gfPow aesPoly a 254) 254 = a := by
  rw [gfPow_mul]
  have cyc : ∀ n, gfPow aesPoly a (n + 1 + 255) = gfPow aesPoly a (n + 1) := fun n => by
    rw [show n + 1 + 255 = n + 256 by rfl, gfPow_add, gfPow_256, gfPow, gfMul_comm]
  have all : ∀ k, gfPow aesPoly a (255 * k + 1) = a := fun k => by
    induction k with
    | zero => rw [Nat.mul_zero, gfPow, gfPow, gfMul_comm, gfMul_one]
    | succ k ih => rw [show 255 * (k + 1) + 1 = 255 * k + 1 + 255 by omega, cyc, ih]
  exact all 253

theorem unsub_sub (a : Byte) : unsubByte (subByte a) = a := by
  have affine : ∀ b : Byte, (b ^^^ b.rotateLeft 1 ^^^ b.rotateLeft 2 ^^^ b.rotateLeft 3 ^^^ b.rotateLeft 4 ^^^ 0x63).rotateLeft 1 ^^^
      (b ^^^ b.rotateLeft 1 ^^^ b.rotateLeft 2 ^^^ b.rotateLeft 3 ^^^ b.rotateLeft 4 ^^^ 0x63).rotateLeft 3 ^^^
      (b ^^^ b.rotateLeft 1 ^^^ b.rotateLeft 2 ^^^ b.rotateLeft 3 ^^^ b.rotateLeft 4 ^^^ 0x63).rotateLeft 6 ^^^ 0x05 = b := by decide +kernel
  simp only [unsubByte, subByte, affine, gfInv_gfInv]

/-! ### The block cipher -/

theorem xorBytes_xorBytes {a k : List Byte} (h : a.length ≤ k.length) : xorBytes (xorBytes a k) k = a := by
  induction a generalizing k with
  | nil => rfl
  | cons x a ih =>
    cases k with
    | nil => simp at h
    | cons y k =>
      have := ih (k := k) (by simpa using h)
      simp only [xorBytes, List.zipWith_cons_cons] at this ⊢
      rw [this, BitVec.xor_assoc, BitVec.xor_self, BitVec.xor_zero]

@[simp] theorem length_xorBytes (a b : List Byte) : (xorBytes a b).length = min a.length b.length := by simp [xorBytes]
@[simp] theorem length_shiftRows (s : List Byte) : (shiftRows s).length = 16 := by simp [shiftRows]
@[simp] theorem length_mixWith (m s : List Byte) : (mixWith m s).length = 16 := by simp [mixWith]

/-- A block as its sixteen bytes. -/
theorem block_cases {P : List Byte → Prop} (h : ∀ a0 a1 a2 a3 a4 a5 a6 a7 a8 a9 a10 a11 a12 a13 a14 a15, P [a0, a1, a2, a3, a4, a5, a6, a7, a8, a9, a10, a11, a12, a13, a14, a15])
    {s : List Byte} (hs : s.length = 16) : P s := by
  match s, hs with
  | [a0, a1, a2, a3, a4, a5, a6, a7, a8, a9, a10, a11, a12, a13, a14, a15], _ => exact h _ _ _ _ _ _ _ _ _ _ _ _ _ _ _ _

theorem unshift_shift {s : List Byte} (hs : s.length = 16) : unshiftRows (shiftRows s) = s := by
  refine block_cases (P := fun s => unshiftRows (shiftRows s) = s) ?_ hs
  intros
  rfl

/-- One column: the inverse matrix times the matrix is the identity. -/
theorem column_mix (a b c d : Byte) :
    (0 ^^^ gfMul aesPoly 14 (0 ^^^ gfMul aesPoly 2 a ^^^ gfMul aesPoly 3 b ^^^ gfMul aesPoly 1 c ^^^ gfMul aesPoly 1 d)
      ^^^ gfMul aesPoly 11 (0 ^^^ gfMul aesPoly 1 a ^^^ gfMul aesPoly 2 b ^^^ gfMul aesPoly 3 c ^^^ gfMul aesPoly 1 d)
      ^^^ gfMul aesPoly 13 (0 ^^^ gfMul aesPoly 1 a ^^^ gfMul aesPoly 1 b ^^^ gfMul aesPoly 2 c ^^^ gfMul aesPoly 3 d)
      ^^^ gfMul aesPoly 9 (0 ^^^ gfMul aesPoly 3 a ^^^ gfMul aesPoly 1 b ^^^ gfMul aesPoly 1 c ^^^ gfMul aesPoly 2 d)) = a := by
  have r := fun a x y => (gfMul_xor aesPoly a 0 x y).2
  have l := fun a b x => (gfMul_xor aesPoly a b x 0).1
  have z : ∀ a, gfMul aesPoly a 0 = 0 := fun a => by rw [gfMul_comm]; exact (by decide +kernel : ∀ a, gfMul aesPoly 0 a = 0) a
  have e : ∀ x, gfMul aesPoly (gfMul aesPoly 14 2) x ^^^ gfMul aesPoly (gfMul aesPoly 11 1) x ^^^ gfMul aesPoly (gfMul aesPoly 13 1) x ^^^ gfMul aesPoly (gfMul aesPoly 9 3) x = x := fun x => by
    rw [← l, ← l, ← l]; exact gfMul_one x
  have f : ∀ x, gfMul aesPoly (gfMul aesPoly 14 3) x ^^^ gfMul aesPoly (gfMul aesPoly 11 2) x ^^^ gfMul aesPoly (gfMul aesPoly 13 1) x ^^^ gfMul aesPoly (gfMul aesPoly 9 1) x = 0 := fun x => by
    rw [← l, ← l, ← l, gfMul_comm]; exact z x
  have g : ∀ x, gfMul aesPoly (gfMul aesPoly 14 1) x ^^^ gfMul aesPoly (gfMul aesPoly 11 3) x ^^^ gfMul aesPoly (gfMul aesPoly 13 2) x ^^^ gfMul aesPoly (gfMul aesPoly 9 1) x = 0 := fun x => by
    rw [← l, ← l, ← l, gfMul_comm]; exact z x
  have h : ∀ x, gfMul aesPoly (gfMul aesPoly 14 1) x ^^^ gfMul aesPoly (gfMul aesPoly 11 1) x ^^^ gfMul aesPoly (gfMul aesPoly 13 3) x ^^^ gfMul aesPoly (gfMul aesPoly 9 2) x = 0 := fun x => by
    rw [← l, ← l, ← l, gfMul_comm]; exact z x
  simp only [r, z, ← gfMul_assoc]
  calc _ = (gfMul aesPoly (gfMul aesPoly 14 2) a ^^^ gfMul aesPoly (gfMul aesPoly 11 1) a ^^^ gfMul aesPoly (gfMul aesPoly 13 1) a ^^^ gfMul aesPoly (gfMul aesPoly 9 3) a) ^^^ (gfMul aesPoly (gfMul aesPoly 14 3) b ^^^ gfMul aesPoly (gfMul aesPoly 11 2) b ^^^ gfMul aesPoly (gfMul aesPoly 13 1) b ^^^ gfMul aesPoly (gfMul aesPoly 9 1) b) ^^^ (gfMul aesPoly (gfMul aesPoly 14 1) c ^^^ gfMul aesPoly (gfMul aesPoly 11 3) c ^^^ gfMul aesPoly (gfMul aesPoly 13 2) c ^^^ gfMul aesPoly (gfMul aesPoly 9 1) c) ^^^ (gfMul aesPoly (gfMul aesPoly 14 1) d ^^^ gfMul aesPoly (gfMul aesPoly 11 1) d ^^^ gfMul aesPoly (gfMul aesPoly 13 3) d ^^^ gfMul aesPoly (gfMul aesPoly 9 2) d) := by ac_rfl
    _ = a := by rw [e, f, g, h]; simp

theorem mixWith_block (p q u v a0 a1 a2 a3 a4 a5 a6 a7 a8 a9 a10 a11 a12 a13 a14 a15 : Byte) : mixWith [p, q, u, v] [a0, a1, a2, a3, a4, a5, a6, a7, a8, a9, a10, a11, a12, a13, a14, a15] =
    [0 ^^^ gfMul aesPoly p a0 ^^^ gfMul aesPoly q a1 ^^^ gfMul aesPoly u a2 ^^^ gfMul aesPoly v a3,
      0 ^^^ gfMul aesPoly v a0 ^^^ gfMul aesPoly p a1 ^^^ gfMul aesPoly q a2 ^^^ gfMul aesPoly u a3,
      0 ^^^ gfMul aesPoly u a0 ^^^ gfMul aesPoly v a1 ^^^ gfMul aesPoly p a2 ^^^ gfMul aesPoly q a3,
      0 ^^^ gfMul aesPoly q a0 ^^^ gfMul aesPoly u a1 ^^^ gfMul aesPoly v a2 ^^^ gfMul aesPoly p a3,
      0 ^^^ gfMul aesPoly p a4 ^^^ gfMul aesPoly q a5 ^^^ gfMul aesPoly u a6 ^^^ gfMul aesPoly v a7,
      0 ^^^ gfMul aesPoly v a4 ^^^ gfMul aesPoly p a5 ^^^ gfMul aesPoly q a6 ^^^ gfMul aesPoly u a7,
      0 ^^^ gfMul aesPoly u a4 ^^^ gfMul aesPoly v a5 ^^^ gfMul aesPoly p a6 ^^^ gfMul aesPoly q a7,
      0 ^^^ gfMul aesPoly q a4 ^^^ gfMul aesPoly u a5 ^^^ gfMul aesPoly v a6 ^^^ gfMul aesPoly p a7,
      0 ^^^ gfMul aesPoly p a8 ^^^ gfMul aesPoly q a9 ^^^ gfMul aesPoly u a10 ^^^ gfMul aesPoly v a11,
      0 ^^^ gfMul aesPoly v a8 ^^^ gfMul aesPoly p a9 ^^^ gfMul aesPoly q a10 ^^^ gfMul aesPoly u a11,
      0 ^^^ gfMul aesPoly u a8 ^^^ gfMul aesPoly v a9 ^^^ gfMul aesPoly p a10 ^^^ gfMul aesPoly q a11,
      0 ^^^ gfMul aesPoly q a8 ^^^ gfMul aesPoly u a9 ^^^ gfMul aesPoly v a10 ^^^ gfMul aesPoly p a11,
      0 ^^^ gfMul aesPoly p a12 ^^^ gfMul aesPoly q a13 ^^^ gfMul aesPoly u a14 ^^^ gfMul aesPoly v a15,
      0 ^^^ gfMul aesPoly v a12 ^^^ gfMul aesPoly p a13 ^^^ gfMul aesPoly q a14 ^^^ gfMul aesPoly u a15,
      0 ^^^ gfMul aesPoly u a12 ^^^ gfMul aesPoly v a13 ^^^ gfMul aesPoly p a14 ^^^ gfMul aesPoly q a15,
      0 ^^^ gfMul aesPoly q a12 ^^^ gfMul aesPoly u a13 ^^^ gfMul aesPoly v a14 ^^^ gfMul aesPoly p a15] := rfl

theorem unmix_mix {s : List Byte} (hs : s.length = 16) : mixWith [14, 11, 13, 9] (mixWith [2, 3, 1, 1] s) = s := by
  refine block_cases (P := fun s => mixWith [14, 11, 13, 9] (mixWith [2, 3, 1, 1] s) = s) ?_ hs
  intro a0 a1 a2 a3 a4 a5 a6 a7 a8 a9 a10 a11 a12 a13 a14 a15
  have r := fun a x y => (gfMul_xor aesPoly a 0 x y).2
  rw [mixWith_block, mixWith_block]
  simp only [List.cons.injEq, and_true]
  refine ⟨?_, ?_, ?_, ?_, ?_, ?_, ?_, ?_, ?_, ?_, ?_, ?_, ?_, ?_, ?_, ?_⟩
  · exact column_mix a0 a1 a2 a3
  · exact Eq.trans (by simp only [r]; ac_rfl) (column_mix a1 a2 a3 a0)
  · exact Eq.trans (by simp only [r]; ac_rfl) (column_mix a2 a3 a0 a1)
  · exact Eq.trans (by simp only [r]; ac_rfl) (column_mix a3 a0 a1 a2)
  · exact column_mix a4 a5 a6 a7
  · exact Eq.trans (by simp only [r]; ac_rfl) (column_mix a5 a6 a7 a4)
  · exact Eq.trans (by simp only [r]; ac_rfl) (column_mix a6 a7 a4 a5)
  · exact Eq.trans (by simp only [r]; ac_rfl) (column_mix a7 a4 a5 a6)
  · exact column_mix a8 a9 a10 a11
  · exact Eq.trans (by simp only [r]; ac_rfl) (column_mix a9 a10 a11 a8)
  · exact Eq.trans (by simp only [r]; ac_rfl) (column_mix a10 a11 a8 a9)
  · exact Eq.trans (by simp only [r]; ac_rfl) (column_mix a11 a8 a9 a10)
  · exact column_mix a12 a13 a14 a15
  · exact Eq.trans (by simp only [r]; ac_rfl) (column_mix a13 a14 a15 a12)
  · exact Eq.trans (by simp only [r]; ac_rfl) (column_mix a14 a15 a12 a13)
  · exact Eq.trans (by simp only [r]; ac_rfl) (column_mix a15 a12 a13 a14)

theorem map_unsub_sub (s : List Byte) : (s.map subByte).map unsubByte = s := by
  rw [List.map_map]
  exact (List.map_congr_left fun a _ => unsub_sub a).trans s.map_id

/-- One round without its key, and what undoes it. -/
def aesRound (s : List Byte) : List Byte := shiftRows (s.map subByte)

theorem unround_round {s : List Byte} (h : s.length = 16) : (unshiftRows (aesRound s)).map unsubByte = s := by
  rw [aesRound, unshift_shift (by simpa using h), map_unsub_sub]

/-- The rounds back undo the rounds. -/
theorem rounds_back {ks : List (List Byte)} (hk : ∀ k ∈ ks, k.length = 16) : ∀ {s : List Byte}, s.length = 16 →
    (ks.foldl (fun s k => xorBytes (mixWith [2, 3, 1, 1] (aesRound s)) k) s).length = 16 ∧
    ks.reverse.foldl (fun s k => mixWith [14, 11, 13, 9] (xorBytes ((unshiftRows s).map unsubByte) k))
      (aesRound (ks.foldl (fun s k => xorBytes (mixWith [2, 3, 1, 1] (aesRound s)) k) s)) = aesRound s := by
  induction ks with
  | nil => intro s h; exact ⟨h, rfl⟩
  | cons k ks ih =>
    intro s h
    have k16 := hk k (by simp)
    have s16 : (xorBytes (mixWith [2, 3, 1, 1] (aesRound s)) k).length = 16 := by simp [k16]
    have t := ih (fun x hx => hk x (by simp [hx])) s16
    refine ⟨t.1, ?_⟩
    rw [List.reverse_cons, List.foldl_append]
    refine (congrArg (fun z => [k].foldl _ z) t.2).trans ?_
    rw [List.foldl_cons, List.foldl_nil, unround_round s16, xorBytes_xorBytes (by simp [k16]), unmix_mix (by simp [aesRound])]

theorem keyWord_length {i : Nat} {ws : List (List Byte)} (h8 : 8 ≤ ws.length) (h : ∀ w ∈ ws, w.length = 4) : (keyWord i ws).length = 4 := by
  have w0 : (ws.headD []).length = 4 := by
    cases ws with
    | nil => simp at h8
    | cons w ws => exact h w (by simp)
  have w7 : (ws.getD 7 []).length = 4 := by
    rw [List.getD_eq_getElem _ _ (by omega)]
    exact h _ (List.getElem_mem _)
  rw [keyWord, length_xorBytes, w7]
  generalize ws.headD [] = w at w0
  split
  · simp [w0]
  · split <;> simp [w0]

theorem keySchedule_words {key : List Byte} (h : key.length = 32) : (keySchedule key).length = 60 ∧ ∀ w ∈ keySchedule key, w.length = 4 := by
  have go : ∀ (l : List Nat) (ws : List (List Byte)), 8 ≤ ws.length → (∀ w ∈ ws, w.length = 4) →
      (l.foldl (fun ws i => keyWord (i + 8) ws :: ws) ws).length = ws.length + l.length ∧ ∀ w ∈ l.foldl (fun ws i => keyWord (i + 8) ws :: ws) ws, w.length = 4 := by
    intro l
    induction l with
    | nil => intro ws _ hw; exact ⟨rfl, hw⟩
    | cons i l ih =>
      intro ws h8 hw
      have t := ih (keyWord (i + 8) ws :: ws) (by simp; omega) (by simpa [keyWord_length h8 hw] using hw)
      refine ⟨?_, t.2⟩
      rw [List.foldl_cons, t.1]
      simp
      omega
  have t := go (List.range 52) (((List.range 8).map fun i => (key.drop (4 * i)).take 4).reverse) (by simp) (by
    intro w hw
    simp only [List.mem_reverse, List.mem_map, List.mem_range] at hw
    obtain ⟨i, hi, rfl⟩ := hw
    simp [h]
    omega)
  exact ⟨by rw [keySchedule, t.1]; simp, t.2⟩

theorem roundKeys_lengths {key : List Byte} (h : key.length = 32) : (roundKeys key).length = 15 ∧ ∀ k ∈ roundKeys key, k.length = 16 := by
  refine ⟨by simp [roundKeys], fun k hk => ?_⟩
  simp only [roundKeys, List.mem_map, List.mem_range] at hk
  obtain ⟨r, hr, rfl⟩ := hk
  have t := keySchedule_words h
  have all4 : ∀ w ∈ (((keySchedule key).reverse.drop (4 * r)).take 4), w.length = 4 := fun w hw =>
    t.2 w (by simpa using List.mem_of_mem_drop (List.mem_of_mem_take hw))
  have n4 : (((keySchedule key).reverse.drop (4 * r)).take 4).length = 4 := by simp [t.1]; omega
  generalize ((keySchedule key).reverse.drop (4 * r)).take 4 = ws at all4 n4
  match ws, n4 with
  | [a, b, c, d], _ => simp [all4 a (by simp), all4 b (by simp), all4 c (by simp), all4 d (by simp)]

/-- Decryption of a block undoes its encryption. -/
theorem aesDec_aesEnc {key b : List Byte} (hk : key.length = 32) (hb : b.length = 16) : aesDec key (aesEnc key b) = b := by
  have t := roundKeys_lengths hk
  unfold aesDec aesEnc
  generalize roundKeys key = ks at t
  match ks, t.1 with
  | [k0, k1, k2, k3, k4, k5, k6, k7, k8, k9, k10, k11, k12, k13, k14], _ =>
    have l0 : (xorBytes b k0).length = 16 := by simp [hb, t.2 k0 (by simp)]
    have t' := rounds_back (ks := [k1, k2, k3, k4, k5, k6, k7, k8, k9, k10, k11, k12, k13]) (fun k h => t.2 k (by simp at h ⊢; tauto)) l0
    have e : ∀ s : List Byte, xorBytes (xorBytes (aesRound s) k14) k14 = aesRound s := fun s => xorBytes_xorBytes (by simp [aesRound, t.2 k14 (by simp)])
    show xorBytes ((unshiftRows ([k13, k12, k11, k10, k9, k8, k7, k6, k5, k4, k3, k2, k1].foldl _ (xorBytes (xorBytes (aesRound ([k1, k2, k3, k4, k5, k6, k7, k8, k9, k10, k11, k12, k13].foldl _ (xorBytes b k0))) k14) k14))).map unsubByte) k0 = b
    rw [e]
    refine (congrArg (fun s => xorBytes ((unshiftRows s).map unsubByte) k0) t'.2).trans ?_
    simp only [unround_round l0]
    exact xorBytes_xorBytes (by simp [hb, t.2 k0 (by simp)])

theorem length_aesEnc {key : List Byte} (hk : key.length = 32) (b : List Byte) : (aesEnc key b).length = 16 := by
  have t := roundKeys_lengths hk
  have k14 : ((roundKeys key).getD 14 []).length = 16 := by
    rw [List.getD_eq_getElem _ _ (by omega)]
    exact t.2 _ (List.getElem_mem _)
  simp only [aesEnc, length_xorBytes, length_shiftRows, k14, Nat.min_self]

/-- Steps undone one by one from the last. -/
theorem foldl_undo {α β : Type} {f g : α → β → α} {P : α → Prop} (h : ∀ x s, P x → P (f x s) ∧ g (f x s) s = x) :
    ∀ (l : List β) (x : α), P x → P (l.foldl f x) ∧ l.reverse.foldl g (l.foldl f x) = x
  | [], x, p => ⟨p, rfl⟩
  | s :: l, x, p => by
    have t := foldl_undo h l (f x s) (h x s p).1
    refine ⟨t.1, ?_⟩
    rw [List.reverse_cons, List.foldl_append]
    exact (congrArg (fun z => [s].foldl g z) t.2).trans (h x s p).2

@[simp] theorem length_beBytes : ∀ n v, (beBytes n v).length = n
  | 0, _ => rfl
  | n + 1, v => by rw [beBytes, List.length_cons, length_beBytes n v]

/-! ### Key wrap -/

theorem flatten_chunks {c : Nat} : ∀ {r : List (List Byte)}, (∀ x ∈ r, x.length = c) → (List.range r.length).map (fun i => (r.flatten.drop (c * i)).take c) = r
  | [], _ => rfl
  | x :: r, h => by
    have x8 := h x (by simp)
    have t := flatten_chunks (r := r) fun y hy => h y (by simp [hy])
    rw [List.length_cons, List.range_succ_eq_map, List.map_cons, List.map_map]
    refine congrArg₂ List.cons (by simp [← x8]) ?_
    refine Eq.trans (List.map_congr_left fun i _ => ?_) t
    show ((x :: r).flatten.drop (c * (i + 1))).take c = _
    rw [List.flatten_cons, List.drop_append, List.drop_eq_nil_of_le (by rw [x8, Nat.mul_succ]; omega), x8, List.nil_append, Nat.mul_succ, Nat.add_sub_cancel]

theorem chunks_flatten {c : Nat} : ∀ {n : Nat} {l : List Byte}, l.length = c * n → ((List.range n).map fun i => (l.drop (c * i)).take c).flatten = l
  | 0, l, h => by simp [List.length_eq_zero_iff.mp (by simpa using h : l.length = 0)]
  | n + 1, l, h => by
    have t := chunks_flatten (c := c) (n := n) (l := l.drop c) (by rw [List.length_drop, h, Nat.mul_succ]; omega)
    rw [List.range_succ_eq_map, List.map_cons, List.map_map, List.flatten_cons]
    conv_rhs => rw [← List.take_append_drop c l, ← t]
    congr 3
    funext i
    simp [Nat.mul_succ, Nat.add_comm]

/-- What a wrap of `n` semiblocks is, and that the steps of the unwrap lead back to what it started from. -/
theorem keyWrap_steps {key data : List Byte} (hk : key.length = 32) {n : Nat} (hn : 0 < n) (hd : data.length = 8 * n) :
    ∃ a r, keyWrap key data = a ++ r.flatten ∧ a.length = 8 ∧ r.length = n ∧ (∀ y ∈ r, y.length = 8) ∧
      (List.range (6 * n)).reverse.foldl (fun (x : List Byte × List (List Byte)) s =>
        ((aesDec key (xorBytes x.1 (beBytes 8 (s + 1)) ++ x.2.getD (s % n) [])).take 8, x.2.set (s % n) ((aesDec key (xorBytes x.1 (beBytes 8 (s + 1)) ++ x.2.getD (s % n) [])).drop 8)))
        (a, r) = (List.replicate 8 0xA6, (List.range n).map fun i => (data.drop (8 * i)).take 8) := by
  have u := foldl_undo (α := List Byte × List (List Byte)) (β := Nat)
    (f := fun x s => (xorBytes ((aesEnc key (x.1 ++ x.2.getD (s % n) [])).take 8) (beBytes 8 (s + 1)), x.2.set (s % n) ((aesEnc key (x.1 ++ x.2.getD (s % n) [])).drop 8)))
    (g := fun x s => ((aesDec key (xorBytes x.1 (beBytes 8 (s + 1)) ++ x.2.getD (s % n) [])).take 8, x.2.set (s % n) ((aesDec key (xorBytes x.1 (beBytes 8 (s + 1)) ++ x.2.getD (s % n) [])).drop 8)))
    (P := fun x => x.1.length = 8 ∧ x.2.length = n ∧ ∀ y ∈ x.2, y.length = 8) (by
      rintro ⟨a, r⟩ s ⟨a8, rn, r8⟩
      replace a8 : a.length = 8 := a8
      replace rn : r.length = n := rn
      replace r8 : ∀ y ∈ r, y.length = 8 := r8
      have j := Nat.mod_lt s hn
      have jr : s % n < r.length := by omega
      have q8 : (r.getD (s % n) []).length = 8 := by
        rw [List.getD_eq_getElem _ _ jr]
        exact r8 _ (List.getElem_mem _)
      have q0 : r.set (s % n) (r.getD (s % n) []) = r := by rw [List.getD_eq_getElem _ _ jr, List.set_getElem_self]
      have w16 := length_aesEnc hk (a ++ r.getD (s % n) [])
      have back := aesDec_aesEnc (b := a ++ r.getD (s % n) []) hk (by simp only [List.length_append, a8, q8])
      dsimp only
      generalize r.getD (s % n) [] = q at *
      generalize aesEnc key (a ++ q) = w at *
      have get : (r.set (s % n) (w.drop 8)).getD (s % n) [] = w.drop 8 := by
        rw [List.getD_eq_getElem _ _ (by simpa using jr)]
        simp
      refine ⟨⟨by simp [w16, length_beBytes], by simpa using rn, fun y hy => ?_⟩, ?_⟩
      · rcases List.mem_or_eq_of_mem_set hy with h | h
        · exact r8 y h
        · rw [h]; simp [w16]
      · rw [get, xorBytes_xorBytes (by simp [length_beBytes]), List.take_append_drop, back, List.take_left' a8, List.drop_left' a8, List.set_set, q0])
  have p0 := u (List.range (6 * n)) (List.replicate 8 0xA6, (List.range n).map fun i => (data.drop (8 * i)).take 8) ⟨by simp, by simp, fun y hy => by
    simp only [List.mem_map, List.mem_range] at hy
    obtain ⟨i, hi, rfl⟩ := hy
    simp
    omega⟩
  have n' : data.length / 8 = n := by omega
  have e : keyWrap key data = (fun x : List Byte × List (List Byte) => x.1 ++ x.2.flatten) ((List.range (6 * n)).foldl
      (fun x s => (xorBytes ((aesEnc key (x.1 ++ x.2.getD (s % n) [])).take 8) (beBytes 8 (s + 1)), x.2.set (s % n) ((aesEnc key (x.1 ++ x.2.getD (s % n) [])).drop 8)))
      (List.replicate 8 0xA6, (List.range n).map fun i => (data.drop (8 * i)).take 8)) := by rw [keyWrap, n']
  rw [e]
  generalize (List.range (6 * n)).foldl _ _ = x at p0
  exact ⟨x.1, x.2, rfl, p0.1.1, p0.1.2.1, p0.1.2.2, p0.2⟩

theorem length_keyWrap {key data : List Byte} (hk : key.length = 32) {n : Nat} (hn : 0 < n) (hd : data.length = 8 * n) : (keyWrap key data).length = 8 * n + 8 := by
  obtain ⟨a, r, e, a8, rn, r8, -⟩ := keyWrap_steps hk hn hd
  rw [e, List.length_append, List.length_flatten, a8, List.eq_replicate_of_mem (l := r.map List.length) (a := 8) (by simpa using r8)]
  simp [rn]
  omega

/-- Unwrapping undoes wrapping. -/
theorem keyUnwrap_keyWrap {key data : List Byte} (hk : key.length = 32) {n : Nat} (hn : 0 < n) (hd : data.length = 8 * n) :
    keyUnwrap key (keyWrap key data) = some data := by
  have l := length_keyWrap hk hn hd
  obtain ⟨a, r, e, a8, rn, r8, back⟩ := keyWrap_steps hk hn hd
  rw [e] at l ⊢
  have n2 : (a ++ r.flatten).length / 8 - 1 = n := by omega
  have c : ((List.range n).map fun i => ((a ++ r.flatten).drop (8 * (i + 1))).take 8) = r := by
    refine Eq.trans (List.map_congr_left fun i _ => ?_) (rn ▸ flatten_chunks r8)
    rw [List.drop_append, List.drop_eq_nil_of_le (by omega), a8, List.nil_append, Nat.mul_succ, Nat.add_sub_cancel]
  rw [keyUnwrap, n2, c, List.take_left' a8]
  rw [back]
  simp [chunks_flatten hd]

/-! ### GCM and XTS -/

/-- GCM decryption under the key and IV of the encryption gives the plaintext back, the tag matching. -/
theorem gcmDec_gcmEnc {key : List Byte} (hk : key.length = 32) (iv aad pt : List Byte) (n : Nat) :
    gcmDec key iv aad (gcmEnc key iv aad pt).1 (gcmEnc key iv aad pt).2 n = some pt := by
  have s16 : ∀ n, (gcmStream key iv n).length = 16 * n := fun n => by
    simp [gcmStream, List.length_flatMap, length_aesEnc hk, Nat.mul_comm]
  have le : pt.length ≤ (gcmStream key iv ((pt.length + 15) / 16)).length := by rw [s16]; omega
  have ct : (xorBytes pt (gcmStream key iv ((pt.length + 15) / 16))).length = pt.length := by simp [Nat.min_eq_left le]
  have tag : (gcmTag key iv aad (gcmEnc key iv aad pt).1).take n = (gcmEnc key iv aad pt).2.take n := rfl
  rw [gcmDec, if_pos tag]
  show some (xorBytes (xorBytes pt _) (gcmStream key iv (((xorBytes pt _).length + 15) / 16))) = _
  rw [ct, xorBytes_xorBytes le]

theorem length_leBytes : ∀ n v, (leBytes n v).length = n
  | 0, _ => rfl
  | n + 1, v => by rw [leBytes, List.length_cons, length_leBytes n _]

theorem length_tweakAt {key2 : List Byte} (hk : key2.length = 32) (tweak j : Nat) : (tweakAt key2 tweak j).length = 16 := by
  cases j with
  | zero => exact length_aesEnc hk _
  | succ j => exact length_leBytes 16 _

theorem xex_xex {key t b : List Byte} (hk : key.length = 32) (ht : t.length = 16) (hb : b.length = 16) :
    xex (aesDec key) t (xex (aesEnc key) t b) = b := by
  rw [xex, xex, xorBytes_xorBytes (by simp [length_aesEnc hk, ht]), aesDec_aesEnc hk (by simp [hb, ht]), xorBytes_xorBytes (by simp [hb, ht])]

/-- XTS decryption of whole blocks undoes their encryption. -/
theorem xtsDec_xtsEnc {key data : List Byte} (hk : key.length = 64) {n : Nat} (hd : data.length = 16 * n) (tweak : Nat) :
    xtsDec key tweak (xtsEnc key tweak data) = data := by
  have k1 : (key.take 32).length = 32 := by simp [hk]
  have k2 : (key.drop 32).length = 32 := by simp [hk]
  have whole : ∀ (f : List Byte → List Byte) (dec : Bool) (l : List Byte), l.length = 16 * n → xtsWith f (key.drop 32) tweak dec l =
      ((List.range n).map fun i => xex f (tweakAt (key.drop 32) tweak i) ((l.drop (16 * i)).take 16)).flatten := fun f dec l h => by
    rw [xtsWith, show l.length % 16 = 0 by omega, if_pos rfl, show l.length / 16 = n by omega, List.flatMap_def]
  have ct : ∀ y ∈ (List.range n).map fun i => xex (aesEnc (key.take 32)) (tweakAt (key.drop 32) tweak i) ((data.drop (16 * i)).take 16), y.length = 16 := by
    intro y hy
    simp only [List.mem_map] at hy
    obtain ⟨i, -, rfl⟩ := hy
    simp [xex, length_aesEnc k1, length_tweakAt k2]
  have parts := flatten_chunks ct
  rw [List.length_map, List.length_range] at parts
  rw [xtsDec, xtsEnc, whole _ _ data hd, whole _ _ _ (by
    rw [List.length_flatten, List.eq_replicate_of_mem (l := (List.map List.length _)) (a := 16) (by simpa using ct)]
    simp [Nat.mul_comm])]
  conv_rhs => rw [← chunks_flatten hd]
  congr 1
  refine List.map_congr_left fun i hi => ?_
  have p := congrArg (fun l => l[i]?) parts
  have hi' := List.mem_range.mp hi
  simp only [List.getElem?_map, List.getElem?_range hi', Option.map_some, Option.some.injEq] at p
  rw [p]
  exact xex_xex k1 (length_tweakAt k2 _ _) (by simp; omega)

/-! ### The PVK between the modules of a pair (19 R803) -/

theorem beNat_snoc (l : List Byte) (x : Byte) : beNat (l ++ [x]) = 256 * beNat l + x.toNat := by simp [beNat]

theorem beBytes_succ : ∀ (n v : Nat), beBytes (n + 1) v = beBytes n (v / 256) ++ [BitVec.ofNat 8 v]
  | 0, v => by simp [beBytes]
  | n + 1, v => by
    rw [beBytes, beBytes_succ n v, beBytes, List.cons_append]
    congr 2
    rw [Nat.div_div_eq_div_mul, Nat.pow_succ, Nat.mul_comm]

theorem beNat_beBytes : ∀ {n v : Nat}, v < 256 ^ n → beNat (beBytes n v) = v
  | 0, v, h => by simp at h; simp [beBytes, beNat, h]
  | n + 1, v, h => by
    rw [beBytes_succ, beNat_snoc, beNat_beBytes (by rw [Nat.pow_succ] at h; omega)]
    simp
    omega

theorem beBytes_beNat (l : List Byte) : beNat l < 256 ^ l.length ∧ beBytes l.length (beNat l) = l := by
  induction l using List.reverseRecOn with
  | nil => exact ⟨by simp [beNat], rfl⟩
  | append_singleton l x ih =>
    have hx := x.isLt
    rw [beNat_snoc, List.length_append, List.length_singleton, beBytes_succ]
    refine ⟨by rw [Nat.pow_succ]; omega, ?_⟩
    rw [show (256 * beNat l + x.toNat) / 256 = beNat l by omega, ih.2]
    congr 2
    apply BitVec.eq_of_toNat_eq
    simp
    omega

theorem length_pvkKey (kdk th : List Byte) : (pvkKey kdk th).length = 32 := by
  simp [pvkKey, kdf384, hmac384, sha384Bytes]

set_option exponentiation.threshold 400 in
/-- The PVK that a partner has wrapped under the same key arrives as it is. -/
theorem Dev.pvkFar_wrap (d : Dev) (n : BitVec 256) :
    d.pvkFar (BitVec.ofNat 320 (beNat (keyWrap (pvkKey (d.keyxOf 64).kdkRx (d.keyxOf 64).thRx) (beBytes 32 n.toNat)))) = some n := by
  have k := length_pvkKey (d.keyxOf 64).kdkRx (d.keyxOf 64).thRx
  have w := length_keyWrap k (n := 4) (by omega) (length_beBytes 32 n.toNat)
  have b := beBytes_beNat (keyWrap (pvkKey (d.keyxOf 64).kdkRx (d.keyxOf 64).thRx) (beBytes 32 n.toNat))
  rw [w] at b
  have u := keyUnwrap_keyWrap k (n := 4) (by omega) (length_beBytes 32 n.toNat)
  rw [Dev.pvkFar, BitVec.toNat_ofNat, Nat.mod_eq_of_lt (lt_of_lt_of_eq b.1 (by rw [show (256 : Nat) = 2 ^ 8 from rfl, ← Nat.pow_mul])), b.2, u, Option.map_some, beNat_beBytes (lt_of_lt_of_eq n.isLt (by decide))]
  simp

end Sys2Proof.Machine
end

