-- ==== Sys2Proof/Laws/RegWrite.lean ====
section
/-! SUPPORT. A register write with an effect of its own: the command it runs names units that exist, and touches neither the queue nor the flash. -/

namespace Sys2Proof.Machine

/-- A command answers a next state, with the queue and the flash as before. -/
def Completes (f : State → R) : Prop := ∀ s : State, ∃ d : Dev, f s = .next (s.withDev d)

theorem completes_run (f : Dev → Dev) : Completes fun s => s.run f := fun _ => ⟨_, rfl⟩

theorem completes_runIf (ok : Bool) (f : Dev → Dev) (h : ok = true) : Completes fun s => s.runIf ok f := fun _ => ⟨_, by rw [h]; rfl⟩

theorem completes_onBit (fn : Nat) (v : W32) (b : Nat) (f : State → R) (h : Completes f) : Completes (onBit fn v b f) := by
  intro s
  unfold onBit
  split
  · exact h s
  · exact completes_run _ s

/-- The effects a block has all complete. -/
def AllComplete (o : Option (State → R)) : Prop := ∀ f, o = some f → Completes f

theorem allComplete_none : AllComplete none := fun _ h => nomatch h
theorem allComplete_some {f : State → R} (h : Completes f) : AllComplete (some f) := fun _ e => (Option.some.inj e) ▸ h
theorem AllComplete.ite {c : Prop} [Decidable c] {a b : Option (State → R)} (h : AllComplete a) (h' : AllComplete b) : AllComplete (if c then a else b) := by
  split
  · exact h
  · exact h'
theorem AllComplete.or {a b : Option (State → R)} (h : AllComplete a) (h' : AllComplete b) : AllComplete (a.or b) := by
  cases a with
  | none => simpa using h'
  | some f => simpa using h

theorem regIndex_lt {off base stride n i : Nat} (h : regIndex off base stride n = some i) : i < n := by
  unfold regIndex at h
  split at h
  · rename_i c
    exact (Option.some.inj h) ▸ Nat.div_lt_of_lt_mul (by omega)
  · exact nomatch h

theorem allComplete_atReg (off base stride n : Nat) (f : Nat → State → R) (h : ∀ i, i < n → Completes (f i)) : AllComplete (atReg off base stride n f) := by
  intro g e
  unfold atReg at e
  cases hr : regIndex off base stride n with
  | none => rw [hr] at e; exact nomatch e
  | some i => rw [hr] at e; exact (Option.some.inj e) ▸ h i (regIndex_lt hr)

theorem allComplete_mailboxEffect (fn off : Nat) (v : W32) (h : Unit.function fn = true) : AllComplete (mailboxEffect fn off v) := by
  unfold mailboxEffect
  simp only
  repeat' split
  · exact allComplete_some (completes_runIf _ _ h)
  · exact allComplete_some (completes_runIf _ _ h)
  · exact allComplete_some (completes_runIf _ _ h)
  · exact allComplete_some (completes_runIf _ _ h)
  · exact allComplete_some (completes_onBit _ _ _ _ (completes_runIf _ _ h))
  · exact allComplete_atReg _ _ _ _ _ fun _ _ => completes_run _

theorem allComplete_tenEffect (fn t off : Nat) (v : W32) (h : t < 16) : AllComplete (tenEffect fn t off v) := by
  unfold tenEffect
  refine .or (.or (allComplete_atReg _ _ _ _ _ fun i hi => completes_onBit _ _ _ _ (completes_runIf _ _ ?_))
    (allComplete_atReg _ _ _ _ _ fun i hi => completes_onBit _ _ _ _ (completes_runIf _ _ ?_)))
    (.or (allComplete_atReg _ _ _ _ _ fun i hi => ?_) (allComplete_atReg _ _ _ _ _ fun i hi => completes_onBit _ _ _ _ (completes_runIf _ _ ?_)))
  · simp [Unit.tenant, Unit.queueOf, h, hi]
  · simp [Unit.tenant, Unit.queueOf, h, hi]
  · split
    · exact completes_run _
    · exact completes_onBit _ _ _ _ (completes_runIf _ _ (by simp [Unit.tenant, Unit.stream, h]; omega))
  · simp [Unit.tenant, h]

theorem allComplete_blockEffect (off : Nat) (v : W32) : AllComplete (blockEffect off v) := by
  have last : AllComplete ((atReg off 0x10320 4 6 fun i => onBit 0 v 31 (execJadAindropClr i)).or (atReg off 0xD3100 4 64 fun p => onBit 0 v 31 (execWalCntClr p))) :=
    .or (allComplete_atReg _ _ _ _ _ fun i hi => completes_onBit _ _ _ _ (completes_runIf _ _ (by simp [Unit.asyncInput, hi])))
      (allComplete_atReg _ _ _ _ _ fun i hi => completes_onBit _ _ _ _ (completes_runIf _ _ (by simp [Unit.optPort, hi])))
  unfold blockEffect
  repeat' first
    | exact allComplete_some (completes_onBit _ _ _ _ (completes_run _))
    | exact allComplete_some (completes_run _)
    | exact last
    | refine .ite ?_ ?_

theorem allComplete_faultEffect (off : Nat) (v : W32) (h : 0x30000 ≤ off) : AllComplete (faultEffect off v) := by
  have hs : AllComplete (atReg off 0x40100 4 32 fun w => execFltSevWrite w v) :=
    allComplete_atReg _ _ _ _ _ fun i hi => completes_runIf _ _ (by simp [Unit.sevWord, hi])
  have hr : AllComplete (atReg off 0x3000C 0x1000 8 fun p => onBit 0 v 31 (execFctRetryClr p)) :=
    allComplete_atReg _ _ _ _ _ fun i hi => completes_onBit _ _ _ _ (completes_runIf _ _ (by simp [Unit.hostPort, hi]))
  unfold faultEffect
  split
  · exact allComplete_some (completes_run _)
  split
  · exact allComplete_some (completes_onBit _ _ _ _ (completes_run _))
  split
  · exact allComplete_some (completes_onBit _ _ _ _ (completes_run _))
  split
  · exact allComplete_some (completes_onBit _ _ _ _ (completes_run _))
  split
  · exact hs.or (hr.or (allComplete_atReg _ _ _ _ _ fun i hi => completes_onBit _ _ _ _ (completes_runIf _ _ (by
      simp [Unit.hostPort, Unit.cluster, hi]; omega))))
  · exact hs.or (hr.or allComplete_none)

theorem allComplete_xltEffect (off : Nat) (v : W32) (h : off < 0x2000) : AllComplete (xltEffect off v) := by
  unfold xltEffect
  split
  · exact allComplete_some (completes_onBit _ _ _ _ (completes_run _))
  split
  · exact allComplete_some (completes_onBit _ _ _ _ (completes_run _))
  split
  · refine .or (allComplete_atReg _ _ _ _ _ fun i hi => completes_onBit _ _ _ _ (completes_runIf _ _ (by simp [Unit.function, hi])))
      (allComplete_atReg _ _ _ _ _ fun i hi => ?_)
    split
    · exact completes_runIf _ _ (by simp [Unit.hmapEntry]; omega)
    · exact completes_run _
  · refine .or (allComplete_atReg _ _ _ _ _ fun i hi => completes_runIf _ _ (by simp [Unit.tenant, Unit.keyRange]; omega))
      (allComplete_atReg _ _ _ _ _ fun i hi => ?_)
    split
    · exact completes_runIf _ _ (by simp [Unit.tenant, Unit.keyRange]; omega)
    · exact completes_runIf _ _ (by simp [Unit.tenant, Unit.keyRange]; omega)
    · exact completes_runIf _ _ (by simp [Unit.tenant, Unit.keyRange]; omega)
    · exact completes_run _

theorem allComplete_opticsEffect (off : Nat) (v : W32) : AllComplete (opticsEffect off v) := by
  have hp : ∀ i, i < 64 → Unit.linkPort i = true := fun i hi => by simp [Unit.linkPort]; omega
  unfold opticsEffect
  exact .or (.or (allComplete_atReg _ _ _ _ _ fun i hi => completes_onBit _ _ _ _ (completes_runIf _ _ (hp i hi)))
      (allComplete_atReg _ _ _ _ _ fun i hi => completes_onBit _ _ _ _ (completes_runIf _ _ (hp i hi))))
    (.or (allComplete_atReg _ _ _ _ _ fun i hi => completes_onBit _ _ _ _ (completes_runIf _ _ (hp i hi)))
      (.or (allComplete_atReg _ _ _ _ _ fun i hi => completes_runIf _ _ (by simp [Unit.tile, hi]))
        (allComplete_atReg _ _ _ _ _ fun i hi => completes_onBit _ _ _ _ (completes_runIf _ _ (by simp [Unit.tile, hi])))))

theorem allComplete_pfEffect (off : Nat) (v : W32) : AllComplete (pfEffect off v) := by
  unfold pfEffect
  split
  · split
    · exact allComplete_xltEffect _ _ (by omega)
    split
    · exact allComplete_faultEffect _ _ (by omega)
    · exact allComplete_blockEffect _ _
  split
  · exact allComplete_opticsEffect _ _
  split
  · exact allComplete_tenEffect _ _ _ _ (by omega)
  split
  · exact allComplete_mailboxEffect _ _ _ rfl
  · exact allComplete_none

theorem allComplete_vfEffect (t off : Nat) (v : W32) (h : t < 16) : AllComplete (vfEffect t off v) := by
  unfold vfEffect
  split
  · exact allComplete_tenEffect _ _ _ _ h
  split
  · exact allComplete_atReg _ _ _ _ _ fun i hi => completes_runIf _ _ (by simp [Unit.tenant, Unit.queueOf, h, hi])
  · exact allComplete_mailboxEffect _ _ _ (by simp [Unit.function]; omega)

/-- A register write of a function that exists answers a next state, with the queue and the flash as before. -/
theorem completes_registerWrite (fn : Nat) (bar2 : Bool) (off : Nat) (val : W32) (h : Unit.function fn = true) :
    Completes (execRegisterWrite fn bar2 off val) := by
  have hf : fn < 17 := by simpa [Unit.function] using h
  have ha : AllComplete (if fn = 0 then pfEffect off val else if Unit.function fn then vfEffect (fn - 1) off val else none) := by
    rw [if_pos h]
    exact .ite (allComplete_pfEffect _ _) (allComplete_vfEffect _ _ _ (by omega))
  intro s
  unfold execRegisterWrite
  split
  · exact completes_runIf _ _ h s
  · split
    · rename_i f e
      exact ha f (by simpa only [if_pos h] using e) s
    · exact completes_runIf _ _ h s

/-- One of a function that does not exist stops. -/
theorem registerWrite_noUnit (fn : Nat) (bar2 : Bool) (off : Nat) (val : W32) (s : State) (h : Unit.function fn = false) :
    execRegisterWrite fn bar2 off val s = .fault .noSuchUnit := by
  have h0 : fn ≠ 0 := by rintro rfl; exact absurd h (by decide)
  unfold execRegisterWrite
  simp [h, h0, State.runIf]

end Sys2Proof.Machine
end

