-- ==== Sys2Proof/Laws/Tick.lean ====
section
/-! SUPPORT. A tick of the clock: what its parts leave of fabric time, of the clock and of the faults on their way. -/

namespace Sys2Proof.Machine

/-- `e` has the clocks of `d`, and the faults on their way. -/
def KeepsClocks (d e : Dev) : Prop := e.now = d.now ∧ e.fab = d.fab ∧ e.flt = d.flt ∧ e.vlt = d.vlt

theorem KeepsClocks.refl (d : Dev) : KeepsClocks d d := ⟨rfl, rfl, rfl, rfl⟩

theorem KeepsClocks.trans {a b c : Dev} (h : KeepsClocks a b) (h' : KeepsClocks b c) : KeepsClocks a c :=
  ⟨h'.1.trans h.1, h'.2.1.trans h.2.1, h'.2.2.1.trans h.2.2.1, h'.2.2.2.trans h.2.2.2⟩

theorem KeepsClocks.ite {d a b : Dev} {p : Prop} [Decidable p] (h : KeepsClocks d a) (h' : KeepsClocks d b) : KeepsClocks d (if p then a else b) := by
  split
  · exact h
  · exact h'

theorem KeepsClocks.foldl {α : Type} (f : Dev → α → Dev) (h : ∀ d x, KeepsClocks d (f d x)) (l : List α) (d : Dev) : KeepsClocks d (l.foldl f d) := by
  induction l generalizing d with
  | nil => exact .refl d
  | cons x r ih => exact (h d x).trans (ih _)

theorem keepsClocks_setHport (d : Dev) (p : Nat) (g : HPort → HPort) : KeepsClocks d (d.setHport p g) := ⟨rfl, rfl, rfl, rfl⟩
theorem keepsClocks_setItem (d : Dev) (n : Nat) (st : ItemSt) : KeepsClocks d (d.setItem n st) := ⟨rfl, rfl, rfl, rfl⟩
theorem keepsClocks_setLport (d : Dev) (p : Nat) (g : LPort → LPort) : KeepsClocks d (d.setLport p g) := ⟨rfl, rfl, rfl, rfl⟩
theorem keepsClocks_setRing (d : Dev) (x : Nat) (g : Ring → Ring) : KeepsClocks d (d.setRing x g) := ⟨rfl, rfl, rfl, rfl⟩
theorem keepsClocks_emit (d : Dev) (o : Out) : KeepsClocks d (d.emit o) := ⟨rfl, rfl, rfl, rfl⟩

/-- A failed attempt is followed by the next. -/
theorem keepsClocks_retrain (d : Dev) : KeepsClocks d d.retrain :=
  .foldl _ (fun _ _ => .ite (keepsClocks_setHport ..) (.refl _)) _ d

/-- Bring-up items that are decided are recorded. -/
theorem keepsClocks_recordItems (d : Dev) : KeepsClocks d d.recordItems :=
  .foldl _ (fun _ _ => .ite (keepsClocks_setItem ..) (.refl _)) _ d

theorem keepsClocks_setCode (d : Dev) (x : Nat) (c : Int) : KeepsClocks d (d.setCode x c) := by
  have h : ∀ (e : Dev) (l : List (Nat × Ring)) (delta : Int), KeepsClocks e (l.foldl (fun (d : Dev) e =>
      (e.2.nbrs.filter fun n => decide (n.1 = x % 576)).foldl (fun (d : Dev) n => d.setRing e.1 fun g => g.feed n.2 delta) d) e) :=
    fun e l _ => .foldl _ (fun _ _ => .foldl _ (fun _ _ => keepsClocks_setRing ..) _ _) l e
  unfold Dev.setCode
  split
  · exact .refl d
  · simp only
    split
    · exact keepsClocks_setRing ..
    · exact (keepsClocks_setRing d x fun g => { g with code := clampCode c }).trans (h ..)

theorem keepsClocks_moveCode (d : Dev) (x : Nat) (c : Int) : KeepsClocks d (d.moveCode x c) :=
  .ite ((keepsClocks_setCode ..).trans (keepsClocks_setRing ..)) (keepsClocks_setRing ..)

theorem keepsClocks_drive (d : Dev) (x : Nat) (on : Bool) : KeepsClocks d (d.drive x on) :=
  .trans (b := d.compensate x on) (.ite (.refl _) ((keepsClocks_moveCode ..).trans (keepsClocks_setRing ..))) (keepsClocks_setRing ..)

theorem keepsClocks_tryLight (d : Dev) (p : Nat) : KeepsClocks d (d.tryLight p) := by
  have h : ∀ e : Dev, KeepsClocks e ((List.range 18).foldl (fun (d : Dev) k => if mapAt (d.wport p).tx k < 16 then d.drive (ringNo p 0 k) true else d) e) :=
    fun e => .foldl _ (fun _ _ => .ite (keepsClocks_drive ..) (.refl _)) _ e
  have key : ∀ e : Dev, KeepsClocks d e → KeepsClocks d ((if p < 64 then (List.range 18).foldl (fun (d : Dev) k =>
      if mapAt (d.wport p).tx k < 16 then d.drive (ringNo p 0 k) true else d) e else e).sendTs1 p) := fun e he =>
    (he.trans (.ite (h e) (.refl e))).trans (keepsClocks_emit ..)
  unfold Dev.tryLight
  split
  · exact key _ (keepsClocks_setLport ..)
  · exact .refl d

theorem keepsClocks_endPolishWait (d : Dev) : KeepsClocks d d.endPolishWait :=
  .foldl _ (fun _ _ => keepsClocks_tryLight ..) _ d

theorem keepsClocks_watchQuiet (d : Dev) : KeepsClocks d d.watchQuiet := by
  unfold Dev.watchQuiet Dev.wake
  split
  · exact ⟨rfl, rfl, rfl, rfl⟩
  · split <;> exact ⟨rfl, rfl, rfl, rfl⟩

theorem keepsClocks_account (d : Dev) (n : Nat) : KeepsClocks d (d.account n) := by
  unfold Dev.account
  split <;> exact ⟨rfl, rfl, rfl, rfl⟩

/-- The clocks over a tick in which nothing that waited takes effect. -/
theorem tick_clocks (d : Dev) (hi : d.dbg.ingress = []) (hd : d.flt.due = []) (hm : d.vlt.mirq = []) :
    d.tick.now = d.now + 250 ∧ d.tick.fab = d.fab.advance (d.now + 250) := by
  have h0 : KeepsClocks d d.drainIngress := by
    unfold Dev.drainIngress
    split
    · exact .refl d
    · rw [hi]; exact ⟨rfl, rfl, rfl, rfl⟩
  have h1 := (h0.trans (keepsClocks_retrain _)).trans (keepsClocks_recordItems _)
  have h2 : d.drainIngress.retrain.recordItems.programMirror true = d.drainIngress.retrain.recordItems := by
    unfold Dev.programMirror
    rw [h1.2.2.2, hm]
  have h3 : (d.drainIngress.retrain.recordItems.programMirror true).settle = d.drainIngress.retrain.recordItems := by
    rw [h2]; exact Dev.settle_of_no_due _ (by rw [h1.2.2.1, hd])
  have key : ∀ e : Dev, KeepsClocks d e → e.clocks.endPolishWait.watchQuiet.now = d.now + 250 ∧
      e.clocks.endPolishWait.watchQuiet.fab = d.fab.advance (d.now + 250) := by
    intro e he
    have h5 : e.clocks.now = d.now + 250 ∧ e.clocks.fab = d.fab.advance (d.now + 250) := by
      unfold Dev.clocks
      simp only
      split
      · have := keepsClocks_account { e with now := e.now + tickNs, fab := e.fab.advance (e.now + tickNs), lnk.ports := Tab.mapv {} (fun _ l => l.drain tickNs) e.lnk.ports } tickCycles
        rw [this.1, this.2.1, he.2.1, he.1]; exact ⟨rfl, rfl⟩
      · rw [he.2.1, he.1]; exact ⟨rfl, rfl⟩
    have h4 := (keepsClocks_endPolishWait e.clocks).trans (keepsClocks_watchQuiet _)
    exact ⟨h4.1.trans h5.1, h4.2.1.trans h5.2⟩
  unfold Dev.tick
  rw [h3]
  exact key _ h1

end Sys2Proof.Machine
end

