-- ==== Sys2Proof/Machine/Wire.lean ====
section
/-! DEFINITION. What a Facet link carries on its wires (04 R124 to R128, R139, R140, R147), as functions of the port's state: chunks on clusters
and lanes, scrambling, spares, parity, the bytes of flits and messages, and the patterns of training. -/

namespace Sys2Proof.Machine

/-! ### Chunks and lanes -/

/-- The bit of a chunk that data lane `l` carries in UI `u`: bit i of byte 4u + k on lane 8k + i (R124). -/
def chunkBit (chunk : List Byte) (u l : Nat) : Bool := (chunk.getD (4 * u + l / 8) 0).getLsbD (l % 8)

/-- The good clusters of a port, ascending. -/
def HPort.goodList (h : HPort) : List Nat := (List.range 32).filter fun c => !(Tab.look {} c h.clus).masked

/-- The Facet cycle and the cluster of chunk `k` of a stream that begins in cycle `n`: the good clusters in ascending number, then the lowest
of the next cycle (R125). -/
def HPort.place (h : HPort) (n k : Nat) : Nat × Nat :=
  let g := h.goodList
  (n + k / g.length, g.getD (k % g.length) 0)

/-- One UI of PRBS-23, x^23 + x^18 + 1: shifted towards bit 22, which is the bit sent. DESIGN CHOICE (log 139). -/
def prbs23 (s : BitVec 23) : BitVec 23 := (s <<< 1) ||| (if s.getLsbD 22 != s.getLsbD 17 then 1#23 else 0#23)

/-- The seed of a lane's sequence; lane index 32 for S0 and 33 for S1 (R126). -/
def laneSeed (c l : Nat) : BitVec 23 := 0x5A5A5A#23 ^^^ BitVec.ofNat 23 (32 * c + l + 1)

/-- The state of a lane's sequence in UI `u` of Facet cycle `n`. -/
def laneState (c l n u : Nat) : BitVec 23 := Nat.repeat prbs23 (16 * n + u) (laneSeed c l)

/-- The bit a lane's sequence gives then. -/
def laneSeq (c l n u : Nat) : Bool := (laneState c l n u).getLsbD 22

/-- What lane `l` of cluster `c` carries in UI `u` of cycle `n`, given the cluster's chunk: its scrambled data; on a spare the bits of the lane it
carries, with that lane's own sequence, or its own sequence with no data under it (R126, R127). -/
def laneBit (tx : Lrep) (chunk : List Byte) (c l n u : Nat) : Bool :=
  let data : Nat → Bool := fun i => chunkBit chunk u i != laneSeq c i n u
  if l < 32 then data l
  else match (if l = 32 then tx.s0 else tx.s1) with
    | some i => data i
    | none => laneSeq c l n u

/-- The data bit a receiver takes on a data lane: from the spare that carries it, descrambled (R126, R127). -/
def takeBit (rx : Lrep) (lane : Nat → Bool) (c l n u : Nat) : Bool :=
  lane (match rx.carrier l with | some 0 => 32 | some _ => 33 | none => l) != laneSeq c l n u

/-- Bit `u` of the track lane in cycle `n`: the parity of the scrambled bits that data lane u + 16 (n mod 2) carried in cycle n - 1 (R147). -/
def parityBit (sent : Nat → Nat → Bool) (n u : Nat) : Bool :=
  (List.range 16).foldl (fun b v => b != sent (u + 16 * (n % 2)) v) false

/-- The lanes of a cluster whose parity mismatches in cycle `n`: what the receiver counts (R148), and eight or more of which presume the track
lane failed (R161). -/
def parityErrors (got : Nat → Nat → Bool) (track : Nat → Bool) (n : Nat) : List Nat :=
  ((List.range 16).filter fun u => track u != parityBit got n u).map fun u => u + 16 * (n % 2)

/-! ### Flits and messages -/

/-- The header of a flit as a number (04, header bits). -/
def flitHeader (f : FacetFlit) : Nat :=
  f.ch + 4 * bNat f.null + 8 * bNat f.last + 0x10 * f.seq + 0x4000 * f.ack + 0x1000000 * bNat f.nak + 0x2000000 * f.crdCh + 0x8000000 * f.crdCnt

/-- The 256 bytes of a flit: header, payload with zeros after its last byte, CRC-32C (R128). -/
def flitBytes (f : FacetFlit) (payload : List Byte) : List Byte :=
  let b := leBytes 4 (flitHeader f) ++ (payload ++ List.replicate 248 0).take 248
  b ++ leBytes 4 (crc32c b).toNat

/-- A flit as read from its 256 bytes: header fields, and whether its CRC is right (R130). -/
def readFlit (b : List Byte) : FacetFlit :=
  let h := leNat (b.take 4)
  { ch := h % 4, null := decide (h / 4 % 2 = 1), last := decide (h / 8 % 2 = 1), seq := h / 0x10 % 1024, ack := h / 0x4000 % 1024,
    nak := decide (h / 0x1000000 % 2 = 1), crdCh := h / 0x2000000 % 4, crdCnt := h / 0x8000000 % 32,
    crcOk := decide (leNat ((b.drop 252).take 4) = (crc32c (b.take 252)).toNat) }

/-- A message in payloads of 248 bytes, from byte 0 of its first flit on (R128). -/
def payloads : Nat → List Byte → List (List Byte)
  | 0, _ => []
  | n + 1, l => (l ++ List.replicate 248 0).take 248 :: (if l.length ≤ 248 then [] else payloads n (l.drop 248))

/-- A memory-channel message: header, extension and data (04, memory message header). -/
def memBytes (opc : Nat) (m : MemMsg) : List Byte :=
  let attr := bNat m.relaxed + 2 * bNat m.fabric + 4 * bNat m.telem.isSome + 8 * bNat m.hint + 16 * m.aop
  leBytes 1 opc ++ leBytes 1 attr ++ leBytes 2 (m.tag % 4096 + 4096 * (m.tenant % 16)) ++ leBytes 3 m.pasid ++ leBytes 1 (m.len / 8 - 1)
    ++ leBytes 8 m.addr.toNat ++ telemBytes m.telem ++ wordBytes m.data

/-- A completion: the status stands in ATTR, ADDR is zero. -/
def cplBytes (tag tenant status : Nat) (data : List W64) : List Byte :=
  leBytes 1 (if data.isEmpty then 8 else 9) ++ leBytes 1 status ++ leBytes 2 (tag % 4096 + 4096 * (tenant % 16)) ++ leBytes 3 0
    ++ leBytes 1 (data.length - 1) ++ leBytes 8 0 ++ wordBytes data

/-- A memory-channel message as read from its bytes: the opcode and its fields. -/
def readMem (b : List Byte) : Nat × MemMsg :=
  let at_ : Nat → Nat → Nat := fun i n => leNat ((b.drop i).take n)
  let ext := decide (at_ 1 1 / 4 % 2 = 1)
  let body := b.drop (if ext then 24 else 16)
  (at_ 0 1,
    { relaxed := decide (at_ 1 1 % 2 = 1), fabric := decide (at_ 1 1 / 2 % 2 = 1), hint := decide (at_ 1 1 / 8 % 2 = 1), aop := at_ 1 1 / 16
      tag := at_ 2 2 % 4096, tenant := at_ 2 2 / 4096, pasid := at_ 4 3 % 0x100000, len := 8 * (at_ 7 1 + 1), addr := BitVec.ofNat 64 (at_ 8 8)
      telem := if ext then some { layer := BitVec.ofNat 16 (at_ 16 2), operator := BitVec.ofNat 16 (at_ 18 2), range := BitVec.ofNat 32 (at_ 20 4) } else none
      data := bytesWords (body.length / 8) body })

/-- An interrupt message (R137), and the header of a debug message. -/
def irqBytes (tenant vec : Nat) : List Byte := leBytes 1 tenant ++ leBytes 1 0 ++ leBytes 2 (vec % 2048) ++ leBytes 4 0
def debugHeader (type tenant len : Nat) : List Byte := leBytes 1 type ++ leBytes 1 tenant ++ leBytes 2 len ++ leBytes 4 0

/-! ### Training -/

/-- The lane identity word, first bit highest: 0xF0F0, lane index, cluster, 0b10101 (04, Training). An Inner Facet's cluster number goes in five
bits too, which the spec does not widen (log 139). -/
def identWord (c l : Nat) : BitVec 32 := 0xF0F0#16 ++ BitVec.ofNat 6 l ++ BitVec.ofNat 5 c ++ 0b10101#5

/-- The 64 bits of a training message of this end, by type and fields (04, training messages). -/
def trainingWord (kind : Nat) (args : List Nat) : BitVec 64 :=
  let a : Nat → Nat := fun i => args.getD i 0
  BitVec.ofNat 64 (match kind with
    | 1 => 2 ^ 56 + 2 ^ 51 * (a 0 % 32) + 2 ^ 17 * (a 1)
    | 2 => 2 * 2 ^ 56 + 2 ^ 48 * a 0 + 2 ^ 16 * a 1
    | 3 => 3 * 2 ^ 56 + 2 ^ 48 * a 0 + 2 ^ 40 * a 1 + 2 ^ 32 * a 2 + 2 ^ 24 * a 3
    | _ => 4 * 2 ^ 56)

/-- What a lane is driven with (R140). -/
inductive Drive where
  | off | low | clock | prbs23 | prbs7 | identity (w : BitVec 32) | training | data | parity
  deriving DecidableEq, Repr, Inhabited

/-- The lanes of a cluster. -/
inductive Lane where
  | data (i : Nat) | spare (k : Nat) | k | t
  deriving DecidableEq, Repr, Inhabited

/-- What this end drives on a lane of cluster `c` in each training state (R140): T carries training messages from REPAIR on (R139), and parity in
ACTIVE where it is in use (R147). -/
def HPort.drives (h : HPort) (c : Nat) (l : Lane) : Drive :=
  match h.st, l with
  | .down, _ | .failed, _ => .off
  | _, .k => .clock
  | .clock, .t | .ident, .t | .centre, .t => .prbs23
  | .repair, .t | .negotiate, .t => .training
  | .active, .t => if h.parity then .parity else .off
  | .clock, _ => .low
  | .ident, .data i => .identity (identWord c i)
  | .ident, .spare k => .identity (identWord c (32 + k))
  | .active, _ => if (Tab.look {} c h.clus).masked then .off else .data
  | _, _ => .prbs7

/-- The 16 bytes of a coherence message (09 R379): its code, the word, the reason of a C_NACK and the value of a C_DATA. -/
def cohBytes (kind : Nat) (w : CohWord) (v : W64) : List Byte :=
  leBytes 1 kind ++ leBytes 1 (bNat (!w.sem)) ++ leBytes 1 w.tenant ++ leBytes 1 (if kind = 6 then v.toNat else 0) ++ leBytes 4 w.index
    ++ leBytes 8 (if kind = 2 then v.toNat else 0)

end Sys2Proof.Machine
end

