-- ==== Sys2Proof/Tests/Slice0.lean ====
section
/-! SUPPORT. Tests: the worked cases of the chapters, the well-formedness check, and for every statement with hypotheses the states and
operands that meet them. Expected values are those the chapters print. -/

set_option linter.all false
set_option Elab.async false

namespace Sys2Proof.Tests

open Sys2Proof Sys2Proof.Machine

/-- The device after a meaning; the reset device where it stops. -/
def after (r : R) : Dev := match r with | .next t => t.dev | _ => {}

/-- Records of the fault log: source, class, unit, escalated. -/
def faults (d : Dev) : List (Nat × Nat × Nat × Bool) := d.flt.log.map fun r => (r.src, r.cls, r.unit, r.esc)

/-- The device with its PCIe link up, every function's Memory Space Enable set and VFs enabled, and, from before HOST_READY, at HOST_READY. -/
def on (d : Dev) : Dev :=
  { d with
    jad.released := true, jad.pwrOk := true, jad.perstHigh := true, mbx.link.up := true
    boot.stage := if d.up then d.boot.stage else .hostReady, boot.conikHeld := false
    mbx.fns := (List.range 17).foldl (fun t f => Tab.upd {} f (fun g => { g with mse := true, vfEnable := f == 0, bme := f == 0 || g.bme }) t) d.mbx.fns }
/-- A device at HOST_READY and nothing else. -/
def up : Dev := on {}
/-- A request through the PF's ring. -/
def pf : Req := { path := .pcie 0, seq := 1, tenant := 0xFF, length := 0 }
/-- The statuses of the responses in a function's ring. -/
def answers (d : Dev) (f : Nat) : List (Option Status) := (d.fn f).rsp.map (·.2.map (·.status))

/-! ### The worked cases -/

/-- 01, Case 1: the check byte of a Beryl's identity word. -/
theorem test_identity_check_byte : crc8 [0x21, 0x00, 0x3A, 0x5C, 0x1C, 0x48, 0x25] = 0xB1 := by decide +kernel

/-- 00, Case 1: the parts of a fabric address. -/
theorem test_fabric_address : (faNode 0x54E3000000400000, faTen 0x54E3000000400000, faOff 0x54E3000000400000) = (0x54E, 3, 0x400000) := by decide +kernel

/-- A directory copy as 03 R86 lays it out. -/
def copyBytes (seq active : Nat) : List Byte :=
  let b := leBytes 4 0x48584431 ++ leBytes 4 seq ++ [BitVec.ofNat 8 active, 0, 0, 0]
  b ++ leBytes 4 (crc32c b).toNat

/-- 03, Case 1: SEQ 41 with ACTIVE 0 beside SEQ 40 with ACTIVE 1. -/
def twoCopies : Memory := (Memory.write [] 0 (copyBytes 41 0)).write 4096 (copyBytes 40 1)

theorem test_boot_slot : dirNow twoCopies = some (0, { ok := true, seq := 41, active := false, trial := false }) := by decide +kernel

/-- 06, Case 2: FW_ACTIVATE writes copy 1 with SEQ 42, FW_CONFIRM copy 0 with SEQ 43. -/
theorem test_activate_confirm :
    dirNow (dirWrite twoCopies true true) = some (1, { ok := true, seq := 42, active := true, trial := true }) ∧
    dirNow (dirWrite (dirWrite twoCopies true true) true false) = some (0, { ok := true, seq := 43, active := true, trial := false }) := by decide +kernel

/-- 04, Case 2: REV 0x30 and FEAT 0x0001_310F. -/
theorem test_negotiation : (agreedRev 0x30, agreedFeat 0x0001310F) = (0x21, 0x0000300F) := by decide +kernel

/-- 06, Case 1: the opcodes of group 0x0B at minor version 0 and 1. -/
theorem test_opcode_bitmap : (opBitmap 0 0x0B, opBitmap 1 0x0B) = (0x1F, 0x3F) := by decide +kernel

/-- 07, Case 1: the record of descriptor 0x105 with RING_LOG2 8. -/
theorem test_record_address : recAddr { ring := 0x1000000, log2 := 8 } 0x105 = 0x1004050 := by decide +kernel

/-- 07, Case 2: T1 holds 20 MiB of packet buffer and T0 2 MiB of its floor of 8. -/
def shares (t0 t1 : Nat) : Dev :=
  { ({} : Dev) with tq.ten :=
      [(0, { assign := some { pktFloor := 8192, pktCeil := 20480, weight := 3 }, served := true, pkt := t0 }),
       (1, { assign := some { pktFloor := 4096, pktCeil := 28672, weight := 1 }, served := true, pkt := t1 }),
       (2, { assign := some { pktFloor := 0, pktCeil := 4096, weight := 1 }, served := true })] }

theorem test_floors_hold_units_back : ((shares 8192 81919).canGrant 0 1 1, (shares 8192 81920).canGrant 0 1 1, (shares 8192 81920).canGrant 0 0 1) = (true, false, true) := by
  decide +kernel

/-- 08, Case 1: key range 0 of T3 with SEL 5, host map entry 2 with PORT 2. -/
def mapped : Dev :=
  { ({} : Dev) with xlt.hmapBase := [(2, 0x200)], xlt.hmapLim := [(2, 0x2FF)], xlt.hmapCtl := [(2, 0x102)], tq.ten := [(3, { krBase := [(0, 0x01000000)], krLim := [(0, 0x01007FFF)], krCtl := [(0, 0x105)] })] }

theorem test_key_range : (mapped.selOf 4 0x0000200000401000, mapped.selOf 4 0x0000201000000000) = (5, 0) := by decide +kernel
theorem test_host_map : (mapped.hmap 0x0000008140401000, mapped.hmap 0x000000C000000000) = (some 2, none) := by decide +kernel

/-- 10, Case 1: 1.0 and eight times 2.0 in bfloat16, divided by 9. -/
theorem test_reduce_mean :
    finishElems 2 0 (some 9) 0 0 0 [(List.replicate 8 (toF32 2 0x4000)).foldl (foldElem 2 0) (toF32 2 0x3F80)] = [0x3FF2] := by decide +kernel

/-- 10, Case 1: the tree of ten members, the chunks, and the bitmaps of instances k and k + 1. -/
theorem test_group_tree : (childrenOf 10 0, childrenOf 10 1, parentOf 9, chunksOf 262144) = ([1, 2, 3, 4, 5, 6, 7, 8], [9], 1, 256) := by decide +kernel
theorem test_bitmaps : (bitmapWords 10 (List.range 9) [], bitmapWords 10 (List.range 10) [9]) = ([0xFF, 0x01, 0x00, 0x00], [0xFF, 0x03, 0x00, 0x02]) := by decide +kernel

/-- 12, Case 2: port 37 in REPORT, every wavelength lit and locked. -/
def training : Dev :=
  { ({} : Dev) with lnk.ports := [(37, { st := .report })], las.pos := (List.range 36).map (fun i => (i, ({ lit := true } : Pos))), opt.rings := (List.range 18).map fun k => (ringNo 37 0 k, ({ st := .locked, lit := true } : Ring)) }

theorem test_training_round :
    let d := after (execTs2Rx 37 { copies := 18, rxgood := 0x3FFDF } { dev := training })
    (mapAt (d.wport 37).tx 5, mapAt (d.wport 37).tx 16, mapAt (d.wport 37).tx 17) = (0xFF, 5, 0xFE) ∧ (d.lport 37).round = 1 ∧ (d.lport 37).txGood = 0x3FFDF := by decide +kernel

/-- 13, Case 1: the sense pair of B1's group 13 breaks; two scans agree. -/
def senseGroup : Dev := { ({} : Dev) with opt.rings := (List.range 18).map fun k => (810 + k, ({ st := .locked, lit := true, code := 5000, rbValid := true } : Ring)) }
def brokenScan : SenseScan := { idleMv := 430, limited := 0, readback := List.replicate 18 0 }

theorem test_sense_break :
    let d := after (execHeaterScanDone 1 13 brokenScan { dev := after (execHeaterScanDone 1 13 brokenScan { dev := senseGroup }) })
    faults d = [(0x075, 2, 45, false)] ∧ (d.ring 810).rbValid = false ∧ (d.ring 810).readback = 5000 := by decide +kernel

/-- 13, Case 2: three invalid outputs, then four within LOCK_THR. -/
def relocking : Dev := { ({} : Dev) with opt.rings := [(5, { st := .track, invalid := 3, lit := true, code := 5000 })] }
def outputs (n : Nat) : Dev := (List.range n).foldl (fun d _ => after (execRingFilterOutput 0 5 { x1 := 0, p0 := 100 } { dev := d })) relocking

theorem test_relock :
    ((outputs 2).ring 5).invalid = 1 ∧ ((outputs 3).ring 5).valid = false ∧ ((outputs 4).ring 5).valid = true ∧ ((outputs 6).ring 5).st = .track ∧
    ((outputs 7).ring 5).st = .locked := by decide +kernel

/-- 14, Case 1: primary laser 10 of L0 goes dark while port 3 is ACTIVE. -/
def serving : Dev :=
  { ({} : Dev) with las.pos := (List.range 36).map (fun i => (i, ({ lit := true } : Pos))), las.las := [(10, { st := .lit, target := 1000, current := 900 }), (11, { st := .hold, current := 100 })], las.ruby := [(0, { linkOk := true })], las.ports := [(3, { txNext := some 16, nextAcked := true, rxuse := 0x3FFFF })], opt.rings := (List.range 18).map (fun k => (ringNo 3 0 k, ({ st := .locked, lit := true } : Ring))), lnk.ports := [(3, { st := .active })] }
def dark : LasSample := { mv := 1500, current := 900, mpd := 0 }

theorem test_laser_dark :
    let d := after (execLaserMonitorSample 10 dark { dev := after (execLaserMonitorSample 10 dark { dev := serving }) })
    ((d.laser 10).st, (d.laser 10).fcause, (d.laser 11).st) = (.failed, 3, .ramp) ∧
    (mapAt (d.wport 3).tx 5, mapAt (d.wport 3).tx 16, mapAt (d.wport 3).tx 17, (d.wport 3).txNext) = (0xFE, 5, 0xFE, some 17) := by decide +kernel

/-- 15, Case 1: the statistics of the LEVELS step, in 1/64 LSB. -/
def levels : LevelStats := { m11 := 2944, m10 := 2688, m01 := 768, m00 := 512, s1 := 192, s0 := 128 }

theorem test_corrections : (Dev.corrections {} levels).1 = (151, 9, 28) := by decide +kernel
theorem test_lustre : (Dev.lustreOf {} levels).1 = 266 := by decide +kernel

/-- 16, Case 1: sensor 7 (E1) of a lone valid sensor, with its last reading. -/
def engine (g calm : Nat) (last now : Int) : Dev :=
  { ({} : Dev) with thm.g := g, thm.calm := calm, thm.sens := [(7, { valid := true, temp := now, hist := [last] })] }

/-- At 4 ms (101.375 °C after 101.25) g rises from 3 to 4; at 5 ms it stays; after ten rounds below 98 °C it falls to 3. -/
theorem test_governor :
    ((engine 3 0 1620 1622).governor.thm.g, (engine 4 0 1622 1620).governor.thm.g, (engine 4 8 1560 1560).governor.thm.g, (engine 4 9 1560 1560).governor.thm.g) =
      (4, 4, 4, 3) := by decide +kernel
theorem test_warning : ((engine 0 0 1592 1604).checkSensor 7).flt.due.map (fun p => (p.src, p.unit)) = [(0x0A0, 7)] := by decide +kernel

/-- 16, Case 2: the four ports of group 1 of B2 are darkened: domains 80 and 84 are to turn OFF. -/
def lighted : Dev :=
  on { ({} : Dev) with boot.stage := .fabricReady, pwr.dom := (List.range 112).map (fun n => (n, 3)), lnk.ports := (List.range 64).map fun p => (p, ({ st := .active } : LPort)) }

theorem test_dark_group :
    let d := after (execPwrDarkPorts { pf with length := 8 } 0x000000F000000000 { dev := lighted })
    d.pwr.seq = [(80, 0), (84, 0)] ∧ ((d.lport 36).st, (d.lport 39).st, (d.lport 35).st) = (.down, .down, .active) ∧ answers d 0 = [some .accepted] := by decide +kernel

/-- 20, Case 1: HTR_SENSE_OPEN, then LNK_DOWN, which is escalated; the board acknowledges both. -/
def twoFaults : Dev := ((({} : Dev).post Src.htrSenseOpen 45).settle.post Src.lnkDown 22).settle

theorem test_escalation : faults twoFaults = [(0x075, 2, 0x2D, false), (0x065, 3, 0x16, true)] ∧ twoFaults.flt.highest = 3 := by decide +kernel
theorem test_acknowledged : twoFaults.ackAll.flt.log.map (fun r => (r.acked, r.cleared)) = [(true, true), (true, true)] := by decide +kernel

/-- 21, Case 1: the edge of queue 4 of T2, as DBG_WAITFOR lays it out. -/
theorem test_edge : Edge.fields { qglobal := 132, reason := 11, tkind := 2, target := 0x905, layer := 0x31, operator := 7, micros := 350192 } = [0x84, 0x0B, 2, 0x905, 0x31, 7, 0x557F0] := by decide +kernel

/-- 23, Case 1: the fused repairs of B2; its next replacement takes spare cluster 69. -/
def fusedBridge : Dev :=
  ({ ({} : Dev) with fuses.repair := [(2, [{ toDie := true, cluster := 12, lane := 7, target := 32 }, { toDie := true, cluster := 12, lane := 8, target := 33 }, { toDie := true, cluster := 40, lane := 21, target := 32 }, { toDie := true, cluster := 33, lane := 63, target := 68 }])] }).fuseBridges

theorem test_fused_spare :
    ((fusedBridge.inner 2).dir true).spare = [(0, 34)] ∧ (((after (execInnerClusterFail 2 12 true { dev := fusedBridge })).inner 2).dir true).spare = [(0, 34), (1, 13)] := by decide +kernel

/-! ### One step -/

/-- A step takes the front command; with none it is a tick of 250 ns. -/
theorem test_step_front : (match step { pending := [.pwrOkRise, .xtalFail] } with | .next t => t.pending | _ => []) = [.xtalFail] := by decide +kernel
theorem test_step_idle : (match step {} with | .next t => t.dev.now | _ => 0) = 250 := by decide +kernel

/-- A command that names no unit stops with the fault that says so. -/
theorem test_no_such_unit : (match step { pending := [.neighbourTimeout 64] } with | .fault r => some r | _ => none) = some .noSuchUnit := by decide +kernel

/-- 05 R181: a tenant's command with another tenant's number is answered BAD_TENANT, 0x0013, with the opcode and SEQ repeated (05, Case 1). -/
def withT3 : Dev := on { ({} : Dev) with mbx.fns := [(4, { bme := true })], tq.ten := [(3, { assign := some {}, served := true })] }

theorem test_bad_tenant :
    ((after (execTenQuery { path := .pcie 4, seq := 0x102, tenant := 5, length := 0 } { dev := withT3 })).fn 4).rsp.map (·.2.map fun r => (r.opcode, r.seq, r.status.code)) =
      [some (0x203, 0x102, 0x13)] := by decide +kernel

/-- The flash reads what was written; writing the erased value leaves no entry. -/
theorem test_flash_byte : Memory.readByte (Memory.writeByte [] 5 0x12) 5 = 0x12 ∧ Memory.readByte [] 5 = 0xFF ∧ Memory.writeByte (Memory.writeByte [] 5 0x12) 5 0xFF = [] := by
  decide +kernel

/-! ### Well-formed terms: for each check a term it refuses, one unit above the last, and one it takes, the last unit -/

theorem test_wf_refuses_0 : ([.asyncStuckTimeout 6, .asyncUnmask 6, .asyncRateFault 6, .bringupItemStart 9, .pcieFlrVf 16, .flrReadsDrained 17, .trQuiesceDone 16, .trScrubDone 16, .pcieConfigAccess 17 default default default, .pcieReadCompletion 17 default default default, .pcieCompletionTimeout 17 default, .bmeClear 17, .bmeSet 17, .priEnableWrite 17, .facetFlitRx 8 default, .facetAckTimeout 8, .facetHr 8, .facetHrHoldExpiry 8, .facetKLock 12, .facetLanesIdentified 12 default default default default, .facetCentreDone 12 default default, .facetLaneRes 12 default default, .facetNeg 8 default default default, .facetCrd 8 default default default default default] : List Instr).all (fun i => !i.wf) = true := by decide +kernel
theorem test_wf_refuses_1 : ([.facetReady 8 default, .facetTrainTimeout 12, .facetLaneWindow 12 default, .facetRepairReq 12 0 default default, .facetRepairReq 8 72 default default, .facetRepairReq 7 32 default default, .facetRepairAt 12 0 default, .facetRepairAt 8 72 default, .facetRepairAt 7 32 default, .facetRepairCycleN 12 0, .facetRepairCycleN 8 72, .facetRepairCycleN 7 32, .facetRepairTake 12 0, .facetRepairTake 8 72, .facetRepairTake 7 32, .facetRepairRelease 12 0, .facetRepairRelease 8 72, .facetRepairRelease 7 32, .facetMaskReq 8 0, .facetMaskReq 0 32, .facetMaskAt 8 0 default, .facetMaskAt 0 32 default, .facetMaskCycle 8 0, .facetMaskCycle 0 32, .innerClusterFail 4 0 default, .innerClusterFail 0 72 default, .facetMsgRd 8 default, .facetMsgWr 8 default, .facetMsgWrp 8 default] : List Instr).all (fun i => !i.wf) = true := by decide +kernel
theorem test_wf_refuses_2 : ([.facetMsgAtom 8 default, .facetMsgAtomp 8 default, .facetMsgCpl 8 default default default, .facetMsgCpld 8 default default default default, .facetCohGet 8 default, .facetCohInvack 8 default, .facetCohDrop 8 default, .cohInvackTimeout 8 default, .facetTimestampRx 8 default default, .sidebandCommand 8 default, .mbxCmdDoorbell 17 default default, .mbxRspHeadWrite 17 default, .mbxNtcHeadWrite 17 default, .mbxCtlWrite 17 default default, .tenDbtailWrite 16 0 default, .tenDbtailWrite 0 64 default, .descStart 16 0 default, .descStart 0 64 default, .opCopy 1024 default, .opFill 1024 default, .opGet 1024 default, .opPut 1024 default, .opAtomic 1024 default, .opAllreduce 1024 default] : List Instr).all (fun i => !i.wf) = true := by decide +kernel
theorem test_wf_refuses_3 : ([.opReduceScatter 1024 default, .opBarrier 1024 default, .opSemAtomic 1024 default, .opSemWait 1024 default, .opSemRead 1024 default, .opFlush 1024 default, .opEpochRead 1024 default, .segmentIssue 80, .txnTimeout 1024 default default, .bufferUnitFree 3 0, .bufferUnitFree 0 16, .serialQuarantineEnd 1024 default, .atsTranslationCompletion 17 default default, .pretranslateIssue 16 0 default default, .pretranslateIssue 0 64 default default, .atsInvalidateRequest 17 default default default default default, .prgResponse 17 default default, .priTimeout 17 default, .xltKeyrangeWrite 16 default 0 default, .xltKeyrangeWrite 0 default 8 default, .xltHmapWrite default 16 default, .leaseExpiry 16 0, .leaseExpiry 0 32, .prefetchIssue 16 0] : List Instr).all (fun i => !i.wf) = true := by decide +kernel
theorem test_wf_refuses_4 : ([.prefetchIssue 0 32, .lineFillDone 16 0 default, .lineFillDone 0 32 default, .takeoverWriteHoldEnd 16, .collDeadline 16 0 default, .collDeadline 0 256 default, .collGraceTimeout 16 0 default, .collGraceTimeout 0 256 default, .collDropTimeout 16 0, .collDropTimeout 0 256, .reduceFoldStep 4, .neighbourTimeout 64, .pktHello 64 default, .pktTsync 64 default default, .linkFlitRx 65 default, .linkAckTimeout 65, .retryBudgetExpiry 65, .skipSlotRx 65 default, .linkLightLock 65 default default default, .identCheckDone 65 default, .ts1Rx 65 default, .ts2Rx 65 default, .ts3Rx 65 default, .linkStateTimeout 65] : List Instr).all (fun i => !i.wf) = true := by decide +kernel
theorem test_wf_refuses_5 : ([.linkFailedRetry 65, .linkResetEvent 65, .lmgtRetract 65 default default, .lmgtRekeyReady 65 default, .rekeyThreshold 65, .rekeyOverdue 65, .ringEnable 4 0, .ringEnable 0 576, .ringSeekDone 4 0 default default, .ringSeekDone 0 576 default default, .ringFilterOutput 4 0 default, .ringFilterOutput 0 576 default, .ringTrackTimeout 4 0, .ringTrackTimeout 0 576, .ringLightChange 4 0 default, .ringLightChange 0 576 default, .brlSyncGo 4, .brlLcfgWrite 4 default, .heaterScanDone 4 0 default, .heaterScanDone 0 32 default, .heaterRampStep 4 0, .heaterRampStep 0 576, .rxCorrectionApply 64 0, .rxCorrectionApply 0 18] : List Instr).all (fun i => !i.wf) = true := by decide +kernel
theorem test_wf_refuses_6 : ([.laserRampEnd 72 default, .laserMonitorSample 72 default, .laserRetryTimer 72, .laserPowerLoop 72 default, .laserPositionLit 2 0, .laserPositionLit 0 18, .laserSwapAdvance 2 0, .laserSwapAdvance 0 18, .laserDisableWire 2, .rubyLinkSilent 2, .moveStart 64, .walNext 64 default, .walMoveAt 64 default default default default, .moveSlotN 64, .moveAlignDone 64 default, .walReady 64 default default default, .moveReleaseSlot 64, .walDone 64 default default default, .walReq 64 default default default, .walReqNow 64 default default, .walNak 64 default default default, .walCancel 64 default, .walRxuse 64 default, .moveAbandon 64] : List Instr).all (fun i => !i.wf) = true := by decide +kernel
theorem test_wf_refuses_7 : ([.polishStart 4, .polishScanDone 2304 default, .polishRelockDone 2304, .polishDrvcompDone 2304, .polishOffsetDone 2304 default, .polishLevelsDone 2304 default, .lightPolishDone 2304 default, .lustreSample 2304 default, .calRecordWrite 2304, .reservationTimeout 64, .limitComparator 58 default, .tripComparator 58 default, .coldWarmTimeout 4, .vltCaptureStart 16 0 default, .vltCaptureStart 0 16 default, .vltCaptureDone 16 0 default, .vltCaptureDone 0 16 default, .vltSealRecord 16, .vltProgramDone 8 0 default default, .vltProgramDone 0 4096 default default, .vltEraseDone 8 0 default, .vltEraseDone 0 4096 default, .vltPageReadDone 8 0 default default, .vltPageReadDone 0 4096 default default] : List Instr).all (fun i => !i.wf) = true := by decide +kernel
theorem test_wf_refuses_8 : ([.vltReclaim 8 0, .vltReclaim 0 4096, .vltRestoreDone 16 default, .vltDieLost 8, .vltResync 16, .vltHeal 16, .twnVput 16 default default default default default, .twnVack 16 default default default default, .twnVseal 16 default default, .twnVsealack 16 default default, .twnVdrop 16 default, .twnVread 16 default default default, .twnVdata 16 default default default default default, .twnSnap 16 default default default, .keymsgHello 65 default, .keymsgCert 65 default default default, .keymsgVerify 65 default, .keymsgFinish 65 default, .keymsgRekey 65 default default, .keymsgRekeyAck 65 default default, .keymsgAbort 65 default, .tenFstatClr 16, .fltSevWrite 32 default, .dumpTimeout 16] : List Instr).all (fun i => !i.wf) = true := by decide +kernel
theorem test_wf_refuses_9 : ([.dumpDone 16, .jadAindropClr 6, .fctRetryClr 8, .fctPerrClr 8 0, .fctPerrClr 0 32, .mbxBmstatClr 17, .tenQcntClr 16 0, .tenQcntClr 0 64, .tenQlateClr 16 0, .tenQlateClr 0 64, .tenStreamCntClr 16 0 default, .tenStreamCntClr 0 32 default, .xltPricntClr 17, .lnkRetryClr 65, .lnkErrClr 65, .lnkFeccorClr 65, .walCntClr 64, .registerWrite 17 default default default, .rubyLinkReturn 2, .bringupItemStart 0, .pcieAerError default 32] : List Instr).all (fun i => !i.wf) = true := by decide +kernel
theorem test_wf_takes_0 : ([.asyncStuckTimeout 5, .asyncUnmask 5, .asyncRateFault 5, .bringupItemStart 8, .pcieFlrVf 15, .flrReadsDrained 16, .trQuiesceDone 15, .trScrubDone 15, .pcieConfigAccess 16 default default default, .pcieReadCompletion 16 default default default, .pcieCompletionTimeout 16 default, .bmeClear 16, .bmeSet 16, .priEnableWrite 16, .facetFlitRx 7 default, .facetAckTimeout 7, .facetHr 7, .facetHrHoldExpiry 7, .facetKLock 11, .facetLanesIdentified 11 default default default default, .facetCentreDone 11 default default, .facetLaneRes 11 default default, .facetNeg 7 default default default, .facetCrd 7 default default default default default] : List Instr).all Instr.wf = true := by decide +kernel
theorem test_wf_takes_1 : ([.facetReady 7 default, .facetTrainTimeout 11, .facetLaneWindow 11 default, .facetRepairReq 11 71 default default, .facetRepairReq 7 31 default default, .facetRepairAt 11 71 default, .facetRepairAt 7 31 default, .facetRepairCycleN 11 71, .facetRepairCycleN 7 31, .facetRepairTake 11 71, .facetRepairTake 7 31, .facetRepairRelease 11 71, .facetRepairRelease 7 31, .facetMaskReq 7 0, .facetMaskReq 0 31, .facetMaskAt 7 0 default, .facetMaskAt 0 31 default, .facetMaskCycle 7 0, .facetMaskCycle 0 31, .innerClusterFail 3 0 default, .innerClusterFail 0 71 default, .facetMsgRd 7 default, .facetMsgWr 7 default, .facetMsgWrp 7 default] : List Instr).all Instr.wf = true := by decide +kernel
theorem test_wf_takes_2 : ([.facetMsgAtom 7 default, .facetMsgAtomp 7 default, .facetMsgCpl 7 default default default, .facetMsgCpld 7 default default default default, .facetCohGet 7 default, .facetCohInvack 7 default, .facetCohDrop 7 default, .cohInvackTimeout 7 default, .facetTimestampRx 7 default default, .sidebandCommand 7 default, .mbxCmdDoorbell 16 default default, .mbxRspHeadWrite 16 default, .mbxNtcHeadWrite 16 default, .mbxCtlWrite 16 default default, .tenDbtailWrite 15 0 default, .tenDbtailWrite 0 63 default, .descStart 15 0 default, .descStart 0 63 default, .opCopy 1023 default, .opFill 1023 default, .opGet 1023 default, .opPut 1023 default, .opAtomic 1023 default, .opAllreduce 1023 default] : List Instr).all Instr.wf = true := by decide +kernel
theorem test_wf_takes_3 : ([.opReduceScatter 1023 default, .opBarrier 1023 default, .opSemAtomic 1023 default, .opSemWait 1023 default, .opSemRead 1023 default, .opFlush 1023 default, .opEpochRead 1023 default, .segmentIssue 79, .txnTimeout 1023 default default, .bufferUnitFree 2 0, .bufferUnitFree 0 15, .serialQuarantineEnd 1023 default, .atsTranslationCompletion 16 default default, .pretranslateIssue 15 0 default default, .pretranslateIssue 0 63 default default, .atsInvalidateRequest 16 default default default default default, .prgResponse 16 default default, .priTimeout 16 default, .xltKeyrangeWrite 15 default 0 default, .xltKeyrangeWrite 0 default 7 default, .xltHmapWrite default 15 default, .leaseExpiry 15 0, .leaseExpiry 0 31, .prefetchIssue 15 0] : List Instr).all Instr.wf = true := by decide +kernel
theorem test_wf_takes_4 : ([.prefetchIssue 0 31, .lineFillDone 15 0 default, .lineFillDone 0 31 default, .takeoverWriteHoldEnd 15, .collDeadline 15 0 default, .collDeadline 0 255 default, .collGraceTimeout 15 0 default, .collGraceTimeout 0 255 default, .collDropTimeout 15 0, .collDropTimeout 0 255, .reduceFoldStep 3, .neighbourTimeout 63, .pktHello 63 default, .pktTsync 63 default default, .linkFlitRx 64 default, .linkAckTimeout 64, .retryBudgetExpiry 64, .skipSlotRx 64 default, .linkLightLock 64 default default default, .identCheckDone 64 default, .ts1Rx 64 default, .ts2Rx 64 default, .ts3Rx 64 default, .linkStateTimeout 64] : List Instr).all Instr.wf = true := by decide +kernel
theorem test_wf_takes_5 : ([.linkFailedRetry 64, .linkResetEvent 64, .lmgtRetract 64 default default, .lmgtRekeyReady 64 default, .rekeyThreshold 64, .rekeyOverdue 64, .ringEnable 3 0, .ringEnable 0 575, .ringSeekDone 3 0 default default, .ringSeekDone 0 575 default default, .ringFilterOutput 3 0 default, .ringFilterOutput 0 575 default, .ringTrackTimeout 3 0, .ringTrackTimeout 0 575, .ringLightChange 3 0 default, .ringLightChange 0 575 default, .brlSyncGo 3, .brlLcfgWrite 3 default, .heaterScanDone 3 0 default, .heaterScanDone 0 31 default, .heaterRampStep 3 0, .heaterRampStep 0 575, .rxCorrectionApply 63 0, .rxCorrectionApply 0 17] : List Instr).all Instr.wf = true := by decide +kernel
theorem test_wf_takes_6 : ([.laserRampEnd 71 default, .laserMonitorSample 71 default, .laserRetryTimer 71, .laserPowerLoop 71 default, .laserPositionLit 1 0, .laserPositionLit 0 17, .laserSwapAdvance 1 0, .laserSwapAdvance 0 17, .laserDisableWire 1, .rubyLinkSilent 1, .moveStart 63, .walNext 63 default, .walMoveAt 63 default default default default, .moveSlotN 63, .moveAlignDone 63 default, .walReady 63 default default default, .moveReleaseSlot 63, .walDone 63 default default default, .walReq 63 default default default, .walReqNow 63 default default, .walNak 63 default default default, .walCancel 63 default, .walRxuse 63 default, .moveAbandon 63] : List Instr).all Instr.wf = true := by decide +kernel
theorem test_wf_takes_7 : ([.polishStart 3, .polishScanDone 2303 default, .polishRelockDone 2303, .polishDrvcompDone 2303, .polishOffsetDone 2303 default, .polishLevelsDone 2303 default, .lightPolishDone 2303 default, .lustreSample 2303 default, .calRecordWrite 2303, .reservationTimeout 63, .limitComparator 57 default, .tripComparator 57 default, .coldWarmTimeout 3, .vltCaptureStart 15 0 default, .vltCaptureStart 0 15 default, .vltCaptureDone 15 0 default, .vltCaptureDone 0 15 default, .vltSealRecord 15, .vltProgramDone 7 0 default default, .vltProgramDone 0 4095 default default, .vltEraseDone 7 0 default, .vltEraseDone 0 4095 default, .vltPageReadDone 7 0 default default, .vltPageReadDone 0 4095 default default] : List Instr).all Instr.wf = true := by decide +kernel
theorem test_wf_takes_8 : ([.vltReclaim 7 0, .vltReclaim 0 4095, .vltRestoreDone 15 default, .vltDieLost 7, .vltResync 15, .vltHeal 15, .twnVput 15 default default default default default, .twnVack 15 default default default default, .twnVseal 15 default default, .twnVsealack 15 default default, .twnVdrop 15 default, .twnVread 15 default default default, .twnVdata 15 default default default default default, .twnSnap 15 default default default, .keymsgHello 64 default, .keymsgCert 64 default default default, .keymsgVerify 64 default, .keymsgFinish 64 default, .keymsgRekey 64 default default, .keymsgRekeyAck 64 default default, .keymsgAbort 64 default, .tenFstatClr 15, .fltSevWrite 31 default, .dumpTimeout 15] : List Instr).all Instr.wf = true := by decide +kernel
theorem test_wf_takes_9 : ([.dumpDone 15, .jadAindropClr 5, .fctRetryClr 7, .fctPerrClr 7 0, .fctPerrClr 0 31, .mbxBmstatClr 16, .tenQcntClr 15 0, .tenQcntClr 0 63, .tenQlateClr 15 0, .tenQlateClr 0 63, .tenStreamCntClr 15 0 default, .tenStreamCntClr 0 31 default, .xltPricntClr 16, .lnkRetryClr 64, .lnkErrClr 64, .lnkFeccorClr 64, .walCntClr 63, .registerWrite 16 default default default, .rubyLinkReturn 1, .pcieAerError default 31] : List Instr).all Instr.wf = true := by decide +kernel

/-! ### For each statement with hypotheses, states and operands that meet them, clause by clause -/

/-- An option that holds something holds what it gives. -/
theorem got {α : Type} {o : Option α} (h : o.isSome = true) : o = some (o.get h) := by simp
/-- A pair whose second part is `b`. -/
theorem taken {α β : Type} {p : α × β} {b : β} (h : p.2 = b) : p = (p.1, b) := by cases p; simp_all

/-- PowerSequencingCommands. -/
theorem witness_power_sequencing_commands :
    (∃ (d : Dev), d.jad.aoUp = false) ∧
    (∃ (d : Dev), d.jad.aoUp = true ∧ d.jad.released = false) ∧
    (∃ (d : Dev), d.jad.released = true ∧ d.jad.pwrOk = false ∧ d.jad.losing = false ∧ d.pwr.state ≠ 3) ∧
    (∃ (ns : Nat) (d : Dev), minPulseNs 5 ≤ ns ∧ d.jad.pwrOk = true) ∧
    (∃ (ns : Nat), ns < debounceNs 5) ∧
    (∃ (d : Dev), d.jad.pwrOk = true) ∧
    (∃ (d : Dev), d.jad.losing = true ∧ d.pwr.target = 3 ∧ d.jad.latched = false ∧ d.pwr.wakeHeld = none) ∧
    (∃ (d : Dev), d.jad.losing = true ∧ d.pwr.target ≠ 3 ∧ d.jad.latched = false ∧ d.jad.pwrOk = false) ∧
    (∃ (d : Dev), d.jad.pwrReq = true ∧ d.jad.pwrOk = false ∧ d.jad.reqFails < 2) ∧
    (∃ (d : Dev), d.jad.pwrReq = true ∧ d.jad.pwrOk = false ∧ 2 ≤ d.jad.reqFails) ∧
    (∃ (d : Dev), d.jad.pwrReq = false ∧ d.jad.pwrOk = false ∧ 0 < d.jad.reqFails ∧ d.jad.reqFails < 3) ∧
    (∃ (d : Dev) (x : Out), d.jad.pwrOk = false ∧ x.alwaysOn = false) :=
  ⟨⟨({} : Dev), by decide +kernel⟩,
   ⟨{ ({} : Dev) with jad.aoUp := true }, by decide +kernel, by decide +kernel⟩,
   ⟨{ ({} : Dev) with jad.released := true }, by decide +kernel, by decide +kernel, by decide +kernel, by decide +kernel⟩,
   ⟨minPulseNs 5, { ({} : Dev) with jad.pwrOk := true }, by decide +kernel, by decide +kernel⟩,
   ⟨999, by decide +kernel⟩,
   ⟨{ ({} : Dev) with jad.pwrOk := true }, by decide +kernel⟩,
   ⟨{ ({} : Dev) with jad.losing := true, pwr.target := 3 }, by decide +kernel, by decide +kernel, by decide +kernel, by decide +kernel⟩,
   ⟨{ ({} : Dev) with jad.losing := true }, by decide +kernel, by decide +kernel, by decide +kernel, by decide +kernel⟩,
   ⟨{ ({} : Dev) with jad.pwrReq := true, jad.reqFails := 1 }, by decide +kernel, by decide +kernel, by decide +kernel⟩,
   ⟨{ ({} : Dev) with jad.pwrReq := true, jad.reqFails := 2 }, by decide +kernel, by decide +kernel, by decide +kernel⟩,
   ⟨{ ({} : Dev) with jad.reqFails := 1 }, by decide +kernel, by decide +kernel, by decide +kernel, by decide +kernel⟩,
   ⟨({} : Dev), .pcieUr 0, by decide +kernel, by decide +kernel⟩⟩
/-- ClockCommands. -/
theorem witness_clock_commands :
    (∃ (d : Dev), d.boot.stage = .clocks ∧ d.jad.refHold = false ∧ d.jad.bscanHold = false) ∧
    (∃ (count : Nat), 900 ≤ count ∧ count ≤ 1100) ∧
    (∃ (count : Nat) (d : Dev), ¬ (900 ≤ count ∧ count ≤ 1100) ∧ d.jad.pwrOk = true ∧ d.jad.refHold = false ∧ d.boot.stage ≠ .rails) ∧
    (∃ (d : Dev), d.jad.xtalOk = true) ∧
    (∃ (ns : Nat) (d : Dev), d.fab.ppsEn = false ∧ minPulseNs 3 ≤ ns) ∧
    (∃ (ns : Nat) (d : Dev) (x : Dev), d.fab.ppsEn = true ∧ d.pulse 3 ns = (x, true) ∧ x.fab.parent = none ∧ x.fab.timeSet = true) :=
  ⟨⟨{ ({} : Dev) with boot.stage := .clocks }, by decide +kernel, by decide +kernel, by decide +kernel⟩,
   ⟨900, by decide +kernel, by decide +kernel⟩,
   ⟨1101, { ({} : Dev) with jad.pwrOk := true }, by decide +kernel, by decide +kernel, by decide +kernel, by decide +kernel⟩,
   ⟨{ ({} : Dev) with jad.xtalOk := true }, by decide +kernel⟩,
   ⟨minPulseNs 3, ({} : Dev), by decide +kernel, by decide +kernel⟩,
   ⟨minPulseNs 3, { ({} : Dev) with fab.ppsEn := true, fab.timeSet := true }, _, by decide +kernel, taken (by decide +kernel), by decide +kernel, by decide +kernel⟩⟩
/-- AsyncInputCommands. -/
theorem witness_async_input_commands :
    (∃ (ns : Nat) (d : Dev) (x : Dev), d.pulse 0 ns = (x, true) ∧ x.up = true ∧ x.dbg.st = .running ∧ x.dbg.cfg.getLsbD 0 = true) ∧
    (∃ (ns : Nat) (d : Dev) (x : Dev), d.pulse 0 ns = (x, true) ∧ x.up = true ∧ x.dbg.st = .stopped) ∧
    (∃ (ns : Nat) (d : Dev) (x : Dev), minPulseNs 1 ≤ ns ∧ Dev.accept (d.setLevel 1 true) 1 = (x, true)) ∧
    (∃ (ns : Nat) (d : Dev) (x : Dev), d.pulse 2 ns = (x, true)) ∧
    (∃ (ns : Nat) (d : Dev) (x : Dev), minPulseNs 4 ≤ ns ∧ Dev.accept (d.setLevel 4 (!(Tab.look {} 4 d.jad.ain).level)) 4 = (x, true) ∧ (Tab.look {} 4 x.jad.ain).rated = false) ∧
    (∃ (d : Dev) (x : Nat), d.twn.enabled = true ∧ d.twn.lastEdge = some x ∧ x + 50000 ≤ d.now) ∧
    (∃ (i : Nat) (d : Dev), i < 4 ∧ (Tab.look {} i d.jad.ain).masked = false) ∧
    (∃ (d : Dev), (Tab.look {} 4 d.jad.ain).masked = false) ∧
    (∃ (i : Nat), i < 6) ∧
    (∃ (i : Nat) (d : Dev), i < 4 ∧ 16 < ((Tab.look {} i d.jad.ain).ignored.filter fun x => decide (d.now < x + 1000000)).length ∧ (Tab.look {} i d.jad.ain).rated = false) ∧
    (∃ (i : Nat) (d : Dev), d.linkUp = true ∧ d.memReq 0 = true ∧ i < 6) :=
  ⟨⟨minPulseNs 0, { ({} : Dev) with boot.stage := .hostReady, dbg.cfg := 1 }, _, taken (by decide +kernel), by decide +kernel, by decide +kernel, by decide +kernel⟩,
   ⟨minPulseNs 0, { ({} : Dev) with boot.stage := .hostReady, dbg.st := .stopped }, _, taken (by decide +kernel), by decide +kernel, by decide +kernel⟩,
   ⟨minPulseNs 1, ({} : Dev), _, by decide +kernel, taken (by decide +kernel)⟩,
   ⟨minPulseNs 2, ({} : Dev), _, taken (by decide +kernel)⟩,
   ⟨minPulseNs 4, ({} : Dev), _, by decide +kernel, taken (by decide +kernel), by decide +kernel⟩,
   ⟨{ ({} : Dev) with twn.enabled := true, twn.lastEdge := some 0, now := 50000 }, _, by decide +kernel, got (by decide +kernel), by decide +kernel⟩,
   ⟨3, ({} : Dev), by decide +kernel, by decide +kernel⟩,
   ⟨({} : Dev), by decide +kernel⟩,
   ⟨5, by decide +kernel⟩,
   ⟨3, { ({} : Dev) with jad.ain := [(3, { ignored := List.replicate 17 0 })] }, by decide +kernel, by decide +kernel, by decide +kernel⟩,
   ⟨5, on ({} : Dev), by decide +kernel, by decide +kernel, by decide +kernel⟩⟩
/-- BootCommands. -/
theorem witness_boot_commands :
    (∃ (reads : List (List W64)) (d : Dev), d.boot.stage = .identify ∧ ((d.collect reads).failing.filter fun n => decide (n < 2)) = [] ∧ (d.collect reads).breakers 1 = []) ∧
    (∃ (reads : List (List W64)) (d : Dev), d.boot.stage = .identify ∧ ((d.collect reads).failing.filter fun n => decide (n < 2)) ≠ []) ∧
    (∃ (d : Dev) (m : Memory), d.boot.stage = .load ∧ d.boot.loaded = false ∧ d.bad (dirSlot m) = false) ∧
    (∃ (d : Dev), d.boot.stage = .load ∧ d.boot.loaded = false) ∧
    (∃ (d : Dev), d.boot.stage = .load ∧ d.boot.loaded = true) ∧
    (∃ (d : Dev), d.boot.stage = .init ∧ d.boot.slot = false ∧ d.jad.wdogA = 0) ∧
    (∃ (d : Dev) (m : Memory), d.boot.stage = .init ∧ dirNow m = none) ∧
    (∃ (d : Dev), d.linkUp = true ∧ d.memReq 0 = true) ∧
    (∃ (d : Dev), d.linkUp = true ∧ d.memReq 0 = true) ∧
    (∃ (d : Dev), d.linkUp = true ∧ d.memReq 0 = true) :=
  ⟨⟨[[0x101000000000004d], [0x601000000000007a], [0x201000000000003f], [0x201000000000003f], [0x201000000000003f], [0x201000000000003f], [0x30100000000000ec], [0x30100000000000ec], [0x30100000000000ec], [0x30100000000000ec], [0x40100000000000db], [0x40100000000000db], [0x5010000000000008], [0x5010000000000008], [0x5010000000000008], [0x5010000000000008], [0x5010000000000008], [0x5010000000000008], [0x5010000000000008], [0x5010000000000008]], { ({} : Dev) with boot.stage := .identify }, by decide +kernel, by decide +kernel, by decide +kernel⟩,
   ⟨[], { ({} : Dev) with boot.stage := .identify }, by decide +kernel, by decide +kernel⟩,
   ⟨{ ({} : Dev) with boot.stage := .load }, [], by decide +kernel, by decide +kernel, by decide +kernel⟩,
   ⟨{ ({} : Dev) with boot.stage := .load }, by decide +kernel, by decide +kernel⟩,
   ⟨{ ({} : Dev) with boot.stage := .load, boot.loaded := true }, by decide +kernel, by decide +kernel⟩,
   ⟨{ ({} : Dev) with boot.stage := .init }, by decide +kernel, by decide +kernel, by decide +kernel⟩,
   ⟨{ ({} : Dev) with boot.stage := .init }, [], by decide +kernel, by decide +kernel⟩,
   ⟨up, by decide +kernel, by decide +kernel⟩,
   ⟨up, by decide +kernel, by decide +kernel⟩,
   ⟨up, by decide +kernel, by decide +kernel⟩⟩
/-- ResetCommands. -/
theorem witness_reset_commands :
    (∃ (d : Dev), d.jad.perstHigh = true ∧ d.up = true) ∧
    (∃ (d : Dev), d.jad.perstHigh = true ∧ d.up = false) ∧
    (∃ (d : Dev), d.jad.perstHigh = false ∧ d.boot.stage ≠ .dormant ∧ d.jad.losing = false) ∧
    (∃ (d : Dev), d.jad.perstHigh = false ∧ d.boot.stage = .dormant ∧ d.jad.perstFell + 100000 ≤ d.now) ∧
    (∃ (d : Dev), d.linkUp = true ∧ d.fnPresent 0 = true ∧ (d.fn 0).flr = false ∧ d.up = true) ∧
    (∃ (d : Dev), d.linkUp = true ∧ d.fnPresent 0 = true ∧ (d.fn 0).flr = false ∧ d.boot.stage = .recovery) ∧
    (∃ (t : Nat) (d : Dev), d.linkUp = true ∧ d.fnPresent (t + 1) = true ∧ (d.fn (t + 1)).flr = false ∧ t < 16 ∧ d.up = true) ∧
    (∃ (fn : Nat) (d : Dev), fn < 17 ∧ d.outstanding fn = 0) ∧
    (∃ (t : Nat) (d : Dev), t < 16 ∧ (d.ten t).rst = 2 ∧ d.hostReads (t + 1) = 0) ∧
    (∃ (t : Nat) (d : Dev), t < 16 ∧ (d.ten t).rst = 3) ∧
    (∃ (fn : Nat) (d : Dev), d.linkUp = true ∧ d.fnPresent fn = true ∧ (d.fn fn).flr = false ∧ fn < 17 ∧ (d.fn fn).bme = true) ∧
    (∃ (fn : Nat) (d : Dev), d.linkUp = true ∧ d.fnPresent fn = true ∧ (d.fn fn).flr = false ∧ fn < 17 ∧ (d.fn fn).bme = false ∧ (d.fn fn).flr = false) ∧
    (∃ (fn : Nat) (d : Dev), d.linkUp = true ∧ d.memReq fn = true ∧ fn < 17) :=
  ⟨⟨{ ({} : Dev) with jad.perstHigh := true, boot.stage := .hostReady }, by decide +kernel, by decide +kernel⟩,
   ⟨{ ({} : Dev) with jad.perstHigh := true }, by decide +kernel, by decide +kernel⟩,
   ⟨({} : Dev), by decide +kernel, by decide +kernel, by decide +kernel⟩,
   ⟨{ ({} : Dev) with boot.stage := .dormant, now := 100000 }, by decide +kernel, by decide +kernel, by decide +kernel⟩,
   ⟨on { ({} : Dev) with boot.stage := .hostReady }, by decide +kernel, by decide +kernel, by decide +kernel, by decide +kernel⟩,
   ⟨{ on {} with boot.stage := .recovery }, by decide +kernel, by decide +kernel, by decide +kernel, by decide +kernel⟩,
   ⟨15, on { ({} : Dev) with boot.stage := .hostReady }, by decide +kernel, by decide +kernel, by decide +kernel, by decide +kernel, by decide +kernel⟩,
   ⟨16, ({} : Dev), by decide +kernel, by decide +kernel⟩,
   ⟨15, { ({} : Dev) with tq.ten := [(15, { rst := 2 })] }, by decide +kernel, by decide +kernel, by decide +kernel⟩,
   ⟨0, { ({} : Dev) with tq.ten := [(0, { rst := 3 })] }, by decide +kernel, by decide +kernel⟩,
   ⟨16, on { ({} : Dev) with mbx.fns := [(16, { bme := true })] }, by decide +kernel, by decide +kernel, by decide +kernel, by decide +kernel, by decide +kernel⟩,
   ⟨16, up, by decide +kernel, by decide +kernel, by decide +kernel, by decide +kernel, by decide +kernel, by decide +kernel⟩,
   ⟨16, on ({} : Dev), by decide +kernel, by decide +kernel, by decide +kernel⟩⟩
/-- EndpointCommands. -/
theorem witness_endpoint_commands :
    (∃ (fn : Nat) (d : Dev), fn < 17 ∧ d.linkUp = true ∧ (d.boot.stage = .load ∨ d.boot.stage = .init)) ∧
    (∃ (fn : Nat) (d : Dev), fn < 17 ∧ d.linkUp = true ∧ d.fnPresent fn = true ∧ (d.fn fn).flr = false) ∧
    (∃ (fn : Nat) (d : Dev), fn < 17 ∧ d.linkUp = true ∧ d.fnPresent fn = true ∧ (d.fn fn).flr = false) ∧
    (∃ (fn : Nat) (d : Dev), fn < 17 ∧ d.linkUp = true ∧ d.fnPresent fn = false ∧ d.boot.stage ≠ .load ∧ d.boot.stage ≠ .init) ∧
    (∃ (gts : Nat) (d : Dev), d.jad.perstHigh = true ∧ d.mbx.link.held = false ∧ d.up = true ∧ 8 ≤ gts) ∧
    (∃ (gts : Nat) (d : Dev), d.jad.perstHigh = true ∧ d.mbx.link.held = false ∧ d.up = true ∧ gts < 8) ∧
    (∃ (bit : Nat), bit < 32) ∧
    (∃ (fn : Nat) (d : Dev), fn < 17 ∧ d.dbg.st ≠ .stopped ∧ d.dbg.ingress = []) ∧
    (∃ (fn : Nat) (d : Dev), fn < 17 ∧ d.dbg.st ≠ .stopped ∧ d.dbg.ingress = []) ∧
    (∃ (fn : Nat) (tag : Nat) (data : List W64) (d : Dev) (r : HRead) (x : Dev) (js : List Job), fn < 17 ∧ d.dbg.st ≠ .stopped ∧ d.dbg.ingress = [] ∧ (d.mbx.reads.find? fun r => decide (r.fn = fn) && decide (r.tag = tag) && r.port.isNone) = some r ∧ r.stale = false ∧ d.readEnded r .ok data = (x, js)) ∧
    (∃ (fn : Nat) (tag : Nat) (d : Dev) (r : HRead) (x : Dev) (js : List Job), fn < 17 ∧ d.dbg.st ≠ .stopped ∧ d.dbg.ingress = [] ∧ (d.mbx.reads.find? fun r => decide (r.fn = fn) && decide (r.tag = tag) && r.port.isNone && decide (r.at_ + (d.fn fn).ctoNs ≤ d.now)) = some r ∧ r.stale = false ∧ d.readEnded r .timeout [] = (x, js)) :=
  ⟨⟨16, { on {} with boot.stage := .init }, by decide +kernel, by decide +kernel, by decide +kernel⟩,
   ⟨16, up, by decide +kernel, by decide +kernel, by decide +kernel, by decide +kernel⟩,
   ⟨16, up, by decide +kernel, by decide +kernel, by decide +kernel, by decide +kernel⟩,
   ⟨16, { on {} with boot.stage := .recovery }, by decide +kernel, by decide +kernel, by decide +kernel, by decide +kernel, by decide +kernel⟩,
   ⟨8, { ({} : Dev) with jad.perstHigh := true, boot.stage := .hostReady }, by decide +kernel, by decide +kernel, by decide +kernel, by decide +kernel⟩,
   ⟨7, { ({} : Dev) with jad.perstHigh := true, boot.stage := .hostReady }, by decide +kernel, by decide +kernel, by decide +kernel, by decide +kernel⟩,
   ⟨31, by decide +kernel⟩,
   ⟨0, ({} : Dev), by decide +kernel, by decide +kernel, by decide +kernel⟩,
   ⟨0, ({} : Dev), by decide +kernel, by decide +kernel, by decide +kernel⟩,
   ⟨16, 7, [1], { ({} : Dev) with mbx.reads := [{ fn := 16, port := none, tag := 7, job := 0, off := 0, len := 8, pa := 0 }] }, _, _, _, by decide +kernel, by decide +kernel, by decide +kernel, got (by decide +kernel), by decide +kernel, rfl⟩,
   ⟨16, 7, { ({} : Dev) with mbx.reads := [{ fn := 16, port := none, tag := 7, job := 0, off := 0, len := 8, pa := 0 }], now := 40000000 }, _, _, _, by decide +kernel, by decide +kernel, by decide +kernel, got (by decide +kernel), by decide +kernel, rfl⟩⟩
/-- FacetFlitAndTrainingCommands. -/
theorem witness_facet_flit_and_training_commands :
    (∃ (p : Nat) (f : FacetFlit) (d : Dev), p < 8 ∧ (d.hport p).st = .active ∧ f.trackErrs = [] ∧ f.crcOk = true ∧ f.seq = (d.hport p).rxNext ∧ f.null = true ∧ f.nak = false ∧ f.unsup = none) ∧
    (∃ (p : Nat) (f : FacetFlit) (d : Dev), p < 8 ∧ (d.hport p).st = .active ∧ f.trackErrs = [] ∧ f.crcOk = true ∧ f.seq = (d.hport p).rxNext ∧ f.null = false ∧ f.ch = 0 ∧ f.nak = false ∧ f.unsup = none) ∧
    (∃ (p : Nat) (f : FacetFlit) (d : Dev), p < 8 ∧ (d.hport p).st = .active ∧ f.trackErrs = [] ∧ (f.crcOk = false ∨ f.seq ≠ (d.hport p).rxNext)) ∧
    (∃ (p : Nat) (d : Dev), p < 8 ∧ (d.hport p).st = .active ∧ (d.hport p).unacked ≠ []) ∧
    (∃ (p : Nat) (d : Dev), p < 8 ∧ Tab.look .notStarted 5 d.boot.items ≠ .notStarted ∧ (d.hport p).st ≠ .failed) ∧
    (∃ (p : Nat) (d : Dev), p < 8 ∧ (d.hport p).hrAt.isSome = true ∧ (d.hport p).st ≠ .active) ∧
    (∃ (p : Nat) (d : Dev), p < 8 ∧ (d.hport p).st = .clock) ∧
    (∃ (p : Nat) (skew : FacetSkew) (d : Dev), p < 8 ∧ (d.hport p).st = .ident ∧ skewWithin skew = true) ∧
    (∃ (p : Nat) (skew : FacetSkew) (d : Dev), p < 8 ∧ (d.hport p).st = .ident ∧ skewWithin skew = false) ∧
    (∃ (p : Nat) (desig : Nat) (d : Dev), 8 ≤ p ∧ p < 12 ∧ (d.hport p).st = .ident ∧ desig ≠ p - 8) ∧
    (∃ (p : Nat) (d : Dev), p < 8 ∧ (d.hport p).st = .centre) ∧
    (∃ (p : Nat) (copies : Nat) (maps : List (Nat × BitVec 34)) (d : Dev) (m : Memory) (x : Dev), p < 8 ∧ 16 ≤ copies ∧ (d.hport p).st = .repair ∧ ((clusters p).all fun c => maps.any fun m => decide (m.1 = c)) = true ∧ maps.foldl (fun (d : Dev) m => (d.setClus p m.1 (·.adopt m.2)).innerMasked p true m.1) d = x ∧ 24 ≤ (x.hport p).goodClus) ∧
    (∃ (p : Nat) (copies : Nat) (rev : Nat) (d : Dev), p < 8 ∧ 16 ≤ copies ∧ (d.hport p).st = .negotiate ∧ 0x10 ≤ rev ∧ (d.hport p).crdSeen = false) ∧
    (∃ (p : Nat) (copies : Nat) (d : Dev), p < 8 ∧ 16 ≤ copies ∧ (d.hport p).st = .negotiate ∧ (d.hport p).negSeen = true) ∧
    (∃ (p : Nat) (copies : Nat) (d : Dev), p < 8 ∧ 16 ≤ copies ∧ (d.hport p).st = .negotiate ∧ (d.hport p).negSeen = true ∧ (d.hport p).crdSeen = true) ∧
    (∃ (p : Nat) (d : Dev), p < 12 ∧ (d.hport p).st = .clock ∧ (d.hport p).tries < 2) ∧
    (∃ (p : Nat) (d : Dev), p < 8 ∧ (d.hport p).st = .negotiate ∧ 2 ≤ (d.hport p).tries) :=
  ⟨⟨7, { ch := 0, null := true, last := false, seq := 0, ack := 0, nak := false, crdCh := 0, crdCnt := 1 }, { ({} : Dev) with fct.ports := [(7, { st := .active })] }, by decide +kernel, by decide +kernel, by decide +kernel, by decide +kernel, by decide +kernel, by decide +kernel, by decide +kernel, by decide +kernel⟩,
   ⟨7, { ch := 0, null := false, last := false, seq := 0, ack := 0, nak := false, crdCh := 0, crdCnt := 1 }, { ({} : Dev) with fct.ports := [(7, { st := .active })] }, by decide +kernel, by decide +kernel, by decide +kernel, by decide +kernel, by decide +kernel, by decide +kernel, by decide +kernel, by decide +kernel, by decide +kernel⟩,
   ⟨0, { ch := 0, null := true, last := false, seq := 1, ack := 0, nak := false, crdCh := 0, crdCnt := 1, crcOk := true }, { ({} : Dev) with fct.ports := [(0, { st := .active })] }, by decide +kernel, by decide +kernel, by decide +kernel, by decide +kernel⟩,
   ⟨0, { ({} : Dev) with fct.ports := [(0, { st := .active, unacked := [{ seq := 0 }] })] }, by decide +kernel, by decide +kernel, by decide +kernel⟩,
   ⟨7, { ({} : Dev) with boot.items := [(5, .up)] }, by decide +kernel, by decide +kernel, by decide +kernel⟩,
   ⟨7, { ({} : Dev) with fct.ports := [(7, { hrAt := some 0 })] }, by decide +kernel, by decide +kernel, by decide +kernel⟩,
   ⟨7, { ({} : Dev) with fct.ports := [(7, { st := .clock })] }, by decide +kernel, by decide +kernel⟩,
   ⟨7, { lanes := [(31, 33, -8)], clusters := [(31, 16)] }, { ({} : Dev) with fct.ports := [(7, { st := .ident })] }, by decide +kernel, by decide +kernel, by decide +kernel⟩,
   ⟨7, { lanes := [(31, 33, 9)] }, { ({} : Dev) with fct.ports := [(7, { st := .ident })] }, by decide +kernel, by decide +kernel, by decide +kernel⟩,
   ⟨11, 2, { ({} : Dev) with fct.ports := [(11, { st := .ident })] }, by decide +kernel, by decide +kernel, by decide +kernel, by decide +kernel⟩,
   ⟨7, { ({} : Dev) with fct.ports := [(7, { st := .centre })] }, by decide +kernel, by decide +kernel⟩,
   ⟨7, 16, (List.range 32).map fun c => (c, 0), { ({} : Dev) with fct.ports := [(7, { st := .repair })] }, [], _, by decide +kernel, by decide +kernel, by decide +kernel, by decide +kernel, rfl, by decide +kernel⟩,
   ⟨7, 16, 0x10, { ({} : Dev) with fct.ports := [(7, { st := .negotiate })] }, by decide +kernel, by decide +kernel, by decide +kernel, by decide +kernel, by decide +kernel⟩,
   ⟨7, 16, { ({} : Dev) with fct.ports := [(7, { st := .negotiate, negSeen := true })] }, by decide +kernel, by decide +kernel, by decide +kernel, by decide +kernel⟩,
   ⟨7, 16, { ({} : Dev) with fct.ports := [(7, { st := .negotiate, negSeen := true, crdSeen := true })] }, by decide +kernel, by decide +kernel, by decide +kernel, by decide +kernel, by decide +kernel⟩,
   ⟨11, { ({} : Dev) with fct.ports := [(11, { st := .clock, tries := 1 })] }, by decide +kernel, by decide +kernel, by decide +kernel⟩,
   ⟨7, { ({} : Dev) with fct.ports := [(7, { st := .negotiate, tries := 2 })] }, by decide +kernel, by decide +kernel, by decide +kernel⟩⟩
/-- FacetLaneHealthCommands. -/
theorem witness_facet_lane_health_commands :
    (∃ (p : Nat) (d : Dev) (c : Nat) (n : Nat), p < 8 ∧ (d.hport p).st = .active ∧ (d.hport p).parity = true ∧ 0 < n ∧ c < 32 ∧ (d.clus p c).masked = false ∧ n < (d.hport p).laneThr) ∧
    (∃ (p : Nat) (d : Dev) (c : Nat) (lane : Nat) (n : Nat), p < 8 ∧ (d.hport p).st = .active ∧ (d.hport p).parity = true ∧ 0 < n ∧ c < 32 ∧ (d.clus p c).masked = false ∧ (d.hport p).laneThr ≤ n ∧ lane < 32) ∧
    (∃ (p : Nat) (c' : Nat) (d : Dev), p < 8 ∧ c' < 32 ∧ (d.hport p).st = .active ∧ (d.clus p c').masked = false ∧ (d.clus p c').change = none ∧ (d.hport p).parity = true) ∧
    (∃ (p : Nat) (c' : Nat) (d : Dev), p < 8 ∧ c' < 32 ∧ (d.hport p).st = .active ∧ (d.clus p c').masked = false ∧ (d.hport p).parity = false) ∧
    (∃ (p : Nat) (c' : Nat) (d : Dev) (x : Change), p < 8 ∧ c' < 32 ∧ (d.clus p c').change = some x ∧ x.mask = false ∧ x.rx = true ∧ x.cyc = none) ∧
    (∃ (p : Nat) (c' : Nat) (d : Dev) (x : Change), p < 8 ∧ c' < 32 ∧ (d.clus p c').change = some x ∧ x.mask = false ∧ x.rx = false ∧ x.cyc.isSome = true ∧ x.dual = false) ∧
    (∃ (p : Nat) (c' : Nat) (d : Dev) (x : Change), p < 8 ∧ c' < 32 ∧ (d.clus p c').change = some x ∧ x.mask = false ∧ x.rx = true ∧ x.cyc.isSome = true ∧ x.taken = false) ∧
    (∃ (p : Nat) (c' : Nat) (d : Dev) (x : Change), p < 8 ∧ c' < 32 ∧ (d.clus p c').change = some x ∧ x.taken = true) ∧
    (∃ (p : Nat) (c' : Nat) (d : Dev), p < 8 ∧ c' < 32 ∧ (d.hport p).st = .active ∧ (d.clus p c').masked = false ∧ (d.clus p c').change = none ∧ (d.hport p).uses 1 = true) ∧
    (∃ (p : Nat) (c' : Nat) (d : Dev) (x : Change), p < 8 ∧ c' < 32 ∧ (d.clus p c').change = some x ∧ x.mask = true ∧ x.cyc = none) ∧
    (∃ (p : Nat) (c' : Nat) (d : Dev) (x : Change), p < 8 ∧ c' < 32 ∧ (d.clus p c').change = some x ∧ x.mask = true ∧ x.cyc.isSome = true) ∧
    (∃ (n : Nat) (c' : Nat) (toDie : Bool) (d : Dev) (r : Nat), n < 4 ∧ c' < 72 ∧ ((d.inner n).dir toDie).failed.getLsbD c' = false ∧ ((d.inner n).dir toDie).role c' = some r) ∧
    (∃ (p : Nat) (d : Dev), d.linkUp = true ∧ d.memReq 0 = true ∧ p < 8) ∧
    (∃ (p : Nat) (c' : Nat) (d : Dev), d.linkUp = true ∧ d.memReq 0 = true ∧ p < 8 ∧ c' < 32) :=
  ⟨⟨7, { ({} : Dev) with fct.ports := [(7, { st := .active, rev := 0x21, feat := 1 })] }, 31, 1, by decide +kernel, by decide +kernel, by decide +kernel, by decide +kernel, by decide +kernel, by decide +kernel, by decide +kernel⟩,
   ⟨7, { ({} : Dev) with fct.ports := [(7, { st := .active, rev := 0x21, feat := 1 })] }, 31, 31, 8, by decide +kernel, by decide +kernel, by decide +kernel, by decide +kernel, by decide +kernel, by decide +kernel, by decide +kernel, by decide +kernel⟩,
   ⟨7, 31, { ({} : Dev) with fct.ports := [(7, { st := .active, rev := 0x21, feat := 1 })] }, by decide +kernel, by decide +kernel, by decide +kernel, by decide +kernel, by decide +kernel, by decide +kernel⟩,
   ⟨7, 31, { ({} : Dev) with fct.ports := [(7, { st := .active })] }, by decide +kernel, by decide +kernel, by decide +kernel, by decide +kernel, by decide +kernel⟩,
   ⟨7, 31, { ({} : Dev) with fct.ports := [(7, { clus := [(31, { change := some { mask := false, rx := true } })] })] }, _, by decide +kernel, by decide +kernel, got (by decide +kernel), by decide +kernel, by decide +kernel, by decide +kernel⟩,
   ⟨7, 31, { ({} : Dev) with fct.ports := [(7, { clus := [(31, { change := some { mask := false, rx := false, cyc := some 40 } })] })] }, _, by decide +kernel, by decide +kernel, got (by decide +kernel), by decide +kernel, by decide +kernel, by decide +kernel, by decide +kernel⟩,
   ⟨7, 31, { ({} : Dev) with fct.ports := [(7, { clus := [(31, { change := some { mask := false, rx := true, cyc := some 40 } })] })] }, _, by decide +kernel, by decide +kernel, got (by decide +kernel), by decide +kernel, by decide +kernel, by decide +kernel, by decide +kernel⟩,
   ⟨7, 31, { ({} : Dev) with fct.ports := [(7, { clus := [(31, { change := some { mask := false, rx := true, cyc := some 40, taken := true } })] })] }, _, by decide +kernel, by decide +kernel, got (by decide +kernel), by decide +kernel⟩,
   ⟨7, 31, { ({} : Dev) with fct.ports := [(7, { st := .active, feat := 2 })] }, by decide +kernel, by decide +kernel, by decide +kernel, by decide +kernel, by decide +kernel, by decide +kernel⟩,
   ⟨7, 31, { ({} : Dev) with fct.ports := [(7, { clus := [(31, { change := some { mask := true, rx := true } })] })] }, _, by decide +kernel, by decide +kernel, got (by decide +kernel), by decide +kernel, by decide +kernel⟩,
   ⟨7, 31, { ({} : Dev) with fct.ports := [(7, { clus := [(31, { change := some { mask := true, rx := true, cyc := some 40 } })] })] }, _, by decide +kernel, by decide +kernel, got (by decide +kernel), by decide +kernel, by decide +kernel⟩,
   ⟨3, 67, true, ({} : Dev), _, by decide +kernel, by decide +kernel, by decide +kernel, got (by decide +kernel)⟩,
   ⟨7, on ({} : Dev), by decide +kernel, by decide +kernel, by decide +kernel⟩,
   ⟨7, 31, on ({} : Dev), by decide +kernel, by decide +kernel, by decide +kernel, by decide +kernel⟩⟩
/-- ComputeDieMessageCommands. -/
theorem witness_compute_die_message_commands :
    (∃ (p : Nat) (d : Dev), p < 8 ∧ d.dbg.st ≠ .stopped ∧ d.dbg.ingress = []) ∧
    (∃ (p : Nat) (d : Dev), p < 8 ∧ d.dbg.st = .stopped) ∧
    (∃ (p : Nat) (d : Dev), p < 8 ∧ d.dbg.st ≠ .stopped ∧ d.dbg.ingress = []) ∧
    (∃ (p : Nat) (d : Dev), p < 8 ∧ d.dbg.st ≠ .stopped ∧ d.dbg.ingress = []) ∧
    (∃ (p : Nat) (d : Dev), p < 8 ∧ d.dbg.st ≠ .stopped ∧ d.dbg.ingress = []) ∧
    (∃ (p : Nat) (d : Dev), p < 8 ∧ d.dbg.st ≠ .stopped ∧ d.dbg.ingress = []) ∧
    (∃ (p : Nat) (d : Dev), p < 8 ∧ d.dbg.st ≠ .stopped ∧ d.dbg.ingress = []) ∧
    (∃ (p : Nat) (d : Dev), p < 8 ∧ d.dbg.st ≠ .stopped ∧ d.dbg.ingress = []) ∧
    (∃ (p : Nat) (d : Dev), p < 8 ∧ d.dbg.st ≠ .stopped ∧ d.dbg.ingress = [] ∧ (d.hport p).st = .active) ∧
    (∃ (p : Nat) (w : CohWord) (d : Dev) (e : DirEnt), p < 8 ∧ d.dbg.st ≠ .stopped ∧ d.dbg.ingress = [] ∧ (d.hport p).st = .active ∧ (d.rm.dir.find? fun e => decide (e.word = w)) = some e) ∧
    (∃ (p : Nat) (w : CohWord) (d : Dev) (e : DirEnt), p < 8 ∧ d.dbg.st ≠ .stopped ∧ d.dbg.ingress = [] ∧ (d.hport p).st = .active ∧ (d.rm.dir.find? fun e => decide (e.word = w)) = some e) ∧
    (∃ (p : Nat) (w : CohWord) (d : Dev), p < 8 ∧ d.dbg.st ≠ .stopped ∧ (d.rm.dir.any fun e => decide (e.word = w) && e.acks.contains p) = true) ∧
    (∃ (p : Nat) (valid : Bool) (d : Dev), p < 8 ∧ (d.hport p).st = .active ∧ valid = true ∧ (d.hport p).feat.getLsbD 3 = true) ∧
    (∃ (p : Nat) (m' : MemMsg) (d : Dev) (x : Dev), d.takesDie 1 p m' ∧ d.wake.claim 0 m'.tenant 1 = (x, true) ∧ m'.fabric = true) ∧
    (∃ (p : Nat) (m' : MemMsg) (d : Dev) (x : Dev), d.takesDie 1 p m' ∧ d.wake.claim 0 m'.tenant 1 = (x, true) ∧ m'.fabric = false ∧ isDoorbell m'.addr = false ∧ isSemAddr m'.addr = false) ∧
    (∃ (p : Nat) (m' : MemMsg) (d : Dev) (x : Dev), d.takesDie 2 p m' ∧ d.wake.claim 0 m'.tenant 1 = (x, true) ∧ m'.fabric = true) ∧
    (∃ (p : Nat) (m' : MemMsg) (d : Dev) (x : Dev), d.takesDie 2 p m' ∧ d.wake.claim 0 m'.tenant 1 = (x, true) ∧ m'.fabric = false ∧ isDoorbell m'.addr = false ∧ isSemAddr m'.addr = false) ∧
    (∃ (p : Nat) (m' : MemMsg) (d : Dev) (x : Dev), d.takesDie 3 p m' ∧ d.wake.claim 0 m'.tenant 1 = (x, true) ∧ m'.fabric = true) ∧
    (∃ (p : Nat) (m' : MemMsg) (d : Dev) (x : Dev), d.takesDie 3 p m' ∧ d.wake.claim 0 m'.tenant 1 = (x, true) ∧ m'.fabric = false ∧ isDoorbell m'.addr = false ∧ isSemAddr m'.addr = false) ∧
    (∃ (p : Nat) (m' : MemMsg) (d : Dev) (x : Dev), d.takesDie 4 p m' ∧ d.wake.claim 0 m'.tenant 1 = (x, true) ∧ m'.fabric = true) ∧
    (∃ (p : Nat) (m' : MemMsg) (d : Dev) (x : Dev), d.takesDie 4 p m' ∧ d.wake.claim 0 m'.tenant 1 = (x, true) ∧ m'.fabric = false ∧ isDoorbell m'.addr = false ∧ isSemAddr m'.addr = false) ∧
    (∃ (p : Nat) (m' : MemMsg) (d : Dev) (x : Dev), d.takesDie 5 p m' ∧ d.wake.claim 0 m'.tenant 1 = (x, true) ∧ m'.fabric = true) ∧
    (∃ (p : Nat) (m' : MemMsg) (d : Dev) (x : Dev), d.takesDie 5 p m' ∧ d.wake.claim 0 m'.tenant 1 = (x, true) ∧ m'.fabric = false ∧ isDoorbell m'.addr = false ∧ isSemAddr m'.addr = false) ∧
    (∃ (p : Nat) (tag : Nat) (tenant : Nat) (status : Nat) (d : Dev) (x : Dev) (r : HRead) (y : Dev) (js : List Job), p < 8 ∧ d.dbg.st ≠ .stopped ∧ d.dbg.ingress = [] ∧ (d.hport p).st = .active ∧ d.memCredit p { fabric := false, tag, tenant, len := 0, addr := 0, data := [] } = x ∧ (x.mbx.reads.find? fun r => decide (r.port = some p) && decide (r.tag = tag) && decide (fnTenant r.fn % 16 = tenant % 16)) = some r ∧ x.readEnded r (facetStatus status) [] = (y, js)) ∧
    (∃ (p : Nat) (tag : Nat) (tenant : Nat) (status : Nat) (data : List W64) (d : Dev) (x : Dev) (r : HRead) (y : Dev) (js : List Job), p < 8 ∧ d.dbg.st ≠ .stopped ∧ d.dbg.ingress = [] ∧ (d.hport p).st = .active ∧ d.memCredit p { fabric := false, tag, tenant, len := 0, addr := 0, data := data } = x ∧ (x.mbx.reads.find? fun r => decide (r.port = some p) && decide (r.tag = tag) && decide (fnTenant r.fn % 16 = tenant % 16)) = some r ∧ x.readEnded r (facetStatus status) data = (y, js)) ∧
    (∃ (p : Nat) (w : CohWord) (d : Dev), p < 8 ∧ d.dbg.st ≠ .stopped ∧ d.dbg.ingress = [] ∧ (d.hport p).st = .active ∧ d.cohRefused p w = none ∧ (d.rm.dir.find? fun e => decide (e.word = w)) = none) :=
  ⟨⟨7, ({} : Dev), by decide +kernel, by decide +kernel, by decide +kernel⟩,
   ⟨7, { ({} : Dev) with dbg.st := .stopped }, by decide +kernel, by decide +kernel⟩,
   ⟨7, ({} : Dev), by decide +kernel, by decide +kernel, by decide +kernel⟩,
   ⟨7, ({} : Dev), by decide +kernel, by decide +kernel, by decide +kernel⟩,
   ⟨7, ({} : Dev), by decide +kernel, by decide +kernel, by decide +kernel⟩,
   ⟨7, ({} : Dev), by decide +kernel, by decide +kernel, by decide +kernel⟩,
   ⟨7, ({} : Dev), by decide +kernel, by decide +kernel, by decide +kernel⟩,
   ⟨7, ({} : Dev), by decide +kernel, by decide +kernel, by decide +kernel⟩,
   ⟨7, { ({} : Dev) with fct.ports := [(7, { st := .active })] }, by decide +kernel, by decide +kernel, by decide +kernel, by decide +kernel⟩,
   ⟨7, { sem := true, tenant := 0, index := 0 }, { ({} : Dev) with fct.ports := [(7, { st := .active })], rm.dir := [{ word := { sem := true, tenant := 0, index := 0 } }] }, _, by decide +kernel, by decide +kernel, by decide +kernel, by decide +kernel, got (by decide +kernel)⟩,
   ⟨7, { sem := true, tenant := 0, index := 0 }, { ({} : Dev) with fct.ports := [(7, { st := .active })], rm.dir := [{ word := { sem := true, tenant := 0, index := 0 } }] }, _, by decide +kernel, by decide +kernel, by decide +kernel, by decide +kernel, got (by decide +kernel)⟩,
   ⟨7, { sem := true, tenant := 0, index := 0 }, { ({} : Dev) with rm.dir := [{ word := { sem := true, tenant := 0, index := 0 }, acks := [7] }] }, by decide +kernel, by decide +kernel, by decide +kernel⟩,
   ⟨7, true, { ({} : Dev) with fct.ports := [(7, { st := .active, feat := 8 })] }, by decide +kernel, by decide +kernel, by decide +kernel, by decide +kernel⟩,
   ⟨7, { fabric := true, tag := 3, tenant := 15, len := 8, addr := 0 }, { ({} : Dev) with fct.ports := [(7, { st := .active, feat := 0x1000 })], tq.ten := [(15, { assign := some { pktCeil := 4096, weight := 1 }, served := true })] }, _, by unfold Dev.takesDie; decide +kernel, taken (by decide +kernel), by decide +kernel⟩,
   ⟨7, { fabric := false, tag := 3, tenant := 15, len := 8, addr := 0 }, { ({} : Dev) with fct.ports := [(7, { st := .active, feat := 0x1000 })], tq.ten := [(15, { assign := some { pktCeil := 4096, weight := 1 }, served := true })] }, _, by unfold Dev.takesDie; decide +kernel, taken (by decide +kernel), by decide +kernel, by decide +kernel, by decide +kernel⟩,
   ⟨7, { fabric := true, tag := 3, tenant := 15, len := 8, addr := 0, data := [1] }, { ({} : Dev) with fct.ports := [(7, { st := .active, feat := 0x1000 })], tq.ten := [(15, { assign := some { pktCeil := 4096, weight := 1 }, served := true })] }, _, by unfold Dev.takesDie; decide +kernel, taken (by decide +kernel), by decide +kernel⟩,
   ⟨7, { fabric := false, tag := 3, tenant := 15, len := 8, addr := 0, data := [1] }, { ({} : Dev) with fct.ports := [(7, { st := .active, feat := 0x1000 })], tq.ten := [(15, { assign := some { pktCeil := 4096, weight := 1 }, served := true })] }, _, by unfold Dev.takesDie; decide +kernel, taken (by decide +kernel), by decide +kernel, by decide +kernel, by decide +kernel⟩,
   ⟨7, { fabric := true, tag := 3, tenant := 15, len := 8, addr := 0, data := [1] }, { ({} : Dev) with fct.ports := [(7, { st := .active, feat := 0x1000 })], tq.ten := [(15, { assign := some { pktCeil := 4096, weight := 1 }, served := true })] }, _, by unfold Dev.takesDie; decide +kernel, taken (by decide +kernel), by decide +kernel⟩,
   ⟨7, { fabric := false, tag := 3, tenant := 15, len := 8, addr := 0, data := [1] }, { ({} : Dev) with fct.ports := [(7, { st := .active, feat := 0x1000 })], tq.ten := [(15, { assign := some { pktCeil := 4096, weight := 1 }, served := true })] }, _, by unfold Dev.takesDie; decide +kernel, taken (by decide +kernel), by decide +kernel, by decide +kernel, by decide +kernel⟩,
   ⟨7, { fabric := true, tag := 3, tenant := 15, len := 8, addr := 0, data := [1] }, { ({} : Dev) with fct.ports := [(7, { st := .active, feat := 0x1000 })], tq.ten := [(15, { assign := some { pktCeil := 4096, weight := 1 }, served := true })] }, _, by unfold Dev.takesDie; decide +kernel, taken (by decide +kernel), by decide +kernel⟩,
   ⟨7, { fabric := false, tag := 3, tenant := 15, len := 8, addr := 0, data := [1] }, { ({} : Dev) with fct.ports := [(7, { st := .active, feat := 0x1000 })], tq.ten := [(15, { assign := some { pktCeil := 4096, weight := 1 }, served := true })] }, _, by unfold Dev.takesDie; decide +kernel, taken (by decide +kernel), by decide +kernel, by decide +kernel, by decide +kernel⟩,
   ⟨7, { fabric := true, tag := 3, tenant := 15, len := 8, addr := 0, data := [1] }, { ({} : Dev) with fct.ports := [(7, { st := .active, feat := 0x1000 })], tq.ten := [(15, { assign := some { pktCeil := 4096, weight := 1 }, served := true })] }, _, by unfold Dev.takesDie; decide +kernel, taken (by decide +kernel), by decide +kernel⟩,
   ⟨7, { fabric := false, tag := 3, tenant := 15, len := 8, addr := 0, data := [1] }, { ({} : Dev) with fct.ports := [(7, { st := .active, feat := 0x1000 })], tq.ten := [(15, { assign := some { pktCeil := 4096, weight := 1 }, served := true })] }, _, by unfold Dev.takesDie; decide +kernel, taken (by decide +kernel), by decide +kernel, by decide +kernel, by decide +kernel⟩,
   ⟨7, 3, 15, 4, { ({} : Dev) with fct.ports := [(7, { st := .active, feat := 0x1000 })], mbx.reads := [{ fn := 16, port := some 7, tag := 3, job := 0, off := 0, len := 8, pa := 0 }] }, _, _, _, _, by decide +kernel, by decide +kernel, by decide +kernel, by decide +kernel, rfl, got (by decide +kernel), rfl⟩,
   ⟨7, 3, 15, 0, [5], { ({} : Dev) with fct.ports := [(7, { st := .active, feat := 0x1000 })], mbx.reads := [{ fn := 16, port := some 7, tag := 3, job := 0, off := 0, len := 8, pa := 0 }] }, _, _, _, _, by decide +kernel, by decide +kernel, by decide +kernel, by decide +kernel, rfl, got (by decide +kernel), rfl⟩,
   ⟨7, { sem := false, tenant := 15, index := 1023 }, { ({} : Dev) with fct.ports := [(7, { st := .active, bind := 0x8000 })] }, by decide +kernel, by decide +kernel, by decide +kernel, by decide +kernel, by decide +kernel, by decide +kernel⟩⟩
/-- DoorbellAndStartCommands. -/
theorem witness_doorbell_and_start_commands :
    (∃ (t : Nat) (q' : Nat) (d : Dev), d.linkUp = true ∧ d.memReq (t + 1) = true ∧ t < 16 ∧ q' < 64) ∧
    (∃ (t : Nat) (q' : Nat) (d' : Desc) (d : Dev) (w : Queue), t < 16 ∧ q' < 64 ∧ d.queue (64 * t + q') = w ∧ w.st = .running ∧ w.nextStart ≠ w.tail ∧ d.dbg.st ≠ .stopped ∧ d.fenced t = false ∧ (d.opsOf (64 * t + q')).length < 64 ∧ (d'.fence = false ∨ w.head = w.nextStart) ∧ (needsFabric d' = false ∨ d.boot.stage = .fabricReady) ∧ w.fetched.contains w.nextStart.toNat = true) ∧
    (∃ (d : Dev), d.dbg.st ≠ .stopped) ∧
    (∃ (gq : Nat) (d : Dev) (n : W32) (x : Txn), gq < 1024 ∧ d.dbg.st ≠ .stopped ∧ (d.tq.txns.find? fun x => decide (x.gq = gq) && decide (x.serial = n)) = some x ∧ x.issued + 1000 * d.txnLimit x ≤ d.now) ∧
    (∃ (gq : Nat) (idx : Nat) (d : Dev) (o : Op), gq < 1024 ∧ d.dbg.st ≠ .stopped ∧ d.opAt gq idx = some o ∧ d.opExpired o = true) ∧
    (∃ (gq : Nat) (idx : Nat) (d : Dev) (t : Nat), gq < 1024 ∧ d.dbg.st ≠ .stopped ∧ d.opAt gq idx = none ∧ (BitVec.ofNat 32 idx - (d.queue gq).nextStart).toNat < ((d.queue gq).tail - (d.queue gq).nextStart).toNat ∧ idx ∉ (d.queue gq).recs ∧ (d.queue gq).visibleAt idx = some t ∧ t + 1000 * (d.queue gq).timeout ≤ d.now) ∧
    (∃ (pool : Nat) (t : Nat) (d : Dev) (u : Nat), pool < 3 ∧ pool ≠ 0 ∧ t < 16 ∧ d.lowWaiter pool = some u) ∧
    (∃ (pool : Nat) (t : Nat) (d : Dev), pool < 3 ∧ pool ≠ 0 ∧ t < 16 ∧ d.lowWaiter pool = none ∧ d.unitsFor pool t = true) ∧
    (∃ (t : Nat) (d : Dev) (u : Nat), t < 16 ∧ d.lowWaiter 0 = some u) ∧
    (∃ (gq : Nat), gq < 1024) ∧
    (∃ (t : Nat) (q' : Nat) (d : Dev), d.linkUp = true ∧ (d.memReq (t + 1) = true ∨ d.memReq 0 = true) ∧ t < 16 ∧ q' < 64) ∧
    (∃ (t : Nat) (q' : Nat) (d : Dev), d.linkUp = true ∧ (d.memReq (t + 1) = true ∨ d.memReq 0 = true) ∧ t < 16 ∧ q' < 64) ∧
    (∃ (t : Nat) (q' : Nat) (n : W32) (d : Dev) (w : Queue), d.linkUp = true ∧ d.memReq (t + 1) = true ∧ t < 16 ∧ q' < 64 ∧ d.wake.queue (64 * t + q') = w ∧ w.st ≠ .absent ∧ d.fenced t = false ∧ (n - w.tail).toNat < 2 ^ 31 ∧ (n - w.head).toNat ≤ 2 ^ w.log2) :=
  ⟨⟨15, 63, on ({} : Dev), by decide +kernel, by decide +kernel, by decide +kernel, by decide +kernel⟩,
   ⟨15, 63, { op := 1, body := .dma 0 0 16 0 }, { ({} : Dev) with tq.q := [(1023, { st := .running, tail := 1, fetched := [0] })] }, _, by decide +kernel, by decide +kernel, rfl, by decide +kernel, by decide +kernel, by decide +kernel, by decide +kernel, by decide +kernel, by decide +kernel, by decide +kernel, by decide +kernel⟩,
   ⟨({} : Dev), by decide +kernel⟩,
   ⟨1023, { ({} : Dev) with now := 200000, tq.q := [(1023, { timeout := 200 })], tq.txns := [{ gq := 1023, serial := 5, for_ := .op 0 0 16, issued := 0, dst := 0, write := false, lo := 0, len := 16 }] }, 5, _, by decide +kernel, by decide +kernel, got (by decide +kernel), by decide +kernel⟩,
   ⟨1023, 0, { ({} : Dev) with now := 200000, tq.q := [(1023, { timeout := 200 })], tq.ops := [{ gq := 1023, idx := 0, desc := { op := 1, body := .dma 0 0 16 0 }, startedAt := 0 }] }, _, by decide +kernel, by decide +kernel, got (by decide +kernel), by decide +kernel⟩,
   ⟨1023, 0, { ({} : Dev) with now := 200000, tq.q := [(1023, { timeout := 200, tail := 1, visible := [(1, 0)] })] }, _, by decide +kernel, by decide +kernel, by decide +kernel, by decide +kernel, by decide +kernel, got (by decide +kernel), by decide +kernel⟩,
   ⟨1, 15, { ({} : Dev) with tq.ten := [(15, { assign := some { redFloor := 4, redCeil := 4 }, waiting := [(1, 1)] })] }, _, by decide +kernel, by decide +kernel, by decide +kernel, got (by decide +kernel)⟩,
   ⟨2, 15, { ({} : Dev) with tq.ten := [(15, { assign := some { pgbCeil := 4 }, waiting := [(2, 1)] })] }, by decide +kernel, by decide +kernel, by decide +kernel, by decide +kernel, by decide +kernel⟩,
   ⟨15, { ({} : Dev) with tq.ten := [(15, { assign := some { pktFloor := 4096, pktCeil := 4096 }, waiting := [(0, 1)] })] }, _, by decide +kernel, got (by decide +kernel)⟩,
   ⟨1023, by decide +kernel⟩,
   ⟨15, 63, on ({} : Dev), by decide +kernel, by decide +kernel, by decide +kernel, by decide +kernel⟩,
   ⟨15, 63, on ({} : Dev), by decide +kernel, by decide +kernel, by decide +kernel, by decide +kernel⟩,
   ⟨15, 63, 64, on { ({} : Dev) with tq.q := [(1023, { st := .running, log2 := 6 })] }, _, by decide +kernel, by decide +kernel, by decide +kernel, by decide +kernel, rfl, by decide +kernel, by decide +kernel, by decide +kernel, by decide +kernel⟩⟩
/-- OperationCommands. -/
theorem witness_operation_commands :
    (∃ (gq : Nat) (idx : Nat) (d : Dev) (o : Op), gq < 1024 ∧ d.toOpen gq idx 0x01 = some o) ∧
    (∃ (gq : Nat) (idx : Nat) (d : Dev) (o : Op), gq < 1024 ∧ d.toOpen gq idx 0x02 = some o) ∧
    (∃ (gq : Nat) (idx : Nat) (d : Dev) (o : Op), gq < 1024 ∧ d.toOpen gq idx 0x10 = some o) ∧
    (∃ (gq : Nat) (idx : Nat) (d : Dev) (o : Op), gq < 1024 ∧ d.toOpen gq idx 0x11 = some o) ∧
    (∃ (gq : Nat) (idx : Nat) (d : Dev) (o : Op), gq < 1024 ∧ d.toOpen gq idx 0x12 = some o) ∧
    (∃ (gq : Nat) (idx : Nat) (d : Dev) (o : Op), gq < 1024 ∧ d.toOpen gq idx 0x20 = some o) ∧
    (∃ (gq : Nat) (idx : Nat) (d : Dev) (o : Op), gq < 1024 ∧ d.toOpen gq idx 0x21 = some o) ∧
    (∃ (gq : Nat) (idx : Nat) (d : Dev) (o : Op), gq < 1024 ∧ d.toOpen gq idx 0x22 = some o) ∧
    (∃ (gq : Nat) (idx : Nat) (d : Dev) (o : Op), gq < 1024 ∧ d.toOpen gq idx 0x30 = some o) ∧
    (∃ (gq : Nat) (idx : Nat) (d : Dev) (o : Op), gq < 1024 ∧ d.toOpen gq idx 0x31 = some o) ∧
    (∃ (gq : Nat) (idx : Nat) (d : Dev) (o : Op), gq < 1024 ∧ d.toOpen gq idx 0x32 = some o) ∧
    (∃ (egress : Nat) (d : Dev) (t : Nat) (tdef : Nat → Nat) (gq : Nat) (qdef : Nat → Nat) (o : Op) (off : Nat) (len : Nat), egress < 80 ∧ d.dbg.st ≠ .stopped ∧ d.pickTenant egress = some (t, tdef) ∧ d.pickQueue t egress = some (gq, qdef) ∧ d.nextOf gq egress = some (o, off, len)) ∧
    (∃ (gq : Nat) (idx : Nat) (d : Dev) (o : Op), gq < 1024 ∧ d.toOpen gq idx 0x40 = some o) ∧
    (∃ (gq : Nat) (idx : Nat) (d : Dev) (o : Op), gq < 1024 ∧ d.toOpen gq idx 0x41 = some o ∧ d.vaultServes = true) ∧
    (∃ (gq : Nat) (idx : Nat) (d : Dev) (o : Op) (a : W64) (b : W64) (c : Nat) (aop : Nat) (v : W64) (w : W64) (x : Dev) (y : Dev), gq < 1024 ∧ d.toOpen gq idx 0x12 = some o ∧ o.desc.body = .remote a b c aop v w ∧ d.mustWait o = false ∧ (d.ownWrite (o.gq / 64) a.toNat 8).claim 0 (o.gq / 64) 1 = (x, true) ∧ x.transact o.gq (.op o.idx 0 8) .atom { (d.ownWrite (o.gq / 64) a.toNat 8).opPkt o a 0 with aux := aop, len := if aop = 5 then 16 else 8, data := if aop = 5 then [v, w] else [v] } .none a.toNat 8 true o.desc.relaxed = (y, .ok)) ∧
    (∃ (gq : Nat) (idx : Nat) (d : Dev) (o : Op) (a : W64) (u : W64) (v : W64) (aop : Nat) (cond : Nat) (x : Dev) (w : W64), gq < 1024 ∧ d.toOpen gq idx 0x30 = some o ∧ o.desc.body = .sem a u v aop cond ∧ o.desc.relaxed = true ∧ d.alias = some (faNode a / 2 * 2) ∧ faTen a = o.gq / 64 ∧ d.semOwner (a.toNat % 2 ^ 18) = o.gq / 64 + 1 ∧ (d.setOp { o with open_ := true, issued := true }).semDo (a.toNat % 2 ^ 18) { op := o.desc.op, aop, cond, operand := u, compare := v } = (x, some w)) ∧
    (∃ (gq : Nat) (idx : Nat) (d : Dev) (o : Op) (a : W64) (u : W64) (v : W64) (aop : Nat) (cond : Nat) (x : Dev) (w : W64), gq < 1024 ∧ d.toOpen gq idx 0x31 = some o ∧ o.desc.body = .sem a u v aop cond ∧ o.desc.relaxed = true ∧ d.alias = some (faNode a / 2 * 2) ∧ faTen a = o.gq / 64 ∧ d.semOwner (a.toNat % 2 ^ 18) = o.gq / 64 + 1 ∧ (d.setOp { o with open_ := true, issued := true }).semDo (a.toNat % 2 ^ 18) { op := o.desc.op, aop, cond, operand := u, compare := v } = (x, some w)) ∧
    (∃ (gq : Nat) (idx : Nat) (d : Dev) (o : Op) (a : W64) (u : W64) (v : W64) (aop : Nat) (cond : Nat) (x : Dev) (w : W64), gq < 1024 ∧ d.toOpen gq idx 0x32 = some o ∧ o.desc.body = .sem a u v aop cond ∧ o.desc.relaxed = true ∧ d.alias = some (faNode a / 2 * 2) ∧ faTen a = o.gq / 64 ∧ d.semOwner (a.toNat % 2 ^ 18) = o.gq / 64 + 1 ∧ (d.setOp { o with open_ := true, issued := true }).semDo (a.toNat % 2 ^ 18) { op := o.desc.op, aop, cond, operand := u, compare := v } = (x, some w)) ∧
    (∃ (egress : Nat) (d : Dev) (t : Nat) (tdef : Nat → Nat) (gq : Nat) (qdef : Nat → Nat) (o : Op) (off : Nat) (len : Nat) (x : Dev), egress < 80 ∧ d.dbg.st ≠ .stopped ∧ d.pickTenant egress = some (t, tdef) ∧ d.pickQueue t egress = some (gq, qdef) ∧ d.nextOf gq egress = some (o, off, len) ∧ (d.chargeTurn egress t tdef qdef).claim 0 (o.gq / 64) (bufUnits len) = (x, true)) :=
  ⟨⟨1023, 0, { ({} : Dev) with tq.ops := [{ gq := 1023, idx := 0, desc := { op := 0x01, body := .dma 0 0 16 0 }, startedAt := 0 }] }, _, by decide +kernel, got (by decide +kernel)⟩,
   ⟨1023, 0, { ({} : Dev) with tq.ops := [{ gq := 1023, idx := 0, desc := { op := 0x02, body := .dma 0 0 16 0 }, startedAt := 0 }] }, _, by decide +kernel, got (by decide +kernel)⟩,
   ⟨1023, 0, { ({} : Dev) with tq.ops := [{ gq := 1023, idx := 0, desc := { op := 0x10, body := .remote 0 0 16 0 0 0 }, startedAt := 0 }] }, _, by decide +kernel, got (by decide +kernel)⟩,
   ⟨1023, 0, { ({} : Dev) with tq.ops := [{ gq := 1023, idx := 0, desc := { op := 0x11, body := .remote 0 0 16 0 0 0 }, startedAt := 0 }] }, _, by decide +kernel, got (by decide +kernel)⟩,
   ⟨1023, 0, { ({} : Dev) with tq.ops := [{ gq := 1023, idx := 0, desc := { op := 0x12, body := .remote 0 0 8 0 0 0 }, startedAt := 0 }] }, _, by decide +kernel, got (by decide +kernel)⟩,
   ⟨1023, 0, { ({} : Dev) with tq.ops := [{ gq := 1023, idx := 0, desc := { op := 0x20, body := .coll 0 0 1 0 0 0 0 0 0 0 0 }, startedAt := 0 }] }, _, by decide +kernel, got (by decide +kernel)⟩,
   ⟨1023, 0, { ({} : Dev) with tq.ops := [{ gq := 1023, idx := 0, desc := { op := 0x21, body := .coll 0 0 1 0 0 0 0 0 0 0 0 }, startedAt := 0 }] }, _, by decide +kernel, got (by decide +kernel)⟩,
   ⟨1023, 0, { ({} : Dev) with tq.ops := [{ gq := 1023, idx := 0, desc := { op := 0x22, body := .coll 0 0 0 0 0 0 0 0 0 0 0 }, startedAt := 0 }] }, _, by decide +kernel, got (by decide +kernel)⟩,
   ⟨1023, 0, { ({} : Dev) with tq.ops := [{ gq := 1023, idx := 0, desc := { op := 0x30, body := .sem 0 0 0 0 0 }, startedAt := 0 }] }, _, by decide +kernel, got (by decide +kernel)⟩,
   ⟨1023, 0, { ({} : Dev) with tq.ops := [{ gq := 1023, idx := 0, desc := { op := 0x31, body := .sem 0 0 0 0 0 }, startedAt := 0 }] }, _, by decide +kernel, got (by decide +kernel)⟩,
   ⟨1023, 0, { ({} : Dev) with tq.ops := [{ gq := 1023, idx := 0, desc := { op := 0x32, body := .sem 0 0 0 0 0 }, startedAt := 0 }] }, _, by decide +kernel, got (by decide +kernel)⟩,
   ⟨64, { ({} : Dev) with tq.ten := [(0, { assign := some { weight := 1 } })], tq.q := [(0, { st := .running, weight := 1 })], tq.ops := [{ gq := 0, idx := 0, desc := { op := 1, body := .dma 0 0 16 0 }, startedAt := 0, total := 16, open_ := true }] }, _, _, _, _, _, _, _, by decide +kernel, by decide +kernel, got (by decide +kernel), got (by decide +kernel), got (by decide +kernel)⟩,
   ⟨1023, 0, { ({} : Dev) with tq.ops := [{ gq := 1023, idx := 0, desc := { op := 0x40, body := .vault 0 0 0 16 0 }, startedAt := 0 }] }, _, by decide +kernel, got (by decide +kernel)⟩,
   ⟨1023, 0, { ({} : Dev) with vlt.st := .ready, tq.ops := [{ gq := 1023, idx := 0, desc := { op := 0x41, body := .vault 0 0 0 16 0 }, startedAt := 0 }] }, _, by decide +kernel, got (by decide +kernel), by decide +kernel⟩,
   ⟨1023, 0, { ({} : Dev) with fab.node := some 0, tq.ten := [(15, { assign := some { pktCeil := 4096 } })], tq.q := [(1023, { serial := some 7 })], tq.ops := [{ gq := 1023, idx := 0, desc := { op := 0x12, body := .remote 0 0 8 0 5 0 }, startedAt := 0 }] }, _, 0, 0, 8, 0, 5, 0, _, _, by decide +kernel, got (by decide +kernel), by decide +kernel, by decide +kernel, taken (by decide +kernel), taken (by decide +kernel)⟩,
   ⟨1023, 0, { ({} : Dev) with fab.node := some 0, col.owner := [(0, 16)], tq.ops := [{ gq := 1023, idx := 0, desc := { op := 0x30, body := .sem 0x000F000000000000 0 0 9 0, relaxed := true }, startedAt := 0 }] }, _, 0x000F000000000000, 0, 0, 9, 0, _, 0, by decide +kernel, got (by decide +kernel), by decide +kernel, by decide +kernel, by decide +kernel, by decide +kernel, by decide +kernel, taken (by decide +kernel)⟩,
   ⟨1023, 0, { ({} : Dev) with fab.node := some 0, col.owner := [(0, 16)], tq.ops := [{ gq := 1023, idx := 0, desc := { op := 0x31, body := .sem 0x000F000000000000 0 0 0 1, relaxed := true }, startedAt := 0 }] }, _, 0x000F000000000000, 0, 0, 0, 1, _, 0, by decide +kernel, got (by decide +kernel), by decide +kernel, by decide +kernel, by decide +kernel, by decide +kernel, by decide +kernel, taken (by decide +kernel)⟩,
   ⟨1023, 0, { ({} : Dev) with fab.node := some 0, col.owner := [(0, 16)], tq.ops := [{ gq := 1023, idx := 0, desc := { op := 0x32, body := .sem 0x000F000000000000 0 0 0 0, relaxed := true }, startedAt := 0 }] }, _, 0x000F000000000000, 0, 0, 0, 0, _, 0, by decide +kernel, got (by decide +kernel), by decide +kernel, by decide +kernel, by decide +kernel, by decide +kernel, by decide +kernel, taken (by decide +kernel)⟩,
   ⟨64, { ({} : Dev) with tq.ten := [(0, { assign := some { weight := 1, pktCeil := 4096 } })], tq.q := [(0, { st := .running, weight := 1 })], tq.ops := [{ gq := 0, idx := 0, desc := { op := 1, body := .dma 0 0 16 0 }, startedAt := 0, total := 16, open_ := true }] }, _, _, _, _, _, _, _, _, by decide +kernel, by decide +kernel, got (by decide +kernel), got (by decide +kernel), got (by decide +kernel), taken (by decide +kernel)⟩⟩
/-- VaultCaptureCommands. -/
theorem witness_vault_capture_commands :
    (∃ (d : Dev), d.vlt.st = .mounting ∧ (d.onyx.vers = [] ∨ d.secNv.pvk.isSome = true)) ∧
    (∃ (d : Dev), d.vlt.st = .mounting) ∧
    (∃ (t : Nat) (region : Nat) (granule : Nat) (d : Dev) (k : Mark) (reg : Region) (n : Nat), t < 16 ∧ region < 16 ∧ d.markOf t region granule = some k ∧ Tab.look none region (d.vten t).regions = some reg ∧ d.captureUnits t = some n ∧ d.mayCapture t = true ∧ d.captureTurn t k = true) ∧
    (∃ (t : Nat) (region : Nat) (granule : Nat) (d : Dev) (k : Mark) (x : Dev), t < 16 ∧ region < 16 ∧ d.readMark t region granule = some k ∧ d.programMirror (!d.vlt.lastMirror) = x ∧ (x.storeVer (x.captureVer t k)).2 = true) ∧
    (∃ (t : Nat) (d : Dev) (x : Sealing), t < 16 ∧ d.sealReady t = some x) ∧
    (∃ (die : Nat) (block : Nat) (page : Nat) (d : Dev), die < 8 ∧ block < 4096 ∧ isTest block = false ∧ d.rawProgram (4096 * die + block) page = none ∧ (d.blk (4096 * die + block)).bad = false) ∧
    (∃ (die : Nat) (block : Nat) (page : Nat) (d : Dev), die < 8 ∧ block < 4096 ∧ isTest block = false ∧ d.rawProgram (4096 * die + block) page = none ∧ (d.blk (4096 * die + block)).bad = false) ∧
    (∃ (die : Nat) (block : Nat) (d : Dev), die < 8 ∧ block < 4096 ∧ (d.rawErasing die block = true ∨ (d.blk (4096 * die + block)).st = .erasing)) ∧
    (∃ (die : Nat) (block : Nat) (reads : List (List Nat)) (n : Nat) (errors : List Nat) (ok : Bool), die < 8 ∧ block < 4096 ∧ goodRead reads = some (n, errors, ok)) ∧
    (∃ (d : Dev) (i : Nat) (p : Nat), d.mayProgram = true ∧ d.scrubNext = some (i, p) ∧ d.vaultBusier = false) ∧
    (∃ (die : Nat) (block : Nat) (d : Dev), die < 8 ∧ block < 4096 ∧ isTest block = false ∧ d.mayProgram = true ∧ (d.blk (4096 * die + block)).st = .mapped ∧ (d.moveLive (4096 * die + block)).2 = true ∧ d.reclaimDue (4096 * die + block) = true) ∧
    (∃ (die : Nat) (d : Dev), die < 8 ∧ d.vlt.out.getLsbD die = false) ∧
    (∃ (d : Dev), d.linkUp = true ∧ d.memReq 0 = true) :=
  ⟨⟨{ ({} : Dev) with vlt.st := .mounting }, by decide +kernel, by decide +kernel⟩,
   ⟨{ ({} : Dev) with vlt.st := .mounting }, by decide +kernel⟩,
   ⟨0, 0, 0, { ({} : Dev) with vlt.st := .ready, vlt.ten := [(0, { regions := [(0, some { base := 0, size := 2097152, pasid := 0 })], marks := [{ region := 0, granule := 0, epoch := 1 }] })], mbx.fns := [(1, { bme := true })], tq.ten := [(0, { assign := some { pktFloor := 1024, pktCeil := 1024, vaultGib := 1 } })] }, _, _, 1024, by decide +kernel, by decide +kernel, got (by decide +kernel), got (by decide +kernel), by decide +kernel, by decide +kernel, by decide +kernel⟩,
   ⟨0, 0, 0, { ({} : Dev) with vlt.st := .ready, vlt.ten := [(0, { marks := [{ region := 0, granule := 0, epoch := 1, reading := true, read := true }] })] }, { region := 0, granule := 0, epoch := 1, reading := true, read := true }, _, by decide +kernel, by decide +kernel, by decide +kernel, rfl, by decide +kernel⟩,
   ⟨15, { ({} : Dev) with vlt.st := .ready, vlt.ten := [(15, { sealing := some { epoch := 1, tag := 0, time := 0 } })] }, _, by decide +kernel, got (by decide +kernel)⟩,
   ⟨7, 4091, 0, ({} : Dev), by decide +kernel, by decide +kernel, by decide +kernel, by decide +kernel, by decide +kernel⟩,
   ⟨7, 4091, 0, ({} : Dev), by decide +kernel, by decide +kernel, by decide +kernel, by decide +kernel, by decide +kernel⟩,
   ⟨7, 4095, { ({} : Dev) with onyx.blks := [(32767, { st := .erasing })] }, by decide +kernel, by decide +kernel, by decide +kernel⟩,
   ⟨7, 4095, [List.replicate 36 73, List.replicate 36 0], 2, List.replicate 36 0, true, by decide +kernel, by decide +kernel, by decide +kernel⟩,
   ⟨{ ({} : Dev) with vlt.st := .ready, onyx.blks := [(0, { st := .mapped, written := 1 })] }, 0, 0, by decide +kernel, by decide +kernel, by decide +kernel⟩,
   ⟨0, 0, { ({} : Dev) with vlt.st := .ready, onyx.blks := [(0, { st := .mapped, written := 1, refresh := true })] }, by decide +kernel, by decide +kernel, by decide +kernel, by decide +kernel, by decide +kernel, by decide +kernel, by decide +kernel⟩,
   ⟨7, ({} : Dev), by decide +kernel, by decide +kernel⟩,
   ⟨up, by decide +kernel, by decide +kernel⟩⟩
/-- VaultTwinCommands. -/
theorem witness_vault_twin_commands :
    (∃ (t : Nat) (d : Dev) (e : Nat), t < 16 ∧ (d.vten t).restoring = some e ∧ (d.vten t).restoreBad = none ∧ d.restoreOpen t = false) ∧
    (∃ (t : Nat) (d : Dev) (e : Nat), t < 16 ∧ (d.vten t).restoring = some e ∧ (d.vten t).restoreBad = none) ∧
    (∃ (t : Nat) (d : Dev), t < 16 ∧ (d.setVten t fun v => { v with mirrorOff := false }).mirroring t = true ∧ d.vlt.st = .ready) ∧
    (∃ (t : Nat), t < 16) ∧
    (∃ (t : Nat) (region : Nat) (granule : Nat) (piece : Nat) (epoch : W64) (data : List W64) (d : Dev), t < 16 ∧ ((withPiece { t, region, granule, epoch := epoch.toNat, piece, data } d.vlt.pieces).filter (Piece.of t region granule epoch.toNat)).length < 512) ∧
    (∃ (t : Nat) (region : Nat) (granule : Nat) (piece : Nat) (epoch : W64) (data : List W64) (d : Dev), t < 16 ∧ 512 ≤ ((withPiece { t, region, granule, epoch := epoch.toNat, piece, data } d.vlt.pieces).filter (Piece.of t region granule epoch.toNat)).length ∧ d.vaultServes = true) ∧
    (∃ (t : Nat) (d : Dev), t < 16 ∧ (d.vten t).marks = []) ∧
    (∃ (t : Nat), t < 16) ∧
    (∃ (t : Nat) (d : Dev), t < 16 ∧ d.vaultServes = true) ∧
    (∃ (t : Nat) (d : Dev), t < 16 ∧ (d.vten t).sealing = none) ∧
    (∃ (t : Nat) (epoch : W64), t < 16 ∧ epoch.toNat ≠ allEpochs) ∧
    (∃ (t : Nat), t < 16) ∧
    (∃ (t : Nat) (region : Nat) (granule : Nat) (epoch : W64) (d : Dev) (v : Ver), t < 16 ∧ (d.onyx.vers.find? fun v => decide (v.t = t) && decide (v.region = region) && decide (v.granule = granule) && decide (v.epoch = epoch.toNat) && !v.damaged) = some v) ∧
    (∃ (t : Nat) (region : Nat) (granule : Nat) (piece : Nat) (epoch : W64) (data : List W64) (d : Dev), t < 16 ∧ d.vlt.vget.contains (t, region, granule, epoch.toNat) = true ∧ 512 ≤ ((withPiece { t, region, granule, epoch := epoch.toNat, piece, data } d.vlt.vdata).filter (Piece.of t region granule epoch.toNat)).length) ∧
    (∃ (t : Nat) (region : Nat) (granule : Nat) (piece : Nat) (epoch : W64) (data : List W64) (d : Dev), t < 16 ∧ d.vlt.vget.contains (t, region, granule, epoch.toNat) = true ∧ ((withPiece { t, region, granule, epoch := epoch.toNat, piece, data } d.vlt.vdata).filter (Piece.of t region granule epoch.toNat)).length < 512) :=
  ⟨⟨15, { ({} : Dev) with vlt.ten := [(15, { restoring := some 1 })] }, _, by decide +kernel, got (by decide +kernel), by decide +kernel, by decide +kernel⟩,
   ⟨15, { ({} : Dev) with vlt.ten := [(15, { restoring := some 1 })] }, _, by decide +kernel, got (by decide +kernel), by decide +kernel⟩,
   ⟨15, ({ ({} : Dev) with twn.st := .paired, vlt.st := .ready, vlt.ten := [(15, { mirrored := true })] } : Dev), by decide +kernel, by decide +kernel, by decide +kernel⟩,
   ⟨15, by decide +kernel⟩,
   ⟨15, 0, 0, 0, 0, [], ({} : Dev), by decide +kernel, by decide +kernel⟩,
   ⟨15, 0, 0, 511, 0, [], { ({} : Dev) with vlt.st := .ready, vlt.pieces := (List.range 511).map fun i => { t := 15, region := 0, granule := 0, epoch := 0, piece := i, data := [] } }, by decide +kernel, by decide +kernel, by decide +kernel⟩,
   ⟨15, ({} : Dev), by decide +kernel, by decide +kernel⟩,
   ⟨15, by decide +kernel⟩,
   ⟨15, { ({} : Dev) with vlt.st := .ready }, by decide +kernel, by decide +kernel⟩,
   ⟨15, ({} : Dev), by decide +kernel, by decide +kernel⟩,
   ⟨15, 0, by decide +kernel, by decide +kernel⟩,
   ⟨15, by decide +kernel⟩,
   ⟨15, 0, 0, 0, { ({} : Dev) with onyx.vers := [{ t := 15, region := 0, granule := 0, epoch := 0 }] }, _, by decide +kernel, got (by decide +kernel)⟩,
   ⟨15, 0, 0, 511, 0, [], { ({} : Dev) with vlt.vget := [(15, 0, 0, 0)], vlt.vdata := (List.range 511).map fun i => { t := 15, region := 0, granule := 0, epoch := 0, piece := i, data := [] } }, by decide +kernel, by decide +kernel, by decide +kernel⟩,
   ⟨15, 0, 0, 0, 0, [], { ({} : Dev) with vlt.vget := [(15, 0, 0, 0)] }, by decide +kernel, by decide +kernel, by decide +kernel⟩⟩
/-- LinkReceptionCommands. -/
theorem witness_link_reception_commands :
    (∃ (p : Nat) (d : Dev), p < 65 ∧ (d.lport p).st = .active) ∧
    (∃ (p : Nat) (d : Dev), p < 65 ∧ (d.lport p).st = .keying) ∧
    (∃ (p : Nat) (lanes : List (Nat × Nat)) (d : Dev), p < 65 ∧ (d.lport p).st = .active ∧ 2 ≤ (d.lport p).skipRun lanes.length) ∧
    (∃ (p : Nat) (lanes : List (Nat × Nat)) (d : Dev) (x : Dev), p < 65 ∧ (d.lport p).st = .active ∧ (d.lport p).skipRun lanes.length < 2 ∧ (d.setLport p fun l => { l with skipMiss := (d.lport p).skipRun lanes.length }) = x ∧ (x.wrongLanes p lanes).isEmpty = true ∧ x.foundBreak p lanes = none) ∧
    (∃ (p : Nat) (d : Dev), p < 65 ∧ d.ackLate p = true) ∧
    (∃ (p : Nat) (d : Dev), p < 65 ∧ (d.lport p).episode.isSome = true ∧ d.budgetSpent p = true) ∧
    (∃ (p : Nat), p < 65) ∧
    (∃ (p : Nat) (vc : Nat) (seq : Nat) (d : Dev), p < 65 ∧ (d.lport p).parts.contains (vc, seq) = false ∧ (d.fab.undo.any fun u => decide (u.inPort = p) && u.cameAs vc seq) = false) ∧
    (∃ (p : Nat) (vc : Nat) (seq : Nat) (d : Dev), p < 65 ∧ (d.lport p).parts.contains (vc, seq) = true) ∧
    (∃ (p : Nat) (d : Dev), p < 65 ∧ (d.lport p).st = .keying ∧ (d.lport p).encRx = false) ∧
    (∃ (p : Nat) (par : Bool) (d : Dev), p < 65 ∧ (d.lport p).st = .active ∧ (d.lport p).rekeying = true ∧ par ≠ (d.lport p).kgenTx) ∧
    (∃ (p : Nat) (d : Dev), p < 65 ∧ 2 ^ (d.lport p).rekeyLog2 ≤ d.txc p) ∧
    (∃ (p : Nat) (d : Dev), p < 65 ∧ d.active p = true ∧ (d.lport p).rekeying = true ∧ 2 ^ ((d.lport p).rekeyLog2 + 1) ≤ d.txc p) ∧
    (∃ (p : Nat) (d : Dev), d.linkUp = true ∧ d.memReq 0 = true ∧ p < 65) ∧
    (∃ (p : Nat) (d : Dev), d.linkUp = true ∧ d.memReq 0 = true ∧ p < 65) ∧
    (∃ (p : Nat) (d : Dev), d.linkUp = true ∧ d.memReq 0 = true ∧ p < 65) ∧
    (∃ (p : Nat) (f : LinkFlit) (d : Dev), p < 65 ∧ (d.lport p).st = .active ∧ f.fecOk = true ∧ f.tagOk = true ∧ f.enc = false ∧ (d.lport p).encRx = false ∧ 1 ≤ f.ftype ∧ f.ftype ≤ 2) ∧
    (∃ (p : Nat) (f : LinkFlit) (d : Dev), p < 65 ∧ (d.lport p).st = .active ∧ f.fecOk = true ∧ f.tagOk = true ∧ f.enc = true ∧ (d.lport p).encRx = true ∧ f.txc8 = (d.lport p).rxc % 256 ∧ f.kgen = (d.lport p).kgenRx ∧ f.ftype ≤ 2 ∧ (Tab.look {} p (Dev.countFec (d.setLport p fun l => { l with lslotRx := (l.lslotRx + 1) % 2 ^ 48, rxc := l.rxc + 1 }) p f.corrected).sec.keyx).installed = true) :=
  ⟨⟨64, { ({} : Dev) with lnk.ports := [(64, { st := .active })] }, by decide +kernel, by decide +kernel⟩,
   ⟨0, { ({} : Dev) with lnk.ports := [(0, { st := .keying })] }, by decide +kernel, by decide +kernel⟩,
   ⟨64, [], { ({} : Dev) with lnk.ports := [(64, { st := .active, skipMiss := 1 })] }, by decide +kernel, by decide +kernel, by decide +kernel⟩,
   ⟨64, (List.range 16).map fun k => (k, k), { ({} : Dev) with lnk.ports := [(64, { st := .active })] }, _, by decide +kernel, by decide +kernel, by decide +kernel, rfl, by decide +kernel, by decide +kernel⟩,
   ⟨64, { ({} : Dev) with now := 9000, lnk.ports := [(64, { unacked := [{ seq := 0, vc := 1 }] })] }, by decide +kernel, by decide +kernel⟩,
   ⟨64, { ({} : Dev) with now := 50000, lnk.ports := [(64, { episode := some (0, 0, 1) })] }, by decide +kernel, by decide +kernel, by decide +kernel⟩,
   ⟨64, by decide +kernel⟩,
   ⟨64, 0, 0, ({} : Dev), by decide +kernel, by decide +kernel, by decide +kernel⟩,
   ⟨64, 0, 0, { ({} : Dev) with lnk.ports := [(64, { parts := [(0, 0)] })] }, by decide +kernel, by decide +kernel⟩,
   ⟨64, { ({} : Dev) with lnk.ports := [(64, { st := .keying })] }, by decide +kernel, by decide +kernel, by decide +kernel⟩,
   ⟨64, true, { ({} : Dev) with lnk.ports := [(64, { st := .active, rekeying := true })] }, by decide +kernel, by decide +kernel, by decide +kernel, by decide +kernel⟩,
   ⟨64, { ({} : Dev) with now := 1000000000000000 }, by decide +kernel, by decide +kernel⟩,
   ⟨64, { ({} : Dev) with now := 1000000000000000, lnk.ports := [(64, { st := .active, rekeying := true })] }, by decide +kernel, by decide +kernel, by decide +kernel, by decide +kernel⟩,
   ⟨64, on ({} : Dev), by decide +kernel, by decide +kernel, by decide +kernel⟩,
   ⟨64, on ({} : Dev), by decide +kernel, by decide +kernel, by decide +kernel⟩,
   ⟨64, on ({} : Dev), by decide +kernel, by decide +kernel, by decide +kernel⟩,
   ⟨64, { ftype := 1, enc := false, seq := 0, ack := 0 }, { ({} : Dev) with lnk.ports := [(64, { st := .active })] }, by decide +kernel, by decide +kernel, by decide +kernel, by decide +kernel, by decide +kernel, by decide +kernel, by decide +kernel, by decide +kernel⟩,
   ⟨64, { ftype := 0, enc := true, seq := 0, ack := 0 }, { ({} : Dev) with lnk.ports := [(64, { st := .active, encRx := true })], sec.keyx := [(64, { installed := true })] }, by decide +kernel, by decide +kernel, by decide +kernel, by decide +kernel, by decide +kernel, by decide +kernel, by decide +kernel, by decide +kernel, by decide +kernel, by decide +kernel⟩⟩
/-- LinkTrainingCommands. -/
theorem witness_link_training_commands :
    (∃ (p : Nat) (locked : Nat) (copies : Nat) (d : Dev), p < 65 ∧ (d.lport p).st = .light ∧ 8 ≤ locked ∧ 4 ≤ copies) ∧
    (∃ (p : Nat) (d : Dev), p < 64 ∧ (d.lport p).st = .ident) ∧
    (∃ (p : Nat) (w : TrainWord) (d : Dev), p < 65 ∧ TrainOk w = true ∧ (d.lport p).round < w.round ∧ (d.lport p).st = .ready) ∧
    (∃ (p : Nat) (w : TrainWord) (d : Dev), p < 65 ∧ TrainOk w = true ∧ (d.lport p).st = .active) ∧
    (∃ (p : Nat) (w : TrainWord) (d : Dev), p < 65 ∧ TrainOk w = true ∧ (d.lport p).round = w.round ∧ (d.lport p).st = .report) ∧
    (∃ (p : Nat) (w : TrainWord) (d : Dev), p < 65 ∧ TrainOk w = true ∧ (d.lport p).st = .ready) ∧
    (∃ (p : Nat) (d : Dev), p < 65 ∧ (d.lport p).st = .ident ∧ 2 ≤ (d.lport p).tries ∧ d.stateLate p = true) ∧
    (∃ (p : Nat) (d : Dev), p < 65 ∧ (d.lport p).st = .ident ∧ (d.lport p).tries < 2 ∧ d.stateLate p = true) ∧
    (∃ (p : Nat) (d : Dev), p < 65 ∧ (d.lport p).st = .failed ∧ (d.lport p).cfg.getLsbD 0 = true ∧ (d.lport p).stAt + 1000000000 ≤ d.now) :=
  ⟨⟨64, 8, 4, { ({} : Dev) with lnk.ports := [(64, { st := .light })] }, by decide +kernel, by decide +kernel, by decide +kernel, by decide +kernel⟩,
   ⟨63, { ({} : Dev) with lnk.ports := [(63, { st := .ident })] }, by decide +kernel, by decide +kernel⟩,
   ⟨64, { copies := 4, round := 1 }, { ({} : Dev) with lnk.ports := [(64, { st := .ready })] }, by decide +kernel, by decide +kernel, by decide +kernel, by decide +kernel⟩,
   ⟨64, { copies := 4, round := 1 }, { ({} : Dev) with lnk.ports := [(64, { st := .active })] }, by decide +kernel, by decide +kernel, by decide +kernel⟩,
   ⟨64, { copies := 4 }, { ({} : Dev) with lnk.ports := [(64, { st := .report })] }, by decide +kernel, by decide +kernel, by decide +kernel, by decide +kernel⟩,
   ⟨64, { copies := 4 }, { ({} : Dev) with lnk.ports := [(64, { st := .ready })] }, by decide +kernel, by decide +kernel, by decide +kernel⟩,
   ⟨64, { ({} : Dev) with now := 200001, lnk.ports := [(64, { st := .ident, tries := 2 })] }, by decide +kernel, by decide +kernel, by decide +kernel, by decide +kernel⟩,
   ⟨64, { ({} : Dev) with now := 200001, lnk.ports := [(64, { st := .ident, tries := 1 })] }, by decide +kernel, by decide +kernel, by decide +kernel, by decide +kernel⟩,
   ⟨64, { ({} : Dev) with now := 1000000000, lnk.ports := [(64, { st := .failed, cfg := 1 })] }, by decide +kernel, by decide +kernel, by decide +kernel, by decide +kernel⟩⟩
/-- RingCommands. -/
theorem witness_ring_commands :
    (∃ (b : Nat) (r : Nat) (d : Dev), b < 4 ∧ r < 576 ∧ Tab.look false b d.thm.warming = false) ∧
    (∃ (b : Nat) (r : Nat) (found : Nat) (d : Dev), b < 4 ∧ r < 576 ∧ (d.ring (berylRing b r)).st = .seek ∧ found ≠ 1 ∧ (d.ring (berylRing b r)).tries = 0 ∧ d.heatersHeld (berylRing b r) = false) ∧
    (∃ (b : Nat) (r : Nat) (found : Nat) (d : Dev), b < 4 ∧ r < 576 ∧ (d.ring (berylRing b r)).st = .seek ∧ found ≠ 1 ∧ (d.ring (berylRing b r)).tries ≠ 0 ∧ d.heatersHeld (berylRing b r) = false) ∧
    (∃ (b : Nat) (r : Nat) (d : Dev), b < 4 ∧ r < 576 ∧ (d.ring (berylRing b r)).st = .locked ∧ 0 < (d.ring (berylRing b r)).invalid ∧ d.heatersHeld (berylRing b r) = false) ∧
    (∃ (b : Nat) (r : Nat) (d : Dev), b < 4 ∧ r < 576 ∧ (d.ring (berylRing b r)).st = .locked ∧ (d.ring (berylRing b r)).invalid = 0 ∧ berylRing b r / 18 % 2 = 1 ∧ d.heatersHeld (berylRing b r) = false) ∧
    (∃ (b : Nat) (r : Nat) (d : Dev), b < 4 ∧ r < 576 ∧ (d.ring (berylRing b r)).st = .track ∧ berylRing b r / 18 % 2 = 0 ∧ (d.ring (berylRing b r)).since + 10000000 ≤ d.now) ∧
    (∃ (b : Nat) (r : Nat) (tap : Nat) (d : Dev), b < 4 ∧ r < 576 ∧ d.hasLight (berylRing b r) tap = true) ∧
    (∃ (b : Nat) (r : Nat) (tap : Nat) (d : Dev), b < 4 ∧ r < 576 ∧ d.hasLight (berylRing b r) tap = false) ∧
    (∃ (b : Nat) (d : Dev), d.linkUp = true ∧ d.memReq 0 = true ∧ b < 4) ∧
    (∃ (b : Nat) (val : W32) (d : Dev), d.linkUp = true ∧ d.memReq 0 = true ∧ b < 4 ∧ (d.brl b).lcfg.toNat % 2 ^ 10 = val.toNat % 2 ^ 10) ∧
    (∃ (b : Nat) (val : W32) (d : Dev), d.linkUp = true ∧ d.memReq 0 = true ∧ b < 4 ∧ (d.brl b).lcfg.toNat % 2 ^ 10 ≠ val.toNat % 2 ^ 10) ∧
    (∃ (b : Nat) (g : Nat) (d : Dev), b < 4 ∧ g < 32 ∧ (Tab.look ({} : Sense) (32 * b + g) d.opt.sense).prev = none) ∧
    (∃ (b : Nat) (g : Nat) (s : SenseScan) (d : Dev) (o : ScanView) (before : BitVec 18), b < 4 ∧ g < 32 ∧ (Tab.look ({} : Sense) (32 * b + g) d.opt.sense).prev = some (o, before) ∧ scansAgree o (d.viewScan b g s) = true) ∧
    (∃ (b : Nat) (r : Nat) (d : Dev) (t : Nat), b < 4 ∧ r < 576 ∧ (d.ring (berylRing b r)).target = some t ∧ d.heatersHeld (berylRing b r) = false) :=
  ⟨⟨3, 575, ({} : Dev), by decide +kernel, by decide +kernel, by decide +kernel⟩,
   ⟨3, 575, 0, { ({} : Dev) with opt.rings := [(2303, { st := .seek })] }, by decide +kernel, by decide +kernel, by decide +kernel, by decide +kernel, by decide +kernel, by decide +kernel⟩,
   ⟨3, 575, 0, { ({} : Dev) with opt.rings := [(2303, { st := .seek, tries := 1 })] }, by decide +kernel, by decide +kernel, by decide +kernel, by decide +kernel, by decide +kernel, by decide +kernel⟩,
   ⟨3, 575, { ({} : Dev) with opt.rings := [(2303, { st := .locked, invalid := 3 })] }, by decide +kernel, by decide +kernel, by decide +kernel, by decide +kernel, by decide +kernel⟩,
   ⟨3, 575, { ({} : Dev) with opt.rings := [(2303, { st := .locked })] }, by decide +kernel, by decide +kernel, by decide +kernel, by decide +kernel, by decide +kernel, by decide +kernel⟩,
   ⟨3, 540, { ({} : Dev) with now := 10000000, opt.rings := [(2268, { st := .track })] }, by decide +kernel, by decide +kernel, by decide +kernel, by decide +kernel, by decide +kernel⟩,
   ⟨3, 575, 255, ({} : Dev), by decide +kernel, by decide +kernel, by decide +kernel⟩,
   ⟨3, 575, 0, ({} : Dev), by decide +kernel, by decide +kernel, by decide +kernel⟩,
   ⟨3, on ({} : Dev), by decide +kernel, by decide +kernel, by decide +kernel⟩,
   ⟨3, 0, on ({ ({} : Dev) with opt.brl := [(3, { lcfg := 0 })] } : Dev), by decide +kernel, by decide +kernel, by decide +kernel, by decide +kernel⟩,
   ⟨3, 1, on { ({} : Dev) with opt.brl := [(3, { lcfg := 0 })] }, by decide +kernel, by decide +kernel, by decide +kernel, by decide +kernel⟩,
   ⟨3, 31, ({} : Dev), by decide +kernel, by decide +kernel, by decide +kernel⟩,
   ⟨3, 31, { idleMv := 210, limited := 0 }, { ({} : Dev) with opt.sense := [(127, { prev := some (({} : Dev).viewScan 3 31 { idleMv := 210, limited := 0 }, 0) })] }, _, 0, by decide +kernel, by decide +kernel, got (by decide +kernel), by decide +kernel⟩,
   ⟨3, 575, { ({} : Dev) with opt.rings := [(2303, { target := some 5 })] }, _, by decide +kernel, by decide +kernel, got (by decide +kernel), by decide +kernel⟩⟩
/-- KeyExchangeCommands. -/
theorem witness_key_exchange_commands :
    (∃ (p : Nat) (h : KeyHello) (d : Dev), p < 65 ∧ d.keying p = true ∧ h.mode = (d.keyxOf p).own.mode ∧ h.fschk = (d.keyxOf p).own.fschk) ∧
    (∃ (p : Nat) (h : KeyHello) (d : Dev), p < 65 ∧ d.keying p = true ∧ h.mode ≠ (d.keyxOf p).own.mode) ∧
    (∃ (p : Nat) (frag : Nat) (nfrag : Nat) (data : List Byte) (d : Dev), p < 65 ∧ d.keying p = true ∧ (d.keyxOf p).verifySent = false ∧ (d.keyxOf p).badFragment frag nfrag data.length = false) ∧
    (∃ (p : Nat) (frag : Nat) (nfrag : Nat) (data : List Byte) (d : Dev), p < 65 ∧ d.keying p = true ∧ (d.keyxOf p).verifySent = false ∧ (d.keyxOf p).badFragment frag nfrag data.length = true) ∧
    (∃ (p : Nat) (d : Dev), p < 65 ∧ d.keying p = true) ∧
    (∃ (p : Nat) (mac : BitVec 384) (d : Dev), p < 64 ∧ d.keying p = true ∧ (d.keyxOf p).verifyOk = true ∧ mac = finishMac (d.keyxOf p).kdkRx (d.keyxOf p).thRx (d.keyxOf p).there) ∧
    (∃ (mac : BitVec 384) (d : Dev), d.keying 64 = true ∧ (d.keyxOf 64).verifyOk = true ∧ mac = finishMac (d.keyxOf 64).kdkRx (d.keyxOf 64).thRx (d.keyxOf 64).there) ∧
    (∃ (p : Nat) (d : Dev) (x : Dev) (n : BitVec 256) (y : Dev) (k : BitVec 384), p < 65 ∧ d.active p = true ∧ (d.keyxOf p).installed = true ∧ d.keyService = true ∧ d.rand 256 = (n, x) ∧ x.rand 384 = (k, y)) ∧
    (∃ (p : Nat) (d : Dev) (r : BitVec 256 × BitVec 384), p < 65 ∧ (d.keyxOf p).rekeyTx = some r ∧ d.active p = true ∧ d.keyService = true) ∧
    (∃ (d : Dev), d.keying 64 = true ∧ (d.keyxOf 64).finishOk = true ∧ (d.keyxOf 64).installed = false) ∧
    (∃ (state : Nat) (wrapped : BitVec 320) (d : Dev) (far : BitVec 256), d.keying 64 = true ∧ (d.keyxOf 64).finishOk = true ∧ (d.keyxOf 64).installed = false ∧ state ≠ 0 ∧ d.pvkFar wrapped = some far ∧ (d.secNv.pvk = some far ∨ (d.secNv.pvk ≠ some far ∧ ¬ (d.pvkState = 2 ∧ state = 2)))) ∧
    (∃ (p : Nat) (d : Dev), p < 65 ∧ (d.lport p).st = .keying ∧ (d.keyxOf p).aborted = false) :=
  ⟨⟨64, { nonce := 0, eph := 0, ident := 0, port := 64, mode := 0, fschk := 0 }, { ({} : Dev) with lnk.ports := [(64, { st := .keying })], sec.keyx := [(64, { sent := true })] }, by decide +kernel, by decide +kernel, by decide +kernel, by decide +kernel⟩,
   ⟨64, { nonce := 0, eph := 0, ident := 0, port := 64, mode := 1, fschk := 0 }, { ({} : Dev) with lnk.ports := [(64, { st := .keying })], sec.keyx := [(64, { sent := true })] }, by decide +kernel, by decide +kernel, by decide +kernel⟩,
   ⟨64, 9, 10, List.replicate 224 0, { ({} : Dev) with lnk.ports := [(64, { st := .keying })], sec.keyx := [(64, { sent := true })] }, by decide +kernel, by decide +kernel, by decide +kernel, by decide +kernel⟩,
   ⟨64, 0, 11, [], { ({} : Dev) with lnk.ports := [(64, { st := .keying })], sec.keyx := [(64, { sent := true })] }, by decide +kernel, by decide +kernel, by decide +kernel, by decide +kernel⟩,
   ⟨64, { ({} : Dev) with lnk.ports := [(64, { st := .keying })], sec.keyx := [(64, { sent := true })] }, by decide +kernel, by decide +kernel⟩,
   ⟨63, _, { ({} : Dev) with lnk.ports := [(63, { st := .keying })], sec.keyx := [(63, { sent := true, verifyOk := true })] }, by decide +kernel, by decide +kernel, by decide +kernel, rfl⟩,
   ⟨_, { ({} : Dev) with lnk.ports := [(64, { st := .keying })], sec.keyx := [(64, { sent := true, verifyOk := true })] }, by decide +kernel, by decide +kernel, rfl⟩,
   ⟨64, { ({} : Dev) with lnk.ports := [(64, { st := .active })], sec.keyx := [(64, { installed := true })] }, _, _, _, _, by decide +kernel, by decide +kernel, by decide +kernel, by decide +kernel, rfl, rfl⟩,
   ⟨64, { ({} : Dev) with lnk.ports := [(64, { st := .active })], sec.keyx := [(64, { rekeyTx := some (0, 0) })] }, _, by decide +kernel, got (by decide +kernel), by decide +kernel, by decide +kernel⟩,
   ⟨{ ({} : Dev) with lnk.ports := [(64, { st := .keying })], sec.keyx := [(64, { sent := true, finishOk := true })] }, by decide +kernel, by decide +kernel, by decide +kernel⟩,
   ⟨1, BitVec.ofNat 320 (beNat (keyWrap (pvkKey [] []) (beBytes 32 5))), { ({} : Dev) with lnk.ports := [(64, { st := .keying })], sec.keyx := [(64, { sent := true, finishOk := true })], secNv.pvk := some 5 }, 5, by decide +kernel, by decide +kernel, by decide +kernel, by decide +kernel, Dev.pvkFar_wrap _ 5, by decide +kernel⟩,
   ⟨64, { ({} : Dev) with lnk.ports := [(64, { st := .keying })] }, by decide +kernel, by decide +kernel, by decide +kernel⟩⟩
/-- KeyManagementCommands. -/
theorem witness_key_management_commands :
    (∃ (v : VopReq) (key1 : BitVec 256) (key2 : BitVec 256) (d : Dev), d.up = true ∧ d.coSession v = true ∧ d.sec.mode ≠ .error ∧ d.keyLoadCheck v key1 key2 = none) ∧
    (∃ (v : VopReq) (d : Dev), d.up = true ∧ d.coSession v = false) ∧
    (∃ (v : VopReq) (d : Dev), d.up = true ∧ d.coSession v = true ∧ d.sec.mode ≠ .error ∧ v.sel ≤ 63 ∧ v.tenant ≤ 15) ∧
    (∃ (v : VopReq) (d : Dev), d.up = true ∧ d.coSession v = true ∧ d.sec.mode ≠ .error) ∧
    (∃ (v : VopReq) (d : Dev), d.up = true ∧ d.coSession v = true ∧ d.sec.mode ≠ .error ∧ 1 ≤ v.idx ∧ v.idx ≤ 4) ∧
    (∃ (v : VopReq) (d : Dev), d.up = true ∧ d.coSession v = true ∧ d.sec.mode ≠ .error ∧ 1 ≤ v.idx ∧ v.idx ≤ 4) ∧
    (∃ (v : VopReq) (d : Dev), d.up = true ∧ d.coSession v = true ∧ d.sec.mode ≠ .error) :=
  ⟨⟨{ transport := 0, session := 0, tenant := 15, sel := 63 }, 1, 2, { ({} : Dev) with boot.stage := .hostReady, sec.spdm := [{ transport := 0, id := 0, mauth := true, open_ := true }], tq.ten := [(15, { assign := some {} })] }, by decide +kernel, by decide +kernel, by decide +kernel, by decide +kernel⟩,
   ⟨{ transport := 0, session := 0 }, { ({} : Dev) with boot.stage := .hostReady }, by decide +kernel, by decide +kernel⟩,
   ⟨{ transport := 0, session := 0, tenant := 15, sel := 63 }, { ({} : Dev) with boot.stage := .hostReady, sec.spdm := [{ transport := 0, id := 0, mauth := true, open_ := true }] }, by decide +kernel, by decide +kernel, by decide +kernel, by decide +kernel, by decide +kernel⟩,
   ⟨{ transport := 0, session := 0 }, { ({} : Dev) with boot.stage := .hostReady, sec.spdm := [{ transport := 0, id := 0, mauth := true, open_ := true }] }, by decide +kernel, by decide +kernel, by decide +kernel⟩,
   ⟨{ transport := 0, session := 0, idx := 1 }, { ({} : Dev) with boot.stage := .hostReady, sec.spdm := [{ transport := 0, id := 0, mauth := true, open_ := true }] }, by decide +kernel, by decide +kernel, by decide +kernel, by decide +kernel, by decide +kernel⟩,
   ⟨{ transport := 0, session := 0, idx := 1 }, { ({} : Dev) with boot.stage := .hostReady, sec.spdm := [{ transport := 0, id := 0, mauth := true, open_ := true }] }, by decide +kernel, by decide +kernel, by decide +kernel, by decide +kernel, by decide +kernel⟩,
   ⟨{ transport := 0, session := 0 }, { ({} : Dev) with boot.stage := .hostReady, sec.spdm := [{ transport := 0, id := 0, mauth := true, open_ := true }] }, by decide +kernel, by decide +kernel, by decide +kernel⟩⟩
/-- SecurityModuleCommands. -/
theorem witness_security_module_commands :
    (∃ (d : Dev), d.boot.stage = .init) ∧
    (∃ (d : Dev), d.sec.selftest = true) ∧
    (∃ (d : Dev), d.sec.up = true ∧ (2 ^ 20 ≤ d.sec.gens ∨ d.sec.reseedAt + 1000000000 ≤ d.now)) ∧
    (∃ (d : Dev), d.sec.up = true ∧ (2 ^ 20 ≤ d.sec.gens ∨ d.sec.reseedAt + 1000000000 ≤ d.now)) ∧
    (∃ (path : Path) (d : Dev) (x : BitVec 384 × Nat × Nat), (d.authOf path).nonce = some x ∧ x.2.2 + 60000000000 ≤ d.now) ∧
    (∃ (path : Path) (d : Dev) (x : Nat), (d.authOf path).lockAt = some x ∧ x + 10000000000 ≤ d.now) ∧
    (∃ (d : Dev), d.jad.aoUp = true ∧ d.jad.breach = false) ∧
    (∃ (d : Dev), d.jad.aoUp = true) ∧
    (∃ (d : Dev), d.linkUp = true ∧ d.memReq 0 = true) :=
  ⟨⟨{ ({} : Dev) with boot.stage := .init }, by decide +kernel⟩,
   ⟨{ ({} : Dev) with sec.selftest := true }, by decide +kernel⟩,
   ⟨{ ({} : Dev) with sec.up := true, sec.gens := 1048576 }, by decide +kernel, by decide +kernel⟩,
   ⟨{ ({} : Dev) with sec.up := true, now := 1000000000 }, by decide +kernel, by decide +kernel⟩,
   ⟨.mctp, { ({} : Dev) with sec.auth := [(.mctp, { nonce := some (0, 1, 0) })], now := 60000000000 }, _, got (by decide +kernel), by decide +kernel⟩,
   ⟨.mctp, { ({} : Dev) with sec.auth := [(.mctp, { lockAt := some 0 })], now := 10000000000 }, _, got (by decide +kernel), by decide +kernel⟩,
   ⟨{ ({} : Dev) with jad.aoUp := true }, by decide +kernel, by decide +kernel⟩,
   ⟨{ ({} : Dev) with jad.aoUp := true }, by decide +kernel⟩,
   ⟨up, by decide +kernel, by decide +kernel⟩⟩
/-- LaserCommands. -/
theorem witness_laser_commands :
    (∃ (j : Nat) (d : Dev), j < 72 ∧ (d.laser j).st = .ramp ∧ (d.laser j).toHold = true ∧ (d.laser j).rampAt + (d.laser j).rampNs ≤ d.now) ∧
    (∃ (j : Nat) (mpd : Nat) (d : Dev), j < 72 ∧ (d.laser j).st = .ramp ∧ (d.laser j).toHold = false ∧ (d.laser j).target ≤ mpd * 4 ∧ (d.laser j).rampAt + (d.laser j).rampNs ≤ d.now) ∧
    (∃ (j : Nat) (mpd : Nat) (d : Dev), j < 72 ∧ (d.laser j).st = .ramp ∧ (d.laser j).toHold = false ∧ mpd * 4 < (d.laser j).target ∧ (d.laser j).rampAt + (d.laser j).rampNs ≤ d.now) ∧
    (∃ (j : Nat) (d : Dev), j < 72 ∧ d.laserJudged j = true) ∧
    (∃ (j : Nat) (d : Dev), j < 72 ∧ (d.laser j).st = .wait ∧ (d.laser j).retryAt ≤ d.now ∧ (d.retained j = false ∨ (d.laser j).toHold = true)) ∧
    (∃ (j : Nat) (m' : LasSample) (d : Dev) (l : Laser), j < 72 ∧ (d.laser j).st = .lit ∧ (d.laser j).loop (Tab.look ({} : Ruby) (laserRuby j) d.las.ruby) d.now m' = l) ∧
    (∃ (n : Nat) (k : Nat) (d : Dev), n < 2 ∧ k < 18 ∧ (d.settledLit (36 * n + 2 * k) = true ∨ d.settledLit (36 * n + 2 * k + 1) = true)) ∧
    (∃ (n : Nat) (k : Nat) (d : Dev) (w : Swap), n < 2 ∧ k < 18 ∧ (d.posn (18 * n + k)).swap = some w ∧ w.step = 1 ∧ d.swapMoves n k = false ∧ d.swapStands n w = true) ∧
    (∃ (n : Nat) (k : Nat) (d : Dev) (w : Swap), n < 2 ∧ k < 18 ∧ (d.posn (18 * n + k)).swap = some w ∧ w.step ≠ 1 ∧ d.swapRelocked n k = true) ∧
    (∃ (n : Nat), n < 2) ∧
    (∃ (n : Nat), n < 2) ∧
    (∃ (n : Nat), n < 2) :=
  ⟨⟨71, { ({} : Dev) with now := 1000000000, las.las := [(71, { st := .ramp, toHold := true })] }, by decide +kernel, by decide +kernel, by decide +kernel, by decide +kernel⟩,
   ⟨71, 0, { ({} : Dev) with now := 1000000000, las.las := [(71, { st := .ramp })] }, by decide +kernel, by decide +kernel, by decide +kernel, by decide +kernel, by decide +kernel⟩,
   ⟨71, 0, { ({} : Dev) with now := 1000000000, las.las := [(71, { st := .ramp, target := 1 })] }, by decide +kernel, by decide +kernel, by decide +kernel, by decide +kernel, by decide +kernel⟩,
   ⟨71, { ({} : Dev) with las.las := [(71, { st := .lit, current := 900 })] }, by decide +kernel, by decide +kernel⟩,
   ⟨71, { ({} : Dev) with las.las := [(71, { st := .wait })] }, by decide +kernel, by decide +kernel, by decide +kernel, by decide +kernel⟩,
   ⟨71, { mv := 0, current := 0, mpd := 0 }, { ({} : Dev) with las.las := [(71, { st := .lit })] }, _, by decide +kernel, by decide +kernel, rfl⟩,
   ⟨1, 17, { ({} : Dev) with now := 300000, las.las := [(70, { st := .lit })] }, by decide +kernel, by decide +kernel, by decide +kernel⟩,
   ⟨1, 17, { ({} : Dev) with las.pos := [(35, { swap := some { step := 1, inc := 71, req := none } })], las.las := [(70, { st := .lit }), (71, { st := .hold })], las.ruby := [(1, { linkOk := true })] }, _, by decide +kernel, by decide +kernel, got (by decide +kernel), by decide +kernel, by decide +kernel, by decide +kernel⟩,
   ⟨1, 17, { ({} : Dev) with las.pos := [(35, { lit := true, swap := some { step := 3, inc := 71, req := none } })] }, _, by decide +kernel, by decide +kernel, got (by decide +kernel), by decide +kernel, by decide +kernel⟩,
   ⟨1, by decide +kernel⟩,
   ⟨1, by decide +kernel⟩,
   ⟨1, by decide +kernel⟩⟩
/-- WavelengthMoveCommands. -/
theorem witness_wavelength_move_commands :
    (∃ (p : Nat) (d : Dev) (k : Move), p < 64 ∧ (d.wport p).move = none ∧ nextMove (d.wport p).waiting = some k) ∧
    (∃ (p : Nat), p < 64) ∧
    (∃ (p : Nat), p < 64) ∧
    (∃ (p : Nat) (d : Dev) (k : Move), p < 64 ∧ (d.wport p).move = some k ∧ k.kind ≠ .brk ∧ k.dual = false ∧ (k.slotN.all fun n => decide (n ≤ d.lslot p)) = true) ∧
    (∃ (p : Nat) (d : Dev) (lane : Nat) (fr : Nat) (dest : Nat) (at_ : Nat), p < 64 ∧ (d.wport p).rxMove = some (lane, fr, dest, at_)) ∧
    (∃ (p : Nat) (lane : Nat) (dest : Nat) (d : Dev) (k : Move), p < 64 ∧ (d.wport p).move = some k ∧ k.lane = lane ∧ k.dest = dest ∧ k.dual = true ∧ k.kind ≠ .brk) ∧
    (∃ (p : Nat) (lane : Nat) (dest : Nat) (d : Dev) (k : Move), p < 64 ∧ (d.wport p).move = some k ∧ k.lane = lane ∧ k.dest = dest ∧ k.dual = true ∧ k.kind = .brk) ∧
    (∃ (p : Nat) (d : Dev) (k : Move) (slot : Nat), p < 64 ∧ (d.wport p).move = some k ∧ k.slotM = some slot ∧ slot ≤ d.lslot p) ∧
    (∃ (p : Nat) (from_ : Nat) (d : Dev), p < 64 ∧ (d.chan (ringNo p 1 from_)).awaits = none) ∧
    (∃ (p : Nat) (from_ : Nat) (d : Dev), p < 64 ∧ (d.wport p).reserved = none ∧ (d.wport p).waiting = [] ∧ mapAt (d.wport p).tx from_ = 0xFE) ∧
    (∃ (p : Nat) (d : Dev), p < 64 ∧ (d.wport p).reserved.isSome = true) ∧
    (∃ (p : Nat) (lane : Nat) (from_ : Nat) (d : Dev), p < 64 ∧ mapAt (d.wport p).tx from_ = lane) ∧
    (∃ (p : Nat) (from_ : Nat) (d : Dev), p < 64 ∧ ((d.chan (ringNo p 1 from_)).polish.any fun q => q.full && decide (q.step = .reserve)) = true) ∧
    (∃ (p : Nat) (lane : Nat) (d : Dev) (fr : Nat) (dest : Nat) (at_ : Nat), p < 64 ∧ (d.wport p).rxMove = some (lane, fr, dest, at_)) ∧
    (∃ (p : Nat), p < 64) ∧
    (∃ (p : Nat) (d : Dev) (k : Move), p < 64 ∧ (d.wport p).move = some k ∧ k.kind ≠ .brk ∧ k.dual = true ∧ k.ready = false ∧ k.startAt + d.abandonNs ≤ d.now) ∧
    (∃ (p : Nat) (d : Dev), d.linkUp = true ∧ d.memReq 0 = true ∧ p < 64) :=
  ⟨⟨63, { ({} : Dev) with las.ports := [(63, { waiting := [{ kind := .cmd, lane := 0, from_ := 0, dest := 16 }] })] }, _, by decide +kernel, by decide +kernel, got (by decide +kernel)⟩,
   ⟨63, by decide +kernel⟩,
   ⟨63, by decide +kernel⟩,
   ⟨63, { ({} : Dev) with now := 1000000, las.ports := [(63, { move := some { kind := .cmd, lane := 0, from_ := 0, dest := 16, slotN := some 7 } })] }, _, by decide +kernel, got (by decide +kernel), by decide +kernel, by decide +kernel, by decide +kernel⟩,
   ⟨63, { ({} : Dev) with las.ports := [(63, { rxMove := some (0, 0, 16, 0) })] }, 0, 0, 16, 0, by decide +kernel, by decide +kernel⟩,
   ⟨63, 0, 16, { ({} : Dev) with las.ports := [(63, { move := some { kind := .cmd, lane := 0, from_ := 0, dest := 16, dual := true } })] }, _, by decide +kernel, got (by decide +kernel), by decide +kernel, by decide +kernel, by decide +kernel, by decide +kernel⟩,
   ⟨63, 0, 16, { ({} : Dev) with las.ports := [(63, { move := some { kind := .brk, lane := 0, from_ := 0, dest := 16, dual := true } })] }, _, by decide +kernel, got (by decide +kernel), by decide +kernel, by decide +kernel, by decide +kernel, by decide +kernel⟩,
   ⟨63, { ({} : Dev) with now := 1000000, las.ports := [(63, { move := some { kind := .cmd, lane := 0, from_ := 0, dest := 16, slotM := some 7 } })] }, _, _, by decide +kernel, got (by decide +kernel), got (by decide +kernel), by decide +kernel⟩,
   ⟨63, 17, ({} : Dev), by decide +kernel, by decide +kernel⟩,
   ⟨63, 16, ({} : Dev), by decide +kernel, by decide +kernel, by decide +kernel, by decide +kernel⟩,
   ⟨63, { ({} : Dev) with las.ports := [(63, { reserved := some 16 })] }, by decide +kernel, by decide +kernel⟩,
   ⟨63, 0, 0, ({} : Dev), by decide +kernel, by decide +kernel⟩,
   ⟨0, 0, { ({} : Dev) with cal.chans := [(18, { polish := some { full := true, step := .reserve } })] }, by decide +kernel, by decide +kernel⟩,
   ⟨63, 0, { ({} : Dev) with las.ports := [(63, { rxMove := some (0, 0, 16, 0) })] }, 0, 16, 0, by decide +kernel, by decide +kernel⟩,
   ⟨63, by decide +kernel⟩,
   ⟨63, { ({} : Dev) with now := 1000000, las.ports := [(63, { move := some { kind := .cmd, lane := 0, from_ := 0, dest := 16, dual := true } })] }, _, by decide +kernel, got (by decide +kernel), by decide +kernel, by decide +kernel, by decide +kernel, by decide +kernel⟩,
   ⟨63, on ({} : Dev), by decide +kernel, by decide +kernel, by decide +kernel⟩⟩
/-- PolishCommands. -/
theorem witness_polish_commands :
    (∃ (b : Nat) (d : Dev) (x : Nat), b < 4 ∧ d.pwr.state ≠ 2 ∧ d.polishesIn b < min 7 d.cal.maxPar ∧ d.nextPolish b = some x) ∧
    (∃ (b : Nat) (d : Dev), b < 4 ∧ d.pwr.state = 2) ∧
    (∃ (ch : Nat) (d : Dev) (pl : Polish), ch < 2304 ∧ (d.chan ch).polish = some pl ∧ pl.step = .scan ∧ Tab.look none (ch / 576) d.cal.held = some ch) ∧
    (∃ (ch : Nat) (d : Dev) (pl : Polish), ch < 2304 ∧ (d.chan ch).polish = some pl ∧ pl.step = .relock ∧ (d.ring ch).st = .locked) ∧
    (∃ (ch : Nat) (d : Dev) (pl : Polish), ch < 2304 ∧ (d.chan ch).polish = some pl ∧ pl.step = .drvcomp ∧ 16 ≤ pl.outs.length) ∧
    (∃ (ch : Nat) (d : Dev) (pl : Polish), ch < 2304 ∧ (d.chan ch).polish = some pl ∧ pl.step = .offset ∧ Tab.look none (ch / 576) d.cal.held = some ch) ∧
    (∃ (ch : Nat) (d : Dev) (pl : Polish), ch < 2304 ∧ (d.chan ch).polish = some pl ∧ pl.step = .levels) ∧
    (∃ (p : Nat) (k : Nat) (d : Dev) (v : Rxc) (pl : Polish), p < 64 ∧ k < 18 ∧ Tab.look none (18 * p + k) d.opt.shadow = some v ∧ ((d.applyShadow (18 * p + k) v).chan (ringNo p 1 k)).polish = some pl ∧ pl.step = .apply) ∧
    (∃ (p : Nat) (k : Nat) (d : Dev) (v : Rxc), p < 64 ∧ k < 18 ∧ Tab.look none (18 * p + k) d.opt.shadow = some v ∧ ((d.applyShadow (18 * p + k) v).chan (ringNo p 1 k)).polish = none) ∧
    (∃ (ch : Nat) (d : Dev) (pl : Polish), ch < 2304 ∧ (d.chan ch).polish = some pl ∧ pl.full = false ∧ pl.step = .light ∧ isTx ch = true ∧ 8 ≤ (d.ring ch).run) ∧
    (∃ (ch : Nat) (d : Dev) (pl : Polish), ch < 2304 ∧ (d.chan ch).polish = some pl ∧ pl.full = false ∧ pl.step = .light ∧ isTx ch = false) ∧
    (∃ (ch : Nat) (d : Dev), ch < 2304 ∧ isTx ch = false ∧ d.active (ch / 36) = true ∧ d.laneOf ch < 16) ∧
    (∃ (ch : Nat) (d : Dev), ch < 2304 ∧ d.mayWrite ch = true) ∧
    (∃ (ch : Nat) (d : Dev), ch < 2304 ∧ d.mayWrite ch = false) ∧
    (∃ (p : Nat) (d : Dev), p < 64 ∧ 0 < Tab.look 0 p d.cal.rsvAt ∧ Tab.look 0 p d.cal.rsvAt + d.cal.rsvNs ≤ d.now + 1) ∧
    (∃ (d : Dev), d.linkUp = true ∧ d.memReq 0 = true) ∧
    (∃ (d : Dev), d.linkUp = true ∧ d.memReq 0 = true) :=
  ⟨⟨3, { ({} : Dev) with cal.chans := [(1728, { due := true })], opt.rings := [(1728, { st := .locked })] }, 1728, by decide +kernel, by decide +kernel, by decide +kernel, by decide +kernel⟩,
   ⟨3, { ({} : Dev) with pwr.state := 2 }, by decide +kernel, by decide +kernel⟩,
   ⟨2303, { ({} : Dev) with cal.chans := [(2303, { polish := some { full := true, step := .scan } })], cal.held := [(3, some 2303)] }, _, by decide +kernel, got (by decide +kernel), by decide +kernel, by decide +kernel⟩,
   ⟨2303, { ({} : Dev) with cal.chans := [(2303, { polish := some { full := true, step := .relock } })], opt.rings := [(2303, { st := .locked })] }, _, by decide +kernel, got (by decide +kernel), by decide +kernel, by decide +kernel⟩,
   ⟨2303, { ({} : Dev) with cal.chans := [(2303, { polish := some { full := true, step := .drvcomp, outs := List.replicate 16 0 } })] }, _, by decide +kernel, got (by decide +kernel), by decide +kernel, by decide +kernel⟩,
   ⟨2303, { ({} : Dev) with cal.chans := [(2303, { polish := some { full := true, step := .offset } })], cal.held := [(3, some 2303)] }, _, by decide +kernel, got (by decide +kernel), by decide +kernel, by decide +kernel⟩,
   ⟨2303, { ({} : Dev) with cal.chans := [(2303, { polish := some { full := true, step := .levels } })] }, _, by decide +kernel, got (by decide +kernel), by decide +kernel⟩,
   ⟨63, 17, { ({} : Dev) with opt.shadow := [(1151, some {})], cal.chans := [(2303, { polish := some { full := true, step := .apply } })] }, _, _, by decide +kernel, by decide +kernel, got (by decide +kernel), got (by decide +kernel), by decide +kernel⟩,
   ⟨63, 17, { ({} : Dev) with opt.shadow := [(1151, some {})] }, _, by decide +kernel, by decide +kernel, got (by decide +kernel), by decide +kernel⟩,
   ⟨2285, { ({} : Dev) with opt.rings := [(2285, { run := 8 })], cal.chans := [(2285, { polish := some { full := false, step := .light } })] }, _, by decide +kernel, got (by decide +kernel), by decide +kernel, by decide +kernel, by decide +kernel, by decide +kernel⟩,
   ⟨2303, { ({} : Dev) with cal.chans := [(2303, { polish := some { full := false, step := .light } })] }, _, by decide +kernel, got (by decide +kernel), by decide +kernel, by decide +kernel, by decide +kernel⟩,
   ⟨2286, { ({} : Dev) with lnk.ports := [(63, { st := .active })] }, by decide +kernel, by decide +kernel, by decide +kernel, by decide +kernel⟩,
   ⟨2303, { ({} : Dev) with cal.chans := [(2303, { wpend := true })] }, by decide +kernel, by decide +kernel⟩,
   ⟨2303, ({} : Dev), by decide +kernel, by decide +kernel⟩,
   ⟨63, { ({} : Dev) with now := 20000000, cal.rsvAt := [(63, 1)] }, by decide +kernel, by decide +kernel, by decide +kernel⟩,
   ⟨up, by decide +kernel, by decide +kernel⟩,
   ⟨up, by decide +kernel, by decide +kernel⟩⟩
/-- ThermalAndPowerCommands. -/
theorem witness_thermal_and_power_commands :
    (∃ (n : Nat), n < 58) ∧
    (∃ (n : Nat) (temp : Int), n < 58 ∧ tripOf n ≤ temp) ∧
    (∃ (n : Nat) (temp : Int), n < 58 ∧ temp < tripOf n) ∧
    (∃ (d : Dev) (n : Nat) (v : Nat), d.pwr.seq = [(n, v)] ∧ d.pwr.stepAt + stepNs (d.domain n) v ≤ d.now) ∧
    (∃ (d : Dev) (n : Nat) (v : Nat) (x : Nat × Nat) (r : List (Nat × Nat)), d.pwr.seq = (n, v) :: x :: r ∧ d.pwr.stepAt + stepNs (d.domain n) v ≤ d.now) ∧
    (∃ (d : Dev), d.pwr.seq = []) ∧
    (∃ (d : Dev), d.up = true ∧ d.pwr.state = 0 ∧ d.pwr.busy = false ∧ d.pwr.cfg.getLsbD 0 = true ∧ d.quiet = true ∧ d.quietLong = true) ∧
    (∃ (d : Dev), d.quiet = false) ∧
    (∃ (d : Dev), d.pwr.state = 1) ∧
    (∃ (d : Dev), d.pwr.state ≠ 1) ∧
    (∃ (d : Dev), d.pwr.state = 3 ∧ d.jad.pwrReq = false ∧ d.jad.latched = false ∧ d.jad.pwrOk = true) ∧
    (∃ (d : Dev), d.pwr.state = 3 ∧ d.jad.pwrReq = false ∧ d.jad.latched = false ∧ d.jad.pwrOk = false) ∧
    (∃ (d : Dev), d.jad.latched = true ∧ d.enteringAo = false) ∧
    (∃ (b : Nat) (d : Dev), b < 4 ∧ Tab.look false b d.thm.warming = true ∧ d.warmed b = true) :=
  ⟨⟨57, by decide +kernel⟩,
   ⟨57, 1760, by decide +kernel, by decide +kernel⟩,
   ⟨57, 1759, by decide +kernel, by decide +kernel⟩,
   ⟨{ ({} : Dev) with now := 4000, pwr.seq := [(57, 0)] }, 57, 0, by decide +kernel, by decide +kernel⟩,
   ⟨{ ({} : Dev) with now := 4000, pwr.seq := [(57, 0), (56, 0)] }, 57, 0, (56, 0), [], by decide +kernel, by decide +kernel⟩,
   ⟨({} : Dev), by decide +kernel⟩,
   ⟨{ on {} with pwr.cfg := 1, now := 1000, pwr.quietAt := some 0 }, by decide +kernel, by decide +kernel, by decide +kernel, by decide +kernel, by decide +kernel, by decide +kernel⟩,
   ⟨{ ({} : Dev) with cal.chans := [(0, { polish := some { full := false, step := .light } })] }, by decide +kernel⟩,
   ⟨{ ({} : Dev) with pwr.state := 1 }, by decide +kernel⟩,
   ⟨({} : Dev), by decide +kernel⟩,
   ⟨{ ({} : Dev) with pwr.state := 3, jad.pwrReq := false, jad.pwrOk := true }, by decide +kernel, by decide +kernel, by decide +kernel, by decide +kernel⟩,
   ⟨{ ({} : Dev) with pwr.state := 3, jad.pwrReq := false, jad.pwrOk := false }, by decide +kernel, by decide +kernel, by decide +kernel, by decide +kernel⟩,
   ⟨{ ({} : Dev) with jad.latched := true }, by decide +kernel, by decide +kernel⟩,
   ⟨3, { ({} : Dev) with now := 1500000000, thm.warming := [(3, true)] }, by decide +kernel, by decide +kernel, by decide +kernel⟩⟩
/-- BringUpAndRegisterCommands. -/
theorem witness_bring_up_and_register_commands :
    (∃ (item : Nat) (d : Dev), 1 ≤ item ∧ item ≤ 8 ∧ d.mayStart item = true) ∧
    (∃ (item : Nat) (d : Dev), 1 ≤ item ∧ item ≤ 8 ∧ d.mayStart item = false) ∧
    (∃ (d : Dev), d.linkUp = true ∧ d.memReq 0 = true) ∧
    (∃ (d : Dev), d.linkUp = true ∧ d.memReq 0 = true) ∧
    (∃ (d : Dev), d.linkUp = true ∧ d.memReq 0 = true) ∧
    (∃ (off : Nat) (val : W32) (d : Dev) (e : Dev), d.linkUp = true ∧ d.memReq 0 = true ∧ pfEffect off val = none ∧ (d.storeTransport off val).or ((d.storeOptics off val).or (d.storeDevice off val)) = some e) ∧
    (∃ (off : Nat) (val : W32) (d : Dev), d.linkUp = true ∧ d.memReq 0 = true ∧ pfEffect off val = none ∧ (d.storeTransport off val).or ((d.storeOptics off val).or (d.storeDevice off val)) = none) ∧
    (∃ (fn : Nat) (off : Nat) (val : W32) (d : Dev), d.linkUp = true ∧ d.memReq fn = true ∧ 0 < fn ∧ fn ≤ 16 ∧ vfEffect (fn - 1) off val = none) ∧
    (∃ (fn : Nat) (d : Dev), d.linkUp = true ∧ d.memReq fn = true ∧ fn ≤ 16) ∧
    (∃ (off : Nat), off % 4 = 0 ∧ off < 0x8000) ∧
    (∃ (d : Dev) (f : Nat), (d.linkUp = false ∨ d.memReq f = false)) :=
  ⟨⟨8, { ({} : Dev) with boot.stage := .hostReady, boot.items := [(4, .up)] }, by decide +kernel, by decide +kernel, by decide +kernel⟩,
   ⟨1, ({} : Dev), by decide +kernel, by decide +kernel, by decide +kernel⟩,
   ⟨up, by decide +kernel, by decide +kernel⟩,
   ⟨up, by decide +kernel, by decide +kernel⟩,
   ⟨up, by decide +kernel, by decide +kernel⟩,
   ⟨0x80000, 1, up, _, by decide +kernel, by decide +kernel, by decide +kernel, got (by decide +kernel)⟩,
   ⟨0x7FFFFC, 0, up, by decide +kernel, by decide +kernel, by decide +kernel, by decide +kernel⟩,
   ⟨16, 0x7FFFC, 0, up, by decide +kernel, by decide +kernel, by decide +kernel, by decide +kernel, by decide +kernel⟩,
   ⟨16, on ({} : Dev), by decide +kernel, by decide +kernel, by decide +kernel⟩,
   ⟨0x7FFC, by decide +kernel, by decide +kernel⟩,
   ⟨({} : Dev), 0, by decide +kernel⟩⟩
/-- FabricPacketCommands. -/
theorem witness_fabric_packet_commands :
    (∃ (k : Pkt) (d : Dev), d.dbg.st ≠ .stopped ∧ d.dbg.ingress = [] ∧ k.bad = false ∧ d.isMine k = false) ∧
    (∃ (k : Pkt) (d : Dev), d.dbg.st ≠ .stopped ∧ d.dbg.ingress = [] ∧ k.bad = true) ∧
    (∃ (d : Dev), d.dbg.st = .stopped) ∧
    (∃ (d : Dev), d.dbg.st ≠ .stopped ∧ d.dbg.ingress = []) ∧
    (∃ (d : Dev), d.dbg.st = .stopped) ∧
    (∃ (d : Dev), d.dbg.st ≠ .stopped ∧ d.dbg.ingress = []) ∧
    (∃ (d : Dev), d.dbg.st ≠ .stopped ∧ d.dbg.ingress = []) ∧
    (∃ (d : Dev), d.dbg.st ≠ .stopped ∧ d.dbg.ingress = []) ∧
    (∃ (d : Dev), d.dbg.st ≠ .stopped ∧ d.dbg.ingress = []) ∧
    (∃ (d : Dev), d.dbg.st ≠ .stopped ∧ d.dbg.ingress = []) ∧
    (∃ (d : Dev), d.dbg.st ≠ .stopped ∧ d.dbg.ingress = []) ∧
    (∃ (d : Dev), d.dbg.st ≠ .stopped ∧ d.dbg.ingress = []) ∧
    (∃ (d : Dev), d.dbg.st ≠ .stopped ∧ d.dbg.ingress = []) ∧
    (∃ (t : PType) (k : Pkt) (d : Dev) (x : Dev), d.dbg.st ≠ .stopped ∧ d.dbg.ingress = [] ∧ k.bad = false ∧ d.isMine k = false ∧ d.undoOf t k = none ∧ k.passed = false ∧ d.fab.cfg.getLsbD 0 = true ∧ k.hops < d.maxHop ∧ d.forward t { k with hops := k.hops + 1 } .none (escapeVc k.vc) = (x, .sent)) ∧
    (∃ (k : Pkt) (k' : Pkt) (d : Dev) (x : Dev), d.takesPacket .rd k .none k' ∧ d.wake.received .rd k' = x ∧ x.windowCheck k'.dstTen (faOff k'.addr) (reqLen .rd k') 1 = none) ∧
    (∃ (k : Pkt) (k' : Pkt) (d : Dev) (x : Dev), d.takesPacket .wr k .none k' ∧ d.wake.received .wr k' = x ∧ x.windowCheck k'.dstTen (faOff k'.addr) (reqLen .wr k') 2 = none ∧ Tab.look 0 k'.dstTen x.rm.hold ≤ x.now ∧ x.unmarked k'.dstTen (some (x.ten k'.dstTen).winPasid) (x.winIova k').toNat (reqLen .wr k') = []) ∧
    (∃ (k : Pkt) (k' : Pkt) (d : Dev) (x : Dev), d.takesPacket .wrp k .none k' ∧ d.wake.received .wrp k' = x ∧ x.windowCheck k'.dstTen (faOff k'.addr) (reqLen .wrp k') 2 = none ∧ Tab.look 0 k'.dstTen x.rm.hold ≤ x.now ∧ x.unmarked k'.dstTen (some (x.ten k'.dstTen).winPasid) (x.winIova k').toNat (reqLen .wrp k') = []) ∧
    (∃ (k : Pkt) (k' : Pkt) (d : Dev) (x : Dev), d.takesPacket .atom k .none k' ∧ d.wake.received .atom k' = x ∧ x.windowCheck k'.dstTen (faOff k'.addr) (reqLen .atom k') 4 = none ∧ Tab.look 0 k'.dstTen x.rm.hold ≤ x.now ∧ x.unmarked k'.dstTen (some (x.ten k'.dstTen).winPasid) (x.winIova k').toNat (reqLen .atom k') = [] ∧ k'.aux ≤ 9 ∧ k'.addr.toNat % 8 = 0) ∧
    (∃ (k : Pkt) (k' : Pkt) (d : Dev) (x : Dev), d.takesPacket .atomp k .none k' ∧ d.wake.received .atomp k' = x ∧ x.windowCheck k'.dstTen (faOff k'.addr) (reqLen .atomp k') 4 = none ∧ Tab.look 0 k'.dstTen x.rm.hold ≤ x.now ∧ x.unmarked k'.dstTen (some (x.ten k'.dstTen).winPasid) (x.winIova k').toNat (reqLen .atomp k') = [] ∧ k'.aux ≤ 9 ∧ k'.addr.toNat % 8 = 0) ∧
    (∃ (k : Pkt) (k' : Pkt) (status : Nat) (d : Dev) (x : Dev) (y : Txn) (idx : Nat) (off : Nat) (len : Nat), d.takesPacket (if k.data.isEmpty then .rsp else .rspd) k .none k' ∧ d.wake.received (if k.data.isEmpty then .rsp else .rspd) k' = x ∧ x.twn.failedNode ≠ some k'.dst ∧ k'.echo = false ∧ (x.tq.txns.find? fun y => decide (y.gq = k'.qglobal) && decide (y.serial = k'.serial)) = some y ∧ Status.ofCode status = .ok ∧ y.for_ = .op idx off len) ∧
    (∃ (k : Pkt) (k' : Pkt) (r : SemReq) (d : Dev) (x : Dev) (y : Dev) (v : W64), d.takesPacket .sem k (.sem r) k' ∧ d.wake.received .sem k' = x ∧ x.fenced k'.dstTen = false ∧ (x.ten k'.dstTen).winSize ≠ 0 ∧ (x.ten k'.dstTen).winFlags / 4 % 2 = 1 ∧ x.semOwner (k'.addr.toNat % 2 ^ 18) = k'.dstTen + 1 ∧ ((r.op = 0x30 ∧ r.aop ≤ 9) ∨ (r.op = 0x31 ∧ r.cond ≤ 3) ∨ r.op = 0x32) ∧ x.semDo (k'.addr.toNat % 2 ^ 18) r = (y, some v)) ∧
    (∃ (k : Pkt) (k' : Pkt) (tenant : Nat) (side : Bool) (d : Dev) (x : Dev), d.takesPacket .steer { k with alias_ := false } (.steer tenant side) k' ∧ d.wake.received .steer k' = x) ∧
    (∃ (k : Pkt) (k' : Pkt) (gq : Nat) (d : Dev) (x : Dev), d.takesPacket .cnp { k with alias_ := false } (.cnp gq) k' ∧ d.wake.received .cnp k' = x) :=
  ⟨⟨{ dst := 1, src := 0 }, ({} : Dev), by decide +kernel, by decide +kernel, by decide +kernel, by decide +kernel⟩,
   ⟨{ dst := 1, src := 0, bad := true }, ({} : Dev), by decide +kernel, by decide +kernel, by decide +kernel⟩,
   ⟨{ ({} : Dev) with dbg.st := .stopped }, by decide +kernel⟩,
   ⟨({} : Dev), by decide +kernel, by decide +kernel⟩,
   ⟨{ ({} : Dev) with dbg.st := .stopped }, by decide +kernel⟩,
   ⟨({} : Dev), by decide +kernel, by decide +kernel⟩,
   ⟨({} : Dev), by decide +kernel, by decide +kernel⟩,
   ⟨({} : Dev), by decide +kernel, by decide +kernel⟩,
   ⟨({} : Dev), by decide +kernel, by decide +kernel⟩,
   ⟨({} : Dev), by decide +kernel, by decide +kernel⟩,
   ⟨({} : Dev), by decide +kernel, by decide +kernel⟩,
   ⟨({} : Dev), by decide +kernel, by decide +kernel⟩,
   ⟨({} : Dev), by decide +kernel, by decide +kernel⟩,
   ⟨.wr, { dst := 1, src := 6, passed := false, alias_ := false, len := 8, data := [1] }, { ({} : Dev) with fab.node := some 0, fab.nbr := [(0, { valid := true, node := 1 })], lnk.ports := [(0, { st := .active, ccum := (List.range 16).map fun i => (i, 1000) })] }, _, by decide +kernel, by decide +kernel, by decide +kernel, by decide +kernel, by decide +kernel, by decide +kernel, by decide +kernel, by decide +kernel, taken (by decide +kernel)⟩,
   ⟨{ alias_ := false, dst := 0, dstTen := 15, src := 2, srcTen := 3, aux := 8, len := 8 }, { alias_ := false, dst := 0, dstTen := 15, src := 2, srcTen := 3, aux := 8, len := 8 }, { ({} : Dev) with fab.node := some 0, tq.ten := [(15, { served := true, assign := some { weight := 1 }, winSize := 0x10000, winFlags := 7 })], mbx.fns := [(16, { bme := true })] }, _, by unfold Dev.takesPacket; decide +kernel, rfl, by decide +kernel⟩,
   ⟨{ alias_ := false, dst := 0, dstTen := 15, src := 2, srcTen := 3, len := 8, data := [1] }, { alias_ := false, dst := 0, dstTen := 15, src := 2, srcTen := 3, len := 8, data := [1] }, { ({} : Dev) with fab.node := some 0, tq.ten := [(15, { served := true, assign := some { weight := 1 }, winSize := 0x10000, winFlags := 7 })], mbx.fns := [(16, { bme := true })] }, _, by unfold Dev.takesPacket; decide +kernel, rfl, by decide +kernel, by decide +kernel, by decide +kernel⟩,
   ⟨{ alias_ := false, dst := 0, dstTen := 15, src := 2, srcTen := 3, len := 8, data := [1] }, { alias_ := false, dst := 0, dstTen := 15, src := 2, srcTen := 3, len := 8, data := [1] }, { ({} : Dev) with fab.node := some 0, tq.ten := [(15, { served := true, assign := some { weight := 1 }, winSize := 0x10000, winFlags := 7 })], mbx.fns := [(16, { bme := true })] }, _, by unfold Dev.takesPacket; decide +kernel, rfl, by decide +kernel, by decide +kernel, by decide +kernel⟩,
   ⟨{ alias_ := false, dst := 0, dstTen := 15, src := 2, srcTen := 3, aux := 9, len := 16, data := [1, 2] }, { alias_ := false, dst := 0, dstTen := 15, src := 2, srcTen := 3, aux := 9, len := 16, data := [1, 2] }, { ({} : Dev) with fab.node := some 0, tq.ten := [(15, { served := true, assign := some { weight := 1 }, winSize := 0x10000, winFlags := 7 })], mbx.fns := [(16, { bme := true })] }, _, by unfold Dev.takesPacket; decide +kernel, rfl, by decide +kernel, by decide +kernel, by decide +kernel, by decide +kernel, by decide +kernel⟩,
   ⟨{ alias_ := false, dst := 0, dstTen := 15, src := 2, srcTen := 3, aux := 9, len := 16, data := [1, 2] }, { alias_ := false, dst := 0, dstTen := 15, src := 2, srcTen := 3, aux := 9, len := 16, data := [1, 2] }, { ({} : Dev) with fab.node := some 0, tq.ten := [(15, { served := true, assign := some { weight := 1 }, winSize := 0x10000, winFlags := 7 })], mbx.fns := [(16, { bme := true })] }, _, by unfold Dev.takesPacket; decide +kernel, rfl, by decide +kernel, by decide +kernel, by decide +kernel, by decide +kernel, by decide +kernel⟩,
   ⟨{ alias_ := false, dst := 0, dstTen := 15, src := 2, srcTen := 3, qglobal := 63, serial := 9, data := [1], len := 8 }, { alias_ := false, dst := 0, dstTen := 15, src := 2, srcTen := 3, qglobal := 63, serial := 9, data := [1], len := 8 }, 0, { ({} : Dev) with fab.node := some 0, tq.ten := [(15, { served := true, assign := some { weight := 1 }, winSize := 0x10000, winFlags := 7 })], mbx.fns := [(16, { bme := true })], tq.txns := [{ gq := 63, serial := 9, for_ := .op 2 0 8, issued := 0, dst := 2, write := false, lo := 0, len := 8 }] }, _, _, _, _, _, by unfold Dev.takesPacket; decide +kernel, rfl, by decide +kernel, by decide +kernel, got (by decide +kernel), by decide +kernel, rfl⟩,
   ⟨{ alias_ := false, dst := 0, dstTen := 15, src := 2, srcTen := 3, addr := 0x3FFFF, len := 16 }, { alias_ := false, dst := 0, dstTen := 15, src := 2, srcTen := 3, addr := 0x3FFFF, len := 16 }, { op := 0x30, aop := 9, cond := 0, operand := 1, compare := 0 }, { ({} : Dev) with fab.node := some 0, tq.ten := [(15, { served := true, assign := some { weight := 1 }, winSize := 0x10000, winFlags := 7 })], mbx.fns := [(16, { bme := true })], col.owner := [(255, 16)] }, _, _, _, by unfold Dev.takesPacket; decide +kernel, rfl, by decide +kernel, by decide +kernel, by decide +kernel, by decide +kernel, by decide +kernel, rfl⟩,
   ⟨{ alias_ := false, dst := 0, dstTen := 15, src := 2, srcTen := 3 }, { alias_ := false, dst := 0, dstTen := 15, src := 2, srcTen := 3 }, 15, true, { ({} : Dev) with fab.node := some 0, tq.ten := [(15, { served := true, assign := some { weight := 1 }, winSize := 0x10000, winFlags := 7 })], mbx.fns := [(16, { bme := true })] }, _, by unfold Dev.takesPacket; decide +kernel, rfl⟩,
   ⟨{ alias_ := false, dst := 0, dstTen := 15, src := 2, srcTen := 3 }, { alias_ := false, dst := 0, dstTen := 15, src := 2, srcTen := 3 }, 1023, { ({} : Dev) with fab.node := some 0, tq.ten := [(15, { served := true, assign := some { weight := 1 }, winSize := 0x10000, winFlags := 7 })], mbx.fns := [(16, { bme := true })] }, _, by unfold Dev.takesPacket; decide +kernel, rfl⟩⟩
/-- FabricTimeAndTopologyCommands. -/
theorem witness_fabric_time_and_topology_commands :
    (∃ (p : Nat) (d : Dev), p < 64 ∧ d.silent p = true) ∧
    (∃ (p : Nat) (d : Dev), p < 64 ∧ (d.lport p).st = .active) ∧
    (∃ (p : Nat) (d : Dev), p < 64 ∧ (d.lport p).st ≠ .active) ∧
    (∃ (n : Nat) (d : Dev) (x : WPkt), d.waiter n = some x ∧ (d.forward x.t x.pkt x.body true).2 = .sent) ∧
    (∃ (n : Nat) (d : Dev) (x : WPkt), d.waiter n = some x ∧ (d.forward x.t x.pkt x.body true).2 = .noRoute) ∧
    (∃ (n : Nat) (d : Dev) (x : WPkt), d.waiter n = some x ∧ (d.forward x.t x.pkt x.body true).2 = .waits) ∧
    (∃ (n : Nat) (d : Dev), d.waiter n = none) ∧
    (∃ (d : Dev) (p : Nat), d.fab.parent = some p) ∧
    (∃ (d : Dev), d.fab.parent = none) ∧
    (∃ (p : Nat), p < 64) ∧
    (∃ (p : Nat) (t1 : W64) (d : Dev), p < 64 ∧ d.fab.parent = some p ∧ d.fab.t1 = some t1.toNat) ∧
    (∃ (d : Dev), d.noExchange = true) ∧
    (∃ (d : Dev), d.fabricMay = true) ∧
    (∃ (d : Dev), d.fabricMay = false) ∧
    (∃ (d : Dev), d.linkUp = true ∧ d.memReq 0 = true) ∧
    (∃ (d : Dev), d.linkUp = true ∧ d.memReq 0 = true) ∧
    (∃ (which : Nat) (d : Dev), d.linkUp = true ∧ d.memReq 0 = true ∧ which ≠ 0) :=
  ⟨⟨63, { ({} : Dev) with now := 3000000 }, by decide +kernel, by decide +kernel⟩,
   ⟨63, { ({} : Dev) with lnk.ports := [(63, { st := .active })] }, by decide +kernel, by decide +kernel⟩,
   ⟨63, ({} : Dev), by decide +kernel, by decide +kernel⟩,
   ⟨0, { ({} : Dev) with now := 5000, fab.node := some 0, fab.nbr := [(0, { valid := true, node := 1 })], fab.wait := [{ t := .wr, pkt := { dst := 1, src := 0 }, since := 0 }], lnk.ports := [(0, { st := .active, ccum := (List.range 16).map fun i => (i, 1000) })] }, { t := .wr, pkt := { dst := 1, src := 0 }, since := 0 }, by decide +kernel, by decide +kernel⟩,
   ⟨0, { ({} : Dev) with now := 5000, fab.wait := [{ t := .wr, pkt := { dst := 1, src := 0 }, since := 0 }] }, { t := .wr, pkt := { dst := 1, src := 0 }, since := 0 }, by decide +kernel, by decide +kernel⟩,
   ⟨0, { ({} : Dev) with now := 5000, fab.node := some 0, fab.nbr := [(0, { valid := true, node := 1 })], fab.wait := [{ t := .wr, pkt := { dst := 1, src := 0 }, since := 0 }], lnk.ports := [(0, { st := .active })] }, _, got (by decide +kernel), by decide +kernel⟩,
   ⟨0, ({} : Dev), by decide +kernel⟩,
   ⟨{ ({} : Dev) with fab.parent := some 3 }, 3, by decide +kernel⟩,
   ⟨({} : Dev), by decide +kernel⟩,
   ⟨63, by decide +kernel⟩,
   ⟨63, 5, { ({} : Dev) with fab.parent := some 63, fab.t1 := some 5 }, by decide +kernel, by decide +kernel, by decide +kernel⟩,
   ⟨{ ({} : Dev) with now := 1000000, fab.parent := some 63 }, by decide +kernel⟩,
   ⟨{ ({} : Dev) with boot.stage := .hostReady, boot.items := [(8, .running)], fab.node := some 0, fab.nbr := [(0, { valid := true, node := 1 })], lnk.ports := [(0, { st := .active })] }, by decide +kernel⟩,
   ⟨({} : Dev), by decide +kernel⟩,
   ⟨up, by decide +kernel, by decide +kernel⟩,
   ⟨up, by decide +kernel, by decide +kernel⟩,
   ⟨1, on ({} : Dev), by decide +kernel, by decide +kernel, by decide +kernel⟩⟩
/-- RemoteMemoryCommands. -/
theorem witness_remote_memory_commands :
    (∃ (d : Dev), d.dbg.st ≠ .stopped ∧ d.dbg.ingress = []) ∧
    (∃ (src : Nat) (gq : Nat) (serial : W32) (d : Dev) (w : PendW), d.ackedWrite src gq serial = some w ∧ w.flushed = true ∧ (w.subs = [] ∨ w.expiry ≤ d.fab.time)) ∧
    (∃ (src : Nat) (gq : Nat) (serial : W32) (d : Dev), d.ackedWrite src gq serial = none) ∧
    (∃ (d : Dev), d.dbg.st ≠ .stopped ∧ d.dbg.ingress = []) ∧
    (∃ (d : Dev), d.dbg.st ≠ .stopped ∧ d.dbg.ingress = []) ∧
    (∃ (d : Dev), d.dbg.st ≠ .stopped ∧ d.dbg.ingress = []) ∧
    (∃ (d : Dev), d.dbg.st ≠ .stopped ∧ d.dbg.ingress = []) ∧
    (∃ (d : Dev), d.dbg.st ≠ .stopped ∧ d.dbg.ingress = []) ∧
    (∃ (d : Dev), d.dbg.st ≠ .stopped ∧ d.dbg.ingress = []) ∧
    (∃ (d : Dev), d.dbg.st ≠ .stopped ∧ d.dbg.ingress = []) ∧
    (∃ (d : Dev), d.dbg.st ≠ .stopped ∧ d.dbg.ingress = []) ∧
    (∃ (d : Dev), d.dbg.st ≠ .stopped) ∧
    (∃ (t : Nat) (s : Nat) (d : Dev), t < 16 ∧ s < 32 ∧ d.dbg.st ≠ .stopped ∧ (d.stream t s).st = .granted ∧ d.leaseLive (d.stream t s) = false) ∧
    (∃ (d : Dev), d.dbg.st ≠ .stopped) ∧
    (∃ (t : Nat) (s : Nat) (d : Dev) (n : Nat), t < 16 ∧ s < 32 ∧ d.dbg.st ≠ .stopped ∧ d.fenced t = false ∧ d.leaseLive (d.stream t s) = true ∧ d.prefetchTurn t s = true ∧ d.nextLine t s = some n ∧ d.grantable 2 t 1 = true) ∧
    (∃ (t : Nat) (s : Nat) (line : Nat) (d : Dev) (l : Line), t < 16 ∧ s < 32 ∧ d.filled t s line = some l ∧ l.data ≠ [] ∧ l.st = .fetching ∧ d.leaseLive (d.stream t s) = true) ∧
    (∃ (t : Nat) (s : Nat) (line : Nat) (d : Dev) (l : Line), t < 16 ∧ s < 32 ∧ d.filled t s line = some l ∧ l.data ≠ [] ∧ l.st = .doomed) ∧
    (∃ (t : Nat) (d : Dev), t < 16 ∧ d.dbg.st ≠ .stopped ∧ Tab.look 0 t d.rm.hold ≤ d.now) ∧
    (∃ (t : Nat) (s : Nat) (d : Dev), d.linkUp = true ∧ (d.memReq (t + 1) = true ∨ d.memReq 0 = true) ∧ t < 16 ∧ s < 32) ∧
    (∃ (t : Nat) (s : Nat) (d : Dev), d.linkUp = true ∧ (d.memReq (t + 1) = true ∨ d.memReq 0 = true) ∧ t < 16 ∧ s < 32) ∧
    (∃ (t : Nat) (s : Nat) (which : Nat) (d : Dev), d.linkUp = true ∧ (d.memReq (t + 1) = true ∨ d.memReq 0 = true) ∧ t < 16 ∧ s < 32 ∧ 2 ≤ which) ∧
    (∃ (d : Dev), d.dbg.st ≠ .stopped ∧ d.dbg.ingress = []) ∧
    (∃ (k : Pkt) (k' : Pkt) (stream : Nat) (span : W64) (d : Dev) (x : Dev) (s : Sub), d.takesPacket .subctl k (.sub 1 0 stream span) k' ∧ d.wake.received .subctl k' = x ∧ x.subRefused k' stream span = none ∧ s = { node := k'.src, ten := k'.srcTen, stream, t := k'.dstTen, lo := faOff k'.addr, len := span.toNat, expiry := x.fab.time + 100000 }) ∧
    (∃ (k : Pkt) (k' : Pkt) (stream : Nat) (expiry : W64) (d : Dev) (x : Dev), d.takesPacket .subctl k (.sub 2 0 stream expiry) k' ∧ d.wake.received .subctl k' = x ∧ (x.stream k'.dstTen stream).st = .subscribing ∧ faNode (x.stream k'.dstTen stream).base / 2 = k'.src / 2) ∧
    (∃ (k : Pkt) (k' : Pkt) (stream : Nat) (reason : Nat) (d : Dev) (x : Dev), d.takesPacket .subctl k (.sub 3 0 stream (BitVec.ofNat 64 reason)) k' ∧ d.wake.received .subctl k' = x ∧ (x.stream k'.dstTen stream).st = .subscribing ∧ faNode (x.stream k'.dstTen stream).base / 2 = k'.src / 2) ∧
    (∃ (k : Pkt) (k' : Pkt) (stream : Nat) (expiry : W64) (d : Dev) (x : Dev), d.takesPacket .subctl k (.sub 4 0 stream expiry) k' ∧ d.wake.received .subctl k' = x ∧ (x.stream k'.dstTen stream).st = .granted ∧ faNode (x.stream k'.dstTen stream).base / 2 = k'.src / 2) ∧
    (∃ (k : Pkt) (k' : Pkt) (stream : Nat) (span : W64) (d : Dev) (x : Dev) (y : Dev), d.takesPacket .subctl k (.sub 5 0 stream span) k' ∧ d.wake.received .subctl k' = x ∧ (x.stream k'.dstTen stream).st ≠ .absent ∧ faNode (x.stream k'.dstTen stream).base / 2 = k'.src / 2 ∧ x.discardLines k'.dstTen stream ((x.stream k'.dstTen stream).base.toNat / 2 ^ 48 * 2 ^ 48 + faOff k'.addr) span.toNat = y) ∧
    (∃ (k : Pkt) (k' : Pkt) (stream : Nat) (d : Dev) (x : Dev) (w : PendW), d.takesPacket .subctl k (.sub 6 0 stream 0) k' ∧ d.wake.received .subctl k' = x ∧ (x.rm.pend.find? fun w => w.subs.contains (k'.src, k'.srcTen, stream) && decide (faOff w.pkt.addr = faOff k'.addr)) = some w) ∧
    (∃ (k : Pkt) (k' : Pkt) (stream : Nat) (d : Dev) (x : Dev), d.takesPacket .subctl k (.sub 7 0 stream 0) k' ∧ d.wake.received .subctl k' = x ∧ (x.stream k'.dstTen stream).st = .granted ∧ faNode (x.stream k'.dstTen stream).base / 2 = k'.src / 2) ∧
    (∃ (k : Pkt) (k' : Pkt) (stream : Nat) (d : Dev) (x : Dev), d.takesPacket .subctl k (.sub 8 0 stream 0) k' ∧ d.wake.received .subctl k' = x) :=
  ⟨⟨({} : Dev), by decide +kernel, by decide +kernel⟩,
   ⟨2, 0, 0, { ({} : Dev) with rm.pend := [{ pkt := { dst := 0, src := 2 }, path := 0, flushed := true }] }, { pkt := { dst := 0, src := 2 }, path := 0, flushed := true }, by decide +kernel, by decide +kernel, by decide +kernel⟩,
   ⟨0, 0, 0, ({} : Dev), by decide +kernel⟩,
   ⟨({} : Dev), by decide +kernel, by decide +kernel⟩,
   ⟨({} : Dev), by decide +kernel, by decide +kernel⟩,
   ⟨({} : Dev), by decide +kernel, by decide +kernel⟩,
   ⟨({} : Dev), by decide +kernel, by decide +kernel⟩,
   ⟨({} : Dev), by decide +kernel, by decide +kernel⟩,
   ⟨({} : Dev), by decide +kernel, by decide +kernel⟩,
   ⟨({} : Dev), by decide +kernel, by decide +kernel⟩,
   ⟨({} : Dev), by decide +kernel, by decide +kernel⟩,
   ⟨({} : Dev), by decide +kernel⟩,
   ⟨15, 31, { ({} : Dev) with rm.streams := [(511, { st := .granted })] }, by decide +kernel, by decide +kernel, by decide +kernel, by decide +kernel, by decide +kernel⟩,
   ⟨({} : Dev), by decide +kernel⟩,
   ⟨15, 31, { ({} : Dev) with rm.streams := [(511, { st := .granted, lease := some 5000, span := 8192, log2 := 12, depth := 1 })], tq.ten := [(15, { assign := some { pgbCeil := 100 } })] }, _, by decide +kernel, by decide +kernel, by decide +kernel, by decide +kernel, by decide +kernel, by decide +kernel, got (by decide +kernel), by decide +kernel⟩,
   ⟨15, 31, 0, { ({} : Dev) with rm.lines := [{ t := 15, s := 31, line := 0, st := .fetching, data := [0] }], rm.streams := [(511, { st := .granted, lease := some 5000 })] }, { t := 15, s := 31, line := 0, st := .fetching, data := [0] }, by decide +kernel, by decide +kernel, by decide +kernel, by decide +kernel, by decide +kernel, by decide +kernel⟩,
   ⟨15, 31, 0, { ({} : Dev) with rm.lines := [{ t := 15, s := 31, line := 0, st := .doomed, data := [0] }] }, { t := 15, s := 31, line := 0, st := .doomed, data := [0] }, by decide +kernel, by decide +kernel, by decide +kernel, by decide +kernel, by decide +kernel⟩,
   ⟨15, ({} : Dev), by decide +kernel, by decide +kernel, by decide +kernel⟩,
   ⟨15, 31, on ({} : Dev), by decide +kernel, by decide +kernel, by decide +kernel, by decide +kernel⟩,
   ⟨15, 31, on ({} : Dev), by decide +kernel, by decide +kernel, by decide +kernel, by decide +kernel⟩,
   ⟨15, 31, 2, on ({} : Dev), by decide +kernel, by decide +kernel, by decide +kernel, by decide +kernel, by decide +kernel⟩,
   ⟨({} : Dev), by decide +kernel, by decide +kernel⟩,
   ⟨{ alias_ := false, dst := 0, dstTen := 15, src := 2, srcTen := 3 }, { alias_ := false, dst := 0, dstTen := 15, src := 2, srcTen := 3 }, 31, 0x1000, { ({} : Dev) with fab.node := some 0, tq.ten := [(15, { served := true, assign := some { weight := 1 }, winSize := 0x10000, winFlags := 7 })], mbx.fns := [(16, { bme := true })] }, _, _, by unfold Dev.takesPacket; decide +kernel, rfl, by decide +kernel, rfl⟩,
   ⟨{ alias_ := false, dst := 0, dstTen := 15, src := 2, srcTen := 3 }, { alias_ := false, dst := 0, dstTen := 15, src := 2, srcTen := 3 }, 31, 9, { ({} : Dev) with fab.node := some 0, tq.ten := [(15, { served := true, assign := some { weight := 1 }, winSize := 0x10000, winFlags := 7 })], mbx.fns := [(16, { bme := true })], rm.streams := [(511, { base := 0x0020000000000000, st := .subscribing })] }, _, by unfold Dev.takesPacket; decide +kernel, rfl, by decide +kernel, by decide +kernel⟩,
   ⟨{ alias_ := false, dst := 0, dstTen := 15, src := 2, srcTen := 3 }, { alias_ := false, dst := 0, dstTen := 15, src := 2, srcTen := 3 }, 31, 4, { ({} : Dev) with fab.node := some 0, tq.ten := [(15, { served := true, assign := some { weight := 1 }, winSize := 0x10000, winFlags := 7 })], mbx.fns := [(16, { bme := true })], rm.streams := [(511, { base := 0x0020000000000000, st := .subscribing })] }, _, by unfold Dev.takesPacket; decide +kernel, rfl, by decide +kernel, by decide +kernel⟩,
   ⟨{ alias_ := false, dst := 0, dstTen := 15, src := 2, srcTen := 3 }, { alias_ := false, dst := 0, dstTen := 15, src := 2, srcTen := 3 }, 31, 9, { ({} : Dev) with fab.node := some 0, tq.ten := [(15, { served := true, assign := some { weight := 1 }, winSize := 0x10000, winFlags := 7 })], mbx.fns := [(16, { bme := true })], rm.streams := [(511, { base := 0x0020000000000000, st := .granted })] }, _, by unfold Dev.takesPacket; decide +kernel, rfl, by decide +kernel, by decide +kernel⟩,
   ⟨{ alias_ := false, dst := 0, dstTen := 15, src := 2, srcTen := 3 }, { alias_ := false, dst := 0, dstTen := 15, src := 2, srcTen := 3 }, 31, 0x1000, { ({} : Dev) with fab.node := some 0, tq.ten := [(15, { served := true, assign := some { weight := 1 }, winSize := 0x10000, winFlags := 7 })], mbx.fns := [(16, { bme := true })], rm.streams := [(511, { base := 0x0020000000000000, st := .granted })] }, _, _, by unfold Dev.takesPacket; decide +kernel, rfl, by decide +kernel, by decide +kernel, rfl⟩,
   ⟨{ alias_ := false, dst := 0, dstTen := 15, src := 2, srcTen := 3 }, { alias_ := false, dst := 0, dstTen := 15, src := 2, srcTen := 3 }, 31, { ({} : Dev) with fab.node := some 0, tq.ten := [(15, { served := true, assign := some { weight := 1 }, winSize := 0x10000, winFlags := 7 })], mbx.fns := [(16, { bme := true })], rm.pend := [{ pkt := { dst := 0, src := 4 }, path := 0, subs := [(2, 3, 31)] }] }, _, _, by unfold Dev.takesPacket; decide +kernel, rfl, got (by decide +kernel)⟩,
   ⟨{ alias_ := false, dst := 0, dstTen := 15, src := 2, srcTen := 3 }, { alias_ := false, dst := 0, dstTen := 15, src := 2, srcTen := 3 }, 31, { ({} : Dev) with fab.node := some 0, tq.ten := [(15, { served := true, assign := some { weight := 1 }, winSize := 0x10000, winFlags := 7 })], mbx.fns := [(16, { bme := true })], rm.streams := [(511, { base := 0x0020000000000000, st := .granted })] }, _, by unfold Dev.takesPacket; decide +kernel, rfl, by decide +kernel, by decide +kernel⟩,
   ⟨{ alias_ := false, dst := 0, dstTen := 15, src := 2, srcTen := 3 }, { alias_ := false, dst := 0, dstTen := 15, src := 2, srcTen := 3 }, 31, { ({} : Dev) with fab.node := some 0, tq.ten := [(15, { served := true, assign := some { weight := 1 }, winSize := 0x10000, winFlags := 7 })], mbx.fns := [(16, { bme := true })] }, _, by unfold Dev.takesPacket; decide +kernel, rfl⟩⟩
/-- TranslationCommands. -/
theorem witness_translation_commands :
    (∃ (fn : Nat) (d : Dev), fn < 17 ∧ d.dbg.st ≠ .stopped ∧ d.dbg.ingress = []) ∧
    (∃ (fn : Nat) (d : Dev), fn < 17 ∧ d.dbg.st = .stopped) ∧
    (∃ (t : Nat) (q' : Nat) (idx : Nat) (d : Dev), t < 16 ∧ q' < 64 ∧ d.mayPre t q' idx = true) ∧
    (∃ (t : Nat) (q' : Nat) (idx : Nat) (d : Dev), t < 16 ∧ q' < 64 ∧ d.mayPre t q' idx = false) ∧
    (∃ (fn : Nat), fn < 17) ∧
    (∃ (d : Dev) (i : Inval), d.dbg.st ≠ .stopped ∧ d.invalDone d.xlt.invals [] = some i) ∧
    (∃ (d : Dev), d.dbg.st = .stopped) ∧
    (∃ (fn : Nat) (d : Dev), fn < 17 ∧ d.dbg.st ≠ .stopped ∧ d.dbg.ingress = []) ∧
    (∃ (fn : Nat) (prgi : Nat) (d : Dev) (x : PageReq), fn < 17 ∧ d.asked fn prgi = some x ∧ x.at_ + d.priLimit ≤ d.now) ∧
    (∃ (fn : Nat) (prgi : Nat) (d : Dev), fn < 17 ∧ d.asked fn prgi = none) ∧
    (∃ (fn : Nat) (d : Dev), d.linkUp = true ∧ d.fnPresent fn = true ∧ (d.fn fn).flr = false ∧ fn < 17 ∧ (d.fn fn).flr = false) ∧
    (∃ (t : Nat) (k : Nat) (d : Dev), d.linkUp = true ∧ d.memReq 0 = true ∧ t < 16 ∧ k < 8) ∧
    (∃ (t : Nat) (k : Nat) (d : Dev), d.linkUp = true ∧ d.memReq 0 = true ∧ t < 16 ∧ k < 8) ∧
    (∃ (t : Nat) (k : Nat) (d : Dev), d.linkUp = true ∧ d.memReq 0 = true ∧ t < 16 ∧ k < 8) ∧
    (∃ (t : Nat) (k : Nat) (d : Dev), d.linkUp = true ∧ d.memReq 0 = true ∧ t < 16 ∧ k < 8) ∧
    (∃ (k : Nat) (d : Dev), d.linkUp = true ∧ d.memReq 0 = true ∧ k < 16) ∧
    (∃ (k : Nat) (d : Dev), d.linkUp = true ∧ d.memReq 0 = true ∧ k < 16) ∧
    (∃ (which : Nat) (k : Nat) (d : Dev), d.linkUp = true ∧ d.memReq 0 = true ∧ 2 ≤ which ∧ k < 16) ∧
    (∃ (d : Dev), d.linkUp = true ∧ d.memReq 0 = true) ∧
    (∃ (d : Dev), d.linkUp = true ∧ d.memReq 0 = true) ∧
    (∃ (fn : Nat) (d : Dev), d.linkUp = true ∧ d.memReq 0 = true ∧ fn < 17) ∧
    (∃ (fn : Nat) (tag : Nat) (c' : AtsCpl) (d : Dev) (y : AtsReq) (a : Access) (e : Xent), fn < 17 ∧ d.dbg.st ≠ .stopped ∧ d.dbg.ingress = [] ∧ (d.xlt.ats.find? fun y => decide (y.fn = fn) && decide (y.tag = tag)) = some y ∧ y.off = false ∧ y.stale = false ∧ y.acc = some a ∧ c'.fail = false ∧ (c'.r || c'.w) = true ∧ c'.pa.toNat % 2 ^ c'.sizeLog2 = 0 ∧ Dev.entryOf { d with xlt.ats := without y d.xlt.ats } fn y.pasid y.iova.toNat c' = e) ∧
    (∃ (fn : Nat) (prgi : Nat) (d : Dev) (y : PageReq), fn < 17 ∧ d.dbg.st ≠ .stopped ∧ d.dbg.ingress = [] ∧ (d.xlt.pages.find? fun y => decide (y.fn = fn) && decide (y.prgi = prgi) && y.sent) = some y ∧ y.acc.op = none) :=
  ⟨⟨16, ({} : Dev), by decide +kernel, by decide +kernel, by decide +kernel⟩,
   ⟨16, { ({} : Dev) with dbg.st := .stopped }, by decide +kernel, by decide +kernel⟩,
   ⟨15, 63, 0, { ({} : Dev) with tq.q := [(1023, { st := .running, tail := 1 })], mbx.fns := [(16, { bme := true })] }, by decide +kernel, by decide +kernel, by decide +kernel⟩,
   ⟨15, 63, 0, ({} : Dev), by decide +kernel, by decide +kernel, by decide +kernel⟩,
   ⟨16, by decide +kernel⟩,
   ⟨{ ({} : Dev) with xlt.invals := [{ fn := 16, itag := 31, pasid := none, global := false, base := 0, len := 4096 }] }, { fn := 16, itag := 31, pasid := none, global := false, base := 0, len := 4096 }, by decide +kernel, by decide +kernel⟩,
   ⟨{ ({} : Dev) with dbg.st := .stopped }, by decide +kernel⟩,
   ⟨16, ({} : Dev), by decide +kernel, by decide +kernel, by decide +kernel⟩,
   ⟨16, 511, { ({} : Dev) with now := 1000000000, xlt.pages := [{ fn := 16, prgi := 511, acc := { fn := 16, pasid := none, iova := 0, len := 8, write := false, job := 0 }, at_ := 0, sent := true }] }, _, by decide +kernel, got (by decide +kernel), by decide +kernel⟩,
   ⟨16, 0, ({} : Dev), by decide +kernel, by decide +kernel⟩,
   ⟨16, on ({} : Dev), by decide +kernel, by decide +kernel, by decide +kernel, by decide +kernel, by decide +kernel⟩,
   ⟨15, 7, on ({} : Dev), by decide +kernel, by decide +kernel, by decide +kernel, by decide +kernel⟩,
   ⟨15, 7, on ({} : Dev), by decide +kernel, by decide +kernel, by decide +kernel, by decide +kernel⟩,
   ⟨15, 7, on ({} : Dev), by decide +kernel, by decide +kernel, by decide +kernel, by decide +kernel⟩,
   ⟨15, 7, on ({} : Dev), by decide +kernel, by decide +kernel, by decide +kernel, by decide +kernel⟩,
   ⟨15, on ({} : Dev), by decide +kernel, by decide +kernel, by decide +kernel⟩,
   ⟨15, on ({} : Dev), by decide +kernel, by decide +kernel, by decide +kernel⟩,
   ⟨2, 15, on ({} : Dev), by decide +kernel, by decide +kernel, by decide +kernel, by decide +kernel⟩,
   ⟨up, by decide +kernel, by decide +kernel⟩,
   ⟨up, by decide +kernel, by decide +kernel⟩,
   ⟨16, on ({} : Dev), by decide +kernel, by decide +kernel, by decide +kernel⟩,
   ⟨16, 3, { fail := false, r := true, w := false, sizeLog2 := 12, pa := 0x1000 }, { ({} : Dev) with xlt.ats := [{ fn := 16, tag := 3, pasid := none, iova := 0, acc := some { fn := 16, pasid := none, iova := 0, len := 8, write := false, job := 0 } }] }, _, _, _, by decide +kernel, by decide +kernel, by decide +kernel, got (by decide +kernel), by decide +kernel, by decide +kernel, got (by decide +kernel), by decide +kernel, by decide +kernel, by decide +kernel, rfl⟩,
   ⟨16, 511, { ({} : Dev) with xlt.pages := [{ fn := 16, prgi := 511, acc := { fn := 16, pasid := none, iova := 0, len := 8, write := false, job := 0 }, at_ := 0, sent := true }] }, _, by decide +kernel, by decide +kernel, by decide +kernel, got (by decide +kernel), by decide +kernel⟩⟩
/-- CollectiveCommands. -/
theorem witness_collective_commands :
    (∃ (d : Dev), d.dbg.st ≠ .stopped ∧ d.dbg.ingress = []) ∧
    (∃ (d : Dev), d.dbg.st = .stopped) ∧
    (∃ (d : Dev), d.dbg.st ≠ .stopped ∧ d.dbg.ingress = []) ∧
    (∃ (d : Dev), d.dbg.st ≠ .stopped ∧ d.dbg.ingress = []) ∧
    (∃ (d : Dev), d.dbg.st ≠ .stopped ∧ d.dbg.ingress = []) ∧
    (∃ (d : Dev), d.dbg.st ≠ .stopped ∧ d.dbg.ingress = []) ∧
    (∃ (d : Dev), d.dbg.st ≠ .stopped ∧ d.dbg.ingress = []) ∧
    (∃ (d : Dev), d.dbg.st ≠ .stopped ∧ d.dbg.ingress = []) ∧
    (∃ (t : Nat) (g : Nat) (k : Nat) (d : Dev) (x : Inst), t < 16 ∧ g < 256 ∧ d.timedInst t g k = some x ∧ d.self t g = 0 ∧ x.closed = false ∧ (collP x.desc).deadline ≠ 0 ∧ x.started + 1000 * (collP x.desc).deadline ≤ d.now) ∧
    (∃ (t : Nat) (g : Nat) (k : Nat) (d : Dev), t < 16 ∧ g < 256 ∧ d.timedInst t g k = none) ∧
    (∃ (t : Nat) (g : Nat) (k : Nat) (d : Dev) (x : Inst), t < 16 ∧ g < 256 ∧ d.timedInst t g k = some x ∧ x.closed = true ∧ d.lateChildren t g x ≠ [] ∧ d.lateFolded t g x = true ∧ d.graceOver x = true) ∧
    (∃ (t : Nat) (g : Nat) (k : Nat) (d : Dev) (x : Inst), t < 16 ∧ g < 256 ∧ d.timedInst t g k = some x ∧ x.closed = true ∧ d.lateChildren t g x ≠ [] ∧ d.lateFolded t g x = false ∧ d.graceOver x = true) ∧
    (∃ (t : Nat) (g : Nat) (d : Dev), t < 16 ∧ g < 256 ∧ d.dbg.st ≠ .stopped ∧ (d.group t g).dropping = true) ∧
    (∃ (e : Nat) (d : Dev) (x : Inst) (f : FoldIn), e < 4 ∧ d.foldNext e = some (x, f) ∧ (Tab.look ({} : Chunk) f.chunk x.chunks).acc.isSome = true) ∧
    (∃ (e : Nat) (d : Dev) (x : Inst) (f : FoldIn) (y : Dev), e < 4 ∧ d.foldNext e = some (x, f) ∧ (Tab.look ({} : Chunk) f.chunk x.chunks).acc.isSome = false ∧ d.claim 1 x.t 1 = (y, true)) ∧
    (∃ (e : Nat) (d : Dev) (x : Inst) (f : FoldIn) (y : Dev), e < 4 ∧ d.foldNext e = some (x, f) ∧ (Tab.look ({} : Chunk) f.chunk x.chunks).acc.isSome = false ∧ d.claim 1 x.t 1 = (y, false)) ∧
    (∃ (e : Nat) (d : Dev), e < 4 ∧ d.foldNext e = none) ∧
    (∃ (d : Dev), d.linkUp = true ∧ d.memReq 0 = true) ∧
    (∃ (m' : CollMsg) (k' : CollMsg) (f' : FinalInfo) (d : Dev) (x : Dev), d.takesColl 1 m' (noFinal 0) k' f' ∧ (d.notifyMark .coll (d.collHeader 1 m')).collCounted 1 k' = x ∧ (childrenOf (x.group k'.tenant k'.group).total (x.self k'.tenant k'.group)).contains k'.member = true ∧ interior (x.group k'.tenant k'.group).total k'.member = false ∧ (x.group k'.tenant k'.group).finalised < k'.inst) ∧
    (∃ (m' : CollMsg) (k' : CollMsg) (f' : FinalInfo) (d : Dev) (x : Dev), d.takesColl 2 m' (noFinal 0) k' f' ∧ (d.notifyMark .coll (d.collHeader 2 m')).collCounted 2 k' = x ∧ (childrenOf (x.group k'.tenant k'.group).total (x.self k'.tenant k'.group)).contains k'.member = true ∧ interior (x.group k'.tenant k'.group).total k'.member = true ∧ (x.group k'.tenant k'.group).finalised < k'.inst) ∧
    (∃ (m' : CollMsg) (k' : CollMsg) (f' : FinalInfo) (d : Dev) (x : Dev) (y : Dev) (i : Inst), d.takesColl 3 m' (noFinal 0) k' f' ∧ (d.notifyMark .coll (d.collHeader 3 m')).collCounted 3 k' = x ∧ (x.group k'.tenant k'.group).finalised < k'.inst ∧ x.self k'.tenant k'.group ≠ 0 ∧ x.openInst k'.tenant k'.group k'.inst = (y, i) ∧ i.closed = false) ∧
    (∃ (m' : CollMsg) (k' : CollMsg) (f' : FinalInfo) (d : Dev) (x : Dev) (i : Inst), d.takesColl 4 m' (noFinal 0) k' f' ∧ (d.notifyMark .coll (d.collHeader 4 m')).collCounted 4 k' = x ∧ k'.toNode = none ∧ x.instAt k'.tenant k'.group k'.inst = some i ∧ i.closed = true ∧ (i.acks.any fun a => decide (a.1 = k'.member)) = false ∧ (closers (x.group k'.tenant k'.group).total (x.self k'.tenant k'.group)).contains k'.member = true) ∧
    (∃ (m' : CollMsg) (f : FinalInfo) (k' : CollMsg) (f' : FinalInfo) (d : Dev) (x : Dev), d.takesColl 5 m' f k' f' ∧ (d.notifyMark .coll (d.collHeader 5 m')).collCounted 5 k' = x ∧ f'.refusal = false ∧ k'.chunk = 0xFFFFFFFF) ∧
    (∃ (m' : CollMsg) (f : FinalInfo) (k' : CollMsg) (f' : FinalInfo) (d : Dev) (x : Dev), d.takesColl 5 m' f k' f' ∧ (d.notifyMark .coll (d.collHeader 5 m')).collCounted 5 k' = x ∧ f'.refusal = false ∧ k'.chunk ≠ 0xFFFFFFFF) ∧
    (∃ (m' : CollMsg) (status : Nat) (k' : CollMsg) (f' : FinalInfo) (d : Dev) (x : Dev) (y : Dev) (i : Inst), d.takesColl 6 m' (noFinal status) k' f' ∧ (d.notifyMark .coll (d.collHeader 6 m')).collCounted 6 k' = x ∧ (x.group k'.tenant k'.group).finalised < k'.inst ∧ x.self k'.tenant k'.group = 0 ∧ x.openInst k'.tenant k'.group k'.inst = (y, i)) ∧
    (∃ (m' : CollMsg) (k' : CollMsg) (f' : FinalInfo) (d : Dev) (x : Dev), d.takesColl 7 m' (noFinal 0) k' f' ∧ (d.notifyMark .coll (d.collHeader 7 m')).collCounted 7 k' = x ∧ x.self k'.tenant k'.group = 0 ∧ (x.col.carries.find? fun c => decide (c.t = k'.tenant) && decide (c.g = k'.group) && decide (c.member = k'.member)) = none ∧ x.grantable 1 k'.tenant 1 = true) :=
  ⟨⟨({} : Dev), by decide +kernel, by decide +kernel⟩,
   ⟨{ ({} : Dev) with dbg.st := .stopped }, by decide +kernel⟩,
   ⟨({} : Dev), by decide +kernel, by decide +kernel⟩,
   ⟨({} : Dev), by decide +kernel, by decide +kernel⟩,
   ⟨({} : Dev), by decide +kernel, by decide +kernel⟩,
   ⟨({} : Dev), by decide +kernel, by decide +kernel⟩,
   ⟨({} : Dev), by decide +kernel, by decide +kernel⟩,
   ⟨({} : Dev), by decide +kernel, by decide +kernel⟩,
   ⟨15, 255, 0, { ({} : Dev) with fab.node := some 4, col.groups := [(4095, { total := 10, members := [79, 111], complete := true })], col.inst := [{ t := 15, g := 255, k := 0, desc := some (.coll 0 0 1 0 0 0 7 0 0 0 0) }], now := 100000000 }, _, by decide +kernel, by decide +kernel, got (by decide +kernel), by decide +kernel, by decide +kernel, by decide +kernel, by decide +kernel⟩,
   ⟨15, 255, 0, ({} : Dev), by decide +kernel, by decide +kernel, by decide +kernel⟩,
   ⟨15, 255, 0, { ({} : Dev) with fab.node := some 4, col.groups := [(4095, { total := 10, members := [79, 111], complete := true })], col.inst := [{ t := 15, g := 255, k := 0, closed := true, closeAt := some 0, chunks := [(0, { folded := [1] })] }], now := 100000000 }, _, by decide +kernel, by decide +kernel, got (by decide +kernel), by decide +kernel, by decide +kernel, by decide +kernel, by decide +kernel⟩,
   ⟨15, 255, 0, { ({} : Dev) with fab.node := some 4, col.groups := [(4095, { total := 10, members := [79, 111], complete := true })], col.inst := [{ t := 15, g := 255, k := 0, closed := true, closeAt := some 0 }], now := 100000000 }, _, by decide +kernel, by decide +kernel, got (by decide +kernel), by decide +kernel, by decide +kernel, by decide +kernel, by decide +kernel⟩,
   ⟨15, 255, { ({} : Dev) with col.groups := [(4095, { dropping := true })] }, by decide +kernel, by decide +kernel, by decide +kernel, by decide +kernel⟩,
   ⟨3, { ({} : Dev) with col.inst := [{ t := 0, g := 0, k := 0, desc := some (.coll 0 0 1 0 0 0 0 0 0 0 0), queue := [{ src := 0, chunk := 3, elems := [0] }], chunks := [(3, { acc := some [0] })] }] }, _, _, by decide +kernel, got (by decide +kernel), by decide +kernel⟩,
   ⟨3, { ({} : Dev) with col.inst := [{ t := 0, g := 0, k := 0, desc := some (.coll 0 0 1 0 0 0 0 0 0 0 0), queue := [{ src := 0, chunk := 3, elems := [0] }] }], tq.ten := [(0, { assign := some { redCeil := 100 } })] }, _, _, _, by decide +kernel, got (by decide +kernel), by decide +kernel, taken (by decide +kernel)⟩,
   ⟨3, { ({} : Dev) with col.inst := [{ t := 0, g := 0, k := 0, desc := some (.coll 0 0 1 0 0 0 0 0 0 0 0), queue := [{ src := 0, chunk := 3, elems := [0] }] }] }, _, _, _, by decide +kernel, got (by decide +kernel), by decide +kernel, taken (by decide +kernel)⟩,
   ⟨3, ({} : Dev), by decide +kernel, by decide +kernel⟩,
   ⟨up, by decide +kernel, by decide +kernel⟩,
   ⟨{ tenant := 15, group := 255, inst := 1, ghash := ghashOf ((List.range 10).map fun i => 79 + 32 * i), shape := 0, chunk := 0, member := 2, elems := [1] }, { tenant := 15, group := 255, inst := 1, ghash := ghashOf ((List.range 10).map fun i => 79 + 32 * i), shape := 0, chunk := 0, member := 2, elems := [1] }, noFinal 0, { ({} : Dev) with fab.node := some 4, col.groups := [(4095, { total := 10, members := (List.range 10).map fun i => 79 + 32 * i, complete := true })], tq.ten := [(15, { served := true, assign := some { redCeil := 100 } })] }, _, by unfold Dev.takesColl; decide +kernel, rfl, by decide +kernel, by decide +kernel, by decide +kernel⟩,
   ⟨{ tenant := 15, group := 255, inst := 1, ghash := ghashOf ((List.range 10).map fun i => 79 + 32 * i), shape := 0, chunk := 0, member := 1, elems := [1] }, { tenant := 15, group := 255, inst := 1, ghash := ghashOf ((List.range 10).map fun i => 79 + 32 * i), shape := 0, chunk := 0, member := 1, elems := [1] }, noFinal 0, { ({} : Dev) with fab.node := some 4, col.groups := [(4095, { total := 10, members := (List.range 10).map fun i => 79 + 32 * i, complete := true })], tq.ten := [(15, { served := true, assign := some { redCeil := 100 } })] }, _, by unfold Dev.takesColl; decide +kernel, rfl, by decide +kernel, by decide +kernel, by decide +kernel⟩,
   ⟨{ tenant := 15, group := 255, inst := 1, ghash := ghashOf (15 :: 79 :: (List.range 8).map fun i => 111 + 32 * i), shape := 0, chunk := 0, member := 0 }, { tenant := 15, group := 255, inst := 1, ghash := ghashOf (15 :: 79 :: (List.range 8).map fun i => 111 + 32 * i), shape := 0, chunk := 0, member := 0 }, noFinal 0, { ({} : Dev) with fab.node := some 4, col.groups := [(4095, { total := 10, members := 15 :: 79 :: (List.range 8).map fun i => 111 + 32 * i, complete := true })], tq.ten := [(15, { served := true, assign := some { redCeil := 100 } })] }, _, _, _, by unfold Dev.takesColl; decide +kernel, rfl, by decide +kernel, by decide +kernel, rfl, by decide +kernel⟩,
   ⟨{ tenant := 15, group := 255, inst := 1, ghash := ghashOf ((List.range 10).map fun i => 79 + 32 * i), shape := 0, chunk := 0, member := 1 }, { tenant := 15, group := 255, inst := 1, ghash := ghashOf ((List.range 10).map fun i => 79 + 32 * i), shape := 0, chunk := 0, member := 1 }, noFinal 0, { ({} : Dev) with fab.node := some 4, col.groups := [(4095, { total := 10, members := (List.range 10).map fun i => 79 + 32 * i, complete := true })], tq.ten := [(15, { served := true, assign := some { redCeil := 100 } })], col.inst := [{ t := 15, g := 255, k := 1, closed := true }] }, _, _, by unfold Dev.takesColl; decide +kernel, rfl, by decide +kernel, got (by decide +kernel), by decide +kernel, by decide +kernel, by decide +kernel⟩,
   ⟨{ tenant := 15, group := 255, inst := 1, ghash := ghashOf (15 :: 79 :: (List.range 8).map fun i => 111 + 32 * i), shape := 0, chunk := 0xFFFFFFFF, member := 0 }, { status := 0, present := [], missing := 0, late := 0 }, { tenant := 15, group := 255, inst := 1, ghash := ghashOf (15 :: 79 :: (List.range 8).map fun i => 111 + 32 * i), shape := 0, chunk := 0xFFFFFFFF, member := 0 }, { status := 0, present := [], missing := 0, late := 0 }, { ({} : Dev) with fab.node := some 4, col.groups := [(4095, { total := 10, members := 15 :: 79 :: (List.range 8).map fun i => 111 + 32 * i, complete := true })], tq.ten := [(15, { served := true, assign := some { redCeil := 100 } })] }, _, by unfold Dev.takesColl; decide +kernel, rfl, by decide +kernel, by decide +kernel⟩,
   ⟨{ tenant := 15, group := 255, inst := 1, ghash := ghashOf (15 :: 79 :: (List.range 8).map fun i => 111 + 32 * i), shape := 0, chunk := 0, member := 0, elems := [1] }, { status := 0, present := [], missing := 0, late := 0 }, { tenant := 15, group := 255, inst := 1, ghash := ghashOf (15 :: 79 :: (List.range 8).map fun i => 111 + 32 * i), shape := 0, chunk := 0, member := 0, elems := [1] }, { status := 0, present := [], missing := 0, late := 0 }, { ({} : Dev) with fab.node := some 4, col.groups := [(4095, { total := 10, members := 15 :: 79 :: (List.range 8).map fun i => 111 + 32 * i, complete := true })], tq.ten := [(15, { served := true, assign := some { redCeil := 100 } })] }, _, by unfold Dev.takesColl; decide +kernel, rfl, by decide +kernel, by decide +kernel⟩,
   ⟨{ tenant := 15, group := 255, inst := 1, ghash := ghashOf ((List.range 10).map fun i => 79 + 32 * i), shape := 0, chunk := 0, member := 1 }, 4, { tenant := 15, group := 255, inst := 1, ghash := ghashOf ((List.range 10).map fun i => 79 + 32 * i), shape := 0, chunk := 0, member := 1 }, noFinal 4, { ({} : Dev) with fab.node := some 4, col.groups := [(4095, { total := 10, members := (List.range 10).map fun i => 79 + 32 * i, complete := true })], tq.ten := [(15, { served := true, assign := some { redCeil := 100 } })] }, _, _, _, by unfold Dev.takesColl; decide +kernel, rfl, by decide +kernel, by decide +kernel, rfl⟩,
   ⟨{ tenant := 15, group := 255, inst := 1, ghash := ghashOf ((List.range 10).map fun i => 79 + 32 * i), shape := 0, chunk := 0, member := 9, elems := [1] }, { tenant := 15, group := 255, inst := 1, ghash := ghashOf ((List.range 10).map fun i => 79 + 32 * i), shape := 0, chunk := 0, member := 9, elems := [1] }, noFinal 0, { ({} : Dev) with fab.node := some 4, col.groups := [(4095, { total := 10, members := (List.range 10).map fun i => 79 + 32 * i, complete := true })], tq.ten := [(15, { served := true, assign := some { redCeil := 100 } })] }, _, by unfold Dev.takesColl; decide +kernel, rfl, by decide +kernel, by decide +kernel, by decide +kernel⟩⟩
/-- TwinCommands. -/
theorem witness_twin_commands :
    (∃ (m' : PairMsg) (d : Dev), (d.twn.st = .pairing ∨ d.twn.st = .solo) ∧ d.samePkg m' = true ∧ d.pairOk m' = true) ∧
    (∃ (m' : PairMsg) (d : Dev), (d.twn.st = .pairing ∨ d.twn.st = .solo) ∧ d.samePkg m' = true ∧ d.pairOk m' = false) ∧
    (∃ (m' : PairMsg) (d : Dev), (d.twn.st = .pairing ∨ d.twn.st = .solo) ∧ d.samePkg m' = false) ∧
    (∃ (d : Dev), d.twn.st = .off) ∧
    (∃ (t : Nat) (d : Dev), t < 16 ∧ (d.twn.st = .syncing ∨ d.twn.st = .paired)) ∧
    (∃ (t : Nat) (d : Dev), t < 16 ∧ (d.twn.st = .syncing ∨ d.twn.st = .paired)) ∧
    (∃ (jseq : Nat) (d : Dev), (d.twn.st = .syncing ∨ d.twn.st = .paired) ∧ jseq ≤ d.twn.japplied + 1) ∧
    (∃ (jseq : Nat) (d : Dev), d.twn.japplied + 1 < jseq) ∧
    (∃ (jseq : Nat) (d : Dev), d.twn.jacked < jseq ∧ jseq < d.twn.jnext) ∧
    (∃ (jseq : Nat) (d : Dev), (jseq ≤ d.twn.jacked ∨ d.twn.jnext ≤ jseq)) ∧
    (∃ (d : Dev), d.twn.enabled = true ∧ (d.lport 64).st = .active) ∧
    (∃ (d : Dev), d.twn.aliveIn = false ∧ (d.lport 64).st ≠ .active ∧ d.twn.enabled = true ∧ d.twn.st = .paired ∧ (d.partnerHellos.any fun a => decide (d.now < a + 3000000)) = true ∧ max d.twn.aliveLost (d.lport 64).leftAt + 20000 ≤ d.now) ∧
    (∃ (d : Dev), d.twn.aliveIn = false ∧ (d.lport 64).st ≠ .active ∧ d.twn.enabled = true ∧ (d.partnerHellos.any fun a => decide (d.now < a + 3000000)) = false ∧ max d.twn.aliveLost (d.lport 64).leftAt + 20000 ≤ d.now) ∧
    (∃ (d : Dev), d.twn.aliveIn = true) ∧
    (∃ (d : Dev) (a : Nat), d.twn.holdAt = some a ∧ (d.partnerHellos.any fun b => decide (a < b)) = true) ∧
    (∃ (d : Dev) (a : Nat), d.twn.holdAt = some a ∧ (d.partnerHellos.any fun b => decide (a < b)) = false ∧ (d.partnerHellos.all fun b => decide (b + 3000000 ≤ d.now)) = true) ∧
    (∃ (d : Dev), (d.lport 64).st ≠ .active ∧ d.twn.aliveIn = true ∧ (d.twn.st = .syncing ∨ d.twn.st = .paired)) ∧
    (∃ (d : Dev), (d.lport 64).st = .active ∧ d.twn.aliveIn = false) ∧
    (∃ (d : Dev), (d.lport 64).st = .active ∧ (d.twn.st = .pairing ∨ d.twn.st = .solo)) ∧
    (∃ (d : Dev), (d.lport 64).st = .active ∧ d.twn.st = .cleave ∧ d.twn.cfg.getLsbD 0 = true) ∧
    (∃ (d : Dev), d.twn.st = .pairing) ∧
    (∃ (d : Dev), d.twn.st ≠ .pairing) ∧
    (∃ (d : Dev), d.linkUp = true ∧ d.memReq 0 = true) :=
  ⟨⟨{ ident := 1, pkgid := 0, side := true, oxMaj := 0, fwVer := 0, served := 0, semuse := [] }, ({ ({} : Dev) with twn.st := .pairing, boot.oxMaj := 0 } : Dev), by decide +kernel, by decide +kernel, by decide +kernel⟩,
   ⟨{ ident := 1, pkgid := 0, side := false, oxMaj := 0, fwVer := 0, served := 0, semuse := [] }, { ({} : Dev) with twn.st := .pairing }, by decide +kernel, by decide +kernel, by decide +kernel⟩,
   ⟨{ ident := 1, pkgid := 0, side := true, oxMaj := 0, fwVer := 0, served := 0, semuse := [] }, { ({} : Dev) with twn.st := .solo, fab.pkgid := some 1 }, by decide +kernel, by decide +kernel⟩,
   ⟨({} : Dev), by decide +kernel⟩,
   ⟨15, { ({} : Dev) with twn.st := .syncing }, by decide +kernel, by decide +kernel⟩,
   ⟨15, { ({} : Dev) with twn.st := .syncing }, by decide +kernel, by decide +kernel⟩,
   ⟨1, { ({} : Dev) with twn.st := .paired }, by decide +kernel, by decide +kernel⟩,
   ⟨2, ({} : Dev), by decide +kernel⟩,
   ⟨1, { ({} : Dev) with twn.jnext := 2 }, by decide +kernel, by decide +kernel⟩,
   ⟨0, ({} : Dev), by decide +kernel⟩,
   ⟨{ ({} : Dev) with twn.enabled := true, lnk.ports := [(64, { st := .active })] }, by decide +kernel, by decide +kernel⟩,
   ⟨{ ({} : Dev) with twn.enabled := true, twn.st := .paired, now := 20000, fab.nbr := [(0, { valid := true, partner := true })] }, by decide +kernel, by decide +kernel, by decide +kernel, by decide +kernel, by decide +kernel, by decide +kernel⟩,
   ⟨{ ({} : Dev) with twn.enabled := true, now := 20000 }, by decide +kernel, by decide +kernel, by decide +kernel, by decide +kernel, by decide +kernel⟩,
   ⟨{ ({} : Dev) with twn.aliveIn := true }, by decide +kernel⟩,
   ⟨{ ({} : Dev) with twn.holdAt := some 0, fab.nbr := [(0, { valid := true, partner := true, last := 1 })] }, 0, by decide +kernel, by decide +kernel⟩,
   ⟨{ ({} : Dev) with twn.holdAt := some 0 }, 0, by decide +kernel, by decide +kernel, by decide +kernel⟩,
   ⟨{ ({} : Dev) with twn.aliveIn := true, twn.st := .paired }, by decide +kernel, by decide +kernel, by decide +kernel⟩,
   ⟨{ ({} : Dev) with lnk.ports := [(64, { st := .active })] }, by decide +kernel, by decide +kernel⟩,
   ⟨{ ({} : Dev) with twn.st := .solo, lnk.ports := [(64, { st := .active })] }, by decide +kernel, by decide +kernel⟩,
   ⟨{ ({} : Dev) with twn.st := .cleave, lnk.ports := [(64, { st := .active })] }, by decide +kernel, by decide +kernel, by decide +kernel⟩,
   ⟨{ ({} : Dev) with twn.st := .pairing }, by decide +kernel⟩,
   ⟨({} : Dev), by decide +kernel⟩,
   ⟨up, by decide +kernel, by decide +kernel⟩⟩
/-- DebugCommands. -/
theorem witness_debug_commands :
    (∃ (d : Dev) (dest : W64) (period : Nat) (n : Nat), d.dbg.tlm = some (dest, period, n) ∧ d.dbg.st ≠ .stopped ∧ d.dbg.tlmAt + 1000 * period ≤ d.now) ∧
    (∃ (d : Dev), d.dbg.tlm = none) ∧
    (∃ (d : Dev), d.dbg.cfg.toNat / 2 ^ 16 = 0) ∧
    (∃ (d : Dev), d.dbg.cfg.toNat / 2 ^ 16 ≠ 0 ∧ d.dbg.tsAt + 1000 * (d.dbg.cfg.toNat / 2 ^ 16) ≤ d.now) ∧
    (∃ (t : Nat) (d : Dev) (x : Dump), t < 16 ∧ Tab.look none t d.dbg.dumps = some x ∧ x.firing = none ∧ d.dbg.st ≠ .stopped ∧ x.at_ + 600000000000 ≤ d.now) ∧
    (∃ (t : Nat) (d : Dev) (x : Dump) (gq : Nat) (idx : Nat) (st : Status), t < 16 ∧ Tab.look none t d.dbg.dumps = some x ∧ x.firing = some (gq, idx) ∧ x.status = some st ∧ d.recordWritten gq idx = true) ∧
    (∃ (d : Dev), d.dbg.st = .scheduled ∧ (d.dbg.cause ≠ 3 ∨ d.dbg.stopFt ≤ d.fab.time)) ∧
    (∃ (d : Dev), d.dbg.st = .scheduled ∧ d.dbg.cause = 3 ∧ d.fab.time < d.dbg.stopFt) ∧
    (∃ (d : Dev), d.dbg.st = .stopped ∧ d.dbg.record = false) ∧
    (∃ (d : Dev), d.dbg.cfg.toNat / 256 % 256 ≠ 0 ∧ d.dbg.cutAt + 100000000 * (d.dbg.cfg.toNat / 256 % 256) ≤ d.now) ∧
    (∃ (d : Dev), d.linkUp = true ∧ d.memReq 0 = true) ∧
    (∃ (d : Dev), d.linkUp = true ∧ d.memReq 0 = true) ∧
    (∃ (d : Dev), d.linkUp = true ∧ d.memReq 0 = true) ∧
    (∃ (d : Dev), d.linkUp = true ∧ d.memReq 0 = true) ∧
    (∃ (instr : Nat) (d : Dev), 3 ≤ instr ∧ instr ≤ 7 ∧ 4 ≤ d.boot.stage.code ∧ d.jad.latched = false) ∧
    (∃ (instr : Nat), instr ≤ 2) ∧
    (∃ (instr : Nat), 7 < instr) :=
  ⟨⟨{ ({} : Dev) with dbg.tlm := some (0x0010000000000000, 1000, 8), now := 1000000 }, 0x0010000000000000, 1000, 8, by decide +kernel, by decide +kernel, by decide +kernel⟩,
   ⟨({} : Dev), by decide +kernel⟩,
   ⟨{ ({} : Dev) with dbg.cfg := 0 }, by decide +kernel⟩,
   ⟨{ ({} : Dev) with dbg.cfg := 0x10000, now := 1000 }, by decide +kernel, by decide +kernel⟩,
   ⟨15, { ({} : Dev) with now := 600000000000, dbg.dumps := [(15, some { layer := 1, operator := 2, stp := 3, dest := 0, maxlen := 64 })] }, _, by decide +kernel, got (by decide +kernel), by decide +kernel, by decide +kernel, by decide +kernel⟩,
   ⟨15, { ({} : Dev) with dbg.dumps := [(15, some { layer := 0, operator := 0, stp := 0, dest := 0, maxlen := 0, firing := some (1023, 0), status := some .ok })] }, { layer := 0, operator := 0, stp := 0, dest := 0, maxlen := 0, firing := some (1023, 0), status := some .ok }, 1023, 0, .ok, by decide +kernel, by decide +kernel, by decide +kernel, by decide +kernel, by decide +kernel⟩,
   ⟨{ ({} : Dev) with dbg.st := .scheduled }, by decide +kernel, by decide +kernel⟩,
   ⟨{ ({} : Dev) with dbg.st := .scheduled, dbg.cause := 3, dbg.stopFt := 1 }, by decide +kernel, by decide +kernel, by decide +kernel⟩,
   ⟨{ ({} : Dev) with dbg.st := .stopped }, by decide +kernel, by decide +kernel⟩,
   ⟨{ ({} : Dev) with dbg.cfg := 0x100, now := 100000000 }, by decide +kernel, by decide +kernel⟩,
   ⟨up, by decide +kernel, by decide +kernel⟩,
   ⟨up, by decide +kernel, by decide +kernel⟩,
   ⟨up, by decide +kernel, by decide +kernel⟩,
   ⟨up, by decide +kernel, by decide +kernel⟩,
   ⟨7, { ({} : Dev) with boot.stage := .hostReady }, by decide +kernel, by decide +kernel, by decide +kernel, by decide +kernel⟩,
   ⟨2, by decide +kernel⟩,
   ⟨8, by decide +kernel⟩⟩
/-- FaultRegisterCommands. -/
theorem witness_fault_register_commands :
    (∃ (d : Dev), d.domain 3 = 3) ∧
    (∃ (d : Dev), d.domain 3 ≠ 3) ∧
    (∃ (d : Dev), d.linkUp = true ∧ d.memReq 0 = true) ∧
    (∃ (t : Nat) (d : Dev), d.linkUp = true ∧ (d.memReq (t + 1) = true ∨ d.memReq 0 = true) ∧ t < 16) ∧
    (∃ (w : Nat) (d : Dev), d.linkUp = true ∧ d.memReq 0 = true ∧ w < 32 ∧ d.flt.lock = false) ∧
    (∃ (w : Nat) (d : Dev), d.linkUp = true ∧ d.memReq 0 = true ∧ w < 32 ∧ d.flt.lock = true) ∧
    (∃ (d : Dev), d.linkUp = true ∧ d.memReq 0 = true ∧ d.flt.lock = false) ∧
    (∃ (d : Dev), d.linkUp = true ∧ d.memReq 0 = true ∧ d.flt.lock = true) ∧
    (∃ (d : Dev), d.linkUp = true ∧ d.memReq 0 = true) ∧
    (∃ (d : Dev), d.linkUp = true ∧ d.memReq 0 = true) :=
  ⟨⟨{ ({} : Dev) with pwr.dom := [(3, 3)] }, by decide +kernel⟩,
   ⟨({} : Dev), by decide +kernel⟩,
   ⟨up, by decide +kernel, by decide +kernel⟩,
   ⟨15, on ({} : Dev), by decide +kernel, by decide +kernel, by decide +kernel⟩,
   ⟨31, on ({} : Dev), by decide +kernel, by decide +kernel, by decide +kernel, by decide +kernel⟩,
   ⟨31, on { ({} : Dev) with flt.lock := true }, by decide +kernel, by decide +kernel, by decide +kernel, by decide +kernel⟩,
   ⟨on ({} : Dev), by decide +kernel, by decide +kernel, by decide +kernel⟩,
   ⟨on { ({} : Dev) with flt.lock := true }, by decide +kernel, by decide +kernel, by decide +kernel⟩,
   ⟨up, by decide +kernel, by decide +kernel⟩,
   ⟨up, by decide +kernel, by decide +kernel⟩⟩
/-- MailboxCommands. -/
theorem witness_mailbox_commands :
    (∃ (p : Nat), p < 8) ∧
    (∃ (fn : Nat) (tail : W16) (d : Dev), d.linkUp = true ∧ d.memReq fn = true ∧ fn < 17 ∧ d.servedFn fn = true ∧ (d.fn fn).flr = false ∧ (tail - (d.fn fn).cmdTail).toNat < 2 ^ 15 ∧ (tail - (d.fn fn).cmdHead).toNat ≤ 16) ∧
    (∃ (fn : Nat) (tail : W16) (d : Dev), d.linkUp = true ∧ d.memReq fn = true ∧ fn < 17 ∧ d.servedFn fn = true ∧ (d.fn fn).flr = false ∧ (2 ^ 15 ≤ (tail - (d.fn fn).cmdTail).toNat ∨ 16 < (tail - (d.fn fn).cmdHead).toNat)) ∧
    (∃ (fn : Nat) (d : Dev), d.linkUp = true ∧ d.memReq fn = true ∧ fn < 17 ∧ d.servedFn fn = true ∧ (d.fn fn).flr = false) ∧
    (∃ (fn : Nat) (d : Dev), d.linkUp = true ∧ d.memReq fn = true ∧ fn < 17 ∧ d.servedFn fn = false) ∧
    (∃ (fn : Nat) (idx : W16) (d : Dev), d.linkUp = true ∧ d.memReq fn = true ∧ fn < 17 ∧ d.servedFn fn = true ∧ ((d.setFn fn fun g => { g with ntcHead := idx }).fn fn).overflowDue = false) ∧
    (∃ (fn : Nat) (idx : W16) (d : Dev), d.linkUp = true ∧ d.memReq fn = true ∧ fn < 17 ∧ d.servedFn fn = true ∧ (d.fn fn).flr = false ∧ ((d.setFn fn fun g => { g with ntcHead := idx }).fn fn).overflowDue = true) ∧
    (∃ (fn : Nat) (irq : Nat) (ntc : Nat) (d : Dev), d.linkUp = true ∧ d.memReq fn = true ∧ fn < 17 ∧ d.servedFn fn = true ∧ (d.fn fn).flr = false ∧ irq ≤ 8 ∧ ntc ≤ 8) ∧
    (∃ (fn : Nat) (irq : Nat) (ntc : Nat) (d : Dev), d.linkUp = true ∧ d.memReq fn = true ∧ fn < 17 ∧ d.servedFn fn = true ∧ (d.fn fn).flr = false ∧ (8 < irq ∨ 8 < ntc)) ∧
    (∃ (addr : Nat) (d : Dev), d.jad.released = true ∧ addr = d.smbAddr) ∧
    (∃ (addr : Nat) (d : Dev), d.jad.released = true ∧ addr = d.smbAddr) ∧
    (∃ (addr : Nat) (d : Dev), d.jad.released = true ∧ addr = d.smbAddr) ∧
    (∃ (addr : Nat) (d : Dev), d.jad.released = true ∧ addr = d.smbAddr) ∧
    (∃ (addr : Nat) (d : Dev), d.jad.released = true ∧ addr = d.smbAddr) ∧
    (∃ (addr : Nat) (d : Dev), d.jad.released = true ∧ addr = d.smbAddr ∧ d.up = true) ∧
    (∃ (addr : Nat) (d : Dev), d.jad.released = true ∧ addr = d.smbAddr) ∧
    (∃ (addr : Nat) (d : Dev), d.jad.released = true ∧ addr = d.smbAddr) ∧
    (∃ (addr : Nat) (pec : Bool) (d : Dev), (pec = false ∨ addr ≠ d.smbAddr)) ∧
    (∃ (d : Dev) (w : Wait), d.mbx.cur = none ∧ d.nextP2 = some w ∧ d.turnP3 = none) ∧
    (∃ (d : Dev) (t : Nat) (v : Wait), d.mbx.cur = none ∧ d.nextP2 = none ∧ d.turnP3 = some (t, v)) ∧
    (∃ (d : Dev), d.mbx.cur = none ∧ d.nextP2 = none ∧ d.turnP3 = none) ∧
    (∃ (r : Req) (opcode : W16) (d : Dev) (e : Dev), (opsOfGroup d.mbx.oxMin (opcode.toNat / 256)).contains (opcode.toNat % 256) = false ∧ d.admits { op := opcode.toNat, tn := true, m := true, rcv := false, dev := true, len := r.length, live := true, blind := true } r = (e, true)) ∧
    (∃ (opcode : W16) (d : Dev), (opsOfGroup d.mbx.oxMin (opcode.toNat / 256)).contains (opcode.toNat % 256) = true) :=
  ⟨⟨7, by decide +kernel⟩,
   ⟨16, 16, { up with tq.ten := [(15, { assign := some { weight := 1 } })] }, by decide +kernel, by decide +kernel, by decide +kernel, by decide +kernel, by decide +kernel, by decide +kernel, by decide +kernel⟩,
   ⟨16, 17, { up with tq.ten := [(15, { assign := some { weight := 1 } })] }, by decide +kernel, by decide +kernel, by decide +kernel, by decide +kernel, by decide +kernel, by decide +kernel⟩,
   ⟨16, { up with tq.ten := [(15, { assign := some { weight := 1 } })] }, by decide +kernel, by decide +kernel, by decide +kernel, by decide +kernel, by decide +kernel⟩,
   ⟨16, on ({} : Dev), by decide +kernel, by decide +kernel, by decide +kernel, by decide +kernel⟩,
   ⟨16, 0, { up with tq.ten := [(15, { assign := some { weight := 1 } })] }, by decide +kernel, by decide +kernel, by decide +kernel, by decide +kernel, by decide +kernel⟩,
   ⟨16, 1, { ({} : Dev) with jad.released := true, jad.pwrOk := true, jad.perstHigh := true, boot.stage := .hostReady, boot.conikHeld := false, mbx.link.up := true, mbx.fns := [(0, { mse := true, vfEnable := true }), (16, { mse := true, lostNow := 3, ntcTail := 64 })], tq.ten := [(15, { assign := some { weight := 1 } })] }, by decide +kernel, by decide +kernel, by decide +kernel, by decide +kernel, by decide +kernel, by decide +kernel⟩,
   ⟨16, 8, 8, { up with tq.ten := [(15, { assign := some { weight := 1 } })] }, by decide +kernel, by decide +kernel, by decide +kernel, by decide +kernel, by decide +kernel, by decide +kernel, by decide +kernel⟩,
   ⟨16, 9, 0, { up with tq.ten := [(15, { assign := some { weight := 1 } })] }, by decide +kernel, by decide +kernel, by decide +kernel, by decide +kernel, by decide +kernel, by decide +kernel⟩,
   ⟨0x64, up, by decide +kernel, by decide +kernel⟩,
   ⟨0x64, up, by decide +kernel, by decide +kernel⟩,
   ⟨0x64, up, by decide +kernel, by decide +kernel⟩,
   ⟨0x64, up, by decide +kernel, by decide +kernel⟩,
   ⟨0x64, up, by decide +kernel, by decide +kernel⟩,
   ⟨0x64, up, by decide +kernel, by decide +kernel, by decide +kernel⟩,
   ⟨0x64, up, by decide +kernel, by decide +kernel⟩,
   ⟨0x64, up, by decide +kernel, by decide +kernel⟩,
   ⟨0x65, true, up, by decide +kernel⟩,
   ⟨({ ({} : Dev) with boot.stage := .hostReady, boot.conikHeld := false, mbx.fns := [(0, { stream := [{ hdr := { opcode := 1, req := { path := .pcie 0, seq := 0, tenant := 0xFF, length := 0 } } }] })] } : Dev), _, by decide +kernel, got (by decide +kernel), by decide +kernel⟩,
   ⟨({ ({} : Dev) with boot.stage := .hostReady, boot.conikHeld := false, tq.ten := [(15, { assign := some {} })], mbx.fns := [(0, { vfEnable := true }), (16, { stream := [{ hdr := { opcode := 1, req := { path := .pcie 16, seq := 0, tenant := 15, length := 0 } } }] })] } : Dev), 15, _, by decide +kernel, by decide +kernel, got (by decide +kernel)⟩,
   ⟨({} : Dev), by decide +kernel, by decide +kernel, by decide +kernel⟩,
   ⟨pf, 0x7F00, (up : Dev), _, by decide +kernel, taken (by decide +kernel)⟩,
   ⟨0x0100, ({} : Dev), by decide +kernel⟩⟩
/-- TenantAndQueueCommands. -/
theorem witness_tenant_and_queue_commands :
    (∃ (r : Req) (a : Assign) (c : Cmd) (d : Dev) (d' : Dev), c = { op := 0x0200, named := true, len := 40, fence := true, change := true, objs := [.tenant r.tenant.toNat], ok := assignFields a } ∧ d.admits c r = (d', true) ∧ d'.partnerServes r.tenant.toNat = false ∧ d'.assignFits r.tenant.toNat a = true) ∧
    (∃ (r : Req) (a : Assign) (c : Cmd) (d : Dev) (d' : Dev), c = { op := 0x0200, named := true, len := 40, fence := true, change := true, objs := [.tenant r.tenant.toNat], ok := assignFields a } ∧ d.admits c r = (d', true) ∧ d'.partnerServes r.tenant.toNat = false ∧ d'.assignFits r.tenant.toNat a = false) ∧
    (∃ (r : Req) (c : Cmd) (d : Dev) (d' : Dev), c = { op := 0x0201, named := true, acc := true, change := true, objs := [.tenant r.tenant.toNat] } ∧ d.admits c r = (d', true) ∧ d'.partnerServes r.tenant.toNat = false) ∧
    (∃ (r : Req) (c : Cmd) (d : Dev) (d' : Dev), c = { op := 0x0202, named := true, len := 4, fence := true, change := true, objs := [.tenant r.tenant.toNat] } ∧ d.admits c r = (d', true)) ∧
    (∃ (r : Req) (c : Cmd) (d : Dev) (d' : Dev), c = { op := 0x0203, pf := false, tn := true, live := true, objs := [.tenant r.tenant.toNat] } ∧ d.admits c r = (d', true)) ∧
    (∃ (r : Req) (c : Cmd) (d : Dev) (d' : Dev), c = { op := 0x0204, pf := false, tn := true, acc := true, objs := [.tenant r.tenant.toNat] } ∧ d.admits c r = (d', true)) ∧
    (∃ (r : Req) (base : W64) (size : W64) (pasid : Nat) (xflags : W32) (c : Cmd) (d : Dev) (d' : Dev), c = { op := 0x0210, pf := false, tn := true, len := 24, acc := true, fence := true, change := true, objs := [.tenant r.tenant.toNat], ok := decide (base.toNat % 4096 = 0) && decide (size.toNat % 4096 = 0) && decide (size.toNat ≤ 2 ^ 48) && decide (base.toNat + size.toNat ≤ 2 ^ 64) && decide (xflags.toNat < 8) && decide (pasid < 2 ^ 20) } ∧ d.admits c r = (d', true) ∧ (d'.ten r.tenant.toNat).serving = 0) ∧
    (∃ (r : Req) (base : W64) (size : W64) (pasid : Nat) (xflags : W32) (c : Cmd) (d : Dev) (d' : Dev), c = { op := 0x0210, pf := false, tn := true, len := 24, acc := true, fence := true, change := true, objs := [.tenant r.tenant.toNat], ok := decide (base.toNat % 4096 = 0) && decide (size.toNat % 4096 = 0) && decide (size.toNat ≤ 2 ^ 48) && decide (base.toNat + size.toNat ≤ 2 ^ 64) && decide (xflags.toNat < 8) && decide (pasid < 2 ^ 20) } ∧ d.admits c r = (d', true) ∧ (d'.ten r.tenant.toNat).serving ≠ 0) ∧
    (∃ (r : Req) (q : QArgs) (c : Cmd) (d : Dev) (d' : Dev), c = { op := 0x0300, pf := false, tn := true, len := 28, change := true, objs := [.queue r.tenant.toNat q.queue], ok := queueFields q } ∧ d.admits c r = (d', true) ∧ (d'.queue (64 * r.tenant.toNat + q.queue)).st = .absent ∧ d'.queuesOf r.tenant.toNat < ((d'.ten r.tenant.toNat).assign.getD {}).queues) ∧
    (∃ (r : Req) (q : QArgs) (c : Cmd) (d : Dev) (d' : Dev), c = { op := 0x0300, pf := false, tn := true, len := 28, change := true, objs := [.queue r.tenant.toNat q.queue], ok := queueFields q } ∧ d.admits c r = (d', true) ∧ (d'.queue (64 * r.tenant.toNat + q.queue)).st ≠ .absent) ∧
    (∃ (r : Req) (q : Nat) (c : Cmd) (d : Dev) (d' : Dev), c = { op := 0x0301, pf := false, tn := true, len := 4, change := true, objs := [.queue r.tenant.toNat q], ok := decide (q < 64) } ∧ d.admits c r = (d', true) ∧ (d'.queue (64 * r.tenant.toNat + q)).st = .stopped) ∧
    (∃ (r : Req) (q : Nat) (c : Cmd) (d : Dev) (d' : Dev), c = { op := 0x0302, pf := false, tn := true, len := 4, change := true, objs := [.queue r.tenant.toNat q], ok := decide (q < 64) } ∧ d.admits c r = (d', true) ∧ d'.mayRun r.tenant.toNat q = true ∧ (d'.queue (64 * r.tenant.toNat + q)).ringFault = false) ∧
    (∃ (r : Req) (q : Nat) (c : Cmd) (d : Dev) (d' : Dev), c = { op := 0x0302, pf := false, tn := true, len := 4, change := true, objs := [.queue r.tenant.toNat q], ok := decide (q < 64) } ∧ d.admits c r = (d', true) ∧ d'.mayRun r.tenant.toNat q = true ∧ (d'.queue (64 * r.tenant.toNat + q)).ringFault = true) ∧
    (∃ (r : Req) (q : Nat) (c : Cmd) (d : Dev) (d' : Dev), c = { op := 0x0302, pf := false, tn := true, len := 4, change := true, objs := [.queue r.tenant.toNat q], ok := decide (q < 64) } ∧ d.admits c r = (d', true) ∧ d'.mayRun r.tenant.toNat q = false) ∧
    (∃ (r : Req) (q : Nat) (smode : Nat) (c : Cmd) (d : Dev) (d' : Dev), c = { op := 0x0303, pf := false, tn := true, len := 4, acc := true, change := true, objs := [.queue r.tenant.toNat q], ok := decide (q < 64) && decide (smode ≤ 1) } ∧ d.admits c r = (d', true) ∧ ([QSt.running, .draining, .aborting].contains (d'.queue (64 * r.tenant.toNat + q)).st) = true ∧ (d'.quench (64 * r.tenant.toNat + q) smode).opsOf (64 * r.tenant.toNat + q) = []) ∧
    (∃ (r : Req) (q : Nat) (c : Cmd) (d : Dev) (d' : Dev), c = { op := 0x0303, pf := false, tn := true, len := 4, acc := true, change := true, objs := [.queue r.tenant.toNat q], ok := decide (q < 64) && decide (0 ≤ 1) } ∧ d.admits c r = (d', true) ∧ ([QSt.running, .draining, .aborting].contains (d'.queue (64 * r.tenant.toNat + q)).st) = true ∧ (d'.quench (64 * r.tenant.toNat + q) 0).opsOf (64 * r.tenant.toNat + q) ≠ []) ∧
    (∃ (r : Req) (q : Nat) (desc : Nat) (c : Cmd) (d : Dev) (d' : Dev), c = { op := 0x0304, pf := false, tn := true, len := 8, objs := [.queue r.tenant.toNat q], ok := decide (q < 64) && decide (desc < 2 ^ 32) && (d.belowHead (64 * r.tenant.toNat + q) desc || decide ((BitVec.ofNat 32 desc - (d.queue (64 * r.tenant.toNat + q)).head).toNat < ((d.queue (64 * r.tenant.toNat + q)).tail - (d.queue (64 * r.tenant.toNat + q)).head).toNat)) } ∧ d.admits c r = (d', true) ∧ d'.belowHead (64 * r.tenant.toNat + q) desc = false ∧ (d'.queue (64 * r.tenant.toNat + q)).recs.contains desc = false ∧ (d'.opAt (64 * r.tenant.toNat + q) desc).isSome = true) ∧
    (∃ (r : Req) (q : Nat) (desc : Nat) (c : Cmd) (d : Dev) (d' : Dev), c = { op := 0x0304, pf := false, tn := true, len := 8, objs := [.queue r.tenant.toNat q], ok := decide (q < 64) && decide (desc < 2 ^ 32) && (d.belowHead (64 * r.tenant.toNat + q) desc || decide ((BitVec.ofNat 32 desc - (d.queue (64 * r.tenant.toNat + q)).head).toNat < ((d.queue (64 * r.tenant.toNat + q)).tail - (d.queue (64 * r.tenant.toNat + q)).head).toNat)) } ∧ d.admits c r = (d', true) ∧ d'.belowHead (64 * r.tenant.toNat + q) desc = true) ∧
    (∃ (r : Req) (q : Nat) (c : Cmd) (d : Dev) (d' : Dev), c = { op := 0x0305, pf := false, tn := true, len := 4, live := true, objs := [.queue r.tenant.toNat q], ok := decide (q < 64) } ∧ d.admits c r = (d', true)) ∧
    (∃ (r : Req) (pasid : Nat) (fflags : W32) (c : Cmd) (d : Dev) (d' : Dev), c = { op := 0x0400, pf := false, tn := true, len := 8, acc := true, ok := decide (pasid < 2 ^ 20) && decide (fflags.toNat < 2) } ∧ d.admits c r = (d', true)) ∧
    (∃ (r : Req) (stream : Nat) (base : W64) (span : W64) (pageLog2 : Nat) (depth : Nat) (c : Cmd) (d : Dev) (d' : Dev), c = { op := 0x0410, pf := false, tn := true, len := 24, change := true, objs := [.stream r.tenant.toNat stream], ok := d.streamFields r.tenant.toNat stream base span pageLog2 depth } ∧ d.admits c r = (d', true) ∧ (d'.stream r.tenant.toNat stream).st = .absent) ∧
    (∃ (r : Req) (stream : Nat) (c : Cmd) (d : Dev) (d' : Dev), c = { op := 0x0411, pf := false, tn := true, len := 4, acc := true, change := true, objs := [.stream r.tenant.toNat stream], ok := decide (stream < 32) } ∧ d.admits c r = (d', true) ∧ (d'.stream r.tenant.toNat stream).st ≠ .absent) ∧
    (∃ (r : Req) (stream : Nat) (c : Cmd) (d : Dev) (d' : Dev), c = { op := 0x0411, pf := false, tn := true, len := 4, acc := true, change := true, objs := [.stream r.tenant.toNat stream], ok := decide (stream < 32) } ∧ d.admits c r = (d', true) ∧ (d'.stream r.tenant.toNat stream).st = .absent) :=
  ⟨⟨{ pf with tenant := 15, length := 40 }, { weight := 1 }, _, { up with boot.items := [] }, _, rfl, taken (by decide +kernel), by decide +kernel, by decide +kernel⟩,
   ⟨{ pf with tenant := 15, length := 40 }, { weight := 1, semBlocks := 256 }, _, ({ up with tq.ten := [(0, { assign := some { semBlocks := 1 } })] } : Dev), _, rfl, taken (by decide +kernel), by decide +kernel, by decide +kernel⟩,
   ⟨{ pf with tenant := 15 }, _, ({ up with tq.ten := [(15, { assign := some {}, served := true })] } : Dev), _, rfl, taken (by decide +kernel), by decide +kernel⟩,
   ⟨{ pf with tenant := 15, length := 4 }, _, ({ up with tq.ten := [(15, { assign := some {}, served := true })] } : Dev), _, rfl, taken (by decide +kernel)⟩,
   ⟨{ pf with tenant := 15 }, _, ({ up with tq.ten := [(15, { assign := some {}, served := true })] } : Dev), _, rfl, taken (by decide +kernel)⟩,
   ⟨{ pf with tenant := 15 }, _, ({ up with tq.ten := [(15, { assign := some {}, served := true })] } : Dev), _, rfl, taken (by decide +kernel)⟩,
   ⟨{ pf with tenant := 15, length := 24 }, 0, 0, 0, 0, _, ({ up with tq.ten := [(15, { assign := some {}, served := true })] } : Dev), _, rfl, taken (by decide +kernel), by decide +kernel⟩,
   ⟨{ pf with tenant := 15, length := 24 }, 0, 0, 0, 0, _, ({ up with tq.ten := [(15, { assign := some {}, served := true, serving := 1 })] } : Dev), _, rfl, taken (by decide +kernel), by decide +kernel⟩,
   ⟨{ pf with tenant := 15, length := 28 }, { queue := 63, qtype := 0, ring := 0, log2 := 6, vector := 3, weight := 1, rate := 0, timeout := 200 }, _, ({ up with tq.ten := [(15, { assign := some { queues := 64 }, served := true })] } : Dev), _, rfl, taken (by decide +kernel), by decide +kernel, by decide +kernel⟩,
   ⟨{ pf with tenant := 15, length := 28 }, { queue := 63, qtype := 0, ring := 0, log2 := 6, vector := 3, weight := 1, rate := 0, timeout := 200 }, _, ({ up with tq.ten := [(15, { assign := some { queues := 64 }, served := true })], tq.q := [(1023, { st := .stopped })] } : Dev), _, rfl, taken (by decide +kernel), by decide +kernel⟩,
   ⟨{ pf with tenant := 15, length := 4 }, 63, _, ({ up with tq.ten := [(15, { assign := some {}, served := true })], tq.q := [(1023, { st := .stopped })] } : Dev), _, rfl, taken (by decide +kernel), by decide +kernel⟩,
   ⟨{ pf with tenant := 15, length := 4 }, 63, _, on { ({} : Dev) with tq.ten := [(15, { assign := some {}, served := true })], tq.q := [(1023, { st := .stopped })], mbx.fns := [(16, { bme := true })] }, _, rfl, taken (by decide +kernel), by decide +kernel, by decide +kernel⟩,
   ⟨{ pf with tenant := 15, length := 4 }, 63, _, on { ({} : Dev) with tq.ten := [(15, { assign := some {}, served := true })], tq.q := [(1023, { st := .stopped, ringFault := true })], mbx.fns := [(16, { bme := true })] }, _, rfl, taken (by decide +kernel), by decide +kernel, by decide +kernel⟩,
   ⟨{ pf with tenant := 15, length := 4 }, 63, _, ({ up with tq.ten := [(15, { assign := some {}, served := true })] } : Dev), _, rfl, taken (by decide +kernel), by decide +kernel⟩,
   ⟨{ pf with tenant := 15, length := 4 }, 63, 0, _, ({ up with tq.ten := [(15, { assign := some {}, served := true })], tq.q := [(1023, { st := .running })] } : Dev), _, rfl, taken (by decide +kernel), by decide +kernel, by decide +kernel⟩,
   ⟨{ pf with tenant := 15, length := 4 }, 63, _, ({ up with tq.ten := [(15, { assign := some {}, served := true })], tq.q := [(1023, { st := .running })], tq.ops := [{ gq := 1023, idx := 0, desc := { op := 1, body := .dma 0 0 16 0 }, startedAt := 0 }] } : Dev), _, rfl, taken (by decide +kernel), by decide +kernel, by decide +kernel⟩,
   ⟨{ pf with tenant := 15, length := 8 }, 63, 0, _, ({ up with tq.ten := [(15, { assign := some {}, served := true })], tq.q := [(1023, { st := .running, tail := 1 })], tq.ops := [{ gq := 1023, idx := 0, desc := { op := 1, body := .dma 0 0 16 0 }, startedAt := 0 }] } : Dev), _, rfl, taken (by decide +kernel), by decide +kernel, by decide +kernel, by decide +kernel⟩,
   ⟨{ pf with tenant := 15, length := 8 }, 63, 4294967295, _, ({ up with tq.ten := [(15, { assign := some {}, served := true })] } : Dev), _, rfl, taken (by decide +kernel), by decide +kernel⟩,
   ⟨{ pf with tenant := 15, length := 4 }, 63, _, ({ up with tq.ten := [(15, { assign := some {}, served := true })], tq.q := [(1023, { st := .stopped })] } : Dev), _, rfl, taken (by decide +kernel)⟩,
   ⟨{ pf with tenant := 15, length := 8 }, 1048575, 1, _, ({ up with tq.ten := [(15, { assign := some {}, served := true })] } : Dev), _, rfl, taken (by decide +kernel)⟩,
   ⟨{ pf with tenant := 15, length := 24 }, 31, 0, 0x200000, 21, 1, _, ({ up with tq.ten := [(15, { assign := some {}, served := true })] } : Dev), _, rfl, taken (by decide +kernel), by decide +kernel⟩,
   ⟨{ pf with tenant := 15, length := 4 }, 31, _, ({ up with tq.ten := [(15, { assign := some {}, served := true })], rm.streams := [(511, { st := .refused })] } : Dev), _, rfl, taken (by decide +kernel), by decide +kernel⟩,
   ⟨{ pf with tenant := 15, length := 4 }, 31, _, ({ up with tq.ten := [(15, { assign := some {}, served := true })] } : Dev), _, rfl, taken (by decide +kernel), by decide +kernel⟩⟩
/-- DeviceAndFirmwareCommands. -/
theorem witness_device_and_firmware_commands :
    (∃ (r : Req) (c : Cmd) (d : Dev) (d' : Dev), c = { op := 0x0100, tn := true, m := true, dev := true, live := true } ∧ d.admits c r = (d', true)) ∧
    (∃ (r : Req) (c : Cmd) (d : Dev) (d' : Dev), c = { op := 0x0101, tn := true, m := true, dev := true, live := true, len := 4 } ∧ d.admits c r = (d', true)) ∧
    (∃ (r : Req) (c : Cmd) (d : Dev) (d' : Dev), c = { op := 0x0102, m := true, rcv := true, live := true } ∧ d.admits c r = (d', true)) ∧
    (∃ (r : Req) (c : Cmd) (d : Dev) (d' : Dev), c = { op := 0x0103, m := true, live := true } ∧ d.admits c r = (d', true)) ∧
    (∃ (r : Req) (mode : Nat) (c : Cmd) (d : Dev) (d' : Dev), c = { op := 0x0104, m := true, rcv := true, live := true, len := 4, ok := decide (mode = 0) } ∧ d.admits c r = (d', true)) ∧
    (∃ (d : Dev), d.mbx.resetAt.isSome = true) ∧
    (∃ (d : Dev), d.mbx.resetAt = none) ∧
    (∃ (r : Req) (slot : Nat) (offset : Nat) (data : List Byte) (c : Cmd) (d : Dev) (d' : Dev), c = { op := 0x0110, m := true, rcv := true, acc := true, len := 16 + data.length, objs := [.flash], ok := decide (slot < 2) && flashRange slot offset data.length } ∧ d.admits c r = (d', true) ∧ d'.flashRefused slot offset = false) ∧
    (∃ (r : Req) (slot : Nat) (offset : Nat) (data : List Byte) (c : Cmd) (d : Dev) (d' : Dev), c = { op := 0x0110, m := true, rcv := true, acc := true, len := 16 + data.length, objs := [.flash], ok := decide (slot < 2) && flashRange slot offset data.length } ∧ d.admits c r = (d', true) ∧ d'.flashRefused slot offset = true) ∧
    (∃ (d : Dev) (j : FlJob), d.mbx.flJob = some j ∧ j.erase = true ∧ j.check = false) ∧
    (∃ (d : Dev), d.mbx.flJob = none) ∧
    (∃ (d : Dev) (j : FlJob), d.mbx.flJob = some j ∧ j.erase = false ∧ j.check = false) ∧
    (∃ (d : Dev), d.mbx.flJob = none) ∧
    (∃ (d : Dev) (j : FlJob), d.mbx.flJob = some j ∧ j.check = true) ∧
    (∃ (r : Req) (slot : Nat) (offset : Nat) (dlen : Nat) (c : Cmd) (d : Dev) (d' : Dev), c = { op := 0x0111, m := true, rcv := true, len := 16, objs := [.flash], ok := decide (slot < 3) && flashRange slot offset dlen } ∧ d.admits c r = (d', true)) ∧
    (∃ (r : Req) (slot : Nat) (c : Cmd) (d : Dev) (d' : Dev), c = { op := 0x0112, m := true, len := 4, objs := [.flash], ok := decide (slot < 2) } ∧ d.admits c r = (d', true)) ∧
    (∃ (r : Req) (c : Cmd) (d : Dev) (d' : Dev) (m : Memory), c = { op := 0x0113, m := true, objs := [.flash] } ∧ d.admits c r = (d', true) ∧ d'.onTrial m = true) ∧
    (∃ (r : Req) (c : Cmd) (d : Dev) (d' : Dev) (m : Memory), c = { op := 0x0113, m := true, objs := [.flash] } ∧ d.admits c r = (d', true) ∧ d'.onTrial m = false) ∧
    (∃ (r : Req) (port : Nat) (c : Cmd) (d : Dev) (d' : Dev), c = { op := 0x0120, len := 4, item := some 5, ok := decide (port < 8) } ∧ d.admits c r = (d', true)) :=
  ⟨⟨pf, _, up, _, rfl, taken (by decide +kernel)⟩,
   ⟨{ pf with length := 4 }, _, up, _, rfl, taken (by decide +kernel)⟩,
   ⟨pf, _, up, _, rfl, taken (by decide +kernel)⟩,
   ⟨pf, _, up, _, rfl, taken (by decide +kernel)⟩,
   ⟨{ pf with length := 4 }, 0, _, up, _, rfl, taken (by decide +kernel)⟩,
   ⟨{ ({} : Dev) with mbx.resetAt := some 5 }, by decide +kernel⟩,
   ⟨({} : Dev), by decide +kernel⟩,
   ⟨{ pf with length := 16 + 2048 }, 1, 0, List.replicate 2048 0, _, (up : Dev), _, rfl, taken (by decide +kernel), by decide +kernel⟩,
   ⟨{ pf with length := 16 + 2048 }, 0, 0, List.replicate 2048 0, _, (up : Dev), _, rfl, taken (by decide +kernel), by decide +kernel⟩,
   ⟨{ ({} : Dev) with mbx.flJob := some { slot := 1, off := 0, data := [1], erase := true, final := false } }, { slot := 1, off := 0, data := [1], erase := true, final := false }, by decide +kernel, by decide +kernel, by decide +kernel⟩,
   ⟨({} : Dev), by decide +kernel⟩,
   ⟨{ ({} : Dev) with mbx.flJob := some { slot := 1, off := 8, data := [1], erase := false, final := false } }, { slot := 1, off := 8, data := [1], erase := false, final := false }, by decide +kernel, by decide +kernel, by decide +kernel⟩,
   ⟨({} : Dev), by decide +kernel⟩,
   ⟨{ ({} : Dev) with mbx.flJob := some { slot := 1, off := 8, data := [1], erase := false, final := true, check := true } }, { slot := 1, off := 8, data := [1], erase := false, final := true, check := true }, by decide +kernel, by decide +kernel⟩,
   ⟨{ pf with length := 16 }, 2, 0, 16, _, up, _, rfl, taken (by decide +kernel)⟩,
   ⟨{ pf with length := 4 }, 1, _, (up : Dev), _, rfl, taken (by decide +kernel)⟩,
   ⟨pf, _, up, _, dirWrite [] false true, rfl, taken (by decide +kernel), by decide +kernel⟩,
   ⟨pf, _, up, _, [], rfl, taken (by decide +kernel), by decide +kernel⟩,
   ⟨{ pf with length := 4 }, 7, _, { up with boot.items := [(5, .up)] }, _, rfl, taken (by decide +kernel)⟩⟩
/-- FabricAndCollectiveCommands. -/
theorem witness_fabric_and_collective_commands :
    (∃ (r : Req) (c : Cmd) (d : Dev) (d' : Dev), c = { op := 0x0500, m := true, live := true } ∧ d.admits c r = (d', true)) ∧
    (∃ (r : Req) (pkgid : Nat) (c : Cmd) (d : Dev) (d' : Dev), c = { op := 0x0501, m := true, len := 4, ok := decide (pkgid < 2048) } ∧ d.admits c r = (d', true) ∧ d'.fab.node = none) ∧
    (∃ (r : Req) (pkgid : Nat) (c : Cmd) (d : Dev) (d' : Dev), c = { op := 0x0501, m := true, len := 4, ok := decide (pkgid < 2048) } ∧ d.admits c r = (d', true) ∧ d'.fab.node.isSome = true) ∧
    (∃ (r : Req) (ftime : W64) (tflags : W32) (c : Cmd) (d : Dev) (d' : Dev), c = { op := 0x0502, len := 16, ok := decide (d.fab.time ≤ ftime.toNat) && decide (tflags.toNat < 2) } ∧ d.admits c r = (d', true)) ∧
    (∃ (r : Req) (first : Nat) (entries : List W32) (c : Cmd) (d : Dev) (d' : Dev), c = { op := 0x0503, len := 4 + 4 * entries.length, ok := decide (1 ≤ entries.length) && decide (entries.length ≤ 1019) && decide (first + entries.length ≤ 4096) && entries.all routeOk } ∧ d.admits c r = (d', true)) ∧
    (∃ (r : Req) (trunk : Nat) (ports : BitVec 64) (c : Cmd) (d : Dev) (d' : Dev), c = { op := 0x0504, len := 16, acc := true, objs := [.trunk trunk], ok := d.trunkOk trunk ports } ∧ d.admits c r = (d', true)) ∧
    (∃ (r : Req) (port : Nat) (c : Cmd) (d : Dev) (d' : Dev), c = { op := 0x0505, len := 4, acc := true, item := some 4, objs := [resetObj port], ok := decide (port < 64) || (decide (0x80 ≤ port) && decide (port < 0x88)) } ∧ d.admits c r = (d', true) ∧ d'.resetPorts port ≠ [] ∧ ((d'.resetPorts port).any fun p => (d'.lport p).dark) = false) ∧
    (∃ (r : Req) (port : Nat) (c : Cmd) (d : Dev) (d' : Dev), c = { op := 0x0505, len := 4, acc := true, item := some 4, objs := [resetObj port], ok := decide (port < 64) || (decide (0x80 ≤ port) && decide (port < 0x88)) } ∧ d.admits c r = (d', true) ∧ d'.resetPorts port = []) ∧
    (∃ (r : Req) (group : Nat) (total : Nat) (first : Nat) (members : List Nat) (c : Cmd) (d : Dev) (d' : Dev), c = { op := 0x0600, pf := false, tn := true, len := 8 + 2 * members.length, change := true, objs := [.group r.tenant.toNat group], ok := decide (group < 256) && decide (2 ≤ total) && decide (total ≤ 4096) && decide (1 ≤ members.length) && decide (members.length ≤ 2036) && decide (first + members.length ≤ total) && (decide (first = 0) || (decide (first = (d.group r.tenant.toNat group).received) && decide (total = (d.group r.tenant.toNat group).total))) } ∧ d.admits c r = (d', true) ∧ d'.groupBusy r.tenant.toNat group first = false ∧ ((d'.groupWith r.tenant.toNat group total first members).received < total ∨ d'.namesSelf r.tenant.toNat (d'.groupWith r.tenant.toNat group total first members).members = true)) ∧
    (∃ (r : Req) (group : Nat) (total : Nat) (first : Nat) (members : List Nat) (c : Cmd) (d : Dev) (d' : Dev), c = { op := 0x0600, pf := false, tn := true, len := 8 + 2 * members.length, change := true, objs := [.group r.tenant.toNat group], ok := decide (group < 256) && decide (2 ≤ total) && decide (total ≤ 4096) && decide (1 ≤ members.length) && decide (members.length ≤ 2036) && decide (first + members.length ≤ total) && (decide (first = 0) || (decide (first = (d.group r.tenant.toNat group).received) && decide (total = (d.group r.tenant.toNat group).total))) } ∧ d.admits c r = (d', true) ∧ d'.groupBusy r.tenant.toNat group first = true) ∧
    (∃ (r : Req) (group : Nat) (total : Nat) (first : Nat) (members : List Nat) (c : Cmd) (d : Dev) (d' : Dev), c = { op := 0x0600, pf := false, tn := true, len := 8 + 2 * members.length, change := true, objs := [.group r.tenant.toNat group], ok := decide (group < 256) && decide (2 ≤ total) && decide (total ≤ 4096) && decide (1 ≤ members.length) && decide (members.length ≤ 2036) && decide (first + members.length ≤ total) && (decide (first = 0) || (decide (first = (d.group r.tenant.toNat group).received) && decide (total = (d.group r.tenant.toNat group).total))) } ∧ d.admits c r = (d', true) ∧ d'.groupBusy r.tenant.toNat group first = false ∧ total ≤ (d'.groupWith r.tenant.toNat group total first members).received ∧ d'.namesSelf r.tenant.toNat (d'.groupWith r.tenant.toNat group total first members).members = false) ∧
    (∃ (r : Req) (group : Nat) (c : Cmd) (d : Dev) (d' : Dev), c = { op := 0x0601, pf := false, tn := true, len := 4, acc := true, change := true, objs := [.group r.tenant.toNat group], ok := decide (group < 256) } ∧ d.admits c r = (d', true) ∧ (d'.group r.tenant.toNat group).total ≠ 0 ∧ (d'.journalCfg r.tenant.toNat 0x0601 [group]).groupOpen r.tenant.toNat group = false) ∧
    (∃ (r : Req) (group : Nat) (c : Cmd) (d : Dev) (d' : Dev), c = { op := 0x0601, pf := false, tn := true, len := 4, acc := true, change := true, objs := [.group r.tenant.toNat group], ok := decide (group < 256) } ∧ d.admits c r = (d', true) ∧ (d'.group r.tenant.toNat group).total ≠ 0 ∧ (d'.journalCfg r.tenant.toNat 0x0601 [group]).groupOpen r.tenant.toNat group = true) ∧
    (∃ (r : Req) (group : Nat) (c : Cmd) (d : Dev) (d' : Dev), c = { op := 0x0601, pf := false, tn := true, len := 4, acc := true, change := true, objs := [.group r.tenant.toNat group], ok := decide (group < 256) } ∧ d.admits c r = (d', true) ∧ (d'.group r.tenant.toNat group).total = 0) ∧
    (∃ (r : Req) (group : Nat) (c : Cmd) (d : Dev) (d' : Dev), c = { op := 0x0602, pf := false, tn := true, len := 4, live := true, objs := [.group r.tenant.toNat group], ok := decide (group < 256) } ∧ d.admits c r = (d', true)) ∧
    (∃ (r : Req) (index : Nat) (c : Cmd) (d : Dev) (d' : Dev), c = { op := 0x0610, pf := false, tn := true, len := 4 } ∧ d.admits c r = (d', true) ∧ d'.semOwner index = r.tenant.toNat + 1) ∧
    (∃ (r : Req) (index : Nat) (c : Cmd) (d : Dev) (d' : Dev), c = { op := 0x0610, pf := false, tn := true, len := 4 } ∧ d.admits c r = (d', true) ∧ d'.semOwner index ≠ r.tenant.toNat + 1) ∧
    (∃ (r : Req) (index : Nat) (c : Cmd) (d : Dev) (d' : Dev), c = { op := 0x0611, pf := false, tn := true, len := 16 } ∧ d.admits c r = (d', true) ∧ d'.semOwner index = r.tenant.toNat + 1) ∧
    (∃ (r : Req) (index : Nat) (c : Cmd) (d : Dev) (d' : Dev), c = { op := 0x0611, pf := false, tn := true, len := 16 } ∧ d.admits c r = (d', true) ∧ d'.semOwner index ≠ r.tenant.toNat + 1) :=
  ⟨⟨pf, _, up, _, rfl, taken (by decide +kernel)⟩,
   ⟨{ pf with length := 4 }, 2047, _, up, _, rfl, taken (by decide +kernel), by decide +kernel⟩,
   ⟨{ pf with length := 4 }, 0, _, ({ up with fab.node := some 0 } : Dev), _, rfl, taken (by decide +kernel), by decide +kernel⟩,
   ⟨{ pf with length := 16 }, 5, 1, _, up, _, rfl, taken (by decide +kernel)⟩,
   ⟨{ pf with length := 8 }, 4095, [0], _, up, _, rfl, taken (by decide +kernel)⟩,
   ⟨{ pf with length := 16 }, 7, 3, _, up, _, rfl, taken (by decide +kernel)⟩,
   ⟨{ pf with length := 4 }, 63, _, { up with boot.items := [(4, .up)] }, _, rfl, taken (by decide +kernel), by decide +kernel, by decide +kernel⟩,
   ⟨{ pf with length := 4 }, 128, _, { up with boot.items := [(4, .up)] }, _, rfl, taken (by decide +kernel), by decide +kernel⟩,
   ⟨{ pf with tenant := 15, length := 10 }, 255, 2, 0, [1], _, ({ up with tq.ten := [(15, { assign := some {}, served := true })] } : Dev), _, rfl, taken (by decide +kernel), by decide +kernel, by decide +kernel⟩,
   ⟨{ pf with tenant := 15, length := 10 }, 255, 2, 0, [1], _, ({ up with tq.ten := [(15, { assign := some {}, served := true })], col.inst := [{ t := 15, g := 255, k := 0 }] } : Dev), _, rfl, taken (by decide +kernel), by decide +kernel⟩,
   ⟨{ pf with tenant := 15, length := 12 }, 255, 2, 0, [1, 2], _, ({ up with tq.ten := [(15, { assign := some {}, served := true })], fab.node := some 100 } : Dev), _, rfl, taken (by decide +kernel), by decide +kernel, by decide +kernel, by decide +kernel⟩,
   ⟨{ pf with tenant := 15, length := 4 }, 255, _, { up with tq.ten := [(15, { assign := some {}, served := true })], col.groups := [(4095, { total := 2 })] }, _, rfl, taken (by decide +kernel), by decide +kernel, by decide +kernel⟩,
   ⟨{ pf with tenant := 15, length := 4 }, 255, _, { up with tq.ten := [(15, { assign := some {}, served := true })], col.groups := [(4095, { total := 2 })], col.inst := [{ t := 15, g := 255, k := 0 }] }, _, rfl, taken (by decide +kernel), by decide +kernel, by decide +kernel⟩,
   ⟨{ pf with tenant := 15, length := 4 }, 255, _, ({ up with tq.ten := [(15, { assign := some {}, served := true })] } : Dev), _, rfl, taken (by decide +kernel), by decide +kernel⟩,
   ⟨{ pf with tenant := 15, length := 4 }, 255, _, ({ up with tq.ten := [(15, { assign := some {}, served := true })] } : Dev), _, rfl, taken (by decide +kernel)⟩,
   ⟨{ pf with tenant := 15, length := 4 }, 262143, _, ({ up with tq.ten := [(15, { assign := some {}, served := true })], col.owner := [(255, 16)] } : Dev), _, rfl, taken (by decide +kernel), by decide +kernel⟩,
   ⟨{ pf with tenant := 15, length := 4 }, 0, _, ({ up with tq.ten := [(15, { assign := some {}, served := true })] } : Dev), _, rfl, taken (by decide +kernel), by decide +kernel⟩,
   ⟨{ pf with tenant := 15, length := 16 }, 262143, _, ({ up with tq.ten := [(15, { assign := some {}, served := true })], col.owner := [(255, 16)] } : Dev), _, rfl, taken (by decide +kernel), by decide +kernel⟩,
   ⟨{ pf with tenant := 15, length := 16 }, 0, _, ({ up with tq.ten := [(15, { assign := some {}, served := true })] } : Dev), _, rfl, taken (by decide +kernel), by decide +kernel⟩⟩
/-- VaultCommandGroup. -/
theorem witness_vault_command_group :
    (∃ (r : Req) (region : Nat) (base : W64) (size : W64) (pasid : Nat) (c : Cmd) (d : Dev) (d' : Dev), c = { op := 0x0700, pf := false, tn := true, item := some 6, len := 28, objs := [.region r.tenant.toNat region], change := true, ok := decide (region < 16) && decide (base.toNat % granuleSize = 0) && decide (0 < size.toNat) && decide (size.toNat ≤ 2 ^ 40) && decide (size.toNat % granuleSize = 0) && decide (pasid < 2 ^ 20) } ∧ d.admits c r = (d', true) ∧ (Tab.look none region (d'.vten r.tenant.toNat).regions).isSome = false ∧ d'.regionsFit r.tenant.toNat size.toNat = true) ∧
    (∃ (r : Req) (region : Nat) (base : W64) (size : W64) (pasid : Nat) (c : Cmd) (d : Dev) (d' : Dev), c = { op := 0x0700, pf := false, tn := true, item := some 6, len := 28, objs := [.region r.tenant.toNat region], change := true, ok := decide (region < 16) && decide (base.toNat % granuleSize = 0) && decide (0 < size.toNat) && decide (size.toNat ≤ 2 ^ 40) && decide (size.toNat % granuleSize = 0) && decide (pasid < 2 ^ 20) } ∧ d.admits c r = (d', true) ∧ (Tab.look none region (d'.vten r.tenant.toNat).regions).isSome = true) ∧
    (∃ (r : Req) (region : Nat) (c : Cmd) (d : Dev) (d' : Dev), c = { op := 0x0701, pf := false, tn := true, item := some 6, len := 4, acc := true, objs := [.region r.tenant.toNat region], change := true, ok := decide (region < 16) } ∧ d.admits c r = (d', true) ∧ (Tab.look none region (d'.vten r.tenant.toNat).regions).isSome = true ∧ (d'.vten r.tenant.toNat).sealing = none ∧ (d'.vten r.tenant.toNat).restoring = none) ∧
    (∃ (r : Req) (region : Nat) (c : Cmd) (d : Dev) (d' : Dev), c = { op := 0x0701, pf := false, tn := true, item := some 6, len := 4, acc := true, objs := [.region r.tenant.toNat region], change := true, ok := decide (region < 16) } ∧ d.admits c r = (d', true) ∧ (Tab.look none region (d'.vten r.tenant.toNat).regions) = none) ∧
    (∃ (r : Req) (c : Cmd) (d : Dev) (d' : Dev), c = { op := 0x0702, pf := false, tn := true, item := some 6, len := 8, acc := true, objs := (.tenant r.tenant.toNat :: allRegions r.tenant.toNat) } ∧ d.admits c r = (d', true) ∧ d'.maySeal r.tenant.toNat = true) ∧
    (∃ (r : Req) (c : Cmd) (d : Dev) (d' : Dev), c = { op := 0x0702, pf := false, tn := true, item := some 6, len := 8, acc := true, objs := (.tenant r.tenant.toNat :: allRegions r.tenant.toNat) } ∧ d.admits c r = (d', true) ∧ d'.maySeal r.tenant.toNat = false) ∧
    (∃ (r : Req) (epoch : W64) (source : Nat) (c : Cmd) (d : Dev) (d' : Dev), c = { op := 0x0703, pf := false, tn := true, item := some 6, len := 16, acc := true, objs := (.tenant r.tenant.toNat :: allRegions r.tenant.toNat), ok := decide (source < 2) } ∧ d.admits c r = (d', true) ∧ d'.restorable r.tenant.toNat epoch.toNat source = true) ∧
    (∃ (r : Req) (epoch : W64) (source : Nat) (c : Cmd) (d : Dev) (d' : Dev), c = { op := 0x0703, pf := false, tn := true, item := some 6, len := 16, acc := true, objs := (.tenant r.tenant.toNat :: allRegions r.tenant.toNat), ok := decide (source < 2) } ∧ d.admits c r = (d', true) ∧ d'.restorable r.tenant.toNat epoch.toNat source = false) ∧
    (∃ (r : Req) (c : Cmd) (d : Dev) (d' : Dev), c = { op := 0x0704, pf := false, tn := true, item := some 6, live := true } ∧ d.admits c r = (d', true)) ∧
    (∃ (r : Req) (epoch : W64) (c : Cmd) (d : Dev) (d' : Dev), c = { op := 0x0705, pf := false, tn := true, item := some 6, len := 8 } ∧ d.admits c r = (d', true) ∧ (d'.sealAt r.tenant.toNat epoch.toNat).isSome = true ∧ d'.epochUsed r.tenant.toNat epoch.toNat = false) ∧
    (∃ (r : Req) (epoch : W64) (c : Cmd) (d : Dev) (d' : Dev), c = { op := 0x0705, pf := false, tn := true, item := some 6, len := 8 } ∧ d.admits c r = (d', true) ∧ d'.sealAt r.tenant.toNat epoch.toNat = none) ∧
    (∃ (r : Req) (die : Nat) (block : Nat) (c : Cmd) (d : Dev) (d' : Dev), c = { op := 0x0710, item := some 6, len := 8, acc := true, objs := [.block die block], ok := decide (die < 8) && decide (block < 4096) } ∧ d.admits c r = (d', true) ∧ d'.rawRefused r.path (4096 * die + block) = none) ∧
    (∃ (r : Req) (die : Nat) (block : Nat) (c : Cmd) (d : Dev) (d' : Dev) (st : Status), c = { op := 0x0710, item := some 6, len := 8, acc := true, objs := [.block die block], ok := decide (die < 8) && decide (block < 4096) } ∧ d.admits c r = (d', true) ∧ d'.rawRefused r.path (4096 * die + block) = some st) ∧
    (∃ (r : Req) (die : Nat) (plane : Nat) (block : Nat) (page : Nat) (c : Cmd) (d : Dev) (d' : Dev), c = { op := 0x0711, item := some 6, len := 16, acc := true, objs := [.block die block], ok := decide (die < 8) && decide (block < 4096) && decide (plane = block % 4) && decide (page < 1024) } ∧ d.admits c r = (d', true) ∧ d'.rawRefused r.path (4096 * die + block) = none ∧ (d'.blk (4096 * die + block)).written ≤ page) ∧
    (∃ (r : Req) (die : Nat) (plane : Nat) (block : Nat) (page : Nat) (c : Cmd) (d : Dev) (d' : Dev), c = { op := 0x0711, item := some 6, len := 16, acc := true, objs := [.block die block], ok := decide (die < 8) && decide (block < 4096) && decide (plane = block % 4) && decide (page < 1024) } ∧ d.admits c r = (d', true) ∧ d'.rawRefused r.path (4096 * die + block) = none ∧ page < (d'.blk (4096 * die + block)).written) ∧
    (∃ (r : Req) (die : Nat) (plane : Nat) (block : Nat) (page : Nat) (offset : Nat) (dlen : Nat) (c : Cmd) (d : Dev) (d' : Dev) (w : W32), c = { op := 0x0712, item := some 6, len := 16, objs := [.block die block], ok := decide (die < 8) && decide (block < 4096) && decide (plane = block % 4) && decide (page < 1024) && decide (16 ≤ dlen) && decide (dlen ≤ 4064) && decide (offset + dlen ≤ 16384) } ∧ d.admits c r = (d', true) ∧ d'.rawRefused r.path (4096 * die + block) = none ∧ Tab.look none page (d'.blk (4096 * die + block)).pattern = some w) ∧
    (∃ (r : Req) (die : Nat) (plane : Nat) (block : Nat) (page : Nat) (offset : Nat) (dlen : Nat) (c : Cmd) (d : Dev) (d' : Dev), c = { op := 0x0712, item := some 6, len := 16, objs := [.block die block], ok := decide (die < 8) && decide (block < 4096) && decide (plane = block % 4) && decide (page < 1024) && decide (16 ≤ dlen) && decide (dlen ≤ 4064) && decide (offset + dlen ≤ 16384) } ∧ d.admits c r = (d', true) ∧ d'.rawRefused r.path (4096 * die + block) = none ∧ Tab.look none page (d'.blk (4096 * die + block)).pattern = none) :=
  ⟨⟨{ pf with tenant := 15, length := 28 }, 15, 0, 0x200000, 0, _, ({ up with boot.items := [(6, .up)], tq.ten := [(15, { assign := some { vaultGib := 1 }, served := true })] } : Dev), _, rfl, taken (by decide +kernel), by decide +kernel, by decide +kernel⟩,
   ⟨{ pf with tenant := 15, length := 28 }, 15, 0, 0x200000, 0, _, ({ up with boot.items := [(6, .up)], tq.ten := [(15, { assign := some {}, served := true })], vlt.ten := [(15, { regions := [(15, some { base := 0, size := 0, pasid := 0 })] })] } : Dev), _, rfl, taken (by decide +kernel), by decide +kernel⟩,
   ⟨{ pf with tenant := 15, length := 4 }, 15, _, ({ up with boot.items := [(6, .up)], tq.ten := [(15, { assign := some {}, served := true })], vlt.ten := [(15, { regions := [(15, some { base := 0, size := 0, pasid := 0 })] })] } : Dev), _, rfl, taken (by decide +kernel), by decide +kernel, by decide +kernel, by decide +kernel⟩,
   ⟨{ pf with tenant := 15, length := 4 }, 15, _, ({ up with boot.items := [(6, .up)], tq.ten := [(15, { assign := some {}, served := true })] } : Dev), _, rfl, taken (by decide +kernel), by decide +kernel⟩,
   ⟨{ pf with tenant := 15, length := 8 }, _, ({ up with boot.items := [(6, .up)], tq.ten := [(15, { assign := some { vaultGib := 1 }, served := true })] } : Dev), _, rfl, taken (by decide +kernel), by decide +kernel⟩,
   ⟨{ pf with tenant := 15, length := 8 }, _, ({ up with boot.items := [(6, .up)], tq.ten := [(15, { assign := some { vaultGib := 1 }, served := true })], onyx.seals := List.replicate 16 { t := 15, epoch := 1, tag := 0, time := 0, chain := [] } } : Dev), _, rfl, taken (by decide +kernel), by decide +kernel⟩,
   ⟨{ pf with tenant := 15, length := 16 }, 1, 0, _, ({ up with boot.items := [(6, .up)], tq.ten := [(15, { assign := some {}, served := true })], onyx.seals := [{ t := 15, epoch := 1, tag := 0, time := 0, chain := [] }] } : Dev), _, rfl, taken (by decide +kernel), by decide +kernel⟩,
   ⟨{ pf with tenant := 15, length := 16 }, 0, 0, _, ({ up with boot.items := [(6, .up)], tq.ten := [(15, { assign := some {}, served := true })] } : Dev), _, rfl, taken (by decide +kernel), by decide +kernel⟩,
   ⟨{ pf with tenant := 15 }, _, ({ up with boot.items := [(6, .up)], tq.ten := [(15, { assign := some {}, served := true })] } : Dev), _, rfl, taken (by decide +kernel)⟩,
   ⟨{ pf with tenant := 15, length := 8 }, 1, _, ({ up with boot.items := [(6, .up)], tq.ten := [(15, { assign := some {}, served := true })], onyx.seals := [{ t := 15, epoch := 1, tag := 0, time := 0, chain := [] }] } : Dev), _, rfl, taken (by decide +kernel), by decide +kernel, by decide +kernel⟩,
   ⟨{ pf with tenant := 15, length := 8 }, 0, _, ({ up with boot.items := [(6, .up)], tq.ten := [(15, { assign := some {}, served := true })] } : Dev), _, rfl, taken (by decide +kernel), by decide +kernel⟩,
   ⟨{ pf with length := 8 }, 7, 4095, _, ({ up with boot.items := [(6, .up)], sec.auth := [(.pcie 0, { role := 3 })], onyx.blks := [(32767, { st := .retired, written := 4 })] } : Dev), _, rfl, taken (by decide +kernel), by decide +kernel⟩,
   ⟨{ pf with length := 8 }, 7, 4095, _, ({ up with boot.items := [(6, .up)] } : Dev), _, .accessDenied, rfl, taken (by decide +kernel), by decide +kernel⟩,
   ⟨{ pf with length := 16 }, 7, 3, 4095, 1023, _, ({ up with boot.items := [(6, .up)], sec.auth := [(.pcie 0, { role := 3 })], onyx.blks := [(32767, { st := .retired, written := 4 })] } : Dev), _, rfl, taken (by decide +kernel), by decide +kernel, by decide +kernel⟩,
   ⟨{ pf with length := 16 }, 7, 3, 4095, 3, _, ({ up with boot.items := [(6, .up)], sec.auth := [(.pcie 0, { role := 3 })], onyx.blks := [(32767, { st := .retired, written := 4 })] } : Dev), _, rfl, taken (by decide +kernel), by decide +kernel, by decide +kernel⟩,
   ⟨{ pf with length := 16 }, 7, 3, 4095, 3, 0, 16, _, ({ up with boot.items := [(6, .up)], sec.auth := [(.pcie 0, { role := 3 })], onyx.blks := [(32767, { st := .retired, written := 4, pattern := [(3, some 5)] })] } : Dev), _, 5, rfl, taken (by decide +kernel), by decide +kernel, by decide +kernel⟩,
   ⟨{ pf with length := 16 }, 7, 3, 4095, 3, 0, 16, _, ({ up with boot.items := [(6, .up)], sec.auth := [(.pcie 0, { role := 3 })], onyx.blks := [(32767, { st := .retired, written := 4 })] } : Dev), _, rfl, taken (by decide +kernel), by decide +kernel, by decide +kernel⟩⟩
/-- TwinAndSecurityCommandGroup. -/
theorem witness_twin_and_security_command_group :
    (∃ (r : Req) (c : Cmd) (d : Dev) (d' : Dev), c = { op := 0x0800, m := true, item := some 7, len := 4, acc := true } ∧ d.admits c r = (d', true) ∧ d'.twn.st = .off) ∧
    (∃ (r : Req) (c : Cmd) (d : Dev) (d' : Dev), c = { op := 0x0800, m := true, item := some 7, len := 4, acc := true } ∧ d.admits c r = (d', true) ∧ d'.twn.st ≠ .off) ∧
    (∃ (r : Req) (c : Cmd) (d : Dev) (d' : Dev), c = { op := 0x0800, m := true, item := some 7, len := 4, acc := true } ∧ d.admits c r = (d', true)) ∧
    (∃ (r : Req) (c : Cmd) (d : Dev) (d' : Dev), c = { op := 0x0801, m := true, item := some 7, live := true } ∧ d.admits c r = (d', true)) ∧
    (∃ (r : Req) (c : Cmd) (d : Dev) (d' : Dev), c = { op := 0x0802, m := true, item := some 7, acc := true } ∧ d.admits c r = (d', true) ∧ d'.twn.st = .cleave ∧ (d'.lport 64).st = .active) ∧
    (∃ (r : Req) (c : Cmd) (d : Dev) (d' : Dev), c = { op := 0x0802, m := true, item := some 7, acc := true } ∧ d.admits c r = (d', true) ∧ d'.twn.st = .solo ∧ (d'.lport 64).st = .active) ∧
    (∃ (r : Req) (c : Cmd) (d : Dev) (d' : Dev), c = { op := 0x0802, m := true, item := some 7, acc := true } ∧ d.admits c r = (d', true) ∧ (d'.lport 64).st ≠ .active) ∧
    (∃ (r : Req) (c : Cmd) (d : Dev) (d' : Dev), c = { op := 0x0803, m := true, item := some 7, acc := true } ∧ d.admits c r = (d', true) ∧ d'.twn.st = .cleave) ∧
    (∃ (r : Req) (c : Cmd) (d : Dev) (d' : Dev), c = { op := 0x0900, m := true, live := true } ∧ d.admits c r = (d', true)) ∧
    (∃ (r : Req) (c : Cmd) (d : Dev) (d' : Dev), c = { op := 0x0901, acc := true } ∧ d.admits c r = (d', true)) ∧
    (∃ (r : Req) (confirm : W32) (c : Cmd) (d : Dev) (d' : Dev), c = { op := 0x0902, m := true, live := true, len := 4, acc := true, ok := decide (confirm.toNat = 0x5A45524F) } ∧ d.admits c r = (d', true)) ∧
    (∃ (r : Req) (port : Nat) (c : Cmd) (d : Dev) (d' : Dev), c = { op := 0x0903, len := 4, acc := true, objs := [.port port], ok := decide (port ≤ 64) } ∧ d.admits c r = (d', true) ∧ (d'.authOf r.path).role = 1 ∧ d'.active port = true ∧ d'.keyService = true) ∧
    (∃ (r : Req) (port : Nat) (c : Cmd) (d : Dev) (d' : Dev), c = { op := 0x0903, len := 4, acc := true, objs := [.port port], ok := decide (port ≤ 64) } ∧ d.admits c r = (d', true) ∧ (d'.authOf r.path).role ≠ 1) ∧
    (∃ (r : Req) (role : Nat) (c : Cmd) (d : Dev) (d' : Dev), c = { op := 0x0910, m := true, len := 4, ok := decide (role < 4) } ∧ d.admits c r = (d', true) ∧ d'.authLocked r = false ∧ (role = 0 ∨ d'.keyService = true)) ∧
    (∃ (r : Req) (role : Nat) (c : Cmd) (d : Dev) (d' : Dev), c = { op := 0x0910, m := true, len := 4, ok := decide (role < 4) } ∧ d.admits c r = (d', true) ∧ d'.authLocked r = true) ∧
    (∃ (r : Req) (role : Nat) (c : Cmd) (d : Dev) (d' : Dev) (n : BitVec 384), c = { op := 0x0911, m := true, len := 100, ok := decide (role < 4) } ∧ d.admits c r = (d', true) ∧ d'.authNonce r = some (n, role) ∧ d'.keyService = true) ∧
    (∃ (r : Req) (role : Nat) (c : Cmd) (d : Dev) (d' : Dev) (n : BitVec 384) (want : Nat), c = { op := 0x0911, m := true, len := 100, ok := decide (role < 4) } ∧ d.admits c r = (d', true) ∧ d'.authNonce r = some (n, want) ∧ role ≠ want) ∧
    (∃ (r : Req) (role : Nat) (c : Cmd) (d : Dev) (d' : Dev), c = { op := 0x0911, m := true, len := 100, ok := decide (role < 4) } ∧ d.admits c r = (d', true) ∧ d'.authNonce r = none) :=
  ⟨⟨{ pf with length := 4 }, _, { up with boot.items := [(7, .up)] }, _, rfl, taken (by decide +kernel), by decide +kernel⟩,
   ⟨{ pf with length := 4 }, _, { up with boot.items := [(7, .up)], twn.st := .paired }, _, rfl, taken (by decide +kernel), by decide +kernel⟩,
   ⟨{ pf with length := 4 }, _, { up with boot.items := [(7, .up)] }, _, rfl, taken (by decide +kernel)⟩,
   ⟨pf, _, ({ up with boot.items := [(7, .up)] } : Dev), _, rfl, taken (by decide +kernel)⟩,
   ⟨pf, _, ({ up with boot.items := [(7, .up)], twn.st := .cleave, lnk.ports := [(64, { st := .active })] } : Dev), _, rfl, taken (by decide +kernel), by decide +kernel, by decide +kernel⟩,
   ⟨pf, _, ({ up with boot.items := [(7, .up)], twn.st := .solo, lnk.ports := [(64, { st := .active })] } : Dev), _, rfl, taken (by decide +kernel), by decide +kernel, by decide +kernel⟩,
   ⟨pf, _, ({ up with boot.items := [(7, .up)], twn.st := .solo } : Dev), _, rfl, taken (by decide +kernel), by decide +kernel⟩,
   ⟨pf, _, ({ up with boot.items := [(7, .up)], twn.st := .cleave } : Dev), _, rfl, taken (by decide +kernel), by decide +kernel⟩,
   ⟨pf, _, up, _, rfl, taken (by decide +kernel)⟩,
   ⟨pf, _, up, _, rfl, taken (by decide +kernel)⟩,
   ⟨{ pf with length := 4 }, 0x5A45524F, _, up, _, rfl, taken (by decide +kernel)⟩,
   ⟨{ pf with length := 4 }, 63, _, ({ up with sec.auth := [(.pcie 0, { role := 1 })], lnk.ports := [(63, { st := .active })] } : Dev), _, rfl, taken (by decide +kernel), by decide +kernel, by decide +kernel, by decide +kernel⟩,
   ⟨{ pf with length := 4 }, 64, _, up, _, rfl, taken (by decide +kernel), by decide +kernel⟩,
   ⟨{ pf with length := 4 }, 0, _, up, _, rfl, taken (by decide +kernel), by decide +kernel, by decide +kernel⟩,
   ⟨{ pf with length := 4 }, 0, _, ({ up with sec.auth := [(.pcie 0, { fails := 3, lockAt := some 0 })] } : Dev), _, rfl, taken (by decide +kernel), by decide +kernel⟩,
   ⟨{ pf with length := 100 }, 3, _, ({ up with sec.auth := [(.pcie 0, { nonce := some (7, 3, 0) })] } : Dev), _, 7, rfl, taken (by decide +kernel), by decide +kernel, by decide +kernel⟩,
   ⟨{ pf with length := 100 }, 1, _, ({ up with sec.auth := [(.pcie 0, { nonce := some (7, 3, 0) })] } : Dev), _, 7, 3, rfl, taken (by decide +kernel), by decide +kernel, by decide +kernel⟩,
   ⟨{ pf with length := 100 }, 0, _, up, _, rfl, taken (by decide +kernel), by decide +kernel⟩⟩
/-- OpticalAndPowerCommandGroup. -/
theorem witness_optical_and_power_command_group :
    (∃ (r : Req) (port : Nat) (lambda : Nat) (c : Cmd) (d : Dev) (d' : Dev), c = { op := 0x0B00, item := some 3, len := 4, acc := true, objs := [.port port], ok := decide (port < 64) && lambdaOk lambda } ∧ d.admits c r = (d', true) ∧ d'.active port = true ∧ (Tab.look none (port / 16) d'.cal.cmd).isSome = false ∧ d'.polishChans port lambda ≠ []) ∧
    (∃ (r : Req) (port : Nat) (lambda : Nat) (c : Cmd) (d : Dev) (d' : Dev), c = { op := 0x0B00, item := some 3, len := 4, acc := true, objs := [.port port], ok := decide (port < 64) && lambdaOk lambda } ∧ d.admits c r = (d', true) ∧ d'.active port = false) ∧
    (∃ (r : Req) (port : Nat) (c : Cmd) (d : Dev) (d' : Dev), c = { op := 0x0B01, item := some 3, live := true, len := 4, objs := [.port port], ok := decide (port < 64) } ∧ d.admits c r = (d', true)) ∧
    (∃ (r : Req) (port : Nat) (c : Cmd) (d : Dev) (d' : Dev), c = { op := 0x0B02, item := some 2, live := true, len := 4, objs := [.port port], ok := decide (port < 64) } ∧ d.admits c r = (d', true)) ∧
    (∃ (r : Req) (port : Nat) (lane : Nat) (lambda : Nat) (c : Cmd) (d : Dev) (d' : Dev) (k : Nat), c = { op := 0x0B03, item := some 2, len := 4, acc := true, objs := [.port port], ok := decide (port < 64) && decide (lane < 16) && lambdaOk lambda } ∧ d.admits c r = (d', true) ∧ d'.active port = false ∧ d'.mapDest port lambda = some k) ∧
    (∃ (r : Req) (port : Nat) (lane : Nat) (lambda : Nat) (c : Cmd) (d : Dev) (d' : Dev) (a : Nat), c = { op := 0x0B03, item := some 2, len := 4, acc := true, objs := [.port port], ok := decide (port < 64) && decide (lane < 16) && lambdaOk lambda } ∧ d.admits c r = (d', true) ∧ d'.active port = true ∧ laneAt (d'.wport port).tx lane = some a ∧ d'.noDest port lambda = false) ∧
    (∃ (r : Req) (port : Nat) (lane : Nat) (lambda : Nat) (c : Cmd) (d : Dev) (d' : Dev) (a : Nat), c = { op := 0x0B03, item := some 2, len := 4, acc := true, objs := [.port port], ok := decide (port < 64) && decide (lane < 16) && lambdaOk lambda } ∧ d.admits c r = (d', true) ∧ d'.active port = true ∧ laneAt (d'.wport port).tx lane = some a ∧ d'.noDest port lambda = true) ∧
    (∃ (r : Req) (ruby : Nat) (pos : Nat) (c : Cmd) (d : Dev) (d' : Dev), c = { op := 0x0B04, item := some 2, len := 4, acc := true, objs := [.laser ruby pos], ok := decide (ruby < 2) && decide (pos < 18) } ∧ d.admits c r = (d', true) ∧ d'.swappable ruby pos = true ∧ (Tab.look ({} : Ruby) ruby d'.las.ruby).linkOk = true) ∧
    (∃ (r : Req) (ruby : Nat) (pos : Nat) (c : Cmd) (d : Dev) (d' : Dev), c = { op := 0x0B04, item := some 2, len := 4, acc := true, objs := [.laser ruby pos], ok := decide (ruby < 2) && decide (pos < 18) } ∧ d.admits c r = (d', true) ∧ d'.swappable ruby pos = false) ∧
    (∃ (r : Req) (ruby : Nat) (c : Cmd) (d : Dev) (d' : Dev), c = { op := 0x0B05, item := some 2, live := true, len := 4, minor := 1, ok := decide (ruby < 2) } ∧ d.admits c r = (d', true)) ∧
    (∃ (r : Req) (state : Nat) (c : Cmd) (d : Dev) (d' : Dev), c = { op := 0x0C00, m := true, len := 4, acc := true, ok := decide (state = 0) || decide (state = 2) || decide (state = 3) } ∧ d.admits c r = (d', true) ∧ d'.pwr.state ≠ 3 ∧ d'.pwr.busy = false ∧ d'.pwr.state = state ∧ d'.enteringAo = false) ∧
    (∃ (r : Req) (c : Cmd) (d : Dev) (d' : Dev), c = { op := 0x0C00, m := true, len := 4, acc := true, ok := decide (2 = 0) || decide (2 = 2) || decide (2 = 3) } ∧ d.admits c r = (d', true) ∧ d'.pwr.state = 0 ∧ d'.pwr.busy = false ∧ d'.darkRefused = false ∧ d'.enteringAo = false) ∧
    (∃ (r : Req) (c : Cmd) (d : Dev) (d' : Dev), c = { op := 0x0C00, m := true, len := 4, acc := true, ok := decide (2 = 0) || decide (2 = 2) || decide (2 = 3) } ∧ d.admits c r = (d', true) ∧ d'.pwr.state = 0 ∧ d'.pwr.busy = false ∧ d'.darkRefused = true) ∧
    (∃ (r : Req) (c : Cmd) (d : Dev) (d' : Dev), c = { op := 0x0C00, m := true, len := 4, acc := true, ok := decide (3 = 0) || decide (3 = 2) || decide (3 = 3) } ∧ d.admits c r = (d', true) ∧ d'.pwr.state ≠ 3 ∧ d'.pwr.busy = false ∧ d'.enteringAo = false) ∧
    (∃ (r : Req) (c : Cmd) (d : Dev) (d' : Dev), c = { op := 0x0C00, m := true, len := 4, acc := true, ok := decide (0 = 0) || decide (0 = 2) || decide (0 = 3) } ∧ d.admits c r = (d', true) ∧ d'.pwr.state = 2 ∧ d'.pwr.busy = false ∧ d'.enteringAo = false) ∧
    (∃ (r : Req) (state : Nat) (c : Cmd) (d : Dev) (d' : Dev), c = { op := 0x0C00, m := true, len := 4, acc := true, ok := decide (state = 0) || decide (state = 2) || decide (state = 3) } ∧ d.admits c r = (d', true) ∧ d'.pwr.state ≠ 3 ∧ d'.pwr.busy = true ∧ d'.pwr.target < state ∧ d'.enteringAo = false) ∧
    (∃ (r : Req) (c : Cmd) (d : Dev) (d' : Dev), c = { op := 0x0C01, len := 8, acc := true } ∧ d.admits c r = (d', true) ∧ d'.pwr.busy = true) ∧
    (∃ (r : Req) (mask : BitVec 64) (c : Cmd) (d : Dev) (d' : Dev), c = { op := 0x0C01, len := 8, acc := true } ∧ d.admits c r = (d', true) ∧ d'.pwr.busy = false ∧ d'.pwr.dark = mask) ∧
    (∃ (r : Req) (mask : BitVec 64) (c : Cmd) (d : Dev) (d' : Dev), c = { op := 0x0C01, len := 8, acc := true } ∧ d.admits c r = (d', true) ∧ d'.pwr.busy = false ∧ d'.pwr.dark ≠ mask ∧ d'.pwr.state ≠ 2 ∧ (d'.wake.setDark mask).pwr.seq ≠ []) ∧
    (∃ (r : Req) (mask : BitVec 64) (c : Cmd) (d : Dev) (d' : Dev), c = { op := 0x0C01, len := 8, acc := true } ∧ d.admits c r = (d', true) ∧ d'.pwr.busy = false ∧ d'.pwr.dark ≠ mask ∧ d'.pwr.state = 2) ∧
    (∃ (r : Req) (c : Cmd) (d : Dev) (d' : Dev), c = { op := 0x0C02, m := true, live := true } ∧ d.admits c r = (d', true)) ∧
    (∃ (r : Req) (sensor : Nat) (warn : Int) (rise : Int) (c : Cmd) (d : Dev) (d' : Dev), c = { op := 0x0C03, len := 8, ok := decide (sensor < 58) && decide (warn ≤ limitOf sensor) && decide (0 ≤ rise) && decide (rise ≤ riseReset sensor) } ∧ d.admits c r = (d', true)) :=
  ⟨⟨{ pf with length := 4 }, 63, 255, _, { up with boot.items := [(3, .up)], lnk.ports := [(63, { st := .active })], opt.rings := (List.range 36).map fun i => (2268 + i, { st := .locked }) }, _, rfl, taken (by decide +kernel), by decide +kernel, by decide +kernel, by decide +kernel⟩,
   ⟨{ pf with length := 4 }, 63, 0, _, { up with boot.items := [(3, .up)] }, _, rfl, taken (by decide +kernel), by decide +kernel⟩,
   ⟨{ pf with length := 4 }, 63, _, { up with boot.items := [(3, .up)] }, _, rfl, taken (by decide +kernel)⟩,
   ⟨{ pf with length := 4 }, 63, _, { up with boot.items := [(2, .up)] }, _, rfl, taken (by decide +kernel)⟩,
   ⟨{ pf with length := 4 }, 63, 0, 255, _, ({ up with boot.items := [(2, .up)], las.ports := [(63, { tx := [0xFE, 0xFE, 0, 1, 2, 3, 4, 5, 6, 7, 8, 9, 10, 11, 12, 13, 14, 15], rxuse := BitVec.allOnes 18 })] } : Dev), _, 0, rfl, taken (by decide +kernel), by decide +kernel, by decide +kernel⟩,
   ⟨{ pf with length := 4 }, 63, 0, 0, _, ({ up with boot.items := [(2, .up)], las.ports := [(63, { tx := [0xFE, 0xFE, 0, 1, 2, 3, 4, 5, 6, 7, 8, 9, 10, 11, 12, 13, 14, 15], rxuse := BitVec.allOnes 18 })], lnk.ports := [(63, { st := .active })], opt.rings := [(2268, { st := .locked })], las.pos := [(18, { lit := true })] } : Dev), _, 2, rfl, taken (by decide +kernel), by decide +kernel, by decide +kernel, by decide +kernel⟩,
   ⟨{ pf with length := 4 }, 63, 0, 0, _, ({ up with boot.items := [(2, .up)], las.ports := [(63, { tx := [0xFE, 0xFE, 0, 1, 2, 3, 4, 5, 6, 7, 8, 9, 10, 11, 12, 13, 14, 15], rxuse := BitVec.allOnes 18 })], lnk.ports := [(63, { st := .active })] } : Dev), _, 2, rfl, taken (by decide +kernel), by decide +kernel, by decide +kernel, by decide +kernel⟩,
   ⟨{ pf with length := 4 }, 1, 17, _, { up with boot.items := [(2, .up)], las.pos := [(35, { lit := true })], las.ruby := [(1, { linkOk := true })] }, _, rfl, taken (by decide +kernel), by decide +kernel, by decide +kernel⟩,
   ⟨{ pf with length := 4 }, 1, 17, _, ({ up with boot.items := [(2, .up)] } : Dev), _, rfl, taken (by decide +kernel), by decide +kernel⟩,
   ⟨{ pf with length := 4 }, 1, _, ({ up with boot.items := [(2, .up)], mbx.oxMin := 1 } : Dev), _, rfl, taken (by decide +kernel)⟩,
   ⟨{ pf with length := 4 }, 0, _, up, _, rfl, taken (by decide +kernel), by decide +kernel, by decide +kernel, by decide +kernel, by decide +kernel⟩,
   ⟨{ pf with length := 4 }, _, up, _, rfl, taken (by decide +kernel), by decide +kernel, by decide +kernel, by decide +kernel, by decide +kernel⟩,
   ⟨{ pf with length := 4 }, _, ({ up with tq.q := [(0, { st := .running })] } : Dev), _, rfl, taken (by decide +kernel), by decide +kernel, by decide +kernel, by decide +kernel⟩,
   ⟨{ pf with length := 4 }, _, up, _, rfl, taken (by decide +kernel), by decide +kernel, by decide +kernel, by decide +kernel⟩,
   ⟨{ pf with length := 4 }, _, { up with pwr.state := 2 }, _, rfl, taken (by decide +kernel), by decide +kernel, by decide +kernel, by decide +kernel⟩,
   ⟨{ pf with length := 4 }, 2, _, { up with pwr.busy := true }, _, rfl, taken (by decide +kernel), by decide +kernel, by decide +kernel, by decide +kernel, by decide +kernel⟩,
   ⟨{ pf with length := 8 }, _, ({ up with pwr.busy := true } : Dev), _, rfl, taken (by decide +kernel), by decide +kernel⟩,
   ⟨{ pf with length := 8 }, 0, _, up, _, rfl, taken (by decide +kernel), by decide +kernel, by decide +kernel⟩,
   ⟨{ pf with length := 8 }, 15, _, ({ up with pwr.dom := (List.range 112).map fun i => (i, 3) } : Dev), _, rfl, taken (by decide +kernel), by decide +kernel, by decide +kernel, by decide +kernel, by decide +kernel⟩,
   ⟨{ pf with length := 8 }, 1, _, ({ up with pwr.state := 2 } : Dev), _, rfl, taken (by decide +kernel), by decide +kernel, by decide +kernel, by decide +kernel⟩,
   ⟨pf, _, up, _, rfl, taken (by decide +kernel)⟩,
   ⟨{ pf with length := 8 }, 57, 0, 0, _, up, _, rfl, taken (by decide +kernel)⟩⟩
/-- DebugCommandGroup. -/
theorem witness_debug_command_group :
    (∃ (r : Req) (scope : Nat) (ftime : W64) (c : Cmd) (d : Dev) (d' : Dev), c = { op := 0x0A00, m := true, live := true, len := 16, acc := true, ok := decide (scope = 0) || (decide (scope = 1) && decide (d.fab.time + 100000 ≤ ftime.toNat)) } ∧ d.admits c r = (d', true) ∧ d'.dbg.st = .running ∧ (scope ≠ 1 ∨ d'.timeLocked = true)) ∧
    (∃ (r : Req) (scope : Nat) (ftime : W64) (c : Cmd) (d : Dev) (d' : Dev), c = { op := 0x0A00, m := true, live := true, len := 16, acc := true, ok := decide (scope = 0) || (decide (scope = 1) && decide (d.fab.time + 100000 ≤ ftime.toNat)) } ∧ d.admits c r = (d', true) ∧ d'.dbg.st ≠ .running) ∧
    (∃ (r : Req) (c : Cmd) (d : Dev) (d' : Dev), c = { op := 0x0A01, m := true, live := true, acc := true } ∧ d.admits c r = (d', true) ∧ d'.dbg.st = .running) ∧
    (∃ (r : Req) (c : Cmd) (d : Dev) (d' : Dev), c = { op := 0x0A01, m := true, live := true, acc := true } ∧ d.admits c r = (d', true) ∧ d'.dbg.st = .scheduled) ∧
    (∃ (r : Req) (c : Cmd) (d : Dev) (d' : Dev), c = { op := 0x0A01, m := true, live := true, acc := true } ∧ d.admits c r = (d', true) ∧ d'.dbg.st = .stopped) ∧
    (∃ (r : Req) (c : Cmd) (d : Dev) (d' : Dev), c = { op := 0x0A02, tn := true, dev := true, live := true, len := 4 } ∧ d.admits c r = (d', true)) ∧
    (∃ (r : Req) (first : Nat) (c : Cmd) (d : Dev) (d' : Dev) (es : List Edge), c = { op := 0x0A02, tn := true, dev := true, live := true, len := 4 } ∧ d.admits c r = (d', true) ∧ first ≠ 0 ∧ Tab.look none (min r.tenant.toNat 16) d'.dbg.graphs = some es ∧ first < es.length) ∧
    (∃ (r : Req) (q : Nat) (c : Cmd) (d : Dev) (d' : Dev), c = { op := 0x0A03, tn := true, live := true, len := 4, ok := decide (q < 64), objs := [.queue r.tenant.toNat q] } ∧ d.admits c r = (d', true)) ∧
    (∃ (r : Req) (dest : W64) (maxlen : W64) (c : Cmd) (d : Dev) (d' : Dev), c = { op := 0x0A04, tn := true, live := true, len := 24, acc := true, minor := 2, ok := decide (dest.toNat % 4096 = 0) && decide (0 < maxlen.toNat) && decide (maxlen.toNat ≤ 2 ^ 40) } ∧ d.admits c r = (d', true) ∧ (Tab.look none r.tenant.toNat d'.dbg.dumps).isSome = false) ∧
    (∃ (r : Req) (dest : W64) (maxlen : W64) (c : Cmd) (d : Dev) (d' : Dev), c = { op := 0x0A04, tn := true, live := true, len := 24, acc := true, minor := 2, ok := decide (dest.toNat % 4096 = 0) && decide (0 < maxlen.toNat) && decide (maxlen.toNat ≤ 2 ^ 40) } ∧ d.admits c r = (d', true) ∧ (Tab.look none r.tenant.toNat d'.dbg.dumps).isSome = true) ∧
    (∃ (r : Req) (set : Nat) (first : Nat) (num : Nat) (c : Cmd) (d : Dev) (d' : Dev), c = { op := 0x0A10, tn := true, dev := true, live := true, len := 8, ok := decide (0 < num) && decide (num ≤ 509) && (setSize set).any fun n => decide (first + num ≤ n) } ∧ d.admits c r = (d', true) ∧ (2 ≤ set ∨ r.tenant = 0xFF) ∧ (set < 2 ∨ r.tenant.toNat < 16)) ∧
    (∃ (r : Req) (set : Nat) (first : Nat) (num : Nat) (c : Cmd) (d : Dev) (d' : Dev), c = { op := 0x0A10, tn := true, dev := true, live := true, len := 8, ok := decide (0 < num) && decide (num ≤ 509) && (setSize set).any fun n => decide (first + num ≤ n) } ∧ d.admits c r = (d', true) ∧ set < 2 ∧ r.tenant ≠ 0xFF) ∧
    (∃ (r : Req) (dest : W64) (period : Nat) (c : Cmd) (d : Dev) (d' : Dev), c = { op := 0x0A11, live := true, len := 16, ok := decide (period = 0) || (decide (100 ≤ period) && decide (period ≤ 1000000) && decide (dest.toNat % 2 ^ 21 = 0)) } ∧ d.admits c r = (d', true)) :=
  ⟨⟨{ pf with length := 16 }, 0, 0, _, up, _, rfl, taken (by decide +kernel), by decide +kernel, by decide +kernel⟩,
   ⟨{ pf with length := 16 }, 0, 0, _, ({ up with dbg.st := .scheduled } : Dev), _, rfl, taken (by decide +kernel), by decide +kernel⟩,
   ⟨pf, _, up, _, rfl, taken (by decide +kernel), by decide +kernel⟩,
   ⟨pf, _, ({ up with dbg.st := .scheduled } : Dev), _, rfl, taken (by decide +kernel), by decide +kernel⟩,
   ⟨pf, _, ({ up with dbg.st := .stopped } : Dev), _, rfl, taken (by decide +kernel), by decide +kernel⟩,
   ⟨{ pf with length := 4 }, _, up, _, rfl, taken (by decide +kernel)⟩,
   ⟨{ pf with length := 4 }, 1, _, ({ up with dbg.graphs := [(16, some [⟨0, 0, 0, 0, 0, 0, 0⟩, ⟨1, 0, 0, 0, 0, 0, 0⟩])] } : Dev), _, [⟨0, 0, 0, 0, 0, 0, 0⟩, ⟨1, 0, 0, 0, 0, 0, 0⟩], rfl, taken (by decide +kernel), by decide +kernel, by decide +kernel, by decide +kernel⟩,
   ⟨{ pf with tenant := 15, length := 4 }, 63, _, ({ up with tq.ten := [(15, { assign := some {}, served := true })], tq.q := [(1023, { st := .stopped })] } : Dev), _, rfl, taken (by decide +kernel)⟩,
   ⟨{ pf with tenant := 15, length := 24 }, 0, 1, _, ({ up with tq.ten := [(15, { assign := some {}, served := true })], mbx.oxMin := 2 } : Dev), _, rfl, taken (by decide +kernel), by decide +kernel⟩,
   ⟨{ pf with tenant := 15, length := 24 }, 0, 1, _, ({ up with tq.ten := [(15, { assign := some {}, served := true })], mbx.oxMin := 2, dbg.dumps := [(15, some { layer := 0, operator := 0, stp := 0, dest := 0, maxlen := 1 })] } : Dev), _, rfl, taken (by decide +kernel), by decide +kernel⟩,
   ⟨{ pf with length := 8 }, 0, 0, 1, _, up, _, rfl, taken (by decide +kernel), by decide +kernel, by decide +kernel⟩,
   ⟨{ pf with tenant := 15, length := 8 }, 0, 0, 1, _, ({ up with tq.ten := [(15, { assign := some {}, served := true })] } : Dev), _, rfl, taken (by decide +kernel), by decide +kernel, by decide +kernel⟩,
   ⟨{ pf with length := 16 }, 0, 100, _, up, _, rfl, taken (by decide +kernel)⟩⟩
/-- StepTakesTheFrontCommand. -/
theorem witness_step_takes_the_front_command :
    (∃ (s : State) (c : Instr) (r : List Instr), s.pending = c :: r) :=
  ⟨{ pending := [.pwrOkRise] }, _, _, rfl⟩
/-- EmptyQueueLetsTimePass. -/
theorem witness_empty_queue_lets_time_pass :
    (∃ s : State, s.pending = [] ∧ s.dev.dbg.ingress = [] ∧ s.dev.flt.due = [] ∧ s.dev.vlt.mirq = []) :=
  ⟨State.reset, rfl, rfl, rfl, rfl⟩
/-- CommandsCompleteOrNameNoUnit. -/
theorem witness_commands_complete_or_name_no_unit :
    (∃ (i : Instr), i.wf = true) ∧
    (∃ (i : Instr), i.wf = false) :=
  ⟨⟨.pwrOkRise, rfl⟩,
   ⟨.neighbourTimeout 64, rfl⟩⟩
/-- CommandsLeaveTheQueueAndTheFlashAlone. -/
theorem witness_commands_leave_the_queue_and_the_flash_alone :
    (∃ (i : Instr) (s t : State), exec i s = .next t ∧ flashWriter i = false) :=
  ⟨.pwrOkRise, State.reset, _, rfl, rfl⟩
/-- RefusalsOnlyAnswer. -/
theorem witness_refusals_only_answer :
    (∃ (d : Dev) (c : Cmd) (r : Req) (gens : List (Nat × Nat)), (d.firstStep c r gens).2 = false) :=
  ⟨up, { op := 0x0100, tn := true, m := true, dev := true }, { pf with length := 4 }, [], by decide +kernel⟩
/-- SlotWritesStayInTheirArea. -/
theorem witness_slot_writes_stay_in_their_area :
    (∃ (s t : State) (j : FlJob), s.dev.mbx.flJob = some j ∧ j.off + j.data.length ≤ (areaOf j.slot).2 ∧ (exec .flashEraseDone s = .next t ∨ exec .flashProgramDone s = .next t)) :=
  ⟨{ dev := { ({} : Dev) with mbx.flJob := some { slot := 1, off := 0, data := [1], erase := true, final := false } } }, _, _, rfl, by decide, .inl rfl⟩
/-- SlotWritesStoreTheirBytes. -/
theorem witness_slot_writes_store_their_bytes :
    (∃ (s t : State) (j : FlJob), s.dev.mbx.flJob = some j ∧ j.check = false ∧ exec .flashProgramDone s = .next t ∧ j.erase = false) ∧
    (∃ (s t : State) (j : FlJob), s.dev.mbx.flJob = some j ∧ j.check = false ∧ exec .flashEraseDone s = .next t ∧ j.erase = true) :=
  ⟨⟨{ dev := { ({} : Dev) with mbx.flJob := some { slot := 1, off := 16, data := [1], erase := false, final := false } } }, _, _, rfl, rfl, rfl, rfl⟩,
   ⟨{ dev := { ({} : Dev) with mbx.flJob := some { slot := 1, off := 0, data := [1], erase := true, final := false } } }, _, _, rfl, rfl, rfl, rfl⟩⟩
/-- DirectoryReadsBack. -/
theorem witness_directory_reads_back :
    (∃ (m : Memory) (k : Nat) (x : BootDir), dirNow m = some (k, x) ∧ x.seq + 1 < 2 ^ 32) :=
  ⟨dirWrite [] true false, 0, { ok := true, seq := 1, active := true, trial := false }, by decide +kernel, by decide⟩
/-- FlashStaysCanonical. -/
theorem witness_flash_stays_canonical :
    (∃ s t : State, s.memOk = true ∧ step s = .next t) :=
  ⟨State.reset, _, rfl, rfl⟩
/-- QueueRunsToItsEnd. -/
theorem witness_queue_runs_to_its_end :
    (∃ s : State, s.queueOk = true ∧ s.pending ≠ []) :=
  ⟨{ pending := [.pwrOkRise, .neighbourTimeout 63] }, rfl, by simp⟩
/-- AdmittedCommandsPassEveryCheck. -/
theorem witness_admitted_commands_pass_every_check :
    (∃ (d : Dev) (c : Cmd) (r : Req) (gens : List (Nat × Nat)), d.generic c r gens = none) :=
  ⟨up, { op := 0x0100, tn := true, m := true, dev := true }, pf, [], by decide +kernel⟩
/-- TenantFieldMustBeTheSenders. -/
theorem witness_tenant_field_must_be_the_senders :
    (∃ (d : Dev) (c : Cmd) (r : Req), d.up = true ∧ d.servedPath r.path = true ∧ d.keptFor r c.op = none ∧ pathFn r.path ≠ 0 ∧ r.tenant.toNat + 1 ≠ pathFn r.path) :=
  ⟨{ up with tq.ten := [(15, { assign := some {}, served := true })] }, { op := 0x0100, tn := true }, { path := .pcie 16, seq := 0, tenant := 14, length := 0 }, by decide +kernel⟩
/-- HeaderErrorsAreAnswered. -/
theorem witness_header_errors_are_answered :
    (∃ (d : Dev) (c : Cmd) (r : Req), c.blind = false ∧ d.firstStep c { r with rsvd := false } [] = (d, true) ∧ r.rsvd = true) ∧
    (∃ (d : Dev) (c : Cmd) (r : Req), c.blind = false ∧ d.firstStep c { r with length := c.len } [] = (d, true) ∧ r.length ≠ c.len) :=
  ⟨⟨up, { op := 0x0100, tn := true, m := true, dev := true }, { pf with rsvd := true }, by decide +kernel⟩,
   ⟨up, { op := 0x0100, tn := true, m := true, dev := true }, { pf with length := 4 }, by decide +kernel⟩⟩
/-- BootDirectoryChoice. -/
theorem witness_boot_directory_choice :
    (∃ (m : Memory) (a b : BootDir), dirCopy m 0 = some a ∧ dirCopy m 1 = some b ∧ a.seq < b.seq) ∧
    (∃ (m : Memory) (a b : BootDir), dirCopy m 0 = some a ∧ dirCopy m 1 = some b ∧ b.seq < a.seq) ∧
    (∃ (m : Memory) (a : BootDir), dirCopy m 0 = some a ∧ dirCopy m 1 = none) ∧
    (∃ (m : Memory) (a : BootDir), dirCopy m 0 = none ∧ dirCopy m 1 = some a) ∧
    (∃ (m : Memory), dirCopy m 0 = none ∧ dirCopy m 1 = none) :=
  ⟨⟨dirWrite (dirWrite [] true false) false true, { ok := true, seq := 1, active := true, trial := false }, { ok := true, seq := 2, active := false, trial := true }, by decide +kernel⟩,
   ⟨dirWrite (dirWrite (dirWrite [] true false) false true) false true, { ok := true, seq := 3, active := false, trial := true }, { ok := true, seq := 2, active := false, trial := true }, by decide +kernel⟩,
   ⟨dirWrite [] true false, { ok := true, seq := 1, active := true, trial := false }, by decide +kernel⟩,
   ⟨Memory.writeByte (dirWrite (dirWrite [] true false) false true) 0 0, { ok := true, seq := 2, active := false, trial := true }, by decide +kernel⟩,
   ⟨[], by decide +kernel⟩⟩
/-- TakeoverOnlyInCleave. -/
theorem witness_takeover_only_in_cleave :
    (∃ (r : Req) (c : Cmd) (d d' : Dev), c = { op := 0x0803, m := true, item := some 7, acc := true } ∧ d.admits c r = (d', true) ∧ d'.twn.st ≠ .cleave) :=
  ⟨pf, _, ({ up with boot.items := [(7, .up)] } : Dev), _, rfl, taken (by decide +kernel), by decide +kernel⟩
/-- RawCommandsNeedTheDebugRole. -/
theorem witness_raw_commands_need_the_debug_role :
    (∃ (r : Req) (die : Nat) (block : Nat) (c : Cmd) (d d' : Dev), c = { op := 0x0710, item := some 6, len := 8, acc := true, objs := [.block die block], ok := decide (die < 8) && decide (block < 4096) } ∧ d.admits c r = (d', true) ∧ d'.debugRole r.path = false) ∧
    (∃ (r : Req) (die : Nat) (block : Nat) (c : Cmd) (d d' : Dev), c = { op := 0x0710, item := some 6, len := 8, acc := true, objs := [.block die block], ok := decide (die < 8) && decide (block < 4096) } ∧ d.admits c r = (d', true) ∧ d'.debugRole r.path = true ∧ d'.dieIn (4096 * die + block) = true ∧ isTest (4096 * die + block) = true) ∧
    (∃ (r : Req) (die : Nat) (plane : Nat) (block : Nat) (page : Nat) (pattern : W32) (c : Cmd) (d d' : Dev), c = { op := 0x0711, item := some 6, len := 16, acc := true, objs := [.block die block], ok := decide (die < 8) && decide (block < 4096) && decide (plane = block % 4) && decide (page < 1024) } ∧ d.admits c r = (d', true) ∧ d'.debugRole r.path = false) ∧
    (∃ (r : Req) (die : Nat) (plane : Nat) (block : Nat) (page : Nat) (offset : Nat) (dlen : Nat) (c : Cmd) (d d' : Dev), c = { op := 0x0712, item := some 6, len := 16, objs := [.block die block], ok := decide (die < 8) && decide (block < 4096) && decide (plane = block % 4) && decide (page < 1024) && decide (16 ≤ dlen) && decide (dlen ≤ 4064) && decide (offset + dlen ≤ 16384) } ∧ d.admits c r = (d', true) ∧ d'.debugRole r.path = false) :=
  ⟨⟨{ pf with length := 8 }, 7, 4095, _, ({ up with boot.items := [(6, .up)] } : Dev), _, rfl, taken (by decide +kernel), by decide +kernel⟩,
   ⟨{ pf with length := 8 }, 7, 4095, _, ({ up with boot.items := [(6, .up)], sec.auth := [(.pcie 0, { role := 2 })] } : Dev), _, rfl, taken (by decide +kernel), by decide +kernel, by decide +kernel, by decide +kernel⟩,
   ⟨{ pf with length := 16 }, 7, 3, 4095, 0, 0, _, ({ up with boot.items := [(6, .up)] } : Dev), _, rfl, taken (by decide +kernel), by decide +kernel⟩,
   ⟨{ pf with length := 16 }, 7, 3, 4095, 0, 0, 16, _, ({ up with boot.items := [(6, .up)] } : Dev), _, rfl, taken (by decide +kernel), by decide +kernel⟩⟩
/-- FabricTimeNeverDecreases. -/
theorem witness_fabric_time_never_decreases :
    (∃ (d : Dev), d.dbg.ingress = [] ∧ d.flt.due = [] ∧ d.vlt.mirq = [] ∧ d.fab.holdTo = none) ∧
    (∃ (d : Dev) (h : Nat), d.dbg.ingress = [] ∧ d.flt.due = [] ∧ d.vlt.mirq = [] ∧ d.fab.holdTo = some h ∧ d.now + 250 < h) ∧
    (∃ (d : Dev) (h : Nat), d.dbg.ingress = [] ∧ d.flt.due = [] ∧ d.vlt.mirq = [] ∧ d.fab.holdTo = some h ∧ h ≤ d.now + 250) :=
  ⟨⟨({} : Dev), rfl, rfl, rfl, rfl⟩,
   ⟨{ ({} : Dev) with fab.holdTo := some 251 }, 251, rfl, rfl, rfl, rfl, by decide⟩,
   ⟨{ ({} : Dev) with fab.holdTo := some 250 }, 250, rfl, rfl, rfl, rfl, by decide⟩⟩
/-- QueueChangesTouchOneQueue. -/
theorem witness_queue_changes_touch_one_queue :
    (∃ (t : Nat) (a : QArgs) (gq : Nat), gq ≠ 64 * t + a.queue) :=
  ⟨15, { queue := 63, qtype := 0, ring := 0, log2 := 6, vector := 3, weight := 1, rate := 0, timeout := 200 }, 0, by decide⟩

end Sys2Proof.Tests
end

namespace Sys2Proof.Machine

/-! ## What a command answers

`exec_answers` says once, for all commands, what the meaning of a command can answer: the shape of each meaning (over the device, over the device and
the flash, or under the check of the units its operands name) decides it. The claims about completion and about whole queues follow from it. -/

/-- What every command keeps of the state it starts from: the waiting commands, the canonical form of the boot flash, and, but for the
commands that may write the flash (`writes`), the flash itself. -/
structure Keeps (writes : Bool) (s t : State) : Prop where
  pending : t.pending = s.pending
  memOk : s.memOk = true → t.memOk = true
  mem : writes = false → t.mem = s.mem

/-- `o` is what a command may answer from `s`: where its units exist (`ok`) a next state that keeps what it must, and the fault where one does not. -/
def Answers (ok writes : Bool) (s : State) (o : R) : Prop :=
  (ok = true → ∃ t, o = .next t ∧ Keeps writes s t) ∧ (ok = false → o = .fault .noSuchUnit)

theorem Keeps.withDev (w : Bool) (s : State) (d : Dev) : Keeps w s (s.withDev d) := ⟨rfl, id, fun _ => rfl⟩

theorem answers_run (w : Bool) (s : State) (f : Dev → Dev) : Answers true w s (s.run f) :=
  ⟨fun _ => ⟨_, s.run_eq f, .withDev w s _⟩, nofun⟩

theorem answers_runIf (ok w : Bool) (s : State) (f : Dev → Dev) : Answers ok w s (s.runIf ok f) := by
  cases ok with
  | true => exact answers_run w s f
  | false => exact ⟨nofun, fun _ => s.runIf_false f⟩

theorem answers_intake (ok w : Bool) (s : State) (x : Late) (f : Dev → Dev) : Answers ok w s (s.intake ok x f) :=
  answers_runIf ok w s _

theorem answers_runMem (w : Bool) (s : State) (f : Dev → Memory → Dev × Memory) (hwf : ∀ d m, Memory.wf m = true → Memory.wf (f d m).2 = true)
    (hsame : w = false → ∀ d m, (f d m).2 = m) : Answers true w s (s.runMem f) :=
  ⟨fun _ => ⟨_, rfl, rfl, hwf s.dev s.mem, fun h => hsame h s.dev s.mem⟩, nofun⟩

/-- A command that reads the flash and writes none of it. -/
theorem answers_runMem_reading (w : Bool) (s : State) (f : Dev → Memory → Dev × Memory) (hsame : ∀ d m, (f d m).2 = m) :
    Answers true w s (s.runMem f) :=
  answers_runMem w s f (fun d m h => (hsame d m).symm ▸ h) fun _ => hsame

/-- The flash after a command on it: what the body leaves where the command is admitted, else the flash as it was. -/
theorem Dev.commandMem_snd (d : Dev) (m : Memory) (c : Cmd) (r : Req) (body : Dev → Dev × Memory) :
    (d.commandMem m c r body).2 = if (d.admits c r).2 then (body (d.admits c r).1).2 else m := by
  unfold Dev.commandMem
  split <;> rfl

theorem Dev.commandMem_wf {d : Dev} {m : Memory} {c : Cmd} {r : Req} {body : Dev → Dev × Memory} (h : m.wf = true)
    (hbody : ∀ e, Memory.wf (body e).2 = true) : Memory.wf (d.commandMem m c r body).2 = true := by
  rw [Dev.commandMem_snd]
  split
  · exact hbody _
  · exact h

/-- Writing the boot directory keeps the flash in canonical form. -/
theorem dirWrite_wf (m : Memory) (act trial : Bool) (h : m.wf = true) : (dirWrite m act trial).wf = true := by
  unfold dirWrite
  split
  exact Memory.write_wf _ _ _ (Memory.erase_wf m _ _ h)

theorem answers_hostReadyEntry (s : State) : Answers true true s (execHostReadyEntry s) := by
  refine answers_runMem _ _ _ (fun d m h => ?_) nofun
  split
  · dsimp only
    split
    · split
      · simp only [dirWrite_wf m _ _ h]
      · exact h
    · exact h
  · exact h

theorem answers_flashEraseDone (s : State) : Answers true true s (execFlashEraseDone s) := by
  refine answers_runMem _ _ _ (fun d m h => ?_) nofun
  repeat' split
  · exact h
  · exact Memory.write_wf _ _ _ (Memory.erase_wf m _ _ h)
  · exact h

theorem answers_flashProgramDone (s : State) : Answers true true s (execFlashProgramDone s) := by
  refine answers_runMem _ _ _ (fun d m h => ?_) nofun
  repeat' split
  · exact h
  · exact h
  · exact Memory.write_wf _ _ _ h

theorem answers_fwActivate (r : Req) (slot : Nat) (s : State) : Answers true true s (execFwActivate r slot s) := by
  refine answers_runMem _ _ _ (fun d m h => Dev.commandMem_wf h fun e => ?_) nofun
  split
  · simp only [dirWrite_wf m _ _ h]
  · exact h

theorem answers_fwConfirm (r : Req) (s : State) : Answers true true s (execFwConfirm r s) := by
  refine answers_runMem _ _ _ (fun d m h => Dev.commandMem_wf h fun e => ?_) nofun
  split
  · simp only [dirWrite_wf m _ _ h]
  · exact h

theorem answers_devStatus (r : Req) (s : State) : Answers true false s (execDevStatus r s) := by
  refine answers_runMem_reading _ _ _ fun d m => ?_
  simp only [Dev.commandMem_snd, ite_self]

theorem answers_flashFinalCheck (s : State) : Answers true false s (execFlashFinalCheck s) := by
  refine answers_runMem_reading _ _ _ fun d m => ?_
  repeat' split
  all_goals rfl

theorem answers_flashRead (r : Req) (slot offset dlen : Nat) (s : State) : Answers true false s (execFlashRead r slot offset dlen s) := by
  refine answers_runMem_reading _ _ _ fun d m => ?_
  simp only [Dev.commandMem_snd, ite_self]

theorem answers_registerWrite (fn : Nat) (bar2 : Bool) (off : Nat) (val : W32) (s : State) :
    Answers (Unit.function fn) false s (execRegisterWrite fn bar2 off val s) := by
  refine ⟨fun h => ?_, registerWrite_noUnit fn bar2 off val s⟩
  obtain ⟨d, hd⟩ := completes_registerWrite fn bar2 off val h s
  exact ⟨_, hd, .withDev false s d⟩

/-- Every command answers a next state exactly where the units it names exist. The first cases are the commands on the boot flash and the register write;
the long list is of the commands over the device that name no unit, the next of what arrives and waits while the device is stopped; each that is left
runs under the check of its units. -/
theorem exec_answers (i : Instr) (s : State) : Answers i.wf (flashWriter i) s (exec i s) := by
  unfold exec
  cases i with
  | hostReadyEntry => exact answers_hostReadyEntry s
  | flashEraseDone => exact answers_flashEraseDone s
  | flashProgramDone => exact answers_flashProgramDone s
  | fwActivate r slot => exact answers_fwActivate r slot s
  | fwConfirm r => exact answers_fwConfirm r s
  | devStatus r => exact answers_devStatus r s
  | flashFinalCheck => exact answers_flashFinalCheck s
  | flashRead r slot offset dlen => exact answers_flashRead r slot offset dlen s
  | registerWrite fn bar2 off val => exact answers_registerWrite fn bar2 off val s
  | aoRailsUp | prRelease | pwrOkRise | pwrOkFall | railFail | powerlossHoldupEnd | pwrOkLate | pwrReqRetry | pllLock | refclkWindowCheck
  | refclkPpmCheck | xtalFail | rcTrim | stopReqEvent | thermInOnset | thermInRelease | faultAckEdge | timePpsEdge | twinAliveEdge | twinAliveTimeout
  | twinAliveOutToggle | domainStepDone | identityCollect | slotLoad | slotVerify | selftestPreop | bootWatchdog | fabricReadyEntry | perstAssert
  | perstDeassert | pcieFlrPf | deviceReset | pcieLinkTrain | mctpMessage | conikStepSelect | oxsumUnknownOpcode | devVersion | devOpcodes | devIdentity
  | devReset | devResetApply | flashWrite | hportReset | tenAssign | tenRelease | tenBind | tenQuery | tenReset | tenExport | qCreate | qDestroy | qStart
  | qStop | qAbort | qQuery | xltFlush | streamDeclare | streamWithdraw | fabStatus | fabSetPkgid | fabTimeSet | fabRouteWrite | fabTrunk | linkReset
  | colGroupSet | colGroupDrop | colStatus | semRead | semWrite | vltShadowAdd | vltShadowRemove | vltSeal | vltRestore | vltQuery | vltEpochDrop
  | vltRawErase | vltRawProgram | vltRawRead | twnEnable | twnStatus | twnRejoin | twnTakeover | secStatus | secSelftest | secZeroise | secRekey
  | secAuthBegin | secAuthFinish | dbgStop | dbgResume | dbgWaitfor | dbgQsnap | dbgTensorDump | cntRead | tlmExport | optPolish | optLustre | walMap
  | walMove | lasSwap | lasStatus | pwrSet | pwrDarkPorts | thmRead | thmLimits | invalidationComplete | ownerWriteAck | leaseRenewTimer | subscribeRetry
  | semWaitResend | helloSend | escapeTimeout | congestionRecovery | tsyncExchange | timeLockLoss | thermalRound | idleEntry | idleWake | aoWake
  | vltMount | vltScrubTick | twnPair | twnBeat | twnBeatSend | twnDown | twnJrnl | twnJack | twnFailureTimer | twnHelloHold | twnPortLost | twnPortActive
  | twnPairingTimeout | keymsgPvk | spdmRequest | keyLoad | keyClear | fsLoad | rootAdd | rootClear | cokeySet | meshCheck | drbgReseed
  | authNonceExpiry | authLockoutEnd | entropySampleFail | faultRaise | inclusionDeferredWrite | fltAckAll | fltCfgWrite | fltInclclr | fltStatSevRejClr
  | tlmFrame | tsSend | stopCut | stopRecordDone | maxstopExpiry | tapInstructionLoad | trstAssert | fabTimeLoRead | dbgStopvalLoRead
  | jadBootstatStopIgnClr | jadRstcauseClr | jadTeststatBscanClr | xltInvcntClr | xltPrecntClr | colCntClr | fabCntClr | calCntClr | calCnt2Clr
  | vltCntClr | twnCntClr | secCntClr | dbgTrstatClr | dbgTlmstatClr | alwaysOnRailsFall | xtalValid | selftestDone => exact answers_run _ _ _
  | pcieReadCompletion | pcieCompletionTimeout | facetMsgRd | facetMsgWr | facetMsgWrp | facetMsgAtom | facetMsgAtomp | facetMsgCpl | facetMsgCpld
  | facetCohGet | facetCohInvack | facetCohDrop | atsTranslationCompletion | prgResponse | targetWriteAck | subctlSubscribe | subctlGrant | subctlRefuse
  | subctlRenew | subctlInval | subctlInvack | subctlBreak | subctlUnsub | collContrib | collPartial | collClose | collCloseAck | collFinal | collLeave
  | collCarry | packetForward | pktRd | pktWr | pktWrp | pktAtom | pktAtomp | pktRsp | pktSem | pktSteer | pktCnp => exact answers_intake _ _ _ _ _
  | _ => exact answers_runIf _ _ _ _

/-- A run of `k + 1` steps is one step and the `k` steps from the state it answers. -/
theorem core_run_succ {s t : State} (k : Nat) (h : step s = .next t) : Host.Core.run core (k + 1) s = Host.Core.run core k t := by
  have hcore : core.step s = .next t := h
  simp only [Host.Core.run, hcore]

/-- A step with a command at the front whose units exist takes it off the queue. -/
theorem step_takes_front {s : State} {c : Instr} {r : List Instr} (hp : s.pending = c :: r) (hc : c.wf = true) :
    ∃ t, step s = .next t ∧ t.pending = r ∧ (s.memOk = true → t.memOk = true) := by
  obtain ⟨t, ht, hk⟩ := (exec_answers c { s with pending := r }).1 hc
  exact ⟨t, (step_cons s c r hp).trans ht, hk.pending, hk.memOk⟩

/-- Settles O51, by induction on the waiting commands: each step takes one off the queue. -/
theorem queueRunsToItsEnd : Obligations.QueueRunsToItsEnd := by
  unfold Obligations.QueueRunsToItsEnd
  intro s hs
  unfold State.queueOk at hs
  generalize hq : s.pending = q at hs ⊢
  induction q generalizing s with
  | nil => exact ⟨s, rfl, hq, id⟩
  | cons c r ih =>
    obtain ⟨hc, hr⟩ : c.wf = true ∧ r.all Instr.wf = true := by simpa using hs
    obtain ⟨t, hstep, hpend, hmem⟩ := step_takes_front hq hc
    obtain ⟨u, hrun, hend, hmem'⟩ := ih t hpend hr
    exact ⟨u, (core_run_succ r.length hstep).trans hrun, hend, fun h => hmem' (hmem h)⟩

/-- Settles O43, from what every command answers. -/
theorem commandsCompleteOrNameNoUnit : Obligations.CommandsCompleteOrNameNoUnit := by
  unfold Obligations.CommandsCompleteOrNameNoUnit
  intro i s
  obtain ⟨hnext, hstop⟩ := exec_answers i s
  exact ⟨fun h => (hnext h).imp fun _ ht => ht.1, hstop⟩

/-! ## Boot (01 R33 to R42; 03 R87 to R102) -/

/-- A memory request to a function that completes memory requests takes its effect (05 R176). -/
theorem Dev.mmio_served {d : Dev} {fn : Nat} (g : Dev → Dev) (hl : d.linkUp = true) (hm : d.memReq fn = true) : d.mmio fn g = g d := by
  simp [Dev.mmio, hl, hm]

theorem State.run_mmio_served {s : State} {fn : Nat} (g : Dev → Dev) (hl : s.dev.linkUp = true) (hm : s.dev.memReq fn = true) :
    (s.run fun d => d.mmio fn g) = .next (s.withDev (g s.dev)) := by
  rw [State.run_eq, Dev.mmio_served g hl hm]

/-- Settles O4, command by command: the hypotheses of each clause select one branch of the command's meaning. -/
theorem bootCommands : Obligations.BootCommands := by
  unfold Obligations.BootCommands
  refine ⟨?identityGood, ?identityDead, ?slotGood, ?slotUnreadable, ?verify, ?watchdog, ?hostReady, ?stopIgnClr, ?rstcauseClr, ?bscanClr⟩
  case identityGood =>
    intro reads d m q hst hdead hcombo
    show execIdentityCollect reads _ = _
    simp only [execIdentityCollect, State.run_eq, State.withDev, hst, hdead, hcombo, List.isEmpty_nil, Bool.not_true, Bool.false_eq_true, if_true, if_false]
  case identityDead =>
    intro reads d m q hst hdead
    have hne : ((d.collect reads).failing.filter fun n => decide (n < 2)).isEmpty = false := List.isEmpty_eq_false_iff.mpr hdead
    show execIdentityCollect reads _ = _
    simp only [execIdentityCollect, State.run_eq, State.withDev, hst, hne, Bool.not_false, if_true]
  case slotGood =>
    intro d m q hst hl hb
    show execSlotLoad true _ = _
    simp [execSlotLoad, State.run_eq, State.withDev, hst, hl, hb, Dev.loadSlot]
  case slotUnreadable =>
    intro d m q hst hl
    show execSlotLoad false _ = _
    simp [execSlotLoad, State.run_eq, State.withDev, hst, hl]
  case verify =>
    intro d m q hst hl
    show execSlotVerify _ = _
    simp only [execSlotVerify, State.run_eq, State.withDev, hst, hl, decide_true, Bool.and_self, if_true]
    cases imgCheck d.flash d.boot.hdr d.boot.digs <;> rfl
  case watchdog =>
    intro d m q hst hslot hn
    show execBootWatchdog _ = _
    simp [execBootWatchdog, State.run_eq, State.withDev, hst, hslot, hn]
  case hostReady =>
    intro d m q hst hdir
    show execHostReadyEntry _ = _
    simp [execHostReadyEntry, State.runMem, hst, hdir]
  case stopIgnClr =>
    intro d m q hl hm
    show execJadBootstatStopIgnClr _ = _
    exact State.run_mmio_served _ hl hm
  case rstcauseClr =>
    intro mask d m q hl hm
    show execJadRstcauseClr mask _ = _
    exact State.run_mmio_served _ hl hm
  case bscanClr =>
    intro d m q hl hm
    show execJadTeststatBscanClr _ = _
    exact State.run_mmio_served _ hl hm

end Sys2Proof.Machine

namespace Sys2Proof.Machine

/-! ## Pins, power and clocks (02)

The commands of the pins are meanings over the device alone: `State.run_next` and `State.runIf_next` leave of each the device it makes of the
device before. A width on a pin is then an event or none by the two lemmas about `Dev.seen`. -/

/-- A meaning over the device that makes `e` of `d` answers `e`, with the flash and the waiting commands as they were. -/
theorem State.run_next {d e : Dev} {m : Memory} {q : List Instr} {f : Dev → Dev} (h : f d = e) : State.run ⟨d, m, q⟩ f = .next ⟨e, m, q⟩ :=
  h ▸ rfl

theorem State.runIf_next {ok : Bool} {d e : Dev} {m : Memory} {q : List Instr} {f : Dev → Dev} (hok : ok = true) (h : f d = e) :
    State.runIf ⟨d, m, q⟩ ok f = .next ⟨e, m, q⟩ := by
  subst hok
  exact State.run_next h

/-- The input table asks of every input a width that outlasts its debounce (02 R66). -/
theorem debounceNs_le_minPulseNs (i : Nat) : debounceNs i ≤ minPulseNs i := by
  unfold debounceNs minPulseNs
  split <;> simp

theorem Dev.seen_of_minPulse {i ns : Nat} (d : Dev) (h : minPulseNs i ≤ ns) : d.seen i ns = (d, true) := by
  have hdeb : ¬ ns < debounceNs i := Nat.not_lt.mpr ((debounceNs_le_minPulseNs i).trans h)
  rw [Dev.seen, if_neg hdeb, if_pos h]

theorem Dev.seen_of_lt_debounce {i ns : Nat} (d : Dev) (h : ns < debounceNs i) : d.seen i ns = (d, false) :=
  if_pos h

/-- While PWR_OK is low nothing leaves on a pin that is not always driven (02 R50). -/
theorem Dev.emit_out_unpowered {d : Dev} {x : Out} (hok : d.jad.pwrOk = false) (hx : x.alwaysOn = false) : (d.emit x).out = d.out :=
  if_neg (by simp [hok, hx])

/-- Always-on only is entered with no wake request held: the device waits there (02 R80, 16 R691). -/
theorem Dev.enterAo_of_no_wake {d : Dev} (h : d.pwr.wakeHeld = none) :
    d.enterAo = { d.powerOff .dormant with pwr.state := 3, pwr.target := 3 } := by
  simp only [Dev.enterAo, h]

/-- Settles O1, command by command: the state of PWR_OK, PWR_REQ and the hold-up selects one branch of each command's meaning. -/
theorem powerSequencingCommands : Obligations.PowerSequencingCommands := by
  unfold Obligations.PowerSequencingCommands
  refine ⟨?aoRailsUp, ?prRelease, ?pwrOkRise, ?pwrOkFall, ?pwrOkGlitch, ?railFail, ?enterAo, ?powerOff, ?late, ?lateThird, ?retry, ?railsFall, ?unpowered⟩
  case aoRailsUp =>
    intro d m q hao
    show execAoRailsUp _ = _
    exact State.run_next (if_neg (by simp [hao]))
  case prRelease =>
    intro st d m q hao hrel
    show execPrRelease st _ = _
    exact State.run_next (if_pos (by simp [hao, hrel]))
  case pwrOkRise =>
    intro d m q hrel hok hlosing hstate
    show execPwrOkRise _ = _
    exact State.run_next ((if_pos (by simp [hrel, hok])).trans (if_neg (by simp [hlosing, hstate])))
  case pwrOkFall =>
    intro ns d m q hns hok
    show execPwrOkFall ns _ = _
    refine State.run_next ?_
    simp only [Dev.seen_of_minPulse d hns, hok, if_true]
  case pwrOkGlitch =>
    intro ns d m q hns
    show execPwrOkFall ns _ = _
    refine State.run_next ?_
    simp only [Dev.seen_of_lt_debounce d hns]
  case railFail =>
    intro rail d m q hok
    show execRailFail rail _ = _
    exact State.run_next (if_pos hok)
  case enterAo =>
    intro d m q hlosing htarget hlatched hwake
    show execPowerlossHoldupEnd _ = _
    have hent : d.enteringAo = true := by simp [Dev.enteringAo, hlosing, htarget, hlatched]
    exact State.run_next ((if_pos hlosing).trans ((if_pos hent).trans (Dev.enterAo_of_no_wake hwake)))
  case powerOff =>
    intro d m q hlosing htarget hlatched hok
    show execPowerlossHoldupEnd _ = _
    have hent : ¬ d.enteringAo = true := by simp [Dev.enteringAo, htarget]
    have hlow : (d.powerOff .rails).jad.pwrOk = false := hok
    refine State.run_next ((if_pos hlosing).trans ((if_neg hent).trans ?_))
    simp only [hlatched, hlow, Bool.false_eq_true, if_false]
  case late =>
    intro d m q hreq hok hfails
    show execPwrOkLate _ = _
    have hthird : ¬ 3 ≤ d.jad.reqFails + 1 := by omega
    refine State.run_next ((if_pos (by simp [hreq, hok])).trans ?_)
    simp only [hthird, if_false]
  case lateThird =>
    intro d m q hreq hok hfails
    show execPwrOkLate _ = _
    have hthird : 3 ≤ d.jad.reqFails + 1 := by omega
    refine State.run_next ((if_pos (by simp [hreq, hok])).trans ?_)
    simp only [hthird, if_true]
  case retry =>
    intro d m q hreq hok hpos hlt
    show execPwrReqRetry _ = _
    exact State.run_next (if_pos (by simp [hreq, hok, hpos, hlt]))
  case railsFall =>
    intro d m q
    show execAlwaysOnRailsFall _ = _
    exact State.run_next rfl
  case unpowered =>
    intro d x hok hx
    exact Dev.emit_out_unpowered hok hx

/-- Settles O2, command by command: the count's range, the boot stage and PPS select one branch of each command's meaning. -/
theorem clockCommands : Obligations.ClockCommands := by
  unfold Obligations.ClockCommands
  refine ⟨?pllLock, ?windowGood, ?windowLost, ?ppm, ?xtalFail, ?xtalValid, ?rcTrim, ?ppsOff, ?ppsMaster⟩
  case pllLock =>
    intro d m q hstage hhold hbscan
    show execPllLock _ = _
    exact State.run_next (if_pos (by simp [hstage, hhold, hbscan]))
  case windowGood =>
    intro count d m q hlo hhi
    show execRefclkWindowCheck count _ = _
    exact State.run_next (if_pos (by simp [hlo, hhi]))
  case windowLost =>
    intro count d m q hout hok hhold hstage
    show execRefclkWindowCheck count _ = _
    exact State.run_next ((if_neg (by simpa using hout)).trans (if_pos (by simp [hok, hhold, hstage])))
  case ppm =>
    intro ppm d m q hxtal
    show execRefclkPpmCheck ppm _ = _
    exact State.run_next (if_pos hxtal)
  case xtalFail =>
    intro d m q
    show execXtalFail _ = _
    exact State.run_next rfl
  case xtalValid =>
    intro d m q
    show execXtalValid _ = _
    exact State.run_next rfl
  case rcTrim =>
    intro d m q
    show execRcTrim _ = _
    exact State.run_next rfl
  case ppsOff =>
    intro ns d m q hen hns
    show execTimePpsEdge ns _ = _
    refine State.run_next ((if_neg (by simp [hen])).trans ?_)
    simp only [Dev.seen_of_minPulse d hns]
  case ppsMaster =>
    intro ns d m q x hen hpulse hparent hset
    show execTimePpsEdge ns _ = _
    refine State.run_next ((if_pos hen).trans ?_)
    simp only [hpulse]
    exact if_pos (by simp [hparent, hset])

/-- Settles O3, command by command: an input's event is taken as its hypothesis says (`Dev.pulse`, `Dev.accept`), and the state of the input or
of the device then selects one branch of the command's meaning. -/
theorem asyncInputCommands : Obligations.AsyncInputCommands := by
  unfold Obligations.AsyncInputCommands
  refine ⟨?stopScheduled, ?stopIgnored, ?thermOnset, ?thermRelease, ?faultAck, ?aliveEdge, ?aliveTimeout, ?stuck, ?aliveStuck, ?unmask, ?rateFault,
    ?outToggle, ?dropClr⟩
  case stopScheduled =>
    intro ns d m q x hpulse hup hrun hen
    show execStopReqEvent ns _ = _
    have hstop : x.stopped = false := by simp [Dev.stopped, hrun]
    refine State.run_next ?_
    simp [hpulse, hup, hstop, hrun, hen]
  case stopIgnored =>
    intro ns d m q x hpulse hup hst
    show execStopReqEvent ns _ = _
    have hstop : x.stopped = true := by simp [Dev.stopped, hst]
    refine State.run_next ?_
    simp [hpulse, hup, hstop]
  case thermOnset =>
    intro ns d m q x hns hacc
    show execThermInOnset ns _ = _
    refine State.run_next ?_
    simp only [Dev.seen_of_minPulse d hns, hacc, Dev.postIf, if_true]
  case thermRelease =>
    intro d m q
    show execThermInRelease _ = _
    exact State.run_next rfl
  case faultAck =>
    intro ns d m q x hpulse
    show execFaultAckEdge ns _ = _
    refine State.run_next ?_
    simp only [hpulse, if_true]
  case aliveEdge =>
    intro ns d m q x hns hacc hrated
    show execTwinAliveEdge ns _ = _
    refine State.run_next ?_
    simp only [Dev.seen_of_minPulse d hns, hacc, hrated, Bool.not_false, Bool.or_true]
  case aliveTimeout =>
    intro d m q x hen hedge hold
    show execTwinAliveTimeout _ = _
    exact State.run_next (if_pos (by simp [hen, hedge, hold]))
  case stuck =>
    intro i d m q hi hmask
    show execAsyncStuckTimeout i _ = _
    have hne : i ≠ 4 := by omega
    refine State.runIf_next (decide_eq_true (by omega)) ((if_pos ?_).trans ?_)
    · simp [hmask, (by omega : i < 5)]
    · simp only [hne, if_false]
  case aliveStuck =>
    intro d m q hmask
    show execAsyncStuckTimeout 4 _ = _
    exact State.runIf_next rfl (if_pos (by simp [hmask]))
  case unmask =>
    intro i d m q hi
    show execAsyncUnmask i _ = _
    exact State.runIf_next (decide_eq_true hi) rfl
  case rateFault =>
    intro i d m q hi hmany hrated
    show execAsyncRateFault i _ = _
    have hne : i ≠ 4 := by omega
    refine State.runIf_next (decide_eq_true (by omega)) ((if_pos ?_).trans ?_)
    · simp only [hrated, hmany, (by omega : i < 5), decide_true, Bool.not_false, Bool.and_self]
    · simp only [hne, if_false]
  case outToggle =>
    intro d m q
    show execTwinAliveOutToggle _ = _
    exact State.run_next rfl
  case dropClr =>
    intro i d m q hl hm hi
    show execJadAindropClr i _ = _
    exact State.runIf_next (decide_eq_true hi) (Dev.mmio_served _ hl hm)

end Sys2Proof.Machine

namespace Sys2Proof.Machine

/-! ## The boot flash and its directory (03 R84 to R90) -/

/-- What a command answered, if it answered a next state, keeps what it must. -/
theorem exec_keeps {i : Instr} {s t : State} (h : exec i s = .next t) : Keeps (flashWriter i) s t := by
  obtain ⟨hnext, hstop⟩ := exec_answers i s
  cases hw : i.wf with
  | true =>
    obtain ⟨u, hu, hkeeps⟩ := hnext hw
    obtain rfl : t = u := by simpa [h] using hu
    exact hkeeps
  | false => exact absurd (h.symm.trans (hstop hw)) nofun

/-- Settles O49: a tick does not touch the flash, and every command keeps its canonical form. -/
theorem flashStaysCanonical : Obligations.FlashStaysCanonical := by
  unfold Obligations.FlashStaysCanonical
  intro s t hok hstep
  cases hq : s.pending with
  | nil =>
    rw [← Host.Outcome.next.inj ((step_nil s hq).symm.trans hstep)]
    exact (Keeps.withDev false s s.dev.tick).memOk hok
  | cons c r =>
    rw [step_cons s c r hq] at hstep
    exact (exec_keeps hstep).memOk hok

/-- Settles O44, from what every command keeps. -/
theorem commandsLeaveTheQueueAndTheFlashAlone : Obligations.CommandsLeaveTheQueueAndTheFlashAlone := by
  unfold Obligations.CommandsLeaveTheQueueAndTheFlashAlone
  intro i s t h
  have hkeeps := exec_keeps h
  exact ⟨hkeeps.pending, fun hw a => by rw [hkeeps.mem hw]⟩

/-! ### Reading what was written and erased -/

/-- An entry that a filter keeps reads as before. -/
theorem Tab.look_filter_of_kept {α : Type} (d : α) (t : Tab α) (p : Nat × α → Bool) (k : Nat) (h : ∀ v, p (k, v) = true) :
    Tab.look d k (t.filter p) = Tab.look d k t := by
  induction t with
  | nil => rfl
  | cons e r ih =>
    obtain ⟨a, v⟩ := e
    by_cases ha : a = k
    · subst ha
      simp [h, Tab.look]
    · by_cases hp : p (a, v) = true <;> simp [hp, Tab.look, ha, ih]

theorem Memory.readByte_erase_outside (m : Memory) (a n b : Nat) (h : b < a ∨ a + n ≤ b) : (m.erase a n).readByte b = m.readByte b :=
  Tab.look_filter_of_kept _ m _ b fun _ => by simpa using h

/-- A byte of a written range reads as written. -/
theorem Memory.readByte_write_inside (m : Memory) (a : Nat) (l : List Byte) (n : Nat) (h : n < l.length) :
    (m.write a l).readByte (a + n) = l[n] := by
  induction l generalizing m a n with
  | nil => exact absurd h (Nat.not_lt_zero n)
  | cons v r ih =>
    show ((m.writeByte a v).write (a + 1) r).readByte (a + n) = _
    cases n with
    | zero => rw [Memory.readByte_write_outside _ _ _ r (.inl (by omega)), Nat.add_zero, Memory.readByte_writeByte_same]; rfl
    | succ n =>
      rw [show a + (n + 1) = a + 1 + n by omega, ih (m.writeByte a v) (a + 1) n (by simpa using h)]
      rfl

/-- Bytes read from within a written range are the ones written there. -/
theorem Memory.read_write_inside (m : Memory) (a : Nat) (l : List Byte) (i n : Nat) (h : i + n ≤ l.length) :
    (m.write a l).read (a + i) n = (l.drop i).take n := by
  refine List.ext_getElem (by simp [Memory.read]; omega) fun j hj _ => ?_
  have hjn : j < n := by simpa [Memory.read] using hj
  simp only [Memory.read, List.getElem_map, List.getElem_range, List.getElem_take, List.getElem_drop, Nat.add_assoc]
  exact Memory.readByte_write_inside m a l (i + j) (by omega)

/-- Bytes of a range that reads as in another flash. -/
theorem Memory.read_congr {m m' : Memory} {a n : Nat} (h : ∀ b, a ≤ b → b < a + n → m.readByte b = m'.readByte b) : m.read a n = m'.read a n :=
  List.map_congr_left fun i hi => h (a + i) (by omega) (by have := List.mem_range.mp hi; omega)

/-- A number is read back from its bytes, least significant first. -/
theorem leNat_leBytes : ∀ n v : Nat, leNat (leBytes n v) = v % 256 ^ n
  | 0, v => by simp [leBytes, leNat, Nat.mod_one]
  | n + 1, v => by
    rw [leBytes, leNat, leNat_leBytes n, Nat.pow_succ', Nat.mod_mul, BitVec.toNat_ofNat]

/-! ### The directory -/

/-- The bytes of a directory copy but its CRC (03 R86). -/
def dirBody (seq : Nat) (active trial : Bool) : List Byte :=
  leBytes 4 0x48584431 ++ leBytes 4 seq ++ [BitVec.ofNat 8 (bNat active), BitVec.ofNat 8 (bNat trial), 0, 0]

/-- The bytes of a directory copy. -/
def dirBytes (seq : Nat) (active trial : Bool) : List Byte :=
  dirBody seq active trial ++ leBytes 4 (crc32c (dirBody seq active trial)).toNat

@[simp] theorem length_dirBody (seq : Nat) (active trial : Bool) : (dirBody seq active trial).length = 12 := rfl

@[simp] theorem length_dirBytes (seq : Nat) (active trial : Bool) : (dirBytes seq active trial).length = 16 := rfl

/-- The directory's write, where copy `k` is in use: the other copy is erased and written. -/
theorem dirWrite_of_dirNow {m : Memory} {k : Nat} {x : BootDir} (active trial : Bool) (h : dirNow m = some (k, x)) :
    dirWrite m active trial = (m.erase (4096 * (1 - k)) 4096).write (4096 * (1 - k)) (dirBytes (x.seq + 1) active trial) := by
  simp only [dirWrite, h, dirBytes, dirBody]

/-- The fields of a directory copy, by their bytes: MAGIC, SEQ, ACTIVE, TRIAL and CRC (03 R86). -/
theorem dirBytes_fields (seq : Nat) (active trial : Bool) :
    (dirBytes seq active trial).take 12 = dirBody seq active trial ∧ (dirBytes seq active trial).take 4 = leBytes 4 0x48584431 ∧
      ((dirBytes seq active trial).drop 4).take 4 = leBytes 4 seq ∧
      ((dirBytes seq active trial).drop 8).take 1 = [BitVec.ofNat 8 (bNat active)] ∧
      ((dirBytes seq active trial).drop 9).take 1 = [BitVec.ofNat 8 (bNat trial)] ∧
      ((dirBytes seq active trial).drop 12).take 4 = leBytes 4 (crc32c (dirBody seq active trial)).toNat := by
  unfold dirBytes
  -- the CRC's own computation has no part in where the fields lie
  generalize crc32c (dirBody seq active trial) = c
  exact ⟨rfl, rfl, rfl, rfl, rfl, rfl⟩

/-- ACTIVE and TRIAL are one byte each, 0 or 1 (03 R86). -/
theorem leNat_bit (b : Bool) : leNat [BitVec.ofNat 8 (bNat b)] = bNat b := by cases b <;> rfl

/-- A word of 32 bits is read back from its four bytes. -/
theorem leNat_leBytes_four {v : Nat} (h : v < 2 ^ 32) : leNat (leBytes 4 v) = v :=
  (leNat_leBytes 4 v).trans (Nat.mod_eq_of_lt h)

/-- A copy reads back as it was written. -/
theorem dirCopy_write_dirBytes (m : Memory) (k seq : Nat) (active trial : Bool) (hseq : seq < 2 ^ 32) :
    dirCopy (m.write (4096 * k) (dirBytes seq active trial)) k = some { ok := true, seq, active, trial } := by
  obtain ⟨hbody, hmagic, hs, ha, ht, hcrc⟩ := dirBytes_fields seq active trial
  have hread (i n : Nat) (h : i + n ≤ 16) := Memory.read_write_inside m (4096 * k) (dirBytes seq active trial) i n (by simpa using h)
  generalize m.write (4096 * k) (dirBytes seq active trial) = w at hread ⊢
  have hbody' : w.read (4096 * k) 12 = dirBody seq active trial := (hread 0 12 (by omega)).trans hbody
  have hmagic' : w.num (4096 * k) 4 = 0x48584431 :=
    (congrArg leNat ((hread 0 4 (by omega)).trans hmagic)).trans (leNat_leBytes_four (by omega))
  have hs' : w.num (4096 * k + 4) 4 = seq := by rw [Memory.num, hread 4 4 (by omega), hs, leNat_leBytes_four hseq]
  have ha' : w.num (4096 * k + 8) 1 = bNat active := by rw [Memory.num, hread 8 1 (by omega), ha, leNat_bit]
  have ht' : w.num (4096 * k + 9) 1 = bNat trial := by rw [Memory.num, hread 9 1 (by omega), ht, leNat_bit]
  have hcrc' : w.num (4096 * k + 12) 4 = (crc32c (w.read (4096 * k) 12)).toNat := by
    rw [Memory.num, hread 12 4 (by omega), hcrc, leNat_leBytes_four (crc32c _).isLt, hbody']
  simp only [dirCopy, hmagic', hcrc', hs', ha', ht', decide_true, Bool.and_self, if_true]
  cases active <;> cases trial <;> simp [bNat]

/-- A copy whose bytes read as before reads as before. -/
theorem dirCopy_congr {m m' : Memory} {k : Nat} (h : ∀ b, 4096 * k ≤ b → b < 4096 * k + 16 → m.readByte b = m'.readByte b) :
    dirCopy m k = dirCopy m' k := by
  have hread : ∀ i n, i + n ≤ 16 → m.read (4096 * k + i) n = m'.read (4096 * k + i) n := fun i n hi =>
    Memory.read_congr fun b hlo hhi => h b (by omega) (by omega)
  have hnum : ∀ i n, i + n ≤ 16 → m.num (4096 * k + i) n = m'.num (4096 * k + i) n := fun i n hi => congrArg leNat (hread i n hi)
  have hbody : m.read (4096 * k) 12 = m'.read (4096 * k) 12 := hread 0 12 (by omega)
  have hmagic : m.num (4096 * k) 4 = m'.num (4096 * k) 4 := hnum 0 4 (by omega)
  simp only [dirCopy, hbody, hmagic, hnum, Nat.reduceAdd, Nat.reduceLeDiff]

/-- Outside the copy not in use the directory's write changes no byte. -/
theorem readByte_dirWrite_outside {m : Memory} {k : Nat} {x : BootDir} (active trial : Bool) (h : dirNow m = some (k, x)) {a : Nat}
    (ha : a < 4096 * (1 - k) ∨ 4096 * (1 - k) + 4096 ≤ a) : (dirWrite m active trial).readByte a = m.readByte a := by
  rw [dirWrite_of_dirNow active trial h, Memory.readByte_write_outside _ _ _ _ (by simp only [length_dirBytes]; omega),
    Memory.readByte_erase_outside m _ _ _ ha]

/-- The directory in use is a copy that qualifies, 0 or 1. -/
theorem dirCopy_of_dirNow {m : Memory} {k : Nat} {x : BootDir} (h : dirNow m = some (k, x)) : k ≤ 1 ∧ dirCopy m k = some x := by
  unfold dirNow at h
  split at h
  · split at h <;> cases h <;> simp [*]
  · cases h; simp [*]
  · cases h; simp [*]
  · cases h

/-- Of two copies that qualify the one with the higher SEQ is in use (03 R87). -/
theorem dirNow_of_seq_lt {m : Memory} {k : Nat} {x y : BootDir} (hk : k ≤ 1) (hx : dirCopy m k = some x) (hy : dirCopy m (1 - k) = some y)
    (hlt : x.seq < y.seq) : dirNow m = some (1 - k, y) := by
  obtain rfl | rfl : k = 0 ∨ k = 1 := by omega
  · simp only [Nat.sub_zero] at hy
    simp [dirNow, hx, hy, hlt]
  · simp only [Nat.sub_self] at hy
    simp [dirNow, hx, hy, Nat.lt_asymm hlt]

/-- Settles O48: the copy in use still reads as before, and the one written has the higher SEQ. -/
theorem directoryReadsBack : Obligations.DirectoryReadsBack := by
  unfold Obligations.DirectoryReadsBack
  intro m act trial k x hnow hseq
  obtain ⟨hk, hcopy⟩ := dirCopy_of_dirNow hnow
  refine ⟨dirNow_of_seq_lt hk (x := x) ?old ?new (Nat.lt_succ_self x.seq), fun a ha => readByte_dirWrite_outside act trial hnow ha⟩
  case old =>
    rw [← hcopy]
    exact dirCopy_congr fun b hlo hhi => readByte_dirWrite_outside act trial hnow (by omega)
  case new =>
    rw [dirWrite_of_dirNow act trial hnow]
    exact dirCopy_write_dirBytes _ _ _ _ _ hseq

/-- A copy qualifies exactly when its MAGIC and its CRC are right (03 R87). -/
theorem dirCopy_isSome_iff (m : Memory) (k : Nat) : (dirCopy m k).isSome = true ↔
    Memory.num m (4096 * k) 4 = 0x48584431 ∧ Memory.num m (4096 * k + 12) 4 = (crc32c (m.read (4096 * k) 12)).toNat := by
  simp only [dirCopy]
  split <;> simp_all

/-- Settles O55: `dirNow` takes the copy that R87 names, and `dirSlot` its slot. -/
theorem bootDirectoryChoice : Obligations.BootDirectoryChoice := by
  unfold Obligations.BootDirectoryChoice
  intro m
  refine ⟨dirCopy_isSome_iff m, fun a b ha hb => ⟨fun h => ?second, fun h => ?first⟩, fun a => ⟨fun ha hb => ?only0, fun ha hb => ?only1⟩,
    fun ha hb => ?neither⟩
  case second => rw [dirSlot, dirNow_of_seq_lt (k := 0) (Nat.zero_le 1) ha hb h]
  case first => rw [dirSlot, dirNow_of_seq_lt (k := 1) (Nat.le_refl 1) hb ha h]
  case only0 => simp only [dirSlot, dirNow, ha, hb]
  case only1 => simp only [dirSlot, dirNow, ha, hb]
  case neither => simp only [dirSlot, dirNow, ha, hb]

/-! ### The slots -/

/-- The flash after FLASH_ERASE_DONE: erased and programmed where a first piece waits for it, else as before. -/
theorem flashEraseDone_mem {s t : State} {j : FlJob} (hj : s.dev.mbx.flJob = some j) (h : exec .flashEraseDone s = .next t) :
    t.mem = if j.erase && !j.check then (s.mem.erase (areaOf j.slot).1 (areaOf j.slot).2).write ((areaOf j.slot).1 + j.off) j.data else s.mem := by
  change execFlashEraseDone s = _ at h
  cases h
  simp only [hj]
  split <;> rfl

/-- The flash after FLASH_PROGRAM_DONE: programmed where a later piece waits for it, else as before. -/
theorem flashProgramDone_mem {s t : State} {j : FlJob} (hj : s.dev.mbx.flJob = some j) (h : exec .flashProgramDone s = .next t) :
    t.mem = if j.erase || j.check then s.mem else s.mem.write ((areaOf j.slot).1 + j.off) j.data := by
  change execFlashProgramDone s = _ at h
  cases h
  simp only [hj]
  split <;> rfl

/-- Settles O46: what is erased is the area, and what is programmed lies within it. -/
theorem slotWritesStayInTheirArea : Obligations.SlotWritesStayInTheirArea := by
  unfold Obligations.SlotWritesStayInTheirArea
  rintro s t j hj hfits (h | h) a ha
  · rw [flashEraseDone_mem hj h]
    split
    · rw [Memory.readByte_write_outside _ _ _ _ (by omega), Memory.readByte_erase_outside _ _ _ _ ha]
    · rfl
  · rw [flashProgramDone_mem hj h]
    split
    · rfl
    · rw [Memory.readByte_write_outside _ _ _ _ (by omega)]

end Sys2Proof.Machine

namespace Sys2Proof.Machine

/-! ## Resets, the PCIe endpoint, bring-up and registers (03 R102 to R117; 05 R167 to R209) -/

/-- A configuration write over the link to a function that is present and not in FLR takes its effect (03 R105, 05 R207). -/
theorem Dev.configReq_served {d : Dev} {f : Nat} (g : Dev → Dev) (hl : d.linkUp = true) (hp : d.fnPresent f = true) (hf : (d.fn f).flr = false) :
    d.configReq f g = g d := by
  simp [Dev.configReq, hl, hp, hf]

/-- While the device boots no function is there (03 R100, R105). -/
theorem Dev.fnPresent_of_booting {d : Dev} (h : d.boot.stage = .load ∨ d.boot.stage = .init) (f : Nat) : d.fnPresent f = false := by
  rcases h with h | h <;> simp [Dev.fnPresent, Dev.up, h]

/-- The two stages from HOST_READY on. -/
theorem Dev.stage_of_up {d : Dev} (h : d.up = true) : d.boot.stage = .hostReady ∨ d.boot.stage = .fabricReady := by
  simpa [Dev.up] using h

/-- What arrives while the device runs and nothing waits takes its effect at once (21 R878). -/
theorem State.intake_next {ok : Bool} {d e : Dev} {m : Memory} {q : List Instr} {i : Late} {f : Dev → Dev} (hok : ok = true) (hs : d.dbg.st ≠ .stopped)
    (hi : d.dbg.ingress = []) (h : f d = e) : State.intake ⟨d, m, q⟩ ok i f = .next ⟨e, m, q⟩ :=
  (State.admit_running ⟨d, m, q⟩ ok i f hok hs hi).trans (h ▸ rfl)

/-- Settles O5, command by command: the hypotheses of each clause select one branch of the command's meaning. -/
theorem resetCommands : Obligations.ResetCommands := by
  unfold Obligations.ResetCommands
  refine ⟨?perstUp, ?perstDown, ?perstHigh, ?perstWake, ?flrPf, ?flrRecovery, ?flrVf, ?drained, ?deviceReset, ?quiesce, ?scrub, ?bmeClear, ?bmeSet,
    ?bmstat⟩
  case perstUp =>
    intro d m q hhigh hup
    show execPerstAssert _ = _
    exact State.run_next ((if_pos hhigh).trans (congrArg Dev.settle (if_pos hup)))
  case perstDown =>
    intro d m q hhigh hup
    show execPerstAssert _ = _
    exact State.run_next ((if_pos hhigh).trans (congrArg Dev.settle (if_neg (Bool.eq_false_iff.mp hup))))
  case perstHigh =>
    intro d m q hlow hstage hlosing
    show execPerstDeassert _ = _
    refine State.run_next ?_
    simp [hlow, hstage, hlosing]
  case perstWake =>
    intro d m q hlow hstage hlong
    show execPerstDeassert _ = _
    refine State.run_next ?_
    simp [hlow, hstage, hlong]
  case flrPf =>
    intro d m q hl hp hf hup
    show execPcieFlrPf _ = _
    exact State.run_next ((Dev.configReq_served _ hl hp hf).trans (congrArg Dev.settle (if_pos hup)))
  case flrRecovery =>
    intro d m q hl hp hf hstage
    show execPcieFlrPf _ = _
    have hup : ¬ d.up = true := by simp [Dev.up, hstage]
    exact State.run_next ((Dev.configReq_served _ hl hp hf).trans (congrArg Dev.settle (if_neg hup)))
  case flrVf =>
    intro t d m q hl hp hf ht _
    show execPcieFlrVf t _ = _
    exact State.runIf_next (decide_eq_true ht) (Dev.configReq_served _ hl hp hf)
  case drained =>
    intro fn d m q hfn hout
    show execFlrReadsDrained fn _ = _
    exact State.runIf_next (decide_eq_true hfn) (if_pos hout)
  case deviceReset =>
    intro cause d m q
    show execDeviceReset cause _ = _
    exact State.run_next rfl
  case quiesce =>
    intro t d m q ht hrst hreads
    show execTrQuiesceDone t _ = _
    refine State.runIf_next (decide_eq_true ht) ?_
    simp [hrst, hreads]
  case scrub =>
    intro t d m q ht hrst
    show execTrScrubDone t _ = _
    exact State.runIf_next (decide_eq_true ht) (congrArg Dev.settle (if_pos hrst))
  case bmeClear =>
    intro fn d m q hl hp hf hfn hbme
    show execBmeClear fn _ = _
    exact State.runIf_next (decide_eq_true hfn) ((Dev.configReq_served _ hl hp hf).trans (if_pos hbme))
  case bmeSet =>
    intro fn d m q hl hp hf hfn hbme _
    show execBmeSet fn _ = _
    exact State.runIf_next (decide_eq_true hfn) ((Dev.configReq_served _ hl hp hf).trans (if_neg (Bool.eq_false_iff.mp hbme)))
  case bmstat =>
    intro fn d m q hl hm hfn
    show execMbxBmstatClr fn _ = _
    exact State.runIf_next (decide_eq_true hfn) (Dev.mmio_served _ hl hm)

/-- Nothing keeps a link that is not held from training once HOST_READY is reached (03 R110, 05 R168). -/
theorem Dev.mayTrain_of_up {d : Dev} (hhigh : d.jad.perstHigh = true) (hheld : d.mbx.link.held = false) (hup : d.up = true) :
    (!d.jad.perstHigh || d.mbx.link.held || decide (d.boot.stage.code < 4) || decide (d.boot.stage = .halted) || decide (d.boot.stage = .dormant)) = false := by
  rcases Dev.stage_of_up hup with h | h <;> simp [hhigh, hheld, h, Stage.code]

/-- Settles O6, command by command: the hypotheses of each clause select one branch of the command's meaning. -/
theorem endpointCommands : Obligations.EndpointCommands := by
  unfold Obligations.EndpointCommands
  refine ⟨?retry, ?read, ?write, ?absent, ?trained, ?slow, ?aer, ?completion, ?timeout, ?completionEnds, ?timeoutEnds⟩
  case retry =>
    intro fn write field val d m q hfn hl hstage
    show execPcieConfigAccess fn write field val _ = _
    refine State.runIf_next (decide_eq_true hfn) ?_
    simp [hl, Dev.fnPresent_of_booting hstage, hstage]
  case read =>
    intro fn field val d m q hfn hl hp hf
    show execPcieConfigAccess fn false field val _ = _
    refine State.runIf_next (decide_eq_true hfn) ?_
    simp [hl, hp, hf]
  case write =>
    intro fn field val d m q hfn hl hp hf
    show execPcieConfigAccess fn true field val _ = _
    refine State.runIf_next (decide_eq_true hfn) ?_
    simp [hl, hp, hf]
  case absent =>
    intro fn write field val d m q hfn hl hp hload hinit
    show execPcieConfigAccess fn write field val _ = _
    refine State.runIf_next (decide_eq_true hfn) ?_
    simp [hl, hp, hload, hinit]
  case trained =>
    intro gts width d m q hhigh hheld hup hgts
    show execPcieLinkTrain gts width _ = _
    exact State.run_next ((if_neg (Bool.eq_false_iff.mp (Dev.mayTrain_of_up hhigh hheld hup))).trans (if_neg (Nat.not_lt.mpr hgts)))
  case slow =>
    intro gts width d m q hhigh hheld hup hgts
    show execPcieLinkTrain gts width _ = _
    exact State.run_next ((if_neg (Bool.eq_false_iff.mp (Dev.mayTrain_of_up hhigh hheld hup))).trans (if_pos hgts))
  case aer =>
    intro correctable bit d m q hbit
    show execPcieAerError correctable bit _ = _
    exact State.runIf_next (decide_eq_true hbit) rfl
  case completion =>
    intro fn tag ok data d m q hfn hst hi
    show execPcieReadCompletion fn tag ok data _ = _
    exact State.intake_next (decide_eq_true hfn) hst hi rfl
  case timeout =>
    intro fn tag d m q hfn hst hi
    show execPcieCompletionTimeout fn tag _ = _
    exact State.intake_next (decide_eq_true hfn) hst hi rfl
  case completionEnds =>
    intro fn tag data d m q r x js hfn hst hi hread hstale hend
    show execPcieReadCompletion fn tag true data _ = _
    refine State.intake_next (decide_eq_true hfn) hst hi (congrArg Dev.settle ?_)
    simp [Dev.hostCpl, hread, hstale, hend]
  case timeoutEnds =>
    intro fn tag d m q r x js hfn hst hi hread hstale hend
    show execPcieCompletionTimeout fn tag _ = _
    refine State.intake_next (decide_eq_true hfn) hst hi (congrArg Dev.settle ?_)
    simp [Dev.hostTimeout, hread, hstale, hend]

/-! ### Registers -/

/-- A write of a register of the PF that only stores, through a PF that completes memory requests (05 R174, R176). -/
theorem exec_registerWrite_pf_stored {off : Nat} {val : W32} {d : Dev} (m : Memory) (q : List Instr) (hl : d.linkUp = true) (hm : d.memReq 0 = true)
    (heff : pfEffect off val = none) : exec (.registerWrite 0 false off val) ⟨d, m, q⟩ = .next ⟨d.storePf off val, m, q⟩ := by
  show execRegisterWrite 0 false off val _ = _
  simp only [execRegisterWrite, Bool.false_eq_true, if_false, if_true, heff]
  exact State.runIf_next rfl (Dev.mmio_served _ hl hm)

/-- An offset of the PF's BAR0 that holds a register stores it. -/
theorem Dev.storePf_of_some {d e : Dev} {off : Nat} {val : W32}
    (h : (d.storeTransport off val).or ((d.storeOptics off val).or (d.storeDevice off val)) = some e) : d.storePf off val = e.settle := by
  simp only [Dev.storePf, h]

/-- One that holds none takes no write. -/
theorem Dev.storePf_of_none {d : Dev} {off : Nat} {val : W32}
    (h : (d.storeTransport off val).or ((d.storeOptics off val).or (d.storeDevice off val)) = none) : d.storePf off val = d := by
  simp only [Dev.storePf, h]

/-- A word of the MSI-X table reads as last written; of a vector control word only bit 0 is held (05 R172). -/
theorem Fn.readBar2_storeMsix (g : Fn) {off : Nat} (v : W32) (ha : off % 4 = 0) (ht : off < 0x8000) :
    (g.storeMsix off v).readBar2 off = if off % 16 = 12 then (v &&& 1).toNat else v.toNat := by
  have hin : ¬ 0x8000 ≤ off := Nat.not_le.mpr ht
  by_cases hc : off % 16 = 12 <;> simp [Fn.readBar2, Fn.storeMsix, hin, ha, ht, hc]

/-- A read that completes no memory request returns nothing (05 R105, R176). -/
theorem Dev.readReg_unserved {d : Dev} {f : Nat} (bar2 : Bool) (off : Nat) (h : d.linkUp = false ∨ d.memReq f = false) : d.readReg f bar2 off = none :=
  if_pos (by rcases h with h | h <;> simp [h])

/-- Settles O24: the items by `Dev.mayStart`, the registers by what the write's offset selects. -/
theorem bringUpAndRegisterCommands : Obligations.BringUpAndRegisterCommands := by
  unfold Obligations.BringUpAndRegisterCommands
  refine ⟨?itemStarts, ?itemWaits, ?thmCfg, ?fabCfg, ?vltCfg, ?stored, ?reserved, ?vf, ?bar2, ?reads, ?msix, ?unserved⟩
  case itemStarts =>
    intro item d m q hlo hhi hmay
    show execBringupItemStart item _ = _
    exact State.runIf_next (by simp [Unit.bringupItem]; omega) (if_pos hmay)
  case itemWaits =>
    intro item d m q hlo hhi hmay
    show execBringupItemStart item _ = _
    exact State.runIf_next (by simp [Unit.bringupItem]; omega) (if_neg (Bool.eq_false_iff.mp hmay))
  case thmCfg =>
    intro val d m q hl hm
    rw [exec_registerWrite_pf_stored m q hl hm rfl, Dev.storePf_of_some rfl]
  case fabCfg =>
    intro val d m q hl hm
    rw [exec_registerWrite_pf_stored m q hl hm rfl, Dev.storePf_of_some rfl]
  case vltCfg =>
    intro val d m q hl hm
    rw [exec_registerWrite_pf_stored m q hl hm rfl, Dev.storePf_of_some rfl]
  case stored =>
    intro off val d m q e hl hm heff hst
    rw [exec_registerWrite_pf_stored m q hl hm heff, Dev.storePf_of_some hst]
  case reserved =>
    intro off val d m q hl hm heff hst
    rw [exec_registerWrite_pf_stored m q hl hm heff, Dev.storePf_of_none hst]
  case vf =>
    intro fn off val d m q hl hm hpos hfn heff
    show execRegisterWrite fn false off val _ = _
    have hunit : Unit.function fn = true := decide_eq_true (by omega)
    have hpf : fn ≠ 0 := by omega
    simp only [execRegisterWrite, Bool.false_eq_true, if_false, hpf, hunit, if_true, heff]
    exact State.runIf_next rfl (Dev.mmio_served _ hl hm)
  case bar2 =>
    intro fn off val d m q hl hm hfn
    show execRegisterWrite fn true off val _ = _
    exact State.runIf_next (decide_eq_true (by omega)) (Dev.mmio_served _ hl hm)
  case reads =>
    intro d
    exact ⟨rfl, rfl, rfl, rfl, rfl⟩
  case msix =>
    intro g off v ha ht
    exact Fn.readBar2_storeMsix g v ha ht
  case unserved =>
    intro d f bar2 off h
    exact Dev.readReg_unserved bar2 off h

end Sys2Proof.Machine

namespace Sys2Proof.Machine

/-! ## Host Facet ports (04; 09 R350 to R392)

The commands of a port are meanings under the check of its units. What each takes of the state is said by the hypotheses of its clause; the lemmas
below say what the shared steps (a flit taken in sequence, HR, a request of a compute die) make of it there. -/

/-- A cluster of a Host Facet port. -/
theorem Unit.facetCluster_host {p c : Nat} (hp : p < 8) (hc : c < 32) : Unit.facetCluster p c = true := by
  have hlink : p < 12 := by omega
  simp [Unit.facetCluster, Unit.facetLink, Unit.cluster, hp, hc, hlink]

theorem Unit.hostCluster {p c : Nat} (hp : p < 8) (hc : c < 32) : (Unit.hostPort p && Unit.cluster c) = true := by
  simp [Unit.hostPort, Unit.cluster, hp, hc]

theorem Unit.facetLink_host {p : Nat} (hp : p < 8) : Unit.facetLink p = true := decide_eq_true (by omega)

/-! ### Flits and HR (R128 to R133, R153) -/

/-- A null flit gives no credit back, completes no message and holds no place of the memory channel (R133). -/
theorem HPort.accept_null (h : HPort) {f : FacetFlit} (hnull : f.null = true) : h.accept f =
    { h with rxNext := (h.rxNext + 1) % 1024, unacked := ackedFlits f.ack h.unacked, cred := Tab.upd 0 f.crdCh (· + f.crdCnt) h.cred, ackOwed := true } := by
  simp [HPort.accept, hnull]

/-- A flit of the memory channel keeps its credit until its message is served (R133). -/
theorem HPort.accept_memory (h : HPort) {f : FacetFlit} (hnull : f.null = false) (hch : f.ch = 0) (hunsup : f.unsup = none) : h.accept f =
    { h with
      rxNext := (h.rxNext + 1) % 1024, unacked := ackedFlits f.ack h.unacked, cred := Tab.upd 0 f.crdCh (· + f.crdCnt) h.cred,
      memHeld := h.memHeld + 1, ackOwed := true, parts := if f.last then without 0 h.parts else insertNat 0 h.parts } := by
  simp [HPort.accept, hnull, hch, hunsup]

/-- A flit received in sequence, with no parity error beside it, no NAK and nothing out of place in it, is accepted and the port may send (R129 to R133). -/
theorem exec_facetFlitRx_accepted {p : Nat} {f : FacetFlit} {d : Dev} (m : Memory) (q : List Instr) (hp : p < 8) (hst : (d.hport p).st = .active)
    (herrs : f.trackErrs = []) (hcrc : f.crcOk = true) (hseq : f.seq = (d.hport p).rxNext) (hirq : (!f.null && decide (f.ch = 2)) = false)
    (hnak : f.nak = false) (hunsup : f.unsup = none) :
    exec (.facetFlitRx p f) ⟨d, m, q⟩ = .next ⟨((d.setHport p fun h => h.accept f).drainPort p).settle, m, q⟩ := by
  show execFacetFlitRx p f _ = _
  refine State.runIf_next (decide_eq_true hp) ?_
  simp [herrs, hst, hcrc, hseq, hirq, hnak, hunsup, Dev.postIf, Dev.unknownOpc]

/-- A port whose training has begun, and which has not failed, goes back to clock training (R153). -/
theorem Dev.enterHr_of_trained {d : Dev} {p : Nat} (hstart : Tab.look .notStarted 5 d.boot.items ≠ .notStarted) (hst : (d.hport p).st ≠ .failed) :
    d.enterHr p false = d.dropPort p .clock := by
  simp [Dev.enterHr, hstart, hst]

/-- Settles O7, command by command: the hypotheses of each clause select one branch of the command's meaning. -/
theorem facetFlitAndTrainingCommands : Obligations.FacetFlitAndTrainingCommands := by
  unfold Obligations.FacetFlitAndTrainingCommands
  refine ⟨?flitNull, ?flitMemory, ?flitBad, ?ackTimeout, ?hr, ?hrHold, ?kLock, ?identified, ?skewed, ?misplaced, ?centre, ?laneRes, ?neg, ?crd, ?ready,
    ?retry, ?fail⟩
  case flitNull =>
    intro p f d m q hp hst herrs hcrc hseq hnull hnak hunsup
    rw [exec_facetFlitRx_accepted m q hp hst herrs hcrc hseq (by simp [hnull]) hnak hunsup]
    simp only [HPort.accept_null _ hnull]
  case flitMemory =>
    intro p f d m q hp hst herrs hcrc hseq hnull hch hnak hunsup
    rw [exec_facetFlitRx_accepted m q hp hst herrs hcrc hseq (by simp [hch]) hnak hunsup]
    simp only [HPort.accept_memory _ hnull hch hunsup]
  case flitBad =>
    intro p f d m q hp hst herrs hbad
    show execFacetFlitRx p f _ = _
    refine State.runIf_next (decide_eq_true hp) ?_
    simp only [herrs, List.foldl_nil, hst, ne_eq, not_true, if_false]
    exact if_pos (by simpa using hbad)
  case ackTimeout =>
    intro p d m q hp hst hunacked
    show execFacetAckTimeout p _ = _
    exact State.runIf_next (decide_eq_true hp) (if_pos (by simp [hst, hunacked]))
  case hr =>
    intro p d m q hp hstart hst
    show execFacetHr p _ = _
    exact State.runIf_next (decide_eq_true hp) (congrArg Dev.settle (Dev.enterHr_of_trained hstart hst))
  case hrHold =>
    intro p d m q hp hat hst
    show execFacetHrHoldExpiry p _ = _
    exact State.runIf_next (decide_eq_true hp) (if_pos (by simp [hat, hst]))
  case kLock =>
    intro p d m q hp hst
    show execFacetKLock p _ = _
    exact State.runIf_next (Unit.facetLink_host hp) (if_pos hst)
  case identified =>
    intro p desig reversed skew d m q hp hst hskew
    show execFacetLanesIdentified p desig reversed [] skew _ = _
    have hhost : ¬ 8 ≤ p := Nat.not_le.mpr hp
    refine State.runIf_next (Unit.facetLink_host hp) ?_
    simp [hst, hhost, hskew, Dev.failLanes]
  case skewed =>
    intro p desig reversed misid skew d m q hp hst hskew
    show execFacetLanesIdentified p desig reversed misid skew _ = _
    have hhost : ¬ 8 ≤ p := Nat.not_le.mpr hp
    refine State.runIf_next (Unit.facetLink_host hp) ?_
    simp [hst, hhost, hskew]
  case misplaced =>
    intro p desig reversed misid skew d m q hlo hhi hst hdesig
    show execFacetLanesIdentified p desig reversed misid skew _ = _
    refine State.runIf_next (decide_eq_true hhi) ?_
    simp [hst, hlo, hdesig]
  case centre =>
    intro p d m q hp hst
    show execFacetCentreDone p [] [] _ = _
    exact State.runIf_next (Unit.facetLink_host hp) (if_pos hst)
  case laneRes =>
    intro p copies maps d m q x hp hcopies hst hall hx hgood
    show execFacetLaneRes p copies maps _ = _
    refine State.runIf_next (Unit.facetLink_host hp) ((if_pos (by simp only [hst, hcopies, hall, decide_true, Bool.and_self])).trans ?_)
    simp only [hx]
    exact (if_neg (Nat.not_le.mpr hp)).trans (if_neg (Nat.not_lt.mpr hgood))
  case neg =>
    intro p copies rev feat d m q hp hcopies hst hrev hcrd
    show execFacetNeg p copies rev feat _ = _
    refine State.runIf_next (decide_eq_true hp) ((if_pos (by simp [hst, hcopies])).trans ((if_neg (Nat.not_lt.mpr hrev)).trans (if_neg ?_)))
    simp [hcrd]
  case crd =>
    intro p copies mem coh irq dbg d m q hp hcopies hst hneg
    show execFacetCrd p copies mem coh irq dbg _ = _
    refine State.runIf_next (decide_eq_true hp) ((if_pos (by simp [hst, hcopies])).trans (if_pos ?_))
    simp [hneg]
  case ready =>
    intro p copies d m q hp hcopies hst hneg hcrd
    show execFacetReady p copies _ = _
    exact State.runIf_next (decide_eq_true hp) (if_pos (by simp [hst, hcopies, hneg, hcrd]))
  case retry =>
    intro p d m q hp hst htries
    show execFacetTrainTimeout p _ = _
    exact State.runIf_next (decide_eq_true hp) ((if_pos (by simp [hst])).trans (if_neg (by omega)))
  case fail =>
    intro p d m q hp hst htries
    show execFacetTrainTimeout p _ = _
    exact State.runIf_next (Unit.facetLink_host hp) ((if_pos (by simp [hst])).trans (if_pos (by omega)))

/-! ### Lane health (R146 to R161) -/

/-- The window of an active port that counts a lane's errors, on a cluster in use: they are added, and a lane above the threshold fails (R148). -/
theorem exec_facetLaneWindow_lane {p c lane n : Nat} {d : Dev} (m : Memory) (q : List Instr) (hp : p < 8) (hst : (d.hport p).st = .active)
    (hpar : (d.hport p).parity = true) (hn : 0 < n) (hc : c < 32) (hmask : (d.clus p c).masked = false) (hlane : (d.hport p).laneThr ≤ n → lane < 32) :
    exec (.facetLaneWindow p [(c, lane, n)]) ⟨d, m, q⟩ =
      .next ⟨Dev.settle (if n < (d.hport p).laneThr then d.setClus p c fun y => { y with errs := min 0xFFFF (y.errs + n), lastLane := lane }
        else (d.setClus p c fun y => { y with errs := min 0xFFFF (y.errs + n), lastLane := lane }).laneFails p c lane), m, q⟩ := by
  show execFacetLaneWindow p [(c, lane, n)] _ = _
  refine State.runIf_next (Unit.facetLink_host hp) ((if_pos (by simp [hst, hpar])).trans (congrArg Dev.settle ?_))
  have hcounted : ¬ ((decide (n = 0) || (d.clus p c).masked || !(clusters p).contains c) = true) := by
    have hpos : n ≠ 0 := by omega
    simp [hpos, hmask, clusters, hp, hc]
  refine (if_neg hcounted).trans ?_
  by_cases hthr : n < (d.hport p).laneThr
  · exact (if_pos hthr).trans (if_pos hthr).symm
  · have hin : lane < 32 := hlane (Nat.not_lt.mp hthr)
    have hs0 : lane ≠ 32 := by omega
    have hs1 : lane ≠ 33 := by omega
    exact (if_neg hthr).trans (((if_neg hs0).trans (if_neg hs1)).trans (if_neg hthr).symm)

/-- Settles O8, command by command: the hypotheses of each clause select one branch of the command's meaning. -/
theorem facetLaneHealthCommands : Obligations.FacetLaneHealthCommands := by
  unfold Obligations.FacetLaneHealthCommands
  refine ⟨?windowBelow, ?windowAbove, ?repairReq, ?repairNotAgreed, ?repairAt, ?repairCycle, ?repairTake, ?repairRelease, ?maskReq, ?maskAt, ?maskCycle,
    ?innerFail, ?retryClr, ?perrClr⟩
  case windowBelow =>
    intro p d m q c lane n hp hst hpar hn hc hmask hthr
    rw [exec_facetLaneWindow_lane m q hp hst hpar hn hc hmask fun h => absurd hthr (Nat.not_lt.mpr h), if_pos hthr]
  case windowAbove =>
    intro p d m q c lane n hp hst hpar hn hc hmask hthr hlane
    rw [exec_facetLaneWindow_lane m q hp hst hpar hn hc hmask fun _ => hlane, if_neg (Nat.not_lt.mpr hthr)]
  case repairReq =>
    intro p c lane spare d m q hp hc hst hmask hchange hpar
    show execFacetRepairReq p c lane spare _ = _
    refine State.runIf_next (Unit.facetCluster_host hp hc) ?_
    simp [hst, hmask, hchange, hpar, Dev.answerRepair]
  case repairNotAgreed =>
    intro p c lane spare d m q hp hc hst hmask hpar
    show execFacetRepairReq p c lane spare _ = _
    refine State.runIf_next (Unit.facetCluster_host hp hc) ?_
    simp [hst, hmask, hpar]
  case repairAt =>
    intro p c n d m q x hp hc hchange hmask hrx hcyc
    show execFacetRepairAt p c n _ = _
    refine State.runIf_next (Unit.facetCluster_host hp hc) ?_
    simp [hchange, hmask, hrx, hcyc]
  case repairCycle =>
    intro p c d m q x hp hc hchange hmask hrx hcyc hdual
    show execFacetRepairCycleN p c _ = _
    refine State.runIf_next (Unit.facetCluster_host hp hc) ?_
    simp [hchange, hmask, hrx, hcyc, hdual]
  case repairTake =>
    intro p c d m q x hp hc hchange hmask hrx hcyc htaken
    show execFacetRepairTake p c _ = _
    refine State.runIf_next (Unit.facetCluster_host hp hc) ?_
    simp [hchange, hmask, hrx, hcyc, htaken]
  case repairRelease =>
    intro p c d m q x hp hc hchange htaken
    show execFacetRepairRelease p c _ = _
    refine State.runIf_next (Unit.facetCluster_host hp hc) ?_
    simp [hchange, htaken]
  case maskReq =>
    intro p c d m q hp hc hst hmask hchange huses
    show execFacetMaskReq p c _ = _
    refine State.runIf_next (Unit.hostCluster hp hc) ?_
    simp [hst, hmask, hchange, huses]
  case maskAt =>
    intro p c n d m q x hp hc hchange hmask hcyc
    show execFacetMaskAt p c n _ = _
    refine State.runIf_next (Unit.hostCluster hp hc) ?_
    simp [hchange, hmask, hcyc]
  case maskCycle =>
    intro p c d m q x hp hc hchange hmask hcyc
    show execFacetMaskCycle p c _ = _
    refine State.runIf_next (Unit.hostCluster hp hc) ?_
    simp [hchange, hmask, hcyc]
  case innerFail =>
    intro n c toDie d m q r hn hc hfailed hrole
    show execInnerClusterFail n c toDie _ = _
    refine State.runIf_next (by simp [Unit.bridge, Unit.innerCluster, hn, hc]) (congrArg Dev.settle ?_)
    simp only [Dev.innerFail, hfailed, hrole, Bool.false_eq_true, if_false]
  case retryClr =>
    intro p d m q hl hm hp
    show execFctRetryClr p _ = _
    exact State.runIf_next (decide_eq_true hp) (Dev.mmio_served _ hl hm)
  case perrClr =>
    intro p c d m q hl hm hp hc
    show execFctPerrClr p c _ = _
    exact State.runIf_next (Unit.hostCluster hp hc) (Dev.mmio_served _ hl hm)

/-! ### Requests, completions and coherence messages of compute dies (R133 to R136; 09 R350 to R383) -/

/-- A request of a compute die that the device takes, and for which the buffer has a unit, is run (R133, 07 R257). -/
theorem State.intake_dieMsg_takes {d x : Dev} {kind p : Nat} {r : MemMsg} (m : Memory) (q : List Instr) (h : d.takesDie kind p r)
    (hc : d.wake.claim 0 r.tenant 1 = (x, true)) :
    State.intake ⟨d, m, q⟩ (Unit.hostPort p) (.die kind p r) (fun d => (d.dieMsg kind p r).settle) = .next ⟨(x.dieRun kind p r).settle, m, q⟩ := by
  have hrun := Dev.dieMsg_takes h hc
  obtain ⟨hp, hs, hi, -⟩ := h
  exact State.intake_next (decide_eq_true hp) hs hi (congrArg Dev.settle hrun)

/-- One with a fabric address is counted and split into its pieces (09 R355). -/
theorem State.intake_dieMsg_fabric {d x : Dev} {kind p : Nat} {r : MemMsg} (m : Memory) (q : List Instr) (h : d.takesDie kind p r)
    (hc : d.wake.claim 0 r.tenant 1 = (x, true)) (hf : r.fabric = true) :
    State.intake ⟨d, m, q⟩ (Unit.hostPort p) (.die kind p r) (fun d => (d.dieMsg kind p r).settle) =
      .next ⟨(((x.memCredit p r).count r.tenant (if kind = 1 then 56 else if kind ≤ 3 then 57 else 58) 1).dieFabric kind p r).settle, m, q⟩ := by
  rw [State.intake_dieMsg_takes m q h hc, Dev.dieRun, if_pos hf]

/-- One of host memory is run on its host path, and its unit is free again (09 R350, 07 R257). -/
theorem State.intake_dieMsg_host {d x : Dev} {kind p : Nat} {r : MemMsg} (m : Memory) (q : List Instr) (h : d.takesDie kind p r)
    (hc : d.wake.claim 0 r.tenant 1 = (x, true)) (hf : r.fabric = false) (hdb : isDoorbell r.addr = false) (hsem : isSemAddr r.addr = false) :
    State.intake ⟨d, m, q⟩ (Unit.hostPort p) (.die kind p r) (fun d => (d.dieMsg kind p r).settle) =
      .next ⟨(((x.memCredit p r).dieHost kind p r).give 0 r.tenant 1).settle, m, q⟩ := by
  simp [State.intake_dieMsg_takes m q h hc, Dev.dieRun, hf, hdb, hsem]

/-- A completion ends the request of this device that it answers (R135). -/
theorem Dev.dieCpl_ends {d x y : Dev} {p tag tenant status : Nat} {data : List W64} {r : HRead} {js : List Job} (hst : (d.hport p).st = .active)
    (hx : d.memCredit p { fabric := false, tag, tenant, len := 0, addr := 0, data } = x)
    (hread : (x.mbx.reads.find? fun r => decide (r.port = some p) && decide (r.tag = tag) && decide (fnTenant r.fn % 16 = tenant % 16)) = some r)
    (hend : x.readEnded r (facetStatus status) data = (y, js)) : d.dieCpl p tag tenant status data = y.jobsDone js := by
  simp only [Dev.dieCpl, hst, ne_eq, not_true, if_false, hx, hread, hend]

/-- C_GET on an active port (09 R380). -/
theorem Dev.cohMsg_get {d : Dev} {p : Nat} (w : CohWord) (hst : (d.hport p).st = .active) : d.cohMsg 1 p w = d.cohGet p w := by
  simp [Dev.cohMsg, hst]

/-- C_INVACK and C_DROP of a word that the directory holds (09 R379, R381). -/
theorem Dev.cohMsg_of_entry {d : Dev} {kind p : Nat} {w : CohWord} {e : DirEnt} (hk : kind ≠ 1) (hst : (d.hport p).st = .active)
    (he : (d.rm.dir.find? fun e => decide (e.word = w)) = some e) : d.cohMsg kind p w = d.dropCopy p (kind = 4) e := by
  simp [Dev.cohMsg, hst, hk, he]

/-- C_GET of a word that nobody holds gives it a directory entry and answers with its value (09 R380). -/
theorem Dev.cohGet_of_no_entry {d : Dev} {p : Nat} {w : CohWord} (hok : d.cohRefused p w = none)
    (hnone : (d.rm.dir.find? fun e => decide (e.word = w)) = none) :
    d.cohGet p w =
      Dev.facet { d with rm.dir := d.rm.dir ++ [{ word := w, holders := insertNat p [] }] } p 1 1 (.facetCoh p 2 w (d.cohValue w)) := by
  have hany : (d.rm.dir.any fun x => decide (x.word = w)) = false := by
    simpa using hnone
  simp [Dev.cohGet, hok, hnone, hany]

/-- Settles O9, message by message: what each does where the device runs and takes it. -/
theorem computeDieMessageCommands : Obligations.ComputeDieMessageCommands := by
  unfold Obligations.ComputeDieMessageCommands
  refine ⟨?rd, ?rdStopped, ?wr, ?wrp, ?atom, ?atomp, ?cpl, ?cpld, ?get, ?invack, ?drop, ?invackTimeout, ?timestamp, ?rdFabric, ?rdHost, ?wrFabric,
    ?wrHost, ?wrpFabric, ?wrpHost, ?atomFabric, ?atomHost, ?atompFabric, ?atompHost, ?cplEnds, ?cpldEnds, ?getNew⟩
  case rd =>
    intro p r d m q hp hs hi
    show execFacetMsgRd p r _ = _
    exact State.intake_next (decide_eq_true hp) hs hi rfl
  case rdStopped =>
    intro p r d m q hp hs
    show execFacetMsgRd p r _ = _
    exact State.admit_stopped _ _ _ _ (decide_eq_true hp) hs
  case wr =>
    intro p r d m q hp hs hi
    show execFacetMsgWr p r _ = _
    exact State.intake_next (decide_eq_true hp) hs hi rfl
  case wrp =>
    intro p r d m q hp hs hi
    show execFacetMsgWrp p r _ = _
    exact State.intake_next (decide_eq_true hp) hs hi rfl
  case atom =>
    intro p r d m q hp hs hi
    show execFacetMsgAtom p r _ = _
    exact State.intake_next (decide_eq_true hp) hs hi rfl
  case atomp =>
    intro p r d m q hp hs hi
    show execFacetMsgAtomp p r _ = _
    exact State.intake_next (decide_eq_true hp) hs hi rfl
  case cpl =>
    intro p tag tenant status d m q hp hs hi
    show execFacetMsgCpl p tag tenant status _ = _
    exact State.intake_next (decide_eq_true hp) hs hi rfl
  case cpld =>
    intro p tag tenant status data d m q hp hs hi
    show execFacetMsgCpld p tag tenant status data _ = _
    exact State.intake_next (decide_eq_true hp) hs hi rfl
  case get =>
    intro p w d m q hp hs hi hst
    show execFacetCohGet p w _ = _
    exact State.intake_next (decide_eq_true hp) hs hi (congrArg Dev.settle (Dev.cohMsg_get w hst))
  case invack =>
    intro p w d m q e hp hs hi hst he
    show execFacetCohInvack p w _ = _
    exact State.intake_next (decide_eq_true hp) hs hi (congrArg Dev.settle (Dev.cohMsg_of_entry (by decide) hst he))
  case drop =>
    intro p w d m q e hp hs hi hst he
    show execFacetCohDrop p w _ = _
    exact State.intake_next (decide_eq_true hp) hs hi (congrArg Dev.settle (Dev.cohMsg_of_entry (by decide) hst he))
  case invackTimeout =>
    intro p w d m q hp hs hwait
    show execCohInvackTimeout p w _ = _
    refine State.runIf_next (decide_eq_true hp) (if_pos ?_)
    simp only [Dev.stopped, hs, decide_false, Bool.not_false, Bool.true_and, hwait]
  case timestamp =>
    intro p ftime valid d m q hp hst hvalid hfeat
    show execFacetTimestampRx p ftime valid _ = _
    refine State.runIf_next (decide_eq_true hp) ?_
    simp [hst, hvalid, hfeat]
  case rdFabric =>
    intro p r d m q x h hc hf
    show execFacetMsgRd p r _ = _
    exact State.intake_dieMsg_fabric m q h hc hf
  case rdHost =>
    intro p r d m q x h hc hf hdb hsem
    show execFacetMsgRd p r _ = _
    exact State.intake_dieMsg_host m q h hc hf hdb hsem
  case wrFabric =>
    intro p r d m q x h hc hf
    show execFacetMsgWr p r _ = _
    exact State.intake_dieMsg_fabric m q h hc hf
  case wrHost =>
    intro p r d m q x h hc hf hdb hsem
    show execFacetMsgWr p r _ = _
    exact State.intake_dieMsg_host m q h hc hf hdb hsem
  case wrpFabric =>
    intro p r d m q x h hc hf
    show execFacetMsgWrp p r _ = _
    exact State.intake_dieMsg_fabric m q h hc hf
  case wrpHost =>
    intro p r d m q x h hc hf hdb hsem
    show execFacetMsgWrp p r _ = _
    exact State.intake_dieMsg_host m q h hc hf hdb hsem
  case atomFabric =>
    intro p r d m q x h hc hf
    show execFacetMsgAtom p r _ = _
    exact State.intake_dieMsg_fabric m q h hc hf
  case atomHost =>
    intro p r d m q x h hc hf hdb hsem
    show execFacetMsgAtom p r _ = _
    exact State.intake_dieMsg_host m q h hc hf hdb hsem
  case atompFabric =>
    intro p r d m q x h hc hf
    show execFacetMsgAtomp p r _ = _
    exact State.intake_dieMsg_fabric m q h hc hf
  case atompHost =>
    intro p r d m q x h hc hf hdb hsem
    show execFacetMsgAtomp p r _ = _
    exact State.intake_dieMsg_host m q h hc hf hdb hsem
  case cplEnds =>
    intro p tag tenant status d m q x r y js hp hs hi hst hx hread hend
    show execFacetMsgCpl p tag tenant status _ = _
    exact State.intake_next (decide_eq_true hp) hs hi (congrArg Dev.settle (Dev.dieCpl_ends hst hx hread hend))
  case cpldEnds =>
    intro p tag tenant status data d m q x r y js hp hs hi hst hx hread hend
    show execFacetMsgCpld p tag tenant status data _ = _
    exact State.intake_next (decide_eq_true hp) hs hi (congrArg Dev.settle (Dev.dieCpl_ends hst hx hread hend))
  case getNew =>
    intro p w d m q hp hs hi hst hok hnone
    show execFacetCohGet p w _ = _
    exact State.intake_next (decide_eq_true hp) hs hi (congrArg Dev.settle ((Dev.cohMsg_get w hst).trans (Dev.cohGet_of_no_entry hok hnone)))

end Sys2Proof.Machine

namespace Sys2Proof.Machine

/-! ## The generic statuses (05 R181, R182; 06 R214, R218 to R225, R248)

The statuses that come before those of the header's LENGTH and reserved fields look at neither, and those that come after do not either. So
`Dev.generic` is cut at the two header checks: `Dev.senderStatus`, the header, `Dev.stateStatus`. -/

/-- The generic statuses that come before the header's: of the stage, the tenant, the minor version and the issuer. -/
def Dev.senderStatus (d : Dev) (c : Cmd) (r : Req) : Option Status :=
  let f := pathFn r.path
  let m := decide (r.path = .mctp)
  let t := r.tenant.toNat
  if decide (d.boot.stage = .recovery) && !c.rcv then some .recoveryRefused
  else if !d.up && decide (d.boot.stage ≠ .recovery) && decide (c.op ≠ 0x0102) && !(decide (c.op = 0x0C00) && decide (d.boot.stage = .dormant)) then
    some .notReady
  else if decide (f ≠ 0) && decide (t + 1 ≠ f) then some .badTenant
  else if decide (f ≠ 0) && d.fenced t then some .tenantFenced
  else if d.mbx.oxMin < c.minor then some .unsupported
  else if !(if f ≠ 0 then c.tn else if m then c.m else c.pf || c.tn) then some .accessDenied
  else if decide (f = 0) && !c.tenantOk m t then some .badTenant
  else none

/-- The generic statuses that come after the header's: of the bring-up item, of what is in progress and of the objects. -/
def Dev.stateStatus (d : Dev) (c : Cmd) (r : Req) (gens : List (Nat × Nat)) : Option Status :=
  let f := pathFn r.path
  let t := r.tenant.toNat
  let item := c.item.map d.itemSt
  if item = some .notStarted || item = some .running then some .notReady
  else if item = some .down then some .badState
  else if d.stopped && !c.live then some .busy
  else if c.fence && d.fenced t then some .tenantFenced
  else if c.acc && decide (8 ≤ (d.mbx.acc.filter fun a => decide (a.opcode ≠ 0x0302) && sameSource a.req.path r.path).length) then some .busy
  else if !busyExempt c.op && d.mbx.acc.any (fun a => a.blocks c f) then some .busy
  else if decide (f ≠ 0) && (c.objs.any (fun o => decide (genOf gens o ≠ genOf d.mbx.gens o))
      || (!c.objs.isEmpty && decide (genOf gens (.tenant t) ≠ genOf d.mbx.gens (.tenant t)))) then some .conflict
  else if r.fwErr then some .internal
  else none

/-- A status that applies is the first of those that follow it too. -/
theorem ite_some_or {α : Type} {p : Prop} [Decidable p] (x : α) (y z : Option α) :
    (if p then some x else y).or z = if p then some x else y.or z := by
  split <;> rfl

/-- No status applies where the first does not and no later one does. -/
theorem ite_some_eq_none {α : Type} {p : Prop} [Decidable p] {x : α} {y : Option α} : (if p then some x else y) = none ↔ ¬ p ∧ y = none := by
  split <;> simp [*]

/-- The statuses in their order: before the header's, the header's, and after them. -/
theorem Dev.generic_eq (d : Dev) (c : Cmd) (r : Req) (gens : List (Nat × Nat)) :
    d.generic c r gens = (d.senderStatus c r).or
      (if r.length ≠ c.len then some .badLength else if !c.blind && (r.rsvd || !c.ok) then some .badField else d.stateStatus c r gens) := by
  simp only [Dev.senderStatus, ite_some_or, Option.none_or]
  rfl

/-- A command is let pass where each part lets it pass. -/
theorem Dev.generic_eq_none_iff {d : Dev} {c : Cmd} {r : Req} {gens : List (Nat × Nat)} : d.generic c r gens = none ↔
    d.senderStatus c r = none ∧ r.length = c.len ∧ ¬ (!c.blind && (r.rsvd || !c.ok)) = true ∧ d.stateStatus c r gens = none := by
  simp only [Dev.generic_eq, Option.or_eq_none_iff, ite_some_eq_none, not_not]

/-- With nothing refused before it, a wrong LENGTH has its status (R182). -/
theorem Dev.generic_of_wrong_length {d : Dev} {c : Cmd} {r : Req} {gens : List (Nat × Nat)} (hs : d.senderStatus c r = none) (hl : r.length ≠ c.len) :
    d.generic c r gens = some .badLength := by
  rw [Dev.generic_eq, hs, Option.none_or, if_pos hl]

/-- With nothing refused before it, so has a reserved field that is not zero (R182). -/
theorem Dev.generic_of_reserved {d : Dev} {c : Cmd} {r : Req} {gens : List (Nat × Nat)} (hs : d.senderStatus c r = none) (hl : r.length = c.len)
    (hb : c.blind = false) (hr : r.rsvd = true) : d.generic c r gens = some .badField := by
  rw [Dev.generic_eq, hs, Option.none_or, if_neg (not_not.mpr hl), if_pos (by simp [hb, hr])]

/-- Where the device is up, another function's tenant is the first thing refused (R181). -/
theorem Dev.generic_of_other_tenant {d : Dev} {c : Cmd} {r : Req} {gens : List (Nat × Nat)} (hup : d.up = true) (hf : pathFn r.path ≠ 0)
    (ht : r.tenant.toNat + 1 ≠ pathFn r.path) : d.generic c r gens = some .badTenant := by
  have hstage : d.boot.stage ≠ .recovery := by
    rcases Dev.stage_of_up hup with h | h <;> simp [h]
  have hsender : d.senderStatus c r = some .badTenant := by
    unfold Dev.senderStatus
    rw [if_neg (by simp [hstage]), if_neg (by simp [hup]), if_pos (by simp [hf, ht])]
  rw [Dev.generic_eq, hsender, Option.some_or]

/-! ### The first step -/

/-- A command passes where its path is served, no kept response answers it and no generic status applies. -/
theorem Dev.firstStep_passes_iff {d : Dev} {c : Cmd} {r : Req} {gens : List (Nat × Nat)} :
    d.firstStep c r gens = (d, true) ↔ d.servedPath r.path = true ∧ d.keptFor r c.op = none ∧ d.generic c r gens = none := by
  unfold Dev.firstStep
  cases d.servedPath r.path <;> cases d.keptFor r c.op <;> cases d.generic c r gens <;> simp

/-- A generic status is the answer, and nothing follows it. -/
theorem Dev.firstStep_refuses {d : Dev} {c : Cmd} {r : Req} {gens : List (Nat × Nat)} {st : Status} (hserved : d.servedPath r.path = true)
    (hkept : d.keptFor r c.op = none) (hst : d.generic c r gens = some st) : d.firstStep c r gens = (d.reply c.op r st, false) := by
  simp [Dev.firstStep, hserved, hkept, hst]

/-- Settles O53: the tenant is the first thing looked at in a device that is up. -/
theorem tenantFieldMustBeTheSenders : Obligations.TenantFieldMustBeTheSenders := by
  unfold Obligations.TenantFieldMustBeTheSenders
  intro d c r gens hup hserved hkept hf ht
  exact Dev.firstStep_refuses hserved hkept (Dev.generic_of_other_tenant hup hf ht)

/-- Settles O54: what comes before the header's two statuses looks at neither LENGTH nor the reserved fields. -/
theorem headerErrorsAreAnswered : Obligations.HeaderErrorsAreAnswered := by
  unfold Obligations.HeaderErrorsAreAnswered
  refine fun d c r gens hblind => ⟨fun hpass hrsvd => ?_, fun hpass hlen => ?_⟩
  · obtain ⟨hserved, hkept, hgen⟩ := Dev.firstStep_passes_iff.mp hpass
    obtain ⟨hsender, hl, -, -⟩ := Dev.generic_eq_none_iff.mp hgen
    exact Dev.firstStep_refuses hserved hkept (Dev.generic_of_reserved hsender hl hblind hrsvd)
  · obtain ⟨hserved, hkept, hgen⟩ := Dev.firstStep_passes_iff.mp hpass
    obtain ⟨hsender, -⟩ := Dev.generic_eq_none_iff.mp hgen
    exact Dev.firstStep_refuses hserved hkept (Dev.generic_of_wrong_length hsender hlen)

/-! ### What an admitted command meets -/

/-- A bring-up item that answers neither NOT_READY nor BAD_STATE is up (03 R103). -/
theorem ItemSt.eq_up {x : ItemSt} (hns : x ≠ .notStarted) (hrun : x ≠ .running) (hdown : x ≠ .down) : x = .up := by
  cases x with
  | notStarted => exact absurd rfl hns
  | running => exact absurd rfl hrun
  | up => rfl
  | down => exact absurd rfl hdown

/-- What the statuses before the header's let pass. -/
theorem Dev.senderStatus_none {d : Dev} {c : Cmd} {r : Req} (h : d.senderStatus c r = none) :
    (d.boot.stage = .recovery → c.rcv = true) ∧
    (d.up = true ∨ d.boot.stage = .recovery ∨ c.op = 0x0102 ∨ (c.op = 0x0C00 ∧ d.boot.stage = .dormant)) ∧
    (pathFn r.path ≠ 0 → r.tenant.toNat + 1 = pathFn r.path ∧ d.fenced r.tenant.toNat = false ∧ c.tn = true) ∧
    (pathFn r.path = 0 → c.tenantOk (decide (r.path = .mctp)) r.tenant.toNat = true ∧ (r.path = .mctp → c.m = true)) ∧
    c.minor ≤ d.mbx.oxMin := by
  simp only [Dev.senderStatus, ite_some_eq_none] at h
  obtain ⟨hrecovery, hready, htenant, hfenced, hminor, hissuer, hfield, -⟩ := h
  refine ⟨fun hs => ?_, ?_, fun hf => ⟨?_, ?_, ?_⟩, fun hf => ⟨?_, fun hm => ?_⟩, Nat.not_lt.mp hminor⟩
  · simpa [hs] using hrecovery
  · by_contra hno
    obtain ⟨hup, hrec, hop, hdormant⟩ : ¬ d.up = true ∧ d.boot.stage ≠ .recovery ∧ c.op ≠ 0x0102 ∧ ¬ (c.op = 0x0C00 ∧ d.boot.stage = .dormant) := by
      simpa only [not_or] using hno
    exact hready (by simpa [hup, hrec, hop] using not_and_or.mp hdormant)
  · simpa [hf] using htenant
  · simpa [hf] using hfenced
  · simpa [hf] using hissuer
  · simpa [hf] using hfield
  · simpa [hm, pathFn] using hissuer

/-- What the statuses after the header's let pass. -/
theorem Dev.stateStatus_none {d : Dev} {c : Cmd} {r : Req} {gens : List (Nat × Nat)} (h : d.stateStatus c r gens = none) :
    (∀ n : Nat, c.item = some n → d.itemSt n = .up) ∧
    (d.stopped = true → c.live = true) ∧
    (c.acc = true → (d.mbx.acc.filter fun a => decide (a.opcode ≠ 0x0302) && sameSource a.req.path r.path).length < 8) ∧
    (busyExempt c.op = false → ∀ a ∈ d.mbx.acc, a.blocks c (pathFn r.path) = false) ∧
    (pathFn r.path ≠ 0 → ∀ o ∈ c.objs, genOf gens o = genOf d.mbx.gens o) ∧ r.fwErr = false := by
  simp only [Dev.stateStatus, ite_some_eq_none] at h
  obtain ⟨hcoming, hdown, hstopped, -, hacc, hbusy, hgens, hfw, -⟩ := h
  refine ⟨fun n hn => ?_, fun hs => ?_, fun ha => ?_, fun hx => ?_, fun hf => ?_, Bool.eq_false_iff.mpr hfw⟩
  · obtain ⟨hns, hrun⟩ : d.itemSt n ≠ .notStarted ∧ d.itemSt n ≠ .running := by simpa [hn] using hcoming
    exact ItemSt.eq_up hns hrun (by simpa [hn] using hdown)
  · simpa [hs] using hstopped
  · rw [ha, Bool.true_and, decide_eq_true_eq] at hacc
    exact Nat.not_le.mp hacc
  · simpa [hx] using hbusy
  · obtain ⟨hobjs, -⟩ : (∀ o ∈ c.objs, genOf gens o = genOf d.mbx.gens o) ∧ _ := by simpa [hf] using hgens
    exact hobjs

/-- Settles O52: each check's condition read back from the absence of its status. -/
theorem admittedCommandsPassEveryCheck : Obligations.AdmittedCommandsPassEveryCheck := by
  unfold Obligations.AdmittedCommandsPassEveryCheck
  intro d c r gens h
  obtain ⟨hsender, hlen, hfields, hstate⟩ := Dev.generic_eq_none_iff.mp h
  obtain ⟨hrecovery, hready, htenant, hpf, hminor⟩ := Dev.senderStatus_none hsender
  exact ⟨hrecovery, hready, htenant, hpf, hminor, hlen, fun hb => by simpa [hb] using hfields, Dev.stateStatus_none hstate⟩

end Sys2Proof.Machine

namespace Sys2Proof.Machine

/-! ## Mailboxes and MCTP (05 R177 to R198; 06 R220) -/

/-- A function that completes memory requests is not in FLR (05 R176, R207). -/
theorem Dev.flr_of_memReq {d : Dev} {fn : Nat} (h : d.memReq fn = true) : (d.fn fn).flr = false := by
  have hparts : (d.fnPresent fn = true ∧ (d.fn fn).mse = true) ∧ (d.fn fn).flr = false := by simpa [Dev.memReq] using h
  exact hparts.2

/-- A mailbox register of a function that is served is written (05 R177): `e` is what the write makes of the device. -/
theorem State.mailbox_served {d e : Dev} {fn : Nat} {m : Memory} {q : List Instr} {g : Dev → Dev} (hl : d.linkUp = true) (hm : d.memReq fn = true)
    (hfn : fn < 17) (hs : d.servedFn fn = true) (hg : g d = e) :
    (State.runIf ⟨d, m, q⟩ (Unit.function fn) fun d => d.mmio fn fun d => if !d.servedFn fn || (d.fn fn).flr then d else g d) = .next ⟨e, m, q⟩ := by
  refine State.runIf_next (decide_eq_true hfn) ((Dev.mmio_served _ hl hm).trans ((if_neg ?_).trans hg))
  simp [hs, Dev.flr_of_memReq hm]

/-- A message to the endpoint with its Packet Error Check right is served (05 R195). -/
theorem exec_mctpMessage_heard {addr : Nat} {x : MctpMsg} {d e : Dev} (m : Memory) (q : List Instr) (hrel : d.jad.released = true)
    (ha : addr = d.smbAddr) (he : d.mctpServe x = e) : exec (.mctpMessage addr true x) ⟨d, m, q⟩ = .next ⟨e, m, q⟩ := by
  show execMctpMessage addr true x _ = _
  exact State.run_next ((if_neg (by simp [hrel, ha])).trans he)

/-- Conik's step without firmware work, where no command has been chosen yet (05 R198). -/
theorem exec_conikStepSelect_free {d e : Dev} (m : Memory) (q : List Instr) (hcur : d.mbx.cur = none) (he : d.select = e) :
    exec (.conikStepSelect false) ⟨d, m, q⟩ = .next ⟨e, m, q⟩ := by
  show execConikStepSelect false _ = _
  exact State.run_next ((if_neg Bool.false_ne_true).trans ((if_neg (by simp [hcur])).trans he))

/-- An admitted command has its effect, and the faults that it fires are handled. -/
theorem Dev.command_of_admits {d e : Dev} {c : Cmd} {r : Req} {body : Dev → Dev} (h : d.admits c r = (e, true)) :
    d.command c r body = (body e).settle := by
  simp [Dev.command, h]

/-- Settles O33, command by command: the hypotheses of each clause select one branch of the command's meaning. -/
theorem mailboxCommands : Obligations.MailboxCommands := by
  unfold Obligations.MailboxCommands
  refine ⟨?sideband, ?doorbell, ?doorbellBad, ?rspHead, ?rspHeadUnserved, ?ntcHead, ?ntcHeadOverflow, ?ctl, ?ctlBad, ?setEid, ?getEid, ?getTypes, ?getUuid,
    ?getVersion, ?spdm, ?oxsum, ?unsupported, ?notHeard, ?firmware, ?second, ?tenant, ?nothing, ?unknown, ?implemented⟩
  case sideband =>
    intro p h d m q hp
    show execSidebandCommand p h _ = _
    exact State.runIf_next (decide_eq_true hp) rfl
  case doorbell =>
    intro fn tail msgs d m q hl hm hfn hs _ htail hhead
    show execMbxCmdDoorbell fn tail msgs _ = _
    exact State.mailbox_served hl hm hfn hs (if_neg (by simpa using And.intro htail hhead))
  case doorbellBad =>
    intro fn tail msgs d m q hl hm hfn hs _ hbad
    show execMbxCmdDoorbell fn tail msgs _ = _
    exact State.mailbox_served hl hm hfn hs (if_pos (by simpa using hbad))
  case rspHead =>
    intro fn idx d m q hl hm hfn hs _
    show execMbxRspHeadWrite fn idx _ = _
    exact State.mailbox_served hl hm hfn hs rfl
  case rspHeadUnserved =>
    intro fn idx d m q hl hm hfn hs
    show execMbxRspHeadWrite fn idx _ = _
    exact State.runIf_next (decide_eq_true hfn) ((Dev.mmio_served _ hl hm).trans (if_pos (by simp [hs])))
  case ntcHead =>
    intro fn idx d m q hl hm hfn hs hdue
    show execMbxNtcHeadWrite fn idx _ = _
    exact State.mailbox_served hl hm hfn hs (if_neg (Bool.eq_false_iff.mp hdue))
  case ntcHeadOverflow =>
    intro fn idx d m q hl hm hfn hs _ hdue
    show execMbxNtcHeadWrite fn idx _ = _
    exact State.mailbox_served hl hm hfn hs (if_pos hdue)
  case ctl =>
    intro fn irq ntc d m q hl hm hfn hs _ hirq hntc
    show execMbxCtlWrite fn irq ntc _ = _
    exact State.mailbox_served hl hm hfn hs (if_neg (by simp [hirq, hntc]))
  case ctlBad =>
    intro fn irq ntc d m q hl hm hfn hs _ hbad
    show execMbxCtlWrite fn irq ntc _ = _
    exact State.mailbox_served hl hm hfn hs (if_pos (by simpa using hbad))
  case setEid => exact fun addr d m q e hrel ha => exec_mctpMessage_heard m q hrel ha rfl
  case getEid => exact fun addr d m q hrel ha => exec_mctpMessage_heard m q hrel ha rfl
  case getTypes => exact fun addr d m q hrel ha => exec_mctpMessage_heard m q hrel ha rfl
  case getUuid => exact fun addr d m q hrel ha => exec_mctpMessage_heard m q hrel ha rfl
  case getVersion => exact fun addr d m q hrel ha => exec_mctpMessage_heard m q hrel ha rfl
  case spdm => exact fun addr d m q r hrel ha hup => exec_mctpMessage_heard m q hrel ha (if_pos hup)
  case oxsum => exact fun addr d m q h hrel ha => exec_mctpMessage_heard m q hrel ha (if_pos rfl)
  case unsupported => exact fun addr d m q n hrel ha => exec_mctpMessage_heard m q hrel ha rfl
  case notHeard =>
    intro addr pec x d m q hother
    show execMctpMessage addr pec x _ = _
    refine State.run_next (if_pos ?_)
    rcases hother with hpec | haddr
    · simp [hpec]
    · simp [haddr]
  case firmware =>
    intro d m q
    show execConikStepSelect true _ = _
    exact State.run_next (if_pos rfl)
  case second =>
    intro d m q w hcur hp2 hp3
    exact exec_conikStepSelect_free m q hcur (by simp only [Dev.select, hp2, hp3])
  case tenant =>
    intro d m q t v hcur hp2 hp3
    exact exec_conikStepSelect_free m q hcur (by simp only [Dev.select, hp2, hp3])
  case nothing =>
    intro d m q hcur hp2 hp3
    exact exec_conikStepSelect_free m q hcur (by simp only [Dev.select, hp2, hp3])
  case unknown =>
    intro r opcode d m q e habsent hadm
    show execOxsumUnknownOpcode r opcode _ = _
    exact State.run_next ((if_neg (Bool.eq_false_iff.mp habsent)).trans (Dev.command_of_admits hadm))
  case implemented =>
    intro r opcode d m q hop
    show execOxsumUnknownOpcode r opcode _ = _
    exact State.run_next (if_pos hop)

end Sys2Proof.Machine

namespace Sys2Proof.Machine

/-! ## What a slot of the boot flash reads after its erase and its program (06 R227, R228) -/

/-- An index whose entries a filter leaves out reads as the default. -/
theorem Tab.look_filter_of_dropped {α : Type} (d : α) (t : Tab α) (p : Nat × α → Bool) (k : Nat) (h : ∀ v, p (k, v) = false) :
    Tab.look d k (t.filter p) = d := by
  induction t with
  | nil => rfl
  | cons e r ih =>
    obtain ⟨a, v⟩ := e
    by_cases ha : a = k
    · subst ha
      simpa [h] using ih
    · by_cases hp : p (a, v) = true <;> simp [hp, Tab.look, ha, ih]

theorem Memory.readByte_erase_inside (m : Memory) (a n b : Nat) (hlo : a ≤ b) (hhi : b < a + n) : (m.erase a n).readByte b = Memory.erased :=
  Tab.look_filter_of_dropped _ m _ b fun _ => by simpa using ⟨hlo, hhi⟩

/-- A byte of a written range, as the default-valued read of the list gives it. -/
theorem Memory.readByte_write_getD (m : Memory) (a : Nat) (l : List Byte) {n : Nat} (h : n < l.length) :
    (m.write a l).readByte (a + n) = l.getD n 0 :=
  (Memory.readByte_write_inside m a l n h).trans (List.getD_eq_getElem l 0 h).symm

/-- Settles O47: the piece is written last, and what it does not cover of an area just erased reads as erased. -/
theorem slotWritesStoreTheirBytes : Obligations.SlotWritesStoreTheirBytes := by
  unfold Obligations.SlotWritesStoreTheirBytes
  refine fun s t j hj hcheck => ⟨fun h herase => ?later, fun h herase => ?first⟩
  case later =>
    have hmem : t.mem = s.mem.write ((areaOf j.slot).1 + j.off) j.data :=
      (flashProgramDone_mem hj h).trans (if_neg (by simp [herase, hcheck]))
    intro n hn
    rw [hmem, Memory.readByte_write_getD _ _ _ hn]
  case first =>
    have hmem : t.mem = (s.mem.erase (areaOf j.slot).1 (areaOf j.slot).2).write ((areaOf j.slot).1 + j.off) j.data :=
      (flashEraseDone_mem hj h).trans (if_pos (by simp [herase, hcheck]))
    refine ⟨fun n hn => ?_, fun a hlo hhi hout => ?_⟩
    · rw [hmem, Memory.readByte_write_getD _ _ _ hn]
    · rw [hmem, Memory.readByte_write_outside _ _ _ _ hout, Memory.readByte_erase_inside _ _ _ _ hlo hhi]

end Sys2Proof.Machine

namespace Sys2Proof.Machine

/-! ## Oxsum commands (06)

The meaning of every command of this part is its first step and then a body over the device. `exec_admitted` leaves of each clause the body on the
device that admitted the command; what the clause assumes of that device selects the body's branch. -/

/-- An admitted command over the device answers what its body makes of the device that admitted it. -/
theorem exec_admitted {i : Instr} {c : Cmd} {r : Req} {body : Dev → Dev} {d e g : Dev} {m : Memory} {q : List Instr} (hadm : d.admits c r = (e, true))
    (hi : exec i ⟨d, m, q⟩ = .next ⟨d.command c r body, m, q⟩) (hbody : body e = g) : exec i ⟨d, m, q⟩ = .next ⟨g.settle, m, q⟩ := by
  rw [hi, Dev.command_of_admits hadm, hbody]

/-! ### Tenants, queues, translation and streams (06 R229 to R240) -/

/-- Settles O34, command by command: the hypotheses of each clause select one branch of the command's effect. -/
theorem tenantAndQueueCommands : Obligations.TenantAndQueueCommands := by
  unfold Obligations.TenantAndQueueCommands
  refine ⟨?assign, ?assignFull, ?release, ?bind, ?tenQuery, ?tenReset, ?window, ?windowServing, ?create, ?createPresent, ?destroy, ?start, ?startFaulted,
    ?startBad, ?stopEmpty, ?stopDraining, ?abort, ?abortDone, ?qQuery, ?flush, ?declare, ?withdraw, ?withdrawAbsent⟩
  case assign =>
    rintro r a _ d d' m ps rfl hadm hserves hfits
    exact exec_admitted hadm rfl ((if_neg (by simp [hserves])).trans (if_neg (by simp [hfits])))
  case assignFull =>
    rintro r a _ d d' m ps rfl hadm hserves hfits
    exact exec_admitted hadm rfl ((if_neg (by simp [hserves])).trans (if_pos (by simp [hfits])))
  case release =>
    rintro r _ d d' m ps rfl hadm hserves
    exact exec_admitted hadm rfl (if_neg (by simp [hserves]))
  case bind =>
    rintro r ports _ d d' m ps rfl hadm
    exact exec_admitted hadm rfl rfl
  case tenQuery =>
    rintro r _ d d' m ps rfl hadm
    exact exec_admitted hadm rfl rfl
  case tenReset =>
    rintro r _ d d' m ps rfl hadm
    exact exec_admitted hadm rfl rfl
  case window =>
    rintro r base size pasid xflags _ d d' m ps rfl hadm hserving
    exact exec_admitted hadm rfl (by simp only [hserving, if_true])
  case windowServing =>
    rintro r base size pasid xflags _ d d' m ps rfl hadm hserving
    exact exec_admitted hadm rfl (by simp only [hserving, if_false])
  case create =>
    rintro r q _ d d' m ps rfl hadm habsent hroom
    exact exec_admitted hadm rfl ((if_neg (not_not.mpr habsent)).trans (if_neg (Nat.not_le.mpr hroom)))
  case createPresent =>
    rintro r q _ d d' m ps rfl hadm hpresent
    exact exec_admitted hadm rfl (if_pos hpresent)
  case destroy =>
    rintro r q _ d d' m ps rfl hadm hstopped
    exact exec_admitted hadm rfl (if_neg (not_not.mpr hstopped))
  case start =>
    rintro r q _ d d' m ps rfl hadm hmay hring
    exact exec_admitted hadm rfl ((if_neg (by simp [hmay])).trans (if_neg (by simp [hring])))
  case startFaulted =>
    rintro r q _ d d' m ps rfl hadm hmay hring
    exact exec_admitted hadm rfl ((if_neg (by simp [hmay])).trans (if_pos hring))
  case startBad =>
    rintro r q _ d d' m ps rfl hadm hmay
    exact exec_admitted hadm rfl (if_pos (by simp [hmay]))
  case stopEmpty =>
    rintro r q smode _ d d' m ps rfl hadm hruns hops
    exact exec_admitted hadm rfl ((if_neg (by rw [hruns]; decide)).trans (if_pos (List.isEmpty_iff.mpr hops)))
  case stopDraining =>
    rintro r q _ d d' m ps rfl hadm hruns hops
    exact exec_admitted hadm rfl ((if_neg (by rw [hruns]; decide)).trans ((if_neg (mt List.isEmpty_iff.mp hops)).trans (if_neg Nat.zero_ne_one)))
  case abort =>
    rintro r q desc _ d d' m ps rfl hadm hbelow hrecs hop
    exact exec_admitted hadm rfl ((if_neg (by rw [hbelow, hrecs]; decide)).trans (if_pos hop))
  case abortDone =>
    rintro r q desc _ d d' m ps rfl hadm hbelow
    exact exec_admitted hadm rfl (if_pos (by rw [hbelow, Bool.true_or]))
  case qQuery =>
    rintro r q _ d d' m ps rfl hadm
    exact exec_admitted hadm rfl rfl
  case flush =>
    rintro r pasid fflags _ d d' m ps rfl hadm
    exact exec_admitted hadm rfl rfl
  case declare =>
    rintro r stream base span pageLog2 depth _ d d' m ps rfl hadm habsent
    exact exec_admitted hadm rfl (if_neg (not_not.mpr habsent))
  case withdraw =>
    rintro r stream _ d d' m ps rfl hadm hpresent
    exact exec_admitted hadm rfl (if_neg hpresent)
  case withdrawAbsent =>
    rintro r stream _ d d' m ps rfl hadm habsent
    exact exec_admitted hadm rfl (if_pos habsent)

/-! ### The fabric and collective groups (06 R241 to R243) -/

/-- Settles O36, command by command: the hypotheses of each clause select one branch of the command's effect. -/
theorem fabricAndCollectiveCommands : Obligations.FabricAndCollectiveCommands := by
  unfold Obligations.FabricAndCollectiveCommands
  refine ⟨?status, ?pkgid, ?pkgidSet, ?time, ?routes, ?trunk, ?reset, ?resetNothing, ?groupSet, ?groupSetBusy, ?groupSetElsewhere, ?groupDrop,
    ?groupDropOpen, ?groupDropAbsent, ?colStatus, ?semRead, ?semReadOther, ?semWrite, ?semWriteOther⟩
  case status =>
    rintro r _ d d' m ps rfl hadm
    exact exec_admitted hadm rfl rfl
  case pkgid =>
    rintro r pkgid _ d d' m ps rfl hadm hnode
    exact exec_admitted hadm rfl (if_neg (by simp [hnode]))
  case pkgidSet =>
    rintro r pkgid _ d d' m ps rfl hadm hnode
    exact exec_admitted hadm rfl (if_pos hnode)
  case time =>
    rintro r ftime tflags _ d d' m ps rfl hadm
    exact exec_admitted hadm rfl rfl
  case routes =>
    rintro r first entries _ d d' m ps rfl hadm
    exact exec_admitted hadm rfl rfl
  case trunk =>
    rintro r trunk ports _ d d' m ps rfl hadm
    exact exec_admitted hadm rfl rfl
  case reset =>
    rintro r port _ d d' m ps rfl hadm hports hdark
    exact exec_admitted hadm rfl (if_neg (by rw [hdark, Bool.or_false]; exact mt List.isEmpty_iff.mp hports))
  case resetNothing =>
    rintro r port _ d d' m ps rfl hadm hports
    exact exec_admitted hadm rfl (if_pos (by simp [hports]))
  case groupSet =>
    rintro r group total first members _ d d' m ps rfl hadm hbusy hmore
    exact exec_admitted hadm rfl ((if_neg (by simp [hbusy])).trans (if_pos (by simpa using hmore)))
  case groupSetBusy =>
    rintro r group total first members _ d d' m ps rfl hadm hbusy
    exact exec_admitted hadm rfl (if_pos hbusy)
  case groupSetElsewhere =>
    rintro r group total first members _ d d' m ps rfl hadm hbusy hall hself
    exact exec_admitted hadm rfl ((if_neg (by simp [hbusy])).trans (if_neg (by simp [hall, hself])))
  case groupDrop =>
    rintro r group _ d d' m ps rfl hadm htotal hopen
    exact exec_admitted hadm rfl ((if_neg htotal).trans (if_neg (by simp [hopen])))
  case groupDropOpen =>
    rintro r group _ d d' m ps rfl hadm htotal hopen
    exact exec_admitted hadm rfl ((if_neg htotal).trans (if_pos hopen))
  case groupDropAbsent =>
    rintro r group _ d d' m ps rfl hadm htotal
    exact exec_admitted hadm rfl (if_pos htotal)
  case colStatus =>
    rintro r group _ d d' m ps rfl hadm
    exact exec_admitted hadm rfl rfl
  case semRead =>
    rintro r index _ d d' m ps rfl hadm howner
    exact exec_admitted hadm rfl (if_pos howner)
  case semReadOther =>
    rintro r index _ d d' m ps rfl hadm howner
    exact exec_admitted hadm rfl (if_neg howner)
  case semWrite =>
    rintro r index value _ d d' m ps rfl hadm howner
    exact exec_admitted hadm rfl (if_pos howner)
  case semWriteOther =>
    rintro r index value _ d d' m ps rfl hadm howner
    exact exec_admitted hadm rfl (if_neg howner)

/-! ### The vault group (06 R243 to R245) -/

/-- Without the debug role a raw command is refused (06 R243). -/
theorem Dev.rawRefused_of_no_debugRole {d : Dev} {p : Path} (h : d.debugRole p = false) (i : Nat) : d.rawRefused p i = some .accessDenied :=
  if_pos (by simp [h])

/-- With the debug role a test block of a die present is served (06 R243, R244). -/
theorem Dev.rawRefused_of_test {d : Dev} {p : Path} {i : Nat} (hrole : d.debugRole p = true) (hdie : d.dieIn i = true) (htest : isTest i = true) :
    d.rawRefused p i = none :=
  (if_neg (by simp [hrole])).trans (if_neg (by simp [hdie, htest]))

/-- Settles O37, command by command: the hypotheses of each clause select one branch of the command's effect. -/
theorem vaultCommandGroup : Obligations.VaultCommandGroup := by
  unfold Obligations.VaultCommandGroup
  refine ⟨?add, ?addPresent, ?remove, ?removeAbsent, ?sealEpoch, ?sealNoRoom, ?restore, ?restoreBad, ?query, ?drop, ?dropAbsent, ?erase, ?eraseRefused, ?program,
    ?programWritten, ?readPattern, ?readAny⟩
  case add =>
    rintro r region base size pasid _ d d' m ps rfl hadm hfree hfits
    exact exec_admitted hadm rfl ((if_neg (by simp [hfree])).trans (if_neg (by simp [hfits])))
  case addPresent =>
    rintro r region base size pasid _ d d' m ps rfl hadm hpresent
    exact exec_admitted hadm rfl (if_pos hpresent)
  case remove =>
    rintro r region _ d d' m ps rfl hadm hpresent hseal hrestore
    have hnone := Option.isSome_iff_ne_none.mp hpresent
    exact exec_admitted hadm rfl ((if_neg (mt Option.isNone_iff_eq_none.mp hnone)).trans (if_neg (by simp [hseal, hrestore])))
  case removeAbsent =>
    rintro r region _ d d' m ps rfl hadm habsent
    exact exec_admitted hadm rfl (if_pos (Option.isNone_iff_eq_none.mpr habsent))
  case sealEpoch =>
    rintro r tag _ d d' m ps rfl hadm hmay
    exact exec_admitted hadm rfl (if_pos hmay)
  case sealNoRoom =>
    rintro r tag _ d d' m ps rfl hadm hmay
    exact exec_admitted hadm rfl (if_neg (by simp [hmay]))
  case restore =>
    rintro r epoch source _ d d' m ps rfl hadm hthere
    exact exec_admitted hadm rfl (if_pos hthere)
  case restoreBad =>
    rintro r epoch source _ d d' m ps rfl hadm hthere
    exact exec_admitted hadm rfl (if_neg (by simp [hthere]))
  case query =>
    rintro r _ d d' m ps rfl hadm
    exact exec_admitted hadm rfl rfl
  case drop =>
    rintro r epoch _ d d' m ps rfl hadm hsealed hused
    have hnone := Option.isSome_iff_ne_none.mp hsealed
    exact exec_admitted hadm rfl ((if_neg (mt Option.isNone_iff_eq_none.mp hnone)).trans (if_neg (by simp [hused])))
  case dropAbsent =>
    rintro r epoch _ d d' m ps rfl hadm hnone
    exact exec_admitted hadm rfl (if_pos (Option.isNone_iff_eq_none.mpr hnone))
  case erase =>
    rintro r die block _ d d' m ps rfl hadm hserved
    exact exec_admitted hadm rfl (by simp only [hserved])
  case eraseRefused =>
    rintro r die block _ d d' m ps st rfl hadm hrefused
    exact exec_admitted hadm rfl (by simp only [hrefused])
  case program =>
    rintro r die plane block page pattern _ d d' m ps rfl hadm hserved hpage
    exact exec_admitted hadm rfl (by simp only [hserved, Nat.not_lt.mpr hpage, if_false])
  case programWritten =>
    rintro r die plane block page pattern _ d d' m ps rfl hadm hserved hpage
    exact exec_admitted hadm rfl (by simp only [hserved, hpage, if_true])
  case readPattern =>
    rintro r die plane block page offset dlen _ d d' m ps w rfl hadm hserved hpattern
    exact exec_admitted hadm rfl (by simp only [hserved, hpattern])
  case readAny =>
    rintro r die plane block page offset dlen _ d d' m ps rfl hadm hserved hpattern
    exact exec_admitted hadm rfl (by simp only [hserved, hpattern])

/-- Settles O58: the role is the first thing a raw command looks at. -/
theorem rawCommandsNeedTheDebugRole : Obligations.RawCommandsNeedTheDebugRole := by
  unfold Obligations.RawCommandsNeedTheDebugRole
  refine ⟨?erase, ?eraseServed, ?program, ?read⟩
  case erase =>
    rintro r die block _ d d' m ps rfl hadm hrole
    exact exec_admitted hadm rfl (by simp only [Dev.rawRefused_of_no_debugRole hrole])
  case eraseServed =>
    rintro r die block _ d d' m ps rfl hadm hrole hdie htest
    exact exec_admitted hadm rfl (by simp only [Dev.rawRefused_of_test hrole hdie htest])
  case program =>
    rintro r die plane block page pattern _ d d' m ps rfl hadm hrole
    exact exec_admitted hadm rfl (by simp only [Dev.rawRefused_of_no_debugRole hrole])
  case read =>
    rintro r die plane block page offset dlen _ d d' m ps rfl hadm hrole
    exact exec_admitted hadm rfl (by simp only [Dev.rawRefused_of_no_debugRole hrole])

/-! ### The twin and security groups (06 R246, R247) -/

/-- Settles O38, command by command: the hypotheses of each clause select one branch of the command's effect. -/
theorem twinAndSecurityCommandGroup : Obligations.TwinAndSecurityCommandGroup := by
  unfold Obligations.TwinAndSecurityCommandGroup
  refine ⟨?enable, ?enableOn, ?disable, ?twinStatus, ?rejoin, ?rejoinSolo, ?rejoinLinkDown, ?takeover, ?secStatus, ?selftest, ?zeroise, ?rekey,
    ?rekeyNoRole, ?authBegin, ?authBeginLocked, ?authFinish, ?authFinishOther, ?authFinishNone⟩
  case enable =>
    rintro r _ d d' m ps rfl hadm hoff
    exact exec_admitted hadm rfl ((if_neg (by decide)).trans (if_pos hoff))
  case enableOn =>
    rintro r _ d d' m ps rfl hadm hon
    exact exec_admitted hadm rfl ((if_neg (by decide)).trans (if_neg hon))
  case disable =>
    rintro r _ d d' m ps rfl hadm
    exact exec_admitted hadm rfl (if_pos rfl)
  case twinStatus =>
    rintro r _ d d' m ps rfl hadm
    exact exec_admitted hadm rfl rfl
  case rejoin =>
    rintro r _ d d' m ps rfl hadm hst hlink
    exact exec_admitted hadm rfl ((if_pos (by simp [hst, hlink])).trans (congrArg Dev.sendPair (if_pos hst)))
  case rejoinSolo =>
    rintro r _ d d' m ps rfl hadm hst hlink
    exact exec_admitted hadm rfl ((if_pos (by simp [hst, hlink])).trans (congrArg Dev.sendPair (if_neg (by simp [hst]))))
  case rejoinLinkDown =>
    rintro r _ d d' m ps rfl hadm hlink
    exact exec_admitted hadm rfl (if_neg (by simp [hlink]))
  case takeover =>
    rintro r _ d d' m ps rfl hadm hst
    exact exec_admitted hadm rfl (if_pos hst)
  case secStatus =>
    rintro r _ d d' m ps rfl hadm
    exact exec_admitted hadm rfl rfl
  case selftest =>
    rintro r _ d d' m ps rfl hadm
    exact exec_admitted hadm rfl rfl
  case zeroise =>
    rintro r confirm _ d d' m ps rfl hadm
    exact exec_admitted hadm rfl rfl
  case rekey =>
    rintro r port _ d d' m ps rfl hadm hrole hactive hkeys
    exact exec_admitted hadm rfl ((if_neg (not_not.mpr hrole)).trans (if_neg (by simp [hactive, hkeys])))
  case rekeyNoRole =>
    rintro r port _ d d' m ps rfl hadm hrole
    exact exec_admitted hadm rfl (if_pos hrole)
  case authBegin =>
    rintro r role _ d d' m ps rfl hadm hlocked hkeys
    have hserved : ¬ (decide (role ≠ 0) && !d'.keyService) = true := by
      rcases hkeys with hzero | hkeys
      · simp [hzero]
      · simp [hkeys]
    exact exec_admitted hadm rfl ((if_neg (by simp [hlocked])).trans (if_neg hserved))
  case authBeginLocked =>
    rintro r role _ d d' m ps rfl hadm hlocked
    exact exec_admitted hadm rfl (if_pos hlocked)
  case authFinish =>
    rintro r role sig _ d d' m ps n rfl hadm hnonce hkeys
    exact exec_admitted hadm rfl (by simp only [hnonce]; exact if_neg (by simp [hkeys]))
  case authFinishOther =>
    rintro r role sig _ d d' m ps n want rfl hadm hnonce hrole
    exact exec_admitted hadm rfl (by simp only [hnonce]; exact if_pos (by simp [hrole]))
  case authFinishNone =>
    rintro r role sig _ d d' m ps rfl hadm hnonce
    exact exec_admitted hadm rfl (by simp only [hnonce])

/-- Settles O57: TWN_TAKEOVER looks at the pair's state alone. -/
theorem takeoverOnlyInCleave : Obligations.TakeoverOnlyInCleave := by
  unfold Obligations.TakeoverOnlyInCleave
  rintro r _ d d' m ps rfl hadm hst
  exact exec_admitted hadm rfl (if_neg hst)

/-! ### The optical and the power groups (06 R234, R235) -/

/-- Settles O39, command by command: the hypotheses of each clause select one branch of the command's effect. -/
theorem opticalAndPowerCommandGroup : Obligations.OpticalAndPowerCommandGroup := by
  unfold Obligations.OpticalAndPowerCommandGroup
  refine ⟨?polish, ?polishInactive, ?lustre, ?map, ?moveInactive, ?move, ?moveNoRoom, ?swap, ?swapBad, ?lasers, ?setSame, ?setDark, ?setDarkRefused,
    ?setAo, ?leaveDark, ?setBusy, ?portsBusy, ?portsSame, ?ports, ?portsSaved, ?sensors, ?limits⟩
  case polish =>
    rintro r port lambda _ d d' m ps rfl hadm hactive hcmd hchans
    exact exec_admitted hadm rfl
      ((if_neg (by simp [hactive])).trans ((if_neg (by simp [hcmd])).trans (if_neg (mt List.isEmpty_iff.mp hchans))))
  case polishInactive =>
    rintro r port lambda _ d d' m ps rfl hadm hactive
    exact exec_admitted hadm rfl (if_pos (by simp [hactive]))
  case lustre =>
    rintro r port _ d d' m ps rfl hadm
    exact exec_admitted hadm rfl rfl
  case map =>
    rintro r port _ d d' m ps rfl hadm
    exact exec_admitted hadm rfl rfl
  case moveInactive =>
    rintro r port lane lambda _ d d' m ps k rfl hadm hactive hdest
    exact exec_admitted hadm rfl ((if_pos (by simp [hactive])).trans (by simp only [hdest]))
  case move =>
    rintro r port lane lambda _ d d' m ps a rfl hadm hactive hlane hroom
    exact exec_admitted hadm rfl ((if_neg (by simp [hactive])).trans (by simp only [hlane, hroom, Bool.false_eq_true, if_false]))
  case moveNoRoom =>
    rintro r port lane lambda _ d d' m ps a rfl hadm hactive hlane hroom
    exact exec_admitted hadm rfl ((if_neg (by simp [hactive])).trans (by simp only [hlane, hroom, if_true]))
  case swap =>
    rintro r ruby pos _ d d' m ps rfl hadm hswap hlink
    exact exec_admitted hadm rfl ((if_neg (by simp [hswap])).trans (if_pos hlink))
  case swapBad =>
    rintro r ruby pos _ d d' m ps rfl hadm hswap
    exact exec_admitted hadm rfl (if_pos (by simp [hswap]))
  case lasers =>
    rintro r ruby _ d d' m ps rfl hadm
    exact exec_admitted hadm rfl rfl
  case setSame =>
    rintro r state _ d d' m ps rfl hadm hawake hidle hsame hao
    exact exec_admitted hadm rfl (by simp only [hawake, hao, hidle, Bool.false_eq_true, if_false]; exact if_pos hsame)
  case setDark =>
    rintro r _ d d' m ps rfl hadm hst hidle hdark hao
    exact exec_admitted hadm rfl (by simp [hst, hidle, hdark, hao])
  case setDarkRefused =>
    rintro r _ d d' m ps rfl hadm hst hidle hdark
    -- while always-on is being entered, which the clause leaves open, the answer is the same
    exact exec_admitted hadm rfl (by simp [hst, hidle, hdark])
  case setAo =>
    rintro r _ d d' m ps rfl hadm hawake hidle hao
    exact exec_admitted hadm rfl (by simp [hawake, hidle, hao])
  case leaveDark =>
    rintro r _ d d' m ps rfl hadm hst hidle hao
    exact exec_admitted hadm rfl (by simp [hst, hidle, hao])
  case setBusy =>
    rintro r state _ d d' m ps rfl hadm hawake hbusy htarget hao
    exact exec_admitted hadm rfl (by simp only [hawake, hao, hbusy, htarget, Bool.false_eq_true, if_true, if_false])
  case portsBusy =>
    rintro r mask _ d d' m ps rfl hadm hbusy
    exact exec_admitted hadm rfl (if_pos hbusy)
  case portsSame =>
    rintro r mask _ d d' m ps rfl hadm hidle hsame
    exact exec_admitted hadm rfl ((if_neg (by simp [hidle])).trans (if_pos hsame))
  case ports =>
    rintro r mask _ d d' m ps rfl hadm hidle hmask hst hseq
    exact exec_admitted hadm rfl
      ((if_neg (by simp [hidle])).trans ((if_neg hmask).trans ((if_neg hst).trans (if_neg (mt List.isEmpty_iff.mp hseq)))))
  case portsSaved =>
    rintro r mask _ d d' m ps rfl hadm hidle hmask hst
    exact exec_admitted hadm rfl ((if_neg (by simp [hidle])).trans ((if_neg hmask).trans (if_pos hst)))
  case sensors =>
    rintro r _ d d' m ps rfl hadm
    exact exec_admitted hadm rfl rfl
  case limits =>
    rintro r sensor warn rise _ d d' m ps rfl hadm
    exact exec_admitted hadm rfl rfl

/-! ### The debug group (06 R220, R248) -/

/-- Settles O40, command by command: the hypotheses of each clause select one branch of the command's effect. -/
theorem debugCommandGroup : Obligations.DebugCommandGroup := by
  unfold Obligations.DebugCommandGroup
  refine ⟨?stop, ?stopBad, ?resumeRunning, ?resumeScheduled, ?resumeStopped, ?waits, ?waitsOn, ?snapshot, ?dump, ?dumpBusy, ?counters, ?countersOther,
    ?telemetry⟩
  case stop =>
    rintro r scope ftime _ d d' m ps rfl hadm hst hlocked
    have hserved : ¬ (decide (d'.dbg.st ≠ .running) || (decide (scope = 1) && !d'.timeLocked)) = true := by
      rcases hlocked with hscope | hlocked
      · simp [hst, hscope]
      · simp [hst, hlocked]
    exact exec_admitted hadm rfl (if_neg hserved)
  case stopBad =>
    rintro r scope ftime _ d d' m ps rfl hadm hst
    exact exec_admitted hadm rfl (if_pos (by simp [hst]))
  case resumeRunning =>
    rintro r _ d d' m ps rfl hadm hst
    exact exec_admitted hadm rfl (by simp only [hst])
  case resumeScheduled =>
    rintro r _ d d' m ps rfl hadm hst
    exact exec_admitted hadm rfl (by simp only [hst])
  case resumeStopped =>
    rintro r _ d d' m ps rfl hadm hst
    exact exec_admitted hadm rfl (by simp only [hst])
  case waits =>
    rintro r _ d d' m ps rfl hadm
    exact exec_admitted hadm rfl (if_pos rfl)
  case waitsOn =>
    rintro r first _ d d' m ps es rfl hadm hfirst hgraph hlt
    exact exec_admitted hadm rfl ((if_neg hfirst).trans (by simp only [hgraph, Nat.not_le.mpr hlt, if_false]))
  case snapshot =>
    rintro r q _ d d' m ps rfl hadm
    exact exec_admitted hadm rfl rfl
  case dump =>
    rintro r layer operator stp dest maxlen _ d d' m ps rfl hadm hfree
    exact exec_admitted hadm rfl (if_neg (by simp [hfree]))
  case dumpBusy =>
    rintro r layer operator stp dest maxlen _ d d' m ps rfl hadm hpending
    exact exec_admitted hadm rfl (if_pos hpending)
  case counters =>
    rintro r set first num _ d d' m ps rfl hadm hdevice htenant
    have hdev : ¬ (set < 2 && r.tenant.toNat ≠ 0xFF) = true := by
      rcases hdevice with hset | hall
      · simp [Nat.not_lt.mpr hset]
      · simp [hall]
    have hten : ¬ (decide (2 ≤ set) && decide (16 ≤ r.tenant.toNat)) = true := by
      rcases htenant with hset | ht
      · simp [Nat.not_le.mpr hset]
      · simp [Nat.not_le.mpr ht]
    exact exec_admitted hadm rfl ((if_neg hdev).trans (if_neg hten))
  case countersOther =>
    rintro r set first num _ d d' m ps rfl hadm hset htenant
    have hne : r.tenant.toNat ≠ 0xFF := fun h => htenant (BitVec.eq_of_toNat_eq h)
    exact exec_admitted hadm rfl (if_pos (by simp [hset, hne]))
  case telemetry =>
    rintro r dest period _ d d' m ps rfl hadm
    exact exec_admitted hadm rfl rfl

end Sys2Proof.Machine

namespace Sys2Proof.Machine

/-! ## Creating and destroying a queue (07 R261, R273, R286; 06 R236)

Answers, flags and pre-translations hold no queue: each of these operations leaves every queue as it was, so a queue is created or destroyed by the
one `Dev.setQueue` among them. -/

theorem OnlyAnswers.queue_eq {d e : Dev} (h : OnlyAnswers d e) (gq : Nat) : e.queue gq = d.queue gq := by
  obtain ⟨_, _, _, _, _, _, _, _, rfl⟩ := h
  rfl

theorem onlyAnswers_foldl {α : Type} {f : Dev → α → Dev} (hf : ∀ d x, OnlyAnswers d (f d x)) (l : List α) (d : Dev) : OnlyAnswers d (l.foldl f d) := by
  induction l generalizing d with
  | nil => exact .refl d
  | cons x r ih => exact (hf d x).trans (ih _)

@[simp] theorem Dev.queue_journalCfg (d : Dev) (t op : Nat) (vals : List Nat) (gq : Nat) : (d.journalCfg t op vals).queue gq = d.queue gq :=
  Dev.queue_journal ..

@[simp] theorem Dev.queue_putFlag (d : Dev) (gq' : Nat) (v : W64) (gq : Nat) : (d.putFlag gq' v).queue gq = d.queue gq := rfl

@[simp] theorem Dev.queue_dropPre (d : Dev) (gq' : Nat) (idx : Option Nat) (gq : Nat) : (d.dropPre gq' idx).queue gq = d.queue gq := rfl

/-- Calling back the copies of a word sends messages and changes the directory alone (09 R378). -/
@[simp] theorem Dev.queue_invalidate (d : Dev) (w : CohWord) (v : W64) (gq : Nat) : (d.invalidate w v).1.queue gq = d.queue gq := by
  unfold Dev.invalidate
  split
  · rfl
  · next e _ =>
    by_cases hheld : e.holders.isEmpty = true
    · rw [if_pos hheld]
    · by_cases hacks : e.acks.isEmpty = true
      · simp only [hheld, hacks, if_true]
        exact (onlyAnswers_foldl (fun d p => onlyAnswers_facet d p ..) e.holders _).queue_eq gq
      · simp only [hheld, hacks]
        rfl

@[simp] theorem Dev.queue_setFlag (d : Dev) (gq' : Nat) (v : W64) (gq : Nat) : (d.setFlag gq' v).queue gq = d.queue gq := by
  have hinv := d.queue_invalidate (flagWord gq') v gq
  unfold Dev.setFlag
  generalize d.invalidate (flagWord gq') v = r at hinv ⊢
  obtain ⟨e, free⟩ := r
  cases free with
  | true => exact hinv
  | false => exact hinv

/-- The queue a Q_CREATE makes of the one that had its number: stopped and empty, with the serials of its number (R286). -/
theorem Dev.queue_createQueue_same (d : Dev) (t : Nat) (a : QArgs) : (d.createQueue t a).queue (64 * t + a.queue) =
    { serial := (d.queue (64 * t + a.queue)).serial, retired := (d.queue (64 * t + a.queue)).retired, st := .stopped, qtype := a.qtype, ring := a.ring,
      log2 := a.log2, vector := a.vector, weight := a.weight, rate := a.rate, timeout := a.timeout } := by
  simp [Dev.createQueue]

theorem Dev.queue_createQueue_ne (d : Dev) {t gq : Nat} {a : QArgs} (h : gq ≠ 64 * t + a.queue) : (d.createQueue t a).queue gq = d.queue gq := by
  simp [Dev.createQueue, h]

/-- What a Q_DESTROY leaves of a queue: the serials of its number (R286). -/
theorem Dev.queue_destroyQueue_same (d : Dev) (t q : Nat) : (d.destroyQueue t q).queue (64 * t + q) =
    { serial := (d.queue (64 * t + q)).serial, retired := (d.queue (64 * t + q)).retired } := by
  simp [Dev.destroyQueue]

theorem Dev.queue_destroyQueue_ne (d : Dev) {t q gq : Nat} (h : gq ≠ 64 * t + q) : (d.destroyQueue t q).queue gq = d.queue gq := by
  simp [Dev.destroyQueue, h]

/-- Settles O60: both operations write the one queue, each as its lemma says. -/
theorem queueChangesTouchOneQueue : Obligations.QueueChangesTouchOneQueue := by
  unfold Obligations.QueueChangesTouchOneQueue
  intro d t a gq
  rw [Dev.queue_createQueue_same, Dev.queue_destroyQueue_same]
  exact ⟨fun h => ⟨d.queue_createQueue_ne h, d.queue_destroyQueue_ne h⟩, rfl, rfl, rfl, rfl, rfl, rfl, rfl⟩

end Sys2Proof.Machine

namespace Sys2Proof.Machine

/-! ## Doorbells, starting descriptors, timeouts and grants (07 R258 to R298; 10 R429; 21 R880) -/

theorem Dev.not_stopped_of_ne {d : Dev} (h : d.dbg.st ≠ .stopped) : ¬ d.stopped = true := by
  simp [Dev.stopped, h]

theorem Unit.tenantQueue {t q : Nat} (ht : t < 16) (hq : q < 64) : (Unit.tenant t && Unit.queueOf q) = true := by
  simp [Unit.tenant, Unit.queueOf, ht, hq]

/-- The queue a device-global number names is one of the tenant that stands before it. -/
theorem queueNo_div {t q : Nat} (hq : q < 64) : (64 * t + q) / 64 = t := by omega

/-- An update of a queue is known by what it makes of that queue. -/
theorem Dev.setQueue_congr {d : Dev} {gq : Nat} {f g : Queue → Queue} (h : f (d.queue gq) = g (d.queue gq)) : d.setQueue gq f = d.setQueue gq g := by
  have hupd : Tab.upd {} gq f d.tq.q = Tab.upd {} gq g d.tq.q := congrArg (Tab.put ({} : Queue) gq · d.tq.q) h
  simp only [Dev.setQueue, hupd]

@[simp] theorem Dev.fenced_wake (d : Dev) (t : Nat) : d.wake.fenced t = d.fenced t := by
  unfold Dev.wake
  split <;> rfl

@[simp] theorem Dev.now_wake (d : Dev) : d.wake.now = d.now := by
  unfold Dev.wake
  split <;> rfl

/-- A doorbell that no check refuses makes its descriptors visible and is journaled (R262, R265). -/
theorem Dev.doorbell_taken {d : Dev} {gq : Nat} {n : W32} {w : Queue} (hw : d.wake.queue gq = w) (hst : w.st ≠ .absent) (hf : d.fenced (gq / 64) = false)
    (htail : (n - w.tail).toNat < 2 ^ 31) (hhead : (n - w.head).toNat ≤ 2 ^ w.log2) :
    d.doorbell gq n = (d.wake.setQueue gq fun y =>
      { y with tail := n, visible := y.visible.filter (fun v => decide (v.1 ≠ w.head.toNat) && aheadOf w.head v.1) ++ [(n.toNat, d.now)] }).journal
        0x01 (gq / 64) gq n.toNat := by
  subst hw
  have hpass : ¬ ((d.wake.queue gq).st = .absent || d.wake.fenced (gq / 64) || decide (2 ^ 31 ≤ (n - (d.wake.queue gq).tail).toNat)
      || decide (2 ^ (d.wake.queue gq).log2 < (n - (d.wake.queue gq).head).toNat)) = true := by
    simp only [Dev.fenced_wake, hst, hf, Nat.not_le.mpr htail, Nat.not_lt.mpr hhead, decide_false, Bool.or_self, Bool.false_eq_true, not_false_eq_true]
  refine (if_neg hpass).trans ?_
  rw [Dev.now_wake]
  exact congrArg (fun e : Dev => e.journal 0x01 (gq / 64) gq n.toNat) (Dev.setQueue_congr rfl)

/-- A register of a queue that the tenant's function or the PF serves (05 R176). -/
theorem Dev.mmioTen_served {d : Dev} {t : Nat} (g : Dev → Dev) (hl : d.linkUp = true) (hm : d.memReq (t + 1) = true ∨ d.memReq 0 = true) :
    d.mmioTen t g = g d := by
  refine Dev.mmio_served g hl ?_
  by_cases hvf : d.memReq (t + 1) = true
  · rw [if_pos hvf, hvf]
  · rw [if_neg hvf]
    exact hm.resolve_left hvf

/-- The tenant below its floor whose turn it is receives the freed units (R258). -/
theorem Dev.grantFreed_low {d : Dev} {pool u : Nat} (t : Nat) (h : d.lowWaiter pool = some u) :
    d.grantFreed pool t = ({ d with tq.turn := Tab.put 0 pool ((u + 1) % 16) d.tq.turn }.grantWaiter pool u, some u) := by
  simp only [Dev.grantFreed, h]

/-- With none below its floor, the tenant named receives them (R258). -/
theorem Dev.grantFreed_named {d : Dev} {pool t : Nat} (h : d.lowWaiter pool = none) (hu : d.unitsFor pool t = true) :
    d.grantFreed pool t = (d.grantWaiter pool t, some t) := by
  simp only [Dev.grantFreed, h, hu, if_true]

/-- A descriptor that its queue, its fence and the fabric let start (R276, R277). -/
theorem Dev.mayStart1_of {d : Dev} {gq : Nat} {x : Desc} {w : Queue} (hw : d.queue gq = w) (hrun : w.st = .running) (hvis : w.nextStart ≠ w.tail)
    (hs : d.dbg.st ≠ .stopped) (hf : d.fenced (gq / 64) = false) (hops : (d.opsOf gq).length < 64) (hfence : x.fence = false ∨ w.head = w.nextStart)
    (hfab : needsFabric x = false ∨ d.boot.stage = .fabricReady) : d.mayStart1 gq w.nextStart x = true := by
  subst hw
  have hfence' : (!x.fence || decide ((d.queue gq).head = (d.queue gq).nextStart)) = true := by simpa using hfence
  have hfab' : (!needsFabric x || decide (d.boot.stage = .fabricReady)) = true := by simpa using hfab
  simp only [Dev.mayStart1, Bool.eq_false_iff.mpr (Dev.not_stopped_of_ne hs), hf, hrun, hvis, hops, hfence', hfab', ne_eq, not_false_eq_true, decide_true,
    Bool.not_false, Bool.and_self]

/-- Settles O10, command by command: the hypotheses of each clause select one branch of the command's meaning. -/
theorem doorbellAndStartCommands : Obligations.DoorbellAndStartCommands := by
  unfold Obligations.DoorbellAndStartCommands
  refine ⟨?doorbell, ?start, ?resend, ?txn, ?op, ?unstarted, ?grantLow, ?grantNamed, ?grantPacket, ?quarantine, ?qcnt, ?qlate, ?doorbellTaken⟩
  case doorbell =>
    intro t q' n d m q hl hm ht hq
    show execTenDbtailWrite t q' n _ = _
    exact State.runIf_next (Unit.tenantQueue ht hq) (Dev.mmio_served _ hl hm)
  case start =>
    intro t q' x d m q w ht hq hw hrun hvis hs hf hops hfence hfab hfetched
    show execDescStart t q' x _ = _
    have hmay : d.mayStart1 (64 * t + q') w.nextStart x = true := Dev.mayStart1_of hw hrun hvis hs ((queueNo_div hq).symm ▸ hf) hops hfence hfab
    subst hw
    exact State.runIf_next (Unit.tenantQueue ht hq) ((if_neg (by simp [hmay])).trans (if_pos hfetched))
  case resend =>
    intro d m q hs
    show execSemWaitResend _ = _
    exact State.run_next (if_neg (Dev.not_stopped_of_ne hs))
  case txn =>
    intro gq idx d m q n x hgq hs hfind hlate
    show execTxnTimeout gq idx (some n) _ = _
    refine State.runIf_next (decide_eq_true hgq) ((if_neg (Dev.not_stopped_of_ne hs)).trans ?_)
    simp only [hfind, hlate, if_true]
  case op =>
    intro gq idx d m q o hgq hs hop hlate
    show execTxnTimeout gq idx none _ = _
    refine State.runIf_next (decide_eq_true hgq) ((if_neg (Dev.not_stopped_of_ne hs)).trans ?_)
    simp only [hop, hlate, if_true]
  case unstarted =>
    intro gq idx d m q t hgq hs hop hvis hrec hat hlate
    show execTxnTimeout gq idx none _ = _
    refine State.runIf_next (decide_eq_true hgq) ((if_neg (Dev.not_stopped_of_ne hs)).trans ?_)
    simp only [hop]
    exact if_pos (by simp only [hvis, hat, hlate, List.contains_eq_mem, hrec, decide_true, decide_false, Bool.not_false, Bool.and_self])
  case grantLow =>
    intro pool t d m q u hp hp0 ht hlow
    show execBufferUnitFree pool t _ = _
    refine State.runIf_next (by simp [Unit.bufferPool, Unit.tenant, hp, ht]) ?_
    simp only [Dev.grantFreed_low t hlow, hp0, if_false]
  case grantNamed =>
    intro pool t d m q hp hp0 ht hlow hu
    show execBufferUnitFree pool t _ = _
    refine State.runIf_next (by simp [Unit.bufferPool, Unit.tenant, hp, ht]) ?_
    simp only [Dev.grantFreed_named hlow hu, hp0, if_false]
  case grantPacket =>
    intro t d m q u ht hlow
    show execBufferUnitFree 0 t _ = _
    refine State.runIf_next (by simp [Unit.bufferPool, Unit.tenant, ht]) ?_
    simp only [Dev.grantFreed_low t hlow, if_true]
  case quarantine =>
    intro gq serial d m q hgq
    show execSerialQuarantineEnd gq serial _ = _
    exact State.runIf_next (decide_eq_true hgq) rfl
  case qcnt =>
    intro t q' d m q hl hm ht hq
    show execTenQcntClr t q' _ = _
    exact State.runIf_next (Unit.tenantQueue ht hq) (Dev.mmioTen_served _ hl hm)
  case qlate =>
    intro t q' d m q hl hm ht hq
    show execTenQlateClr t q' _ = _
    exact State.runIf_next (Unit.tenantQueue ht hq) (Dev.mmioTen_served _ hl hm)
  case doorbellTaken =>
    intro t q' n d m q w hl hm ht hq hw hst hf htail hhead
    show execTenDbtailWrite t q' n _ = _
    have hdb := Dev.doorbell_taken hw hst ((queueNo_div hq).symm ▸ hf) htail hhead
    rw [queueNo_div hq] at hdb
    exact State.runIf_next (Unit.tenantQueue ht hq) ((Dev.mmio_served _ hl hm).trans (congrArg Dev.settle hdb))

/-! ## Opening operations and issuing segments (07 R268, R279 to R282; 09 R347 to R353; 10 R410 to R430; 17 R713, R732) -/

/-- A command that opens an operation does to it what its meaning says of operations of its code. -/
theorem exec_opened {i : Instr} {gq idx op : Nat} {d e : Dev} {o : Op} {m : Memory} {q : List Instr} {opening : Dev → Op → Dev} (hgq : gq < 1024)
    (hopen : d.toOpen gq idx op = some o)
    (hi : exec i ⟨d, m, q⟩ = State.runIf ⟨d, m, q⟩ (Unit.queueNo gq) fun d =>
      match d.toOpen gq idx op with | some o => (opening d o).settle | none => d)
    (he : opening d o = e) : exec i ⟨d, m, q⟩ = .next ⟨e.settle, m, q⟩ := by
  rw [hi]
  exact State.runIf_next (decide_eq_true hgq) (by simp only [hopen, he])

/-- An atomic that nothing holds back, with a unit for its response, is issued as one transaction (09 R353). -/
theorem Dev.atomicIssue_sent {d x y : Dev} {o : Op} {a b v w : W64} {c aop : Nat} (hbody : o.desc.body = .remote a b c aop v w) (hwait : d.mustWait o = false)
    (hclaim : (d.ownWrite (o.gq / 64) a.toNat 8).claim 0 (o.gq / 64) 1 = (x, true))
    (hsent : x.transact o.gq (.op o.idx 0 8) .atom { (d.ownWrite (o.gq / 64) a.toNat 8).opPkt o a 0 with
      aux := aop, len := if aop = 5 then 16 else 8, data := if aop = 5 then [v, w] else [v] } .none a.toNat 8 true o.desc.relaxed = (y, .ok)) :
    d.atomicIssue o = y.setOp { o with open_ := true, issued := true, total := 8, next := 8, held := o.held + 1 } := by
  unfold Dev.atomicIssue
  simp only [hbody, hwait, hclaim, hsent, Bool.false_eq_true, if_false]

/-- A segment whose tenant has the units spends its tokens and leaves (R256, R282). -/
theorem Dev.grantIssue_granted {d x : Dev} {o : Op} {off len : Nat} (h : d.claim 0 (o.gq / 64) (bufUnits len) = (x, true)) :
    d.grantIssue o off len = (x.spend o.gq len).issueSeg o off len := by
  simp only [Dev.grantIssue, h]

/-- The egress issues the segment of the tenant and the queue whose turn it is (R281). -/
theorem exec_segmentIssue_chosen {e t gq off len : Nat} {tdef qdef : Nat → Nat} {o : Op} {d g : Dev} (m : Memory) (q : List Instr) (he : e < 80)
    (hs : d.dbg.st ≠ .stopped) (hten : d.pickTenant e = some (t, tdef)) (hqueue : d.pickQueue t e = some (gq, qdef)) (hseg : d.nextOf gq e = some (o, off, len))
    (hg : (d.chargeTurn e t tdef qdef).grantIssue o off len = g) : exec (.segmentIssue e) ⟨d, m, q⟩ = .next ⟨g.settle, m, q⟩ := by
  show execSegmentIssue e _ = _
  refine State.runIf_next (decide_eq_true he) ((if_neg (Dev.not_stopped_of_ne hs)).trans ?_)
  simp only [hten, hqueue, hseg, hg]

/-- Settles O11, command by command: the code of the operation that is opened names the one thing its command does. -/
theorem operationCommands : Obligations.OperationCommands := by
  unfold Obligations.OperationCommands
  refine ⟨?copy, ?fill, ?get, ?put, ?atomic, ?allreduce, ?reduceScatter, ?barrier, ?semAtomic, ?semWait, ?semRead, ?segment, ?flush, ?epochRead, ?atomicSent,
    ?semAtomicHere, ?semWaitHere, ?semReadHere, ?segmentGranted⟩
  case copy | fill | get | put =>
    intro gq idx d m q o hgq hopen
    exact exec_opened (opening := fun d o => d.openBytes o (descBytes o.desc)) hgq hopen rfl rfl
  case atomic =>
    intro gq idx d m q o hgq hopen
    exact exec_opened (opening := Dev.atomicIssue) hgq hopen rfl rfl
  case allreduce | reduceScatter | barrier =>
    intro gq idx d m q o hgq hopen
    exact exec_opened (opening := Dev.openColl) hgq hopen rfl rfl
  case semAtomic | semWait | semRead =>
    intro gq idx d m q o hgq hopen
    exact exec_opened (opening := Dev.semIssue) hgq hopen rfl rfl
  case segment =>
    intro egress d m q t tdef gq qdef o off len he hs hten hqueue hseg
    exact exec_segmentIssue_chosen m q he hs hten hqueue hseg rfl
  case flush =>
    intro gq idx d m q o hgq hopen
    exact exec_opened (opening := Dev.openFlush) hgq hopen rfl rfl
  case epochRead =>
    intro gq idx d m q o hgq hopen hserves
    show execOpEpochRead gq idx _ = _
    exact State.runIf_next (decide_eq_true hgq) (by simp only [hopen, hserves, if_true])
  case atomicSent =>
    intro gq idx d m q o a b c aop v w x y hgq hopen hbody hwait hclaim hsent
    exact exec_opened (opening := Dev.atomicIssue) hgq hopen rfl (Dev.atomicIssue_sent hbody hwait hclaim hsent)
  case semAtomicHere | semWaitHere | semReadHere =>
    intro gq idx d m q o a u v aop cond x w hgq hopen hbody hrel hhome hten howner hdo
    have hissue : d.semIssue o = x.finishOp o.gq o.idx .ok w := by
      unfold Dev.semIssue
      simp only [hbody, hrel, hhome, hten, howner, hdo, Bool.not_true, Bool.false_and, Bool.false_eq_true, decide_true, Bool.and_self, if_true, if_false]
    exact exec_opened (opening := Dev.semIssue) hgq hopen rfl hissue
  case segmentGranted =>
    intro egress d m q t tdef gq qdef o off len x he hs hten hqueue hseg hclaim
    exact exec_segmentIssue_chosen m q he hs hten hqueue hseg (Dev.grantIssue_granted hclaim)

end Sys2Proof.Machine

namespace Sys2Proof.Machine

/-! ## Address translation (08 R313, R317 to R346; 21 R880) -/

/-- A key range register of a tenant. -/
theorem Unit.tenantKeyRange {t k : Nat} (ht : t < 16) (hk : k < 8) : (Unit.tenant t && Unit.keyRange k) = true := by
  simp [Unit.tenant, Unit.keyRange, ht, hk]

/-- `State.run_mmio_served` for a register of a unit: the unit exists, and a PF that completes memory requests makes `e` of `d` (05 R176). -/
theorem State.runIf_mmio_served {ok : Bool} {d e : Dev} {m : Memory} {q : List Instr} {g : Dev → Dev} (hok : ok = true) (hl : d.linkUp = true)
    (hm : d.memReq 0 = true) (he : g d = e) : (State.runIf ⟨d, m, q⟩ ok fun d => d.mmio 0 g) = .next ⟨e, m, q⟩ :=
  State.runIf_next hok ((Dev.mmio_served g hl hm).trans he)

/-- A tenant with the fields that one of its key registers holds written (R327). -/
def Tenant.writeKeyReg (which : KeyReg) (k : Nat) (val : W32) (x : Tenant) : Tenant :=
  match which with
  | .base => { x with krBase := Tab.put 0 k val x.krBase }
  | .lim => { x with krLim := Tab.put 0 k val x.krLim }
  | .ctl => { x with krCtl := Tab.put 0 k (val &&& 0x13F) x.krCtl }
  | .keydef => { x with keydef := val &&& 0x3F }

/-- A key register the PF serves takes its value, and every cached translation of the tenant goes (R327). -/
theorem exec_xltKeyrangeWrite_served {t k : Nat} {which : KeyReg} {val : W32} {d : Dev} (m : Memory) (q : List Instr) (ht : t < 16) (hk : k < 8)
    (hl : d.linkUp = true) (hm : d.memReq 0 = true) :
    exec (.xltKeyrangeWrite t which k val) ⟨d, m, q⟩ =
      .next ⟨Dev.settle ((d.setTen t (Tenant.writeKeyReg which k val)).forget fun f _ _ _ => decide (f = t + 1)), m, q⟩ := by
  show execXltKeyrangeWrite t which k val _ = _
  exact State.runIf_mmio_served (Unit.tenantKeyRange ht hk) hl hm rfl

/-- A device that is not stopped completes the first invalidation whose reads have all ended (R334). -/
theorem execInvalidationComplete_running {d : Dev} (m : Memory) (q : List Instr) {i : Inval} (hs : d.dbg.st ≠ .stopped)
    (hi : d.invalDone d.xlt.invals [] = some i) :
    execInvalidationComplete ⟨d, m, q⟩ = .next ⟨({ d with xlt.invals := without i d.xlt.invals }).emit (.invCompletion i.fn i.itag), m, q⟩ :=
  State.run_next ((if_neg (Dev.not_stopped_of_ne hs)).trans (by simp only [hi]))

/-- The device once a page is translated for an access of an engine: the entry is cached for all engines, and for the access's own (R317, R318). -/
def Dev.cacheEntry (d : Dev) (engine : Nat) (e : Xent) : Dev :=
  { d with
    xlt.tlb := touch 16384 e d.xlt.tlb
    xlt.micro := if engine < 16 then Tab.put [] engine (touch 64 e (Tab.look [] engine d.xlt.micro)) d.xlt.micro else d.xlt.micro }

/-- A completion that translates the page, for an access that waits and that neither a reset nor an invalidation has overtaken: the entry is cached
and the access goes on with it (R317, R318, R336). -/
theorem Dev.atsDone_translates {d : Dev} {fn tag : Nat} {c : AtsCpl} {y : AtsReq} {a : Access} {e : Xent}
    (hfind : (d.xlt.ats.find? fun y => decide (y.fn = fn) && decide (y.tag = tag)) = some y) (hoff : y.off = false) (hstale : y.stale = false)
    (hacc : y.acc = some a) (hfail : c.fail = false) (hperm : (c.r || c.w) = true) (halign : c.pa.toNat % 2 ^ c.sizeLog2 = 0)
    (he : Dev.entryOf { d with xlt.ats := without y d.xlt.ats } fn y.pasid y.iova.toNat c = e) :
    d.atsDone fn tag c = ((Dev.cacheEntry { d with xlt.ats := without y d.xlt.ats } a.engine e).goOn a e).retryReads.retryAts := by
  unfold Dev.atsDone
  simp only [hfind, hoff, hstale, hacc, hfail, hperm, halign, Dev.postIf, ne_eq, not_true, decide_false, Bool.not_false, Bool.and_self, Bool.and_false,
    Bool.false_eq_true, if_false, he]
  rfl

/-- A success response to a page request of no operation asks for the page's translation again (R341). -/
theorem Dev.prgDone_success {d : Dev} {fn prgi : Nat} {y : PageReq}
    (hfind : (d.xlt.pages.find? fun y => decide (y.fn = fn) && decide (y.prgi = prgi) && y.sent) = some y) (hop : y.acc.op = none) :
    d.prgDone fn prgi 0 =
      ((d.setPages (without y d.xlt.pages)).askAts { fn, tag := 0, pasid := y.acc.pasid, iova := y.acc.iova, acc := some y.acc }).sendPages := by
  unfold Dev.prgDone
  simp only [hfind, hop, if_true, Option.bind_none]

/-- Settles O28, command by command: the hypotheses of each clause select one branch of the command's meaning. -/
theorem translationCommands : Obligations.TranslationCommands := by
  unfold Obligations.TranslationCommands
  refine ⟨?completion, ?completionStopped, ?ahead, ?notAhead, ?invalidate, ?invalDone, ?invalStopped, ?response, ?timeout, ?timeoutNone, ?priEnable,
    ?krBase, ?krLim, ?krCtl, ?keydef, ?hmapBase, ?hmapLim, ?hmapCtl, ?invcnt, ?precnt, ?pricnt, ?translates, ?granted⟩
  case completion =>
    intro fn tag c d m q hfn hs hi
    show execAtsTranslationCompletion fn tag c _ = _
    exact State.intake_next (decide_eq_true hfn) hs hi rfl
  case completionStopped =>
    intro fn tag c d m q hfn hs
    show execAtsTranslationCompletion fn tag c _ = _
    exact State.admit_stopped _ _ _ _ (decide_eq_true hfn) hs
  case ahead =>
    intro t q' idx x d m q ht hq hmay
    show execPretranslateIssue t q' idx x _ = _
    exact State.runIf_next (Unit.tenantQueue ht hq) (if_pos hmay)
  case notAhead =>
    intro t q' idx x d m q ht hq hmay
    show execPretranslateIssue t q' idx x _ = _
    exact State.runIf_next (Unit.tenantQueue ht hq) (if_neg (Bool.eq_false_iff.mp hmay))
  case invalidate =>
    intro fn itag pasid global base len d m q hfn
    show execAtsInvalidateRequest fn itag pasid global base len _ = _
    exact State.runIf_next (decide_eq_true hfn) rfl
  case invalDone =>
    intro d m q i hs hi
    exact execInvalidationComplete_running m q hs hi
  case invalStopped =>
    intro d m q hs
    show execInvalidationComplete _ = _
    exact State.run_next (if_pos (decide_eq_true hs))
  case response =>
    intro fn prgi code d m q hfn hs hi
    show execPrgResponse fn prgi code _ = _
    exact State.intake_next (decide_eq_true hfn) hs hi rfl
  case timeout =>
    intro fn prgi d m q x hfn hasked hlate
    show execPriTimeout fn prgi _ = _
    exact State.runIf_next (decide_eq_true hfn) (by simp only [hasked, hlate, if_true])
  case timeoutNone =>
    intro fn prgi d m q hfn hasked
    show execPriTimeout fn prgi _ = _
    exact State.runIf_next (decide_eq_true hfn) (by simp only [hasked])
  case priEnable =>
    intro fn d m q hl hp hf hfn _
    show execPriEnableWrite fn _ = _
    exact State.runIf_next (decide_eq_true hfn) (Dev.configReq_served _ hl hp hf)
  case krBase | krLim | krCtl | keydef =>
    intro t k val d m q hl hm ht hk
    exact exec_xltKeyrangeWrite_served m q ht hk hl hm
  case hmapBase =>
    intro k val d m q hl hm hk
    show execXltHmapWrite 0 k val _ = _
    exact State.runIf_mmio_served (decide_eq_true hk) hl hm rfl
  case hmapLim =>
    intro k val d m q hl hm hk
    show execXltHmapWrite 1 k val _ = _
    exact State.runIf_mmio_served (decide_eq_true hk) hl hm rfl
  case hmapCtl =>
    intro which k val d m q hl hm hwhich hk
    have hbase : which ≠ 0 := by omega
    have hlim : which ≠ 1 := by omega
    show execXltHmapWrite which k val _ = _
    exact State.runIf_mmio_served (decide_eq_true hk) hl hm ((if_neg hbase).trans (if_neg hlim))
  case invcnt =>
    intro d m q hl hm
    show execXltInvcntClr _ = _
    exact State.run_mmio_served _ hl hm
  case precnt =>
    intro d m q hl hm
    show execXltPrecntClr _ = _
    exact State.run_mmio_served _ hl hm
  case pricnt =>
    intro fn d m q hl hm hfn
    show execXltPricntClr fn _ = _
    exact State.runIf_mmio_served (decide_eq_true hfn) hl hm rfl
  case translates =>
    intro fn tag c d m q y a e hfn hs hi hfind hoff hstale hacc hfail hperm halign he
    show execAtsTranslationCompletion fn tag c _ = _
    exact State.intake_next (decide_eq_true hfn) hs hi (congrArg Dev.settle (Dev.atsDone_translates hfind hoff hstale hacc hfail hperm halign he))
  case granted =>
    intro fn prgi d m q y hfn hs hi hfind hop
    show execPrgResponse fn prgi 0 _ = _
    exact State.intake_next (decide_eq_true hfn) hs hi (congrArg Dev.settle (Dev.prgDone_success hfind hop))

end Sys2Proof.Machine

namespace Sys2Proof.Machine

/-! ## Remote memory (07 R281, R282; 09 R348, R359 to R377, R386 to R393) -/

/-- A stream of a tenant. -/
theorem Unit.tenantStream {t s : Nat} (ht : t < 16) (hs : s < 32) : (Unit.tenant t && Unit.stream s) = true := by
  simp [Unit.tenant, Unit.stream, ht, hs]

/-! ### Subscription messages (11 R453) -/

section
variable {i : Instr} {kind stream : Nat} {val : W64} {k : Pkt} {d : Dev} {m : Memory} {q : List Instr}

/-- A message that arrives at a device that runs, with nothing waiting before it, takes its effect. -/
theorem exec_subctl_running
    (hexec : exec i ⟨d, m, q⟩ = State.intake ⟨d, m, q⟩ true (.sub kind k stream val) fun d => (d.subctl kind k stream val).settle)
    (hs : d.dbg.st ≠ .stopped) (hi : d.dbg.ingress = []) : exec i ⟨d, m, q⟩ = .next ⟨(d.subctl kind k stream val).settle, m, q⟩ :=
  hexec.trans (State.intake_next rfl hs hi rfl)

/-- A message that the device takes has the effect of its kind: 1, 6 and 8 at the owner, every other at the subscriber. -/
theorem exec_subctl_taken {k' : Pkt} {x e : Dev}
    (hexec : exec i ⟨d, m, q⟩ = State.intake ⟨d, m, q⟩ true (.sub kind k stream val) fun d => (d.subctl kind k stream val).settle)
    (h : d.takesPacket .subctl k (.sub kind 0 stream val) k') (hx : d.wake.received .subctl k' = x)
    (he : (if kind = 1 || kind = 6 || kind = 8 then x.subOwner kind k' stream val else x.subReader kind k' stream val) = e) :
    exec i ⟨d, m, q⟩ = .next ⟨e.settle, m, q⟩ := by
  subst hx he
  have hserve := Dev.arrive_takes (fun d k =>
    if kind = 1 || kind = 6 || kind = 8 then d.subOwner kind k stream val else d.subReader kind k stream val) (by decide) h
  obtain ⟨hs, hi, -⟩ := h
  exact hexec.trans (State.intake_next rfl hs hi (congrArg Dev.settle hserve))

end

/-- The owner grants a subscription that it has no reason to refuse, in place of the subscriber's earlier one (R364, R365). -/
theorem Dev.subOwner_grants {x : Dev} {k : Pkt} {stream : Nat} {span : W64} {s : Sub} (hok : x.subRefused k stream span = none)
    (hsub : s = { node := k.src, ten := k.srcTen, stream, t := k.dstTen, lo := faOff k.addr, len := span.toNat, expiry := x.fab.time + 100000 }) :
    x.subOwner 1 k stream span =
      Dev.sendSub { x with rm.subs := (x.rm.subs.filter fun y =>
        !(decide (y.node = k.src) && decide (y.ten = k.srcTen) && decide (y.stream = stream) && decide (y.t = k.dstTen))) ++ [s] }
        s 2 0 (faOff k.addr) (BitVec.ofNat 64 s.expiry) := by
  subst hsub
  simp only [Dev.subOwner, hok, if_true]

/-- A subscriber that has dropped its lines is no longer waited for by the write it names (R375). -/
theorem Dev.subOwner_invack {x : Dev} {k : Pkt} {stream : Nat} {w : PendW} (val : W64)
    (hw : (x.rm.pend.find? fun w => w.subs.contains (k.src, k.srcTen, stream) && decide (faOff w.pkt.addr = faOff k.addr)) = some w) :
    x.subOwner 6 k stream val =
      Dev.ackWrites { x with rm.pend := x.rm.pend.map fun y => if y = w then { w with subs := without (k.src, k.srcTen, stream) w.subs } else y } := by
  unfold Dev.subOwner
  simp only [hw]
  rfl

/-- The guard of the subscriber's side: a declared stream hears the package that owns its memory (R365). -/
theorem Dev.hears_owner {x : Dev} {k : Pkt} {stream : Nat} (hst : (x.stream k.dstTen stream).st ≠ .absent)
    (hown : faNode (x.stream k.dstTen stream).base / 2 = k.src / 2) :
    ¬ ((x.stream k.dstTen stream).st = .absent || decide (faNode (x.stream k.dstTen stream).base / 2 ≠ k.src / 2)) = true := by
  simp [hst, hown]

/-! ### Streams, lines and their counters -/

/-- The guard of a prefetch: the device runs, the tenant is not in TR, the lease is live and the egress is the prefetch's (R367, R371). -/
theorem Dev.prefetch_passes {d : Dev} {t s : Nat} (hs : d.dbg.st ≠ .stopped) (hf : d.fenced t = false) (hlive : d.leaseLive (d.stream t s) = true)
    (hturn : d.prefetchTurn t s = true) : ¬ (d.stopped || d.fenced t || !d.leaseLive (d.stream t s) || !d.prefetchTurn t s) = true := by
  simp [Dev.stopped, hs, hf, hlive, hturn]

/-- A write to a stream's counter that the tenant's function or the PF serves is one to the stream alone (R393; 05 R176). -/
theorem exec_tenStreamCntClr_served {t s which : Nat} {d e : Dev} (m : Memory) (q : List Instr) (hl : d.linkUp = true)
    (hm : d.memReq (t + 1) = true ∨ d.memReq 0 = true) (ht : t < 16) (hs : s < 32)
    (he : (d.setStream t s fun x => if which = 0 then { x with hit := 0 } else if which = 1 then { x with miss := 0 } else { x with disc := 0 }) = e) :
    exec (.tenStreamCntClr t s which) ⟨d, m, q⟩ = .next ⟨e, m, q⟩ := by
  show execTenStreamCntClr t s which _ = _
  exact State.runIf_next (Unit.tenantStream ht hs) ((Dev.mmioTen_served _ hl hm).trans he)

/-- Settles O27, command by command: the hypotheses of each clause select one branch of the command's meaning. -/
theorem remoteMemoryCommands : Obligations.RemoteMemoryCommands := by
  unfold Obligations.RemoteMemoryCommands
  refine ⟨?flush, ?ownerAck, ?ownerAckNone, ?subscribe, ?grant, ?refuse, ?renew, ?inval, ?invack, ?lost, ?unsub, ?renewTimer, ?expiry, ?retry, ?prefetch,
    ?fill, ?fillDoomed, ?holdEnd, ?clearHit, ?clearMiss, ?clearDisc, ?flushWrites, ?subscribeGranted, ?granted, ?refused, ?renewed, ?invalidated,
    ?invacked, ?broken, ?unsubscribed⟩
  case flush | flushWrites =>
    intro path d m q hs hi
    show execTargetWriteAck path _ = _
    exact State.intake_next rfl hs hi rfl
  case ownerAck =>
    intro src gq serial d m q w hw hflushed hsubs
    have hready : (w.flushed && (w.subs.isEmpty || decide (w.expiry ≤ d.fab.time))) = true := by simpa [hflushed] using hsubs
    show execOwnerWriteAck src gq serial _ = _
    exact State.run_next (by simp only [hw, hready, if_true])
  case ownerAckNone =>
    intro src gq serial d m q hw
    show execOwnerWriteAck src gq serial _ = _
    exact State.run_next (by simp only [hw])
  case subscribe | grant | refuse | renew | inval =>
    intro k stream val d m q hs hi
    exact exec_subctl_running rfl hs hi
  case invack | lost | unsub =>
    intro k stream d m q hs hi
    exact exec_subctl_running rfl hs hi
  case renewTimer =>
    intro d m q hs
    show execLeaseRenewTimer _ = _
    exact State.run_next (if_neg (Dev.not_stopped_of_ne hs))
  case expiry =>
    intro t s d m q ht hs hrun hst hlive
    have hexpired : (!d.stopped && decide ((d.stream t s).st = .granted) && !d.leaseLive (d.stream t s)) = true := by
      simp [Dev.stopped, hrun, hst, hlive]
    show execLeaseExpiry t s _ = _
    exact State.runIf_next (Unit.tenantStream ht hs) (if_pos hexpired)
  case retry =>
    intro d m q hs
    show execSubscribeRetry _ = _
    exact State.run_next (if_neg (Dev.not_stopped_of_ne hs))
  case prefetch =>
    intro t s d m q n ht hs hrun hf hlive hturn hnext hunit
    show execPrefetchIssue t s _ = _
    refine State.runIf_next (Unit.tenantStream ht hs) ((if_neg (Dev.prefetch_passes hrun hf hlive hturn)).trans ?_)
    simp only [hnext, hunit, if_true]
  case fill =>
    intro t s line d m q l ht hs hl hdata hst hlive
    show execLineFillDone t s line _ = _
    refine State.runIf_next (Unit.tenantStream ht hs) ?_
    simp [hl, hdata, hst, hlive]
  case fillDoomed =>
    intro t s line d m q l ht hs hl hdata hst
    show execLineFillDone t s line _ = _
    refine State.runIf_next (Unit.tenantStream ht hs) ?_
    simp [hl, hdata, hst]
  case holdEnd =>
    intro t d m q ht hs hover
    show execTakeoverWriteHoldEnd t _ = _
    refine State.runIf_next (decide_eq_true ht) (if_neg ?_)
    simpa [Dev.stopped, hs] using hover
  case clearHit | clearMiss =>
    intro t s d m q hl hm ht hs
    exact exec_tenStreamCntClr_served m q hl hm ht hs rfl
  case clearDisc =>
    intro t s which d m q hl hm ht hs hwhich
    have hhit : which ≠ 0 := by omega
    have hmiss : which ≠ 1 := by omega
    exact exec_tenStreamCntClr_served m q hl hm ht hs (by simp only [hhit, hmiss, if_false])
  case subscribeGranted =>
    intro k k' stream span d m q x s h hx hok hsub
    exact exec_subctl_taken rfl h hx (Dev.subOwner_grants hok hsub)
  case granted | refused | renewed =>
    intro k k' stream val d m q x h hx hst hown
    exact exec_subctl_taken rfl h hx ((if_neg (Dev.hears_owner (by simp [hst]) hown)).trans (if_pos hst))
  case invalidated =>
    intro k k' stream span d m q x y h hx hst hown hy
    subst hy
    exact exec_subctl_taken rfl h hx (if_neg (Dev.hears_owner hst hown))
  case invacked =>
    intro k k' stream d m q x w h hx hw
    exact exec_subctl_taken rfl h hx (Dev.subOwner_invack 0 hw)
  case broken =>
    intro k k' stream d m q x h hx hst hown
    exact exec_subctl_taken rfl h hx ((if_neg (Dev.hears_owner (by simp [hst]) hown)).trans (if_pos hst))
  case unsubscribed =>
    intro k k' stream d m q x h hx
    exact exec_subctl_taken rfl h hx rfl

end Sys2Proof.Machine

namespace Sys2Proof.Machine

/-! ## Collectives (10 R404 to R424, R433 to R442; 11 R454) -/

/-- A group of a tenant. -/
theorem Unit.tenantGroup {t g : Nat} (ht : t < 16) (hg : g < 256) : (Unit.tenant t && Unit.collGroup g) = true := by
  simp [Unit.tenant, Unit.collGroup, ht, hg]

/-! ### Messages -/

section
variable {i : Instr} {kind : Nat} {c : CollMsg} {f : FinalInfo} {d : Dev} {m : Memory} {q : List Instr}

/-- A collective message that arrives at a device that runs, with nothing waiting before it, takes its effect. -/
theorem exec_coll_running (hexec : exec i ⟨d, m, q⟩ = State.intake ⟨d, m, q⟩ true (.coll kind c f) fun d => (d.collIn kind c f).settle)
    (hs : d.dbg.st ≠ .stopped) (hi : d.dbg.ingress = []) : exec i ⟨d, m, q⟩ = .next ⟨(d.collIn kind c f).settle, m, q⟩ :=
  hexec.trans (State.intake_next rfl hs hi rfl)

/-- A collective message that the device takes, neither a refusal nor from the failed partner, has the effect of its kind on the device that has
counted it. -/
theorem exec_coll_taken {c' : CollMsg} {f' : FinalInfo} {x e : Dev}
    (hexec : exec i ⟨d, m, q⟩ = State.intake ⟨d, m, q⟩ true (.coll kind c f) fun d => (d.collIn kind c f).settle)
    (h : d.takesColl kind c f c' f') (hr : kind = 5 → f'.refusal = false) (hp : kind = 4 → c'.toNode = none)
    (hx : (d.notifyMark .coll (d.collHeader kind c)).collCounted kind c' = x) (he : x.collTake kind c' f' = e) :
    exec i ⟨d, m, q⟩ = .next ⟨e.settle, m, q⟩ := by
  subst hx he
  have htake := Dev.collIn_takes h hr hp
  obtain ⟨hs, hi, -⟩ := h
  exact hexec.trans (State.intake_next rfl hs hi (congrArg Dev.settle htake))

end

/-- CLOSE at an interior member closes an instance that has not ended and is not closed yet (R418). -/
theorem Dev.collClosed_open {x y : Dev} {c : CollMsg} {i : Inst} (hnew : (x.group c.tenant c.group).finalised < c.inst)
    (hself : x.self c.tenant c.group ≠ 0) (hopen : x.openInst c.tenant c.group c.inst = (y, i)) (hclosed : i.closed = false) :
    x.collClosed c = y.closeDown i := by
  simp [Dev.collClosed, Nat.not_le.mpr hnew, hself, hopen, hclosed]

/-- The first CLOSE_ACK of a child of a closed instance is recorded with the members it admits (R418, R420). -/
theorem Dev.collAcked_first {x : Dev} {c : CollMsg} {i : Inst} (hinst : x.instAt c.tenant c.group c.inst = some i) (hclosed : i.closed = true)
    (hfirst : (i.acks.any fun a => decide (a.1 = c.member)) = false)
    (hchild : (closers (x.group c.tenant c.group).total (x.self c.tenant c.group)).contains c.member = true) :
    x.collAcked c = (x.setInst { i with acks := i.acks ++ [(c.member, c.admitted)] }).checkInst c.tenant c.group c.inst := by
  simp only [Dev.collAcked, hinst, hclosed, hfirst, hchild, Bool.not_true, Bool.or_self, Bool.false_eq_true, if_false]

/-- LEAVE at the root of an instance that has not ended (R439). -/
theorem Dev.collLeft_open {x y : Dev} {c : CollMsg} {i : Inst} (status : Nat) (hnew : (x.group c.tenant c.group).finalised < c.inst)
    (hself : x.self c.tenant c.group = 0) (hopen : x.openInst c.tenant c.group c.inst = (y, i)) :
    x.collLeft c status = (y.rootLeave i c.member (Status.ofCode status)).checkInst c.tenant c.group c.inst := by
  simp [Dev.collLeft, Nat.not_le.mpr hnew, hself, hopen]

/-- The root holds the first chunk a member carries, where the tenant has a scratch unit for it (R424). -/
theorem Dev.collCarried_first {x : Dev} {c : CollMsg} (hself : x.self c.tenant c.group = 0)
    (hnone : (x.col.carries.find? fun y => decide (y.t = c.tenant) && decide (y.g = c.group) && decide (y.member = c.member)) = none)
    (hunit : x.grantable 1 c.tenant 1 = true) :
    x.collCarried c =
      Dev.take { x with col.carries := x.col.carries ++
        [{ t := c.tenant, g := c.group, member := c.member, shape := c.shape, chunks := [(c.chunk, c.elems)], inst := c.inst }] } 1 c.tenant 1 := by
  simp only [Dev.collCarried, hself, hnone, hunit, ne_eq, not_true, if_false, if_true]

/-! ### Timers -/

/-- The guard of a deadline: the root, an instance still open, and a deadline that is set and has passed (R416). -/
theorem Dev.deadline_passed {d : Dev} {t g : Nat} {x : Inst} (hself : d.self t g = 0) (hopen : x.closed = false) (hset : (collP x.desc).deadline ≠ 0)
    (hpast : x.started + 1000 * (collP x.desc).deadline ≤ d.now) :
    (decide (d.self t g ≠ 0) || x.closed || decide ((collP x.desc).deadline = 0) || decide (d.now < x.started + 1000 * (collP x.desc).deadline)) = false := by
  simp [hself, hopen, hset, hpast]

/-- A closed instance whose grace has run out with children late ends for them as what they have had folded decides (R418). -/
theorem exec_collGraceTimeout_over {t g k : Nat} {d : Dev} (m : Memory) (q : List Instr) {x : Inst} (ht : t < 16) (hg : g < 256)
    (hx : d.timedInst t g k = some x) (hclosed : x.closed = true) (hlate : d.lateChildren t g x ≠ []) (hover : d.graceOver x = true) :
    exec (.collGraceTimeout t g k) ⟨d, m, q⟩ =
      .next ⟨if d.lateFolded t g x then (d.leaveInst t g x).settle else (d.missLate t g k x).settle, m, q⟩ := by
  have hdue : (!x.closed || (d.lateChildren t g x).isEmpty || !d.graceOver x) = false := by simp [hclosed, hlate, hover]
  show execCollGraceTimeout t g k _ = _
  exact State.runIf_next (Unit.tenantGroup ht hg) (by simp only [hx, hdue, Bool.false_eq_true, if_false])

/-! ### Folds -/

/-- What an engine does with the input it folds next: it folds into a chunk that has a value, and asks a scratch unit for one that has none (R433;
07 R257). -/
theorem exec_reduceFoldStep_next {e : Nat} {d : Dev} (m : Memory) (q : List Instr) {x : Inst} {f : FoldIn} (he : e < 4)
    (hnext : d.foldNext e = some (x, f)) :
    exec (.reduceFoldStep e) ⟨d, m, q⟩ =
      .next ⟨if (Tab.look ({} : Chunk) f.chunk x.chunks).acc.isSome then (d.foldIn x f).settle
        else if (d.claim 1 x.t 1).2 then ((d.claim 1 x.t 1).1.foldIn x f).settle else (d.claim 1 x.t 1).1, m, q⟩ := by
  show execReduceFoldStep e _ = _
  refine State.runIf_next (decide_eq_true he) ?_
  simp only [hnext]
  obtain ⟨y, granted⟩ := d.claim 1 x.t 1
  cases granted <;> rfl

/-- Settles O29, command by command: the hypotheses of each clause select one branch of the command's meaning. -/
theorem collectiveCommands : Obligations.CollectiveCommands := by
  unfold Obligations.CollectiveCommands
  refine ⟨?contrib, ?contribStopped, ?partialSum, ?close, ?closeAck, ?final, ?leave, ?carry, ?deadline, ?deadlineNone, ?graceFolded, ?graceMissing,
    ?drop, ?fold, ?foldUnit, ?foldWaits, ?foldNone, ?clear, ?contribTaken, ?partialTaken, ?closeTaken, ?closeAckTaken, ?finalHead, ?finalChunk,
    ?leaveTaken, ?carryTaken⟩
  case contrib | partialSum | close | closeAck | carry =>
    intro c d m q hs hi
    exact exec_coll_running rfl hs hi
  case contribStopped =>
    intro c d m q hs
    show execCollContrib c _ = _
    exact State.admit_stopped _ _ _ _ rfl hs
  case final | leave =>
    intro c f d m q hs hi
    exact exec_coll_running rfl hs hi
  case deadline =>
    intro t g k d m q x ht hg hx hself hopen hset hpast
    show execCollDeadline t g k _ = _
    exact State.runIf_next (Unit.tenantGroup ht hg) (by simp only [hx, Dev.deadline_passed hself hopen hset hpast, Bool.false_eq_true, if_false])
  case deadlineNone =>
    intro t g k d m q ht hg hx
    show execCollDeadline t g k _ = _
    exact State.runIf_next (Unit.tenantGroup ht hg) (by simp only [hx])
  case graceFolded =>
    intro t g k d m q x ht hg hx hclosed hlate hfolded hover
    rw [exec_collGraceTimeout_over m q ht hg hx hclosed hlate hover, if_pos hfolded]
  case graceMissing =>
    intro t g k d m q x ht hg hx hclosed hlate hfolded hover
    rw [exec_collGraceTimeout_over m q ht hg hx hclosed hlate hover, if_neg (Bool.eq_false_iff.mp hfolded)]
  case drop =>
    intro t g d m q ht hg hs hdrop
    have hgo : ¬ (d.stopped || !(d.group t g).dropping) = true := by simp [Dev.stopped, hs, hdrop]
    show execCollDropTimeout t g _ = _
    exact State.runIf_next (Unit.tenantGroup ht hg) (if_neg hgo)
  case fold =>
    intro e d m q x f he hnext hacc
    rw [exec_reduceFoldStep_next m q he hnext, if_pos hacc]
  case foldUnit =>
    intro e d m q x f y he hnext hacc hclaim
    rw [exec_reduceFoldStep_next m q he hnext, if_neg (Bool.eq_false_iff.mp hacc), hclaim, if_pos rfl]
  case foldWaits =>
    intro e d m q x f y he hnext hacc hclaim
    rw [exec_reduceFoldStep_next m q he hnext, if_neg (Bool.eq_false_iff.mp hacc), hclaim, if_neg Bool.false_ne_true]
  case foldNone =>
    intro e d m q he hnext
    show execReduceFoldStep e _ = _
    exact State.runIf_next (decide_eq_true he) (by simp only [hnext])
  case clear =>
    intro d m q hl hm
    show execColCntClr _ = _
    exact State.run_mmio_served _ hl hm
  case contribTaken | partialTaken =>
    intro c c' f' d m q x h hx _ _ _
    exact exec_coll_taken rfl h nofun nofun hx rfl
  case closeTaken =>
    intro c c' f' d m q x y i h hx hnew hself hopen hclosed
    exact exec_coll_taken rfl h nofun nofun hx (Dev.collClosed_open hnew hself hopen hclosed)
  case closeAckTaken =>
    intro c c' f' d m q x i h hx hnode hinst hclosed hfirst hchild
    exact exec_coll_taken rfl h nofun (fun _ => hnode) hx (Dev.collAcked_first hinst hclosed hfirst hchild)
  case finalHead =>
    intro c f c' f' d m q x h hx hok hhead
    exact exec_coll_taken rfl h (fun _ => hok) nofun hx (if_pos hhead)
  case finalChunk =>
    intro c f c' f' d m q x h hx hok hchunk
    exact exec_coll_taken rfl h (fun _ => hok) nofun hx (if_neg hchunk)
  case leaveTaken =>
    intro c status c' f' d m q x y i h hx hnew hself hopen
    exact exec_coll_taken rfl h nofun nofun hx (Dev.collLeft_open f'.status hnew hself hopen)
  case carryTaken =>
    intro c c' f' d m q x h hx hself hnone hunit
    exact exec_coll_taken rfl h nofun nofun hx (Dev.collCarried_first hself hnone hunit)

end Sys2Proof.Machine

namespace Sys2Proof.Machine

/-! ## Fabric time and the tick (11 R488, R494)

That a tick is 250 ns is the model's own choice (log 2). Over a tick in which nothing that waited takes effect, `tick_clocks` leaves of the fabric
what `Fab.advance` makes of it, and that is told by three cases: time is held past the tick, a hold ends within it, or nothing holds time. -/

theorem Fab.advance_of_hold_later {x : Fab} {now h : Nat} (hto : x.holdTo = some h) (hlt : now < h) : x.advance now = x := by
  simp only [Fab.advance, hto, if_pos hlt]

theorem Fab.advance_of_hold_over {x : Fab} {now h : Nat} (hto : x.holdTo = some h) (hle : h ≤ now) :
    x.advance now = { x with holdTo := none, time := x.time + (now - h) } := by
  simp only [Fab.advance, hto, if_neg (Nat.not_lt.mpr hle)]

/-- The slew in a tick is 1 ns at most, in either direction (R494). -/
theorem Fab.advance_of_no_hold {x : Fab} (now : Nat) (hto : x.holdTo = none) :
    x.time + 249 ≤ (x.advance now).time ∧ (x.advance now).time ≤ x.time + 251 := by
  simp only [Fab.advance, hto, tickNs]
  split <;> omega

theorem Fab.time_le_advance (x : Fab) (now : Nat) : x.time ≤ (x.advance now).time := by
  cases hto : x.holdTo with
  | none => exact (Nat.le_add_right _ 249).trans (Fab.advance_of_no_hold now hto).1
  | some h =>
    rcases Nat.lt_or_ge now h with hlt | hle
    · rw [Fab.advance_of_hold_later hto hlt]
    · rw [Fab.advance_of_hold_over hto hle]
      exact Nat.le_add_right _ _

/-- Settles O59: fabric time after the tick is that of `Fab.advance`, of which the three cases are known. The 250 ns are the model's choice of a tick
(log 2). -/
theorem fabricTimeNeverDecreases : Obligations.FabricTimeNeverDecreases := by
  unfold Obligations.FabricTimeNeverDecreases
  intro d hi hdue hmirq
  obtain ⟨-, hfab⟩ := tick_clocks d hi hdue hmirq
  rw [hfab]
  refine ⟨Fab.time_le_advance _ _, Fab.advance_of_no_hold _, ?held, ?released⟩
  case held =>
    intro h hto hlt
    rw [Fab.advance_of_hold_later hto hlt]
  case released =>
    intro h hto hle
    rw [Fab.advance_of_hold_over hto hle]
    exact ⟨rfl, rfl⟩

/-- Settles O42: a step with an empty queue is a tick (log 2), which leaves the flash and the queue alone. -/
theorem emptyQueueLetsTimePass : Obligations.EmptyQueueLetsTimePass := by
  unfold Obligations.EmptyQueueLetsTimePass
  intro s hq hi hdue hmirq
  exact ⟨_, step_nil s hq, rfl, hq, tick_clocks s.dev hi hdue hmirq⟩

end Sys2Proof.Machine

namespace Sys2Proof.Machine

/-! ## Packets of the fabric (09 R347 to R357; 10 R426 to R428; 11 R452 to R480, R487) -/

section
variable {i : Instr} {d : Dev} {m : Memory} {q : List Instr} {l : Late}

/-- A packet that arrives at a device that runs, with nothing waiting before it, takes its effect. -/
theorem exec_packet_running {e : Dev} (f : Dev → Dev) (hexec : exec i ⟨d, m, q⟩ = State.intake ⟨d, m, q⟩ true l fun d => (f d).settle)
    (hs : d.dbg.st ≠ .stopped) (hi : d.dbg.ingress = []) (he : f d = e) : exec i ⟨d, m, q⟩ = .next ⟨e.settle, m, q⟩ :=
  hexec.trans (State.intake_next rfl hs hi (congrArg Dev.settle he))

/-- A packet that the device takes is served by the device that has counted it. -/
theorem exec_packet_taken {t : PType} {k k' : Pkt} {b : Body} {x e : Dev} (serve : Dev → Pkt → Dev)
    (hexec : exec i ⟨d, m, q⟩ = State.intake ⟨d, m, q⟩ true l fun d => (d.arrive t k b serve).settle) (ht : t ≠ .unknown)
    (h : d.takesPacket t k b k') (hx : d.wake.received t k' = x) (he : serve x k' = e) : exec i ⟨d, m, q⟩ = .next ⟨e.settle, m, q⟩ := by
  subst hx he
  have hserve := Dev.arrive_takes serve ht h
  obtain ⟨hs, hi, -⟩ := h
  exact exec_packet_running _ hexec hs hi hserve

end

/-- A packet for another node goes to the switch (R463). -/
theorem exec_packetForward_relayed {t : PType} {k : Pkt} {d e : Dev} (m : Memory) (q : List Instr) (hs : d.dbg.st ≠ .stopped) (hi : d.dbg.ingress = [])
    (hbad : k.bad = false) (hmine : d.isMine k = false) (he : d.relay t k .none = e) :
    exec (.packetForward t k) ⟨d, m, q⟩ = .next ⟨e.settle, m, q⟩ := by
  have hgood : ¬ k.bad = true := Bool.eq_false_iff.mp hbad
  have hother : ¬ d.isMine k = true := Bool.eq_false_iff.mp hmine
  show execPacketForward t k _ = _
  exact State.intake_next rfl hs hi (congrArg Dev.settle ((if_neg hgood).trans ((if_neg hother).trans he)))

/-- Cut-through: a packet without an undo record, below the hop limit, leaves before it has passed its check (R464, R473). -/
theorem Dev.relay_cutThrough {d x : Dev} {t : PType} {k : Pkt} {b : Body} (hundo : d.undoOf t k = none) (hpassed : k.passed = false)
    (hcut : d.fab.cfg.getLsbD 0 = true) (hhops : k.hops < d.maxHop) (hsent : d.forward t { k with hops := k.hops + 1 } b (escapeVc k.vc) = (x, .sent)) :
    d.relay t k b = x := by
  have hon : d.relayOn t { k with hops := k.hops + 1 } b = x := by
    rw [Dev.relayOn, hsent]
    exact if_neg (Bool.eq_false_iff.mp hpassed)
  simp only [Dev.relay, hundo, hcut, Bool.not_true, Bool.and_false, Bool.false_eq_true, if_false, if_neg (Nat.not_le.mpr hhops), hon]

/-- A request that the window admits runs on its host path where nothing holds it: no hold after a takeover (09 R391), no granule to mark
(18 R763), and, of an atomic, a known operation on an aligned word (09 R352). -/
theorem Dev.serveReq_admitted {x : Dev} {t : PType} {k : Pkt} (hwin : x.windowCheck k.dstTen (faOff k.addr) (reqLen t k) (rightsOf t) = none)
    (hfree : t ≠ .rd → Tab.look 0 k.dstTen x.rm.hold ≤ x.now ∧
      x.unmarked k.dstTen (some (x.ten k.dstTen).winPasid) (x.winIova k).toNat (reqLen t k) = [])
    (hatom : t = .atom ∨ t = .atomp → k.aux ≤ 9 ∧ k.addr.toNat % 8 = 0) : x.serveReq t k = x.serveHost t k [] := by
  have hheld : (decide (t ≠ .rd) && decide (x.now < Tab.look 0 k.dstTen x.rm.hold)) = false := by
    simpa using fun ht => (hfree ht).1
  have hop : ((decide (t = .atom) || decide (t = .atomp)) && (decide (9 < k.aux) || decide (k.addr.toNat % 8 ≠ 0))) = false := by
    simpa using hatom
  have hmarks : (if t = .rd then [] else x.unmarked k.dstTen (some (x.ten k.dstTen).winPasid) (x.winIova k).toNat (reqLen t k)) = [] := by
    split
    · rfl
    · next ht => exact (hfree ht).2
  simp only [Dev.serveReq, hheld, hwin, hop, hmarks, List.isEmpty_nil, Bool.not_true, Bool.false_and, Bool.false_eq_true, if_false]

/-- The response OK to an outstanding transaction for a segment of an operation delivers that segment (07 R288 is of one not outstanding). -/
theorem Dev.takeResponse_segment {x : Dev} {k : Pkt} {status idx off len : Nat} {y : Txn} (hecho : k.echo = false)
    (hy : (x.tq.txns.find? fun y => decide (y.gq = k.qglobal) && decide (y.serial = k.serial)) = some y) (hok : Status.ofCode status = .ok)
    (hfor : y.for_ = .op idx off len) : x.takeResponse k status = (x.retire y).segAnswer y idx off len k.data := by
  simp only [Dev.takeResponse, hecho, Bool.false_eq_true, if_false, hy, hok, ne_eq, not_true, hfor]

/-- A semaphore operation that its home admits and whose condition holds is answered with its value (10 R426 to R428). -/
theorem Dev.serveSem_answered {x y : Dev} {k : Pkt} {r : SemReq} {v : W64} (hf : x.fenced k.dstTen = false) (hsize : (x.ten k.dstTen).winSize ≠ 0)
    (hflag : (x.ten k.dstTen).winFlags / 4 % 2 = 1) (hown : x.semOwner (k.addr.toNat % 2 ^ 18) = k.dstTen + 1)
    (hop : (r.op = 0x30 ∧ r.aop ≤ 9) ∨ (r.op = 0x31 ∧ r.cond ≤ 3) ∨ r.op = 0x32) (hdo : x.semDo (k.addr.toNat % 2 ^ 18) r = (y, some v)) :
    x.serveSem k r = y.answer k .ok [v] 8 := by
  have hfields : ((decide (r.op = 0x30) && decide (9 < r.aop)) || (decide (r.op = 0x31) && decide (3 < r.cond)) ||
      !([0x30, 0x31, 0x32].contains r.op)) = false := by
    rcases hop with ⟨hop, hle⟩ | ⟨hop, hle⟩ | hop
    · simp [hop, hle]
    · simp [hop, hle]
    · simp [hop]
  simp only [Dev.serveSem, hf, hsize, hflag, hown, hfields, hdo, decide_false, Bool.or_self, Bool.false_eq_true, if_false, one_ne_zero, ne_eq, not_true]

/-- Settles O25, command by command: the hypotheses of each clause select one branch of the packet's meaning. -/
theorem fabricPacketCommands : Obligations.FabricPacketCommands := by
  unfold Obligations.FabricPacketCommands
  refine ⟨?relayed, ?malformed, ?forwardStopped, ?read, ?readStopped, ?write, ?writePosted, ?atomic, ?atomicPosted, ?response, ?semaphore, ?steer,
    ?cnp, ?cutThrough, ?readTaken, ?writeTaken, ?writePostedTaken, ?atomicTaken, ?atomicPostedTaken, ?responseTaken, ?semaphoreTaken, ?steerTaken,
    ?cnpTaken⟩
  case relayed =>
    intro t k d m q hs hi hbad hmine
    exact exec_packetForward_relayed m q hs hi hbad hmine rfl
  case malformed =>
    intro t k d m q hs hi hbad
    show execPacketForward t k _ = _
    exact State.intake_next rfl hs hi (congrArg Dev.settle (if_pos hbad))
  case forwardStopped =>
    intro t k d m q hs
    show execPacketForward t k _ = _
    exact State.admit_stopped _ _ _ _ rfl hs
  case readStopped =>
    intro k d m q hs
    show execPktRd k _ = _
    exact State.admit_stopped _ _ _ _ rfl hs
  case read | write | writePosted | atomic | atomicPosted =>
    intro k d m q hs hi
    exact exec_packet_running (·.request _ k) rfl hs hi rfl
  case response =>
    intro k status d m q hs hi
    exact exec_packet_running (·.response k status) rfl hs hi rfl
  case semaphore =>
    intro k r d m q hs hi
    exact exec_packet_running (·.semPacket k r) rfl hs hi rfl
  case steer =>
    intro k tenant side d m q hs hi
    exact exec_packet_running (·.steer k tenant side) rfl hs hi rfl
  case cnp =>
    intro k gq d m q hs hi
    exact exec_packet_running (·.cnp k gq) rfl hs hi rfl
  case cutThrough =>
    intro t k d m q x hs hi hbad hmine hundo hpassed hcut hhops hsent
    exact exec_packetForward_relayed m q hs hi hbad hmine (Dev.relay_cutThrough hundo hpassed hcut hhops hsent)
  case readTaken =>
    intro k k' d m q x h hx hwin
    exact exec_packet_taken (fun d k => d.serveReq .rd k) rfl nofun h hx (Dev.serveReq_admitted hwin (absurd rfl) nofun)
  case writeTaken | writePostedTaken =>
    intro k k' d m q x h hx hwin hhold hmarks
    exact exec_packet_taken (fun d k => d.serveReq _ k) rfl nofun h hx (Dev.serveReq_admitted hwin (fun _ => ⟨hhold, hmarks⟩) nofun)
  case atomicTaken | atomicPostedTaken =>
    intro k k' d m q x h hx hwin hhold hmarks haux halign
    exact exec_packet_taken (fun d k => d.serveReq _ k) rfl nofun h hx
      (Dev.serveReq_admitted hwin (fun _ => ⟨hhold, hmarks⟩) fun _ => ⟨haux, halign⟩)
  case responseTaken =>
    intro k k' status d m q x y idx off len h hx hnode hecho hy hok hfor
    have ht : (if k.data.isEmpty then PType.rsp else PType.rspd) ≠ .unknown := by split <;> nofun
    refine exec_packet_taken (fun d k =>
      if d.twn.failedNode = some k.dst then { d with twn.stale := satAdd 0xFFFF d.twn.stale } else (d.takeResponse k status).retryPieces) rfl ht h hx ?_
    exact (if_neg hnode).trans (congrArg Dev.retryPieces (Dev.takeResponse_segment hecho hy hok hfor))
  case semaphoreTaken =>
    intro k k' r d m q x y v h hx hf hsize hflag hown hop hdo
    exact exec_packet_taken (fun d k => d.serveSem k r) rfl nofun h hx (Dev.serveSem_answered hf hsize hflag hown hop hdo)
  case steerTaken =>
    intro k k' tenant side d m q x h hx
    exact exec_packet_taken (fun d _ => { d with fab.side := Tab.put false (16 * (k.src / 2) + tenant % 16) side d.fab.side }) rfl nofun h hx rfl
  case cnpTaken =>
    intro k k' gq d m q x h hx
    exact exec_packet_taken (fun d _ => d.congest gq k.src) rfl nofun h hx rfl

end Sys2Proof.Machine

namespace Sys2Proof.Machine

/-! ## Neighbours, waiting packets, sending limits and fabric time (03 R101; 11 R448 to R450, R457, R466, R470, R487 to R502) -/

/-- Settles O26, command by command: the hypotheses of each clause select one branch of the command's meaning. -/
theorem fabricTimeAndTopologyCommands : Obligations.FabricTimeAndTopologyCommands := by
  unfold Obligations.FabricTimeAndTopologyCommands
  refine ⟨?helloSend, ?neighbourLost, ?hello, ?helloInactive, ?escapeSent, ?escapeNoRoute, ?escapeWaits, ?escapeNone, ?recovery, ?exchange,
    ?exchangeNone, ?timeAsked, ?timeAnswered, ?lockLost, ?ready, ?notReady, ?timeRead, ?clearRetracts, ?clearErrors⟩
  case helloSend =>
    intro d m q
    show execHelloSend _ = _
    exact State.run_next rfl
  case neighbourLost =>
    intro p d m q hp hsilent
    show execNeighbourTimeout p _ = _
    exact State.runIf_next (decide_eq_true hp) (if_pos hsilent)
  case hello =>
    intro p h d m q hp hst
    show execPktHello p h _ = _
    exact State.runIf_next (decide_eq_true hp) (if_neg (not_not_intro hst))
  case helloInactive =>
    intro p h d m q hp hst
    show execPktHello p h _ = _
    exact State.runIf_next (decide_eq_true hp) (if_pos hst)
  case escapeSent | escapeNoRoute | escapeWaits =>
    intro n d m q x hx hway
    show execEscapeTimeout n _ = _
    refine State.run_next ?_
    simp only [hx]
    revert hway
    obtain ⟨e, way⟩ := d.forward x.t x.pkt x.body true
    rintro rfl
    rfl
  case escapeNone =>
    intro n d m q hx
    show execEscapeTimeout n _ = _
    exact State.run_next (by simp only [hx])
  case recovery =>
    intro d m q
    show execCongestionRecovery _ = _
    exact State.run_next rfl
  case exchange =>
    intro d m q p hp
    show execTsyncExchange _ = _
    exact State.run_next (by simp only [hp])
  case exchangeNone =>
    intro d m q hp
    show execTsyncExchange _ = _
    exact State.run_next (by simp only [hp])
  case timeAsked =>
    intro p t1 d m q hp
    show execPktTsync p t1 none _ = _
    exact State.runIf_next (decide_eq_true hp) rfl
  case timeAnswered =>
    intro p t1 d m q t2 t3 hp hparent ht1
    show execPktTsync p t1 (some (t2, t3)) _ = _
    exact State.runIf_next (decide_eq_true hp) (if_pos (by simp [hparent, ht1]))
  case lockLost =>
    intro d m q hlost
    show execTimeLockLoss _ = _
    exact State.run_next (if_pos hlost)
  case ready =>
    intro d m q hmay
    show execFabricReadyEntry _ = _
    exact State.run_next (if_pos hmay)
  case notReady =>
    intro d m q hmay
    show execFabricReadyEntry _ = _
    exact State.run_next (if_neg (Bool.eq_false_iff.mp hmay))
  case timeRead =>
    intro d m q hl hm
    show execFabTimeLoRead _ = _
    exact State.run_mmio_served _ hl hm
  case clearRetracts =>
    intro d m q hl hm
    show execFabCntClr 0 _ = _
    exact State.run_mmio_served _ hl hm
  case clearErrors =>
    intro which d m q hl hm hwhich
    show execFabCntClr which _ = _
    exact State.run_next ((Dev.mmio_served _ hl hm).trans (if_neg hwhich))

end Sys2Proof.Machine

namespace Sys2Proof.Machine

/-! ## The front of the queue, and the throttle level in force (16 R669) -/

/-- Settles O41, by the model's own equation of a step with a command at the front. -/
theorem stepTakesTheFrontCommand : Obligations.StepTakesTheFrontCommand := by
  unfold Obligations.StepTakesTheFrontCommand
  exact step_cons

/-- A trace record is a matter of the trace buffer alone. -/
@[simp] theorem Dev.thm_trace (d : Dev) (event tenant unit qglobal status : Nat) (ident : Option Telem) (arg : Nat) :
    (d.trace event tenant unit qglobal status ident arg).thm = d.thm := by
  unfold Dev.trace Dev.record
  repeat' split
  all_goals rfl

/-- A level that differs from the one in force is put in force, and the record of the change leaves it alone. -/
theorem Dev.level_putInForce (d : Dev) (l : Nat) :
    (if l = d.thm.level then d else ({ d with thm.level := l }).trace 0x0C 0xFF 0 0xFFFF 0 none l).thm.level = l := by
  split
  · next h => exact h.symm
  · rw [Dev.thm_trace]

/-- Settles O56: the level worked out is the one put in force. -/
theorem throttleLevelInForce : Obligations.ThrottleLevelInForce := by
  unfold Obligations.ThrottleLevelInForce
  intro d
  exact Dev.level_putInForce d _

/-! ## Optical ports: flits, retry and rekeying (12 R504 to R546) -/

/-- An update of a port is known by what it makes of that port. -/
theorem Dev.setLport_congr {d : Dev} {p : Nat} {f g : LPort → LPort} (h : f (d.lport p) = g (d.lport p)) : d.setLport p f = d.setLport p g := by
  unfold Dev.setLport Tab.upd
  exact congrArg (fun l => { d with lnk.ports := Tab.put {} p l d.lnk.ports }) h

/-- A flit in the clear that passed FEC and CRC, before the direction is encrypted: none of the checks of a counter or a key applies. -/
theorem Dev.linkFlit_plain {d : Dev} {p : Nat} {f : LinkFlit} (hfec : f.fecOk = true) (htag : f.tagOk = true) (henc : f.enc = false)
    (hrx : (d.lport p).encRx = false) (hlow : 1 ≤ f.ftype) (hhigh : f.ftype ≤ 2) :
    d.linkFlit p f = (Dev.countFec (d.setLport p fun l => { l with lslotRx := (l.lslotRx + 1) % 2 ^ 48 }) p f.corrected).goodFlit p f false := by
  have hset : (d.setLport p fun l => { l with lslotRx := (l.lslotRx + 1) % 2 ^ 48, rxc := if l.encRx || f.enc then l.rxc + 1 else l.rxc }) =
      d.setLport p fun l => { l with lslotRx := (l.lslotRx + 1) % 2 ^ 48 } :=
    Dev.setLport_congr (by simp [hrx, henc])
  have htype : ¬ (2 < f.ftype ∨ f.ftype = 0) := by omega
  rw [Dev.linkFlit, hset]
  simp [hfec, htag, henc, hrx, htype]

/-- An encrypted flit with the counter and the key expected, whose tag holds. -/
theorem Dev.linkFlit_encrypted {d x : Dev} {p : Nat} {f : LinkFlit} (hfec : f.fecOk = true) (htag : f.tagOk = true) (henc : f.enc = true)
    (htxc : f.txc8 = (d.lport p).rxc % 256) (hkgen : f.kgen = (d.lport p).kgenRx) (hhigh : f.ftype ≤ 2)
    (hx : Dev.countFec (d.setLport p fun l => { l with lslotRx := (l.lslotRx + 1) % 2 ^ 48, rxc := l.rxc + 1 }) p f.corrected = x)
    (hkeys : (Tab.look {} p x.sec.keyx).installed = true) : d.linkFlit p f = x.goodFlit p f false := by
  have hset : (d.setLport p fun l => { l with lslotRx := (l.lslotRx + 1) % 2 ^ 48, rxc := if l.encRx || f.enc then l.rxc + 1 else l.rxc }) =
      d.setLport p fun l => { l with lslotRx := (l.lslotRx + 1) % 2 ^ 48, rxc := l.rxc + 1 } :=
    Dev.setLport_congr (by simp [henc])
  rw [Dev.linkFlit, hset]
  dsimp only
  rw [hx]
  generalize Tab.look {} p x.sec.keyx = k at hkeys ⊢
  simp [hfec, htag, henc, htxc, hkgen, hkeys, Nat.not_lt.mpr hhigh]

/-- A flit on a port in KEYING or ACTIVE is taken. -/
theorem exec_linkFlitRx_taken {p : Nat} {f : LinkFlit} {d e : Dev} (m : Memory) (q : List Instr) (hp : p < 65)
    (hst : (d.lport p).st = .keying ∨ (d.lport p).st = .active) (he : d.linkFlit p f = e) :
    exec (.linkFlitRx p f) ⟨d, m, q⟩ = .next ⟨e.settle, m, q⟩ := by
  have htaken : ¬ ((decide ((d.lport p).st ≠ .keying) && decide ((d.lport p).st ≠ .active)) = true) := by
    rcases hst with h | h <;> simp [h]
  show execLinkFlitRx p f _ = _
  exact State.runIf_next (decide_eq_true hp) ((if_neg htaken).trans (congrArg Dev.settle he))

/-- A skip slot of an active port is compared with the map. -/
theorem exec_skipSlotRx_active {p miss : Nat} {lanes : List (Nat × Nat)} {d x : Dev} (m : Memory) (q : List Instr) (hp : p < 65)
    (hst : (d.lport p).st = .active) (hmiss : (d.lport p).skipRun lanes.length = miss) (hx : (d.setLport p fun l => { l with skipMiss := miss }) = x) :
    exec (.skipSlotRx p lanes) ⟨d, m, q⟩ =
      .next ⟨Dev.settle (if 2 ≤ miss then (x.post Src.lnkAlign p).linkReset p
        else if !(x.wrongLanes p lanes).isEmpty then x.mapFault p (x.wrongLanes p lanes)
        else match x.foundBreak p lanes with | some (k, lane) => x.takeBreak p k lane | none => x), m, q⟩ := by
  subst hmiss hx
  show execSkipSlotRx p lanes _ = _
  exact State.runIf_next (decide_eq_true hp) (if_neg (by simp [hst]))

/-- Settles O14, command by command: the hypotheses of each clause select one branch of the command's meaning. -/
theorem linkReceptionCommands : Obligations.LinkReceptionCommands := by
  unfold Obligations.LinkReceptionCommands
  refine ⟨?active, ?keying, ?skipMissed, ?skipGood, ?ackTimeout, ?budget, ?reset, ?retractStale, ?retract, ?rekeyKeying, ?rekeyActive, ?threshold,
    ?overdue, ?retryClr, ?errClr, ?feccorClr, ?plain, ?encrypted⟩
  case active =>
    intro p f d m q hp hst
    exact exec_linkFlitRx_taken m q hp (.inr hst) rfl
  case keying =>
    intro p f d m q hp hst
    exact exec_linkFlitRx_taken m q hp (.inl hst) rfl
  case skipMissed =>
    intro p lanes d m q hp hst hmiss
    rw [exec_skipSlotRx_active m q hp hst rfl rfl, if_pos hmiss]
  case skipGood =>
    intro p lanes d m q x hp hst hmiss hx hlanes hbreak
    rw [exec_skipSlotRx_active m q hp hst rfl hx, if_neg (Nat.not_le.mpr hmiss), if_neg (by simp [hlanes]), hbreak]
  case ackTimeout =>
    intro p d m q hp hlate
    show execLinkAckTimeout p _ = _
    exact State.runIf_next (decide_eq_true hp) (if_pos hlate)
  case budget =>
    intro p d m q hp _ hspent
    show execRetryBudgetExpiry p _ = _
    exact State.runIf_next (decide_eq_true hp) (if_pos hspent)
  case reset =>
    intro p d m q hp
    show execLinkResetEvent p _ = _
    exact State.runIf_next (decide_eq_true hp) rfl
  case retractStale =>
    intro p vc seq d m q hp hparts hundo
    show execLmgtRetract p vc seq _ = _
    exact State.runIf_next (decide_eq_true hp) (if_neg (by simp only [hparts, hundo, Bool.or_self, Bool.false_eq_true, not_false_eq_true]))
  case retract =>
    intro p vc seq d m q hp hparts
    show execLmgtRetract p vc seq _ = _
    exact State.runIf_next (decide_eq_true hp) (if_pos (by rw [hparts, Bool.true_or]))
  case rekeyKeying =>
    intro p d m q hp hst hrx
    show execLmgtRekeyReady p false _ = _
    refine State.runIf_next (decide_eq_true hp) ((if_pos hst).trans (congrArg Dev.settle (if_neg ?_)))
    simp [hrx]
  case rekeyActive =>
    intro p par d m q hp hst hrekeying hpar
    have hkeying : ¬ (d.lport p).st = .keying := by simp [hst]
    show execLmgtRekeyReady p par _ = _
    exact State.runIf_next (decide_eq_true hp) ((if_neg hkeying).trans (if_pos (by simp [hst, hrekeying, hpar])))
  case threshold =>
    intro p d m q hp hcount
    show execRekeyThreshold p _ = _
    exact State.runIf_next (decide_eq_true hp) (if_pos hcount)
  case overdue =>
    intro p d m q hp hactive hrekeying hcount
    show execRekeyOverdue p _ = _
    exact State.runIf_next (decide_eq_true hp) (if_pos (by simp [hactive, hrekeying, hcount]))
  case retryClr =>
    intro p d m q hl hm hp
    show execLnkRetryClr p _ = _
    exact State.runIf_mmio_served (decide_eq_true hp) hl hm rfl
  case errClr =>
    intro p d m q hl hm hp
    show execLnkErrClr p _ = _
    exact State.runIf_mmio_served (decide_eq_true hp) hl hm rfl
  case feccorClr =>
    intro p d m q hl hm hp
    show execLnkFeccorClr p _ = _
    exact State.runIf_mmio_served (decide_eq_true hp) hl hm rfl
  case plain =>
    intro p f d m q hp hst hfec htag henc hrx hlow hhigh
    exact exec_linkFlitRx_taken m q hp (.inr hst) (Dev.linkFlit_plain hfec htag henc hrx hlow hhigh)
  case encrypted =>
    intro p f d m q hp hst hfec htag henc _ htxc hkgen hhigh hkeys
    exact exec_linkFlitRx_taken m q hp (.inr hst) (Dev.linkFlit_encrypted hfec htag henc htxc hkgen hhigh rfl hkeys)

/-! ## Training of an optical port (12 R519 to R522, R541; 18 R751) -/

/-- A TS1 that came whole begins a newer round, or is out of place (R522, R541). -/
theorem exec_ts1Rx_accepted {p : Nat} {w : TrainWord} {d : Dev} (m : Memory) (q : List Instr) (hp : p < 65) (hok : TrainOk w = true) :
    exec (.ts1Rx p w) ⟨d, m, q⟩ =
      .next ⟨if decide ((d.lport p).round < w.round) && (decide ((d.lport p).st = .light) || decide ((d.lport p).st = .ident) ||
          decide ((d.lport p).st = .report) || decide ((d.lport p).st = .ready)) then (d.toIdent p w).sendTs1 p
        else (d.strayWord p).settle, m, q⟩ := by
  show execTs1Rx p w _ = _
  exact State.runIf_next (decide_eq_true hp) (if_neg (by simp [hok]))

/-- A state that lasted too long counts an attempt (R522). -/
theorem exec_linkStateTimeout_late {p : Nat} {d : Dev} (m : Memory) (q : List Instr) (hp : p < 65) (hlate : d.stateLate p = true) :
    exec (.linkStateTimeout p) ⟨d, m, q⟩ =
      .next ⟨if 3 ≤ (d.lport p).tries + 1 then ((d.setLport p fun l => { l with tries := min 3 (l.tries + 1) }).failTrain p).settle
        else ((Dev.setLport { d.setLport p (fun l => { l with tries := min 3 (l.tries + 1) }) with sec.keyx := Tab.put {} p {} d.sec.keyx } p
          LPort.cleared).tryLight p).settle, m, q⟩ := by
  show execLinkStateTimeout p _ = _
  exact State.runIf_next (decide_eq_true hp) (if_neg (by simp [hlate]))

/-- Settles O15, command by command: the hypotheses of each clause select one branch of the command's meaning. -/
theorem linkTrainingCommands : Obligations.LinkTrainingCommands := by
  unfold Obligations.LinkTrainingCommands
  refine ⟨?light, ?identity, ?newRound, ?strayActive, ?report, ?ready, ?thirdTimeout, ?timeout, ?retry⟩
  case light =>
    intro p locked copies w d m q hp hst hlocked hcopies
    show execLinkLightLock p locked copies w _ = _
    exact State.runIf_next (decide_eq_true hp) (if_pos (by simp [hst, hlocked, hcopies]))
  case identity =>
    intro p checks d m q hp hst
    have hport : p < 65 := by omega
    show execIdentCheckDone p checks _ = _
    refine State.runIf_next (decide_eq_true hport) ((if_neg (not_not_intro hst)).trans ?_)
    simp [hp.ne]
  case newRound =>
    intro p w d m q hp hok hround hst
    rw [exec_ts1Rx_accepted m q hp hok, if_pos (by simp [hround, hst])]
  case strayActive =>
    intro p w d m q hp hok hst
    rw [exec_ts1Rx_accepted m q hp hok, if_neg (by simp [hst]), Dev.strayWord, if_pos (by simp [hst])]
  case report =>
    intro p w d m q hp hok hround hst
    show execTs2Rx p w _ = _
    exact State.runIf_next (decide_eq_true hp) ((if_neg (by simp [hok])).trans (if_pos (by simp [hst, hround])))
  case ready =>
    intro p w d m q hp hok hst
    show execTs3Rx p w _ = _
    exact State.runIf_next (decide_eq_true hp) ((if_neg (by simp [hok])).trans ((if_neg (by simp [hst])).trans (if_pos hst)))
  case thirdTimeout =>
    intro p d m q hp _ htries hlate
    rw [exec_linkStateTimeout_late m q hp hlate, if_pos (Nat.succ_le_succ htries)]
  case timeout =>
    intro p d m q hp _ htries hlate
    rw [exec_linkStateTimeout_late m q hp hlate, if_neg (Nat.not_le.mpr (Nat.succ_lt_succ htries))]
  case retry =>
    intro p d m q hp hst hcfg hwait
    show execLinkFailedRetry p _ = _
    exact State.runIf_next (decide_eq_true hp) (if_pos (by rw [hst, hcfg, decide_eq_true hwait]; rfl))

end Sys2Proof.Machine

namespace Sys2Proof.Machine

/-! ## Lasers, wavelength moves and polishes (13; 14 R578 to R623; 15) -/

/-- A position of a Ruby's comb: the Ruby and one of its wavelengths. -/
theorem Unit.rubyChannel {n k : Nat} (hn : n < 2) (hk : k < 18) : (Unit.ruby n && Unit.channel k) = true := by
  simp [Unit.ruby, Unit.channel, hn, hk]

theorem Unit.optPortChannel {p k : Nat} (hp : p < 64) (hk : k < 18) : (Unit.optPort p && Unit.channel k) = true := by
  simp [Unit.optPort, Unit.channel, hp, hk]

/-- A ramp whose time is over ends (14 R582, R583). -/
theorem exec_laserRampEnd_over {j mpd : Nat} {d : Dev} (m : Memory) (q : List Instr) (hj : j < 72) (hst : (d.laser j).st = .ramp)
    (hover : (d.laser j).rampAt + (d.laser j).rampNs ≤ d.now) :
    exec (.laserRampEnd j mpd) ⟨d, m, q⟩ =
      .next ⟨if (d.laser j).toHold then
          ((d.setLaser j fun l => { l with st := .hold, current := 100, retries := 0, fcause := 0, mpd }).startPrimaries (laserRuby j)).settle
        else if mpd * 4 < (d.laser j).target then ((d.setLaser j fun l => { l with mpd }).failAttempt j 3).settle
        else (d.setLaser j fun l =>
          { l with st := .lit, current := min 1500 l.startI, retries := 0, fcause := 0, mpd, lowRun := 0, litAt := d.now }).spareBank (laserRuby j),
        m, q⟩ := by
  show execLaserRampEnd j mpd _ = _
  exact State.runIf_next (decide_eq_true hj) (if_neg (by simp [hst, hover]))

/-- Settles O20, command by command: the hypotheses of each clause select one branch of the command's meaning. -/
theorem laserCommands : Obligations.LaserCommands := by
  unfold Obligations.LaserCommands
  refine ⟨?rampHold, ?rampLit, ?rampFails, ?sample, ?retry, ?powerLoop, ?positionLit, ?swapLasers, ?swapDone, ?disabled, ?linkSilent, ?linkReturns⟩
  case rampHold =>
    intro j mpd d m q hj hst hhold hover
    rw [exec_laserRampEnd_over m q hj hst hover, if_pos hhold]
  case rampLit =>
    intro j mpd d m q hj hst hhold hpower hover
    rw [exec_laserRampEnd_over m q hj hst hover, if_neg (Bool.eq_false_iff.mp hhold), if_neg (Nat.not_lt.mpr hpower)]
  case rampFails =>
    intro j mpd d m q hj hst hhold hpower hover
    rw [exec_laserRampEnd_over m q hj hst hover, if_neg (Bool.eq_false_iff.mp hhold), if_pos hpower]
  case sample =>
    intro j x d m q hj hjudged
    show execLaserMonitorSample j x _ = _
    exact State.runIf_next (decide_eq_true hj) (if_pos hjudged)
  case retry =>
    intro j d m q hj hst hdue hnew
    show execLaserRetryTimer j _ = _
    exact State.runIf_next (decide_eq_true hj) ((if_pos (by simp [hst, hdue])).trans (if_neg (by rcases hnew with h | h <;> simp [h])))
  case powerLoop =>
    rintro j x d m q _ hj hst rfl
    show execLaserPowerLoop j x _ = _
    exact State.runIf_next (decide_eq_true hj) (if_neg (not_not_intro hst))
  case positionLit =>
    intro n k d m q hn hk hlit
    show execLaserPositionLit n k _ = _
    exact State.runIf_next (Unit.rubyChannel hn hk) (if_pos (by simpa using hlit))
  case swapLasers =>
    intro n k d m q w hn hk hswap hstep hmoves hstands
    show execLaserSwapAdvance n k _ = _
    exact State.runIf_next (Unit.rubyChannel hn hk) (by simp only [hswap, hstep, hmoves, hstands, if_true, Bool.false_eq_true, if_false])
  case swapDone =>
    intro n k d m q w hn hk hswap hstep hrelocked
    show execLaserSwapAdvance n k _ = _
    exact State.runIf_next (Unit.rubyChannel hn hk) (by simp only [hswap, if_neg hstep, if_pos hrelocked])
  case disabled =>
    intro n d m q hn
    show execLaserDisableWire n _ = _
    exact State.runIf_next (decide_eq_true hn) rfl
  case linkSilent =>
    intro n d m q hn
    show execRubyLinkSilent n _ = _
    exact State.runIf_next (decide_eq_true hn) rfl
  case linkReturns =>
    intro n d m q hn
    show execRubyLinkReturn n _ = _
    exact State.runIf_next (decide_eq_true hn) rfl

/-- A READY for the move whose lane both wavelengths carry (14 R603, R606). -/
theorem exec_walReady_dual {p lane dest slot : Nat} {d : Dev} (m : Memory) (q : List Instr) {k : Move} (hp : p < 64) (hmove : (d.wport p).move = some k)
    (hlane : k.lane = lane) (hdest : k.dest = dest) (hdual : k.dual = true) :
    exec (.walReady p lane dest slot) ⟨d, m, q⟩ =
      .next ⟨if k.kind = .brk then d.setWport p fun w => { w with move := none, breaks := satAdd 0xFF w.breaks }
        else d.setWport p fun w => { w with move := some { k with ready := true, slotM := some (max (d.lslot p) slot + 64) } }, m, q⟩ := by
  show execWalReady p lane dest slot _ = _
  refine State.runIf_next (decide_eq_true hp) ?_
  simp only [hmove]
  exact if_pos (by simp [hlane, hdest, hdual])

/-- Settles O21, command by command: the hypotheses of each clause select one branch of the command's meaning. -/
theorem wavelengthMoveCommands : Obligations.WavelengthMoveCommands := by
  unfold Obligations.WavelengthMoveCommands
  refine ⟨?begins, ?next, ?moveAt, ?slotN, ?aligned, ?ready, ?readyBreak, ?release, ?done, ?reqFree, ?reqReserved, ?reqNow, ?nak, ?cancel, ?rxuse,
    ?abandon, ?clear⟩
  case begins =>
    intro p d m q k hp hmove hnext
    show execMoveStart p _ = _
    exact State.runIf_next (decide_eq_true hp) (by simp only [hmove, hnext])
  case next =>
    intro p dest d m q hp
    show execWalNext p dest _ = _
    exact State.runIf_next (decide_eq_true hp) rfl
  case moveAt =>
    intro p lane from_ dest slot d m q hp
    show execWalMoveAt p lane from_ dest slot _ = _
    exact State.runIf_next (decide_eq_true hp) rfl
  case slotN =>
    intro p d m q k hp hmove hkind hdual hslot
    show execMoveSlotN p _ = _
    refine State.runIf_next (decide_eq_true hp) ?_
    simp only [hmove]
    exact if_pos (by rw [hslot, hdual, decide_eq_true hkind]; rfl)
  case aligned =>
    intro p slot d m q lane fr dest at_ hp hmove
    show execMoveAlignDone p slot _ = _
    exact State.runIf_next (decide_eq_true hp) (by simp only [hmove])
  case ready =>
    intro p lane dest slot d m q k hp hmove hlane hdest hdual hkind
    rw [exec_walReady_dual m q hp hmove hlane hdest hdual, if_neg hkind]
  case readyBreak =>
    intro p lane dest slot d m q k hp hmove hlane hdest hdual hkind
    rw [exec_walReady_dual m q hp hmove hlane hdest hdual, if_pos hkind]
  case release =>
    intro p d m q k slot hp hmove hslot hreached
    show execMoveReleaseSlot p _ = _
    exact State.runIf_next (decide_eq_true hp) (by simp only [hmove, hslot, if_pos hreached])
  case done =>
    intro p lane from_ slot d m q hp hawaits
    have hnone : ((d.setWport p fun w => w.laneGone lane from_).chan (ringNo p 1 from_)).awaits = none := hawaits
    show execWalDone p lane from_ slot _ = _
    exact State.runIf_next (decide_eq_true hp) (by simp only [hnone])
  case reqFree =>
    intro p lane from_ dest d m q hp hres hwait hfree
    show execWalReq p lane from_ dest _ = _
    refine State.runIf_next (decide_eq_true hp) ((if_neg ?_).trans (if_pos hfree))
    simp [hres, hwait, hfree]
  case reqReserved =>
    intro p lane from_ dest d m q hp hres
    show execWalReq p lane from_ dest _ = _
    exact State.runIf_next (decide_eq_true hp) (if_pos (by rw [hres]; rfl))
  case reqNow =>
    intro p lane from_ d m q hp hmap
    show execWalReqNow p lane from_ _ = _
    exact State.runIf_next (decide_eq_true hp) (congrArg Dev.settle (if_pos (by simp [hmap])))
  case nak =>
    intro p lane from_ reason d m q hp hpolish
    show execWalNak p lane from_ reason _ = _
    exact State.runIf_next (decide_eq_true hp) (if_pos hpolish)
  case cancel =>
    intro p lane d m q fr dest at_ hp hmove
    show execWalCancel p lane _ = _
    refine State.runIf_next (decide_eq_true hp) ?_
    simp only [hmove, if_true]
  case rxuse =>
    intro p bitmap d m q hp
    show execWalRxuse p bitmap _ = _
    exact State.runIf_next (decide_eq_true hp) rfl
  case abandon =>
    intro p d m q k hp hmove hkind hdual hready hlate
    show execMoveAbandon p _ = _
    refine State.runIf_next (decide_eq_true hp) ?_
    simp only [hmove]
    exact if_pos (by simp [hkind, hdual, hready, hlate])
  case clear =>
    intro p d m q hl hm hp
    show execWalCntClr p _ = _
    exact State.runIf_mmio_served (decide_eq_true hp) hl hm rfl

/-- Settles O22, command by command: the hypotheses of each clause select one branch of the command's meaning. -/
theorem polishCommands : Obligations.PolishCommands := by
  unfold Obligations.PolishCommands
  refine ⟨?start, ?startDark, ?scan, ?relock, ?drvcomp, ?offset, ?levels, ?applied, ?appliedAlone, ?lightTx, ?lightRx, ?lustre, ?record, ?recordNone,
    ?reservation, ?clear, ?clearEnded⟩
  case start =>
    intro b d m q x hb hdark hroom hnext
    show execPolishStart b _ = _
    refine State.runIf_next (decide_eq_true hb) ((if_neg (by simpa [hdark] using hroom)).trans ?_)
    simp only [hnext]
  case startDark =>
    intro b d m q hb hdark
    show execPolishStart b _ = _
    exact State.runIf_next (decide_eq_true hb) (if_pos (by simp [hdark]))
  case scan =>
    intro ch r d m q pl hch hpl hstep hheld
    show execPolishScanDone ch r _ = _
    refine State.runIf_next (decide_eq_true hch) ?_
    simp only [hpl]
    exact if_pos (by simp [hstep, hheld])
  case relock =>
    intro ch d m q pl hch hpl hstep hlocked
    show execPolishRelockDone ch _ = _
    refine State.runIf_next (decide_eq_true hch) ?_
    simp only [hpl]
    exact if_pos (by simp [hstep, hlocked])
  case drvcomp =>
    intro ch d m q pl hch hpl hstep houts
    show execPolishDrvcompDone ch _ = _
    refine State.runIf_next (decide_eq_true hch) ?_
    simp only [hpl]
    exact if_pos (by simp [hstep, houts])
  case offset =>
    intro ch ofs d m q pl hch hpl hstep hheld
    show execPolishOffsetDone ch ofs _ = _
    refine State.runIf_next (decide_eq_true hch) ?_
    simp only [hpl]
    exact if_pos (by simp [hstep, hheld])
  case levels =>
    intro ch x d m q pl hch hpl hstep
    show execPolishLevelsDone ch x _ = _
    exact State.runIf_next (decide_eq_true hch) (by simp only [hpl, if_pos hstep])
  case applied =>
    intro p k d m q v pl hp hk hshadow hpl hstep
    show execRxCorrectionApply p k _ = _
    exact State.runIf_next (Unit.optPortChannel hp hk) (by simp only [hshadow, hpl, if_pos hstep])
  case appliedAlone =>
    intro p k d m q v hp hk hshadow hpl
    show execRxCorrectionApply p k _ = _
    exact State.runIf_next (Unit.optPortChannel hp hk) (by simp only [hshadow, hpl])
  case lightTx =>
    intro ch x d m q pl hch hpl hfull hstep htx hrun
    show execLightPolishDone ch x _ = _
    refine State.runIf_next (decide_eq_true hch) ?_
    simp only [hpl]
    exact (if_neg (by simp [hfull, hstep])).trans ((if_pos htx).trans (if_neg (Nat.not_lt.mpr hrun)))
  case lightRx =>
    intro ch x d m q pl hch hpl hfull hstep hrx
    show execLightPolishDone ch x _ = _
    refine State.runIf_next (decide_eq_true hch) ?_
    simp only [hpl]
    exact (if_neg (by simp [hfull, hstep])).trans (if_neg (Bool.eq_false_iff.mp hrx))
  case lustre =>
    intro ch x d m q hch hrx hactive hlane
    show execLustreSample ch x _ = _
    exact State.runIf_next (decide_eq_true hch) (if_pos (by simp [hrx, hactive, hlane]))
  case record =>
    intro ch d m q hch hmay
    show execCalRecordWrite ch _ = _
    exact State.runIf_next (decide_eq_true hch) (if_pos hmay)
  case recordNone =>
    intro ch d m q hch hmay
    show execCalRecordWrite ch _ = _
    exact State.runIf_next (decide_eq_true hch) (if_neg (Bool.eq_false_iff.mp hmay))
  case reservation =>
    intro p d m q hp hset hover
    show execReservationTimeout p _ = _
    exact State.runIf_next (decide_eq_true hp) (if_pos (by simp [hset, hover]))
  case clear =>
    intro d m q hl hm
    show execCalCntClr _ = _
    exact State.run_mmio_served _ hl hm
  case clearEnded =>
    intro d m q hl hm
    show execCalCnt2Clr _ = _
    exact State.run_mmio_served _ hl hm

end Sys2Proof.Machine

namespace Sys2Proof.Machine

/-! ## Sensors, power states and the Vault (16; 17; 18 R753) -/

/-- The device is quiet for long only while it is quiet (16 R680). -/
theorem Dev.quietLong_of_not_quiet {d : Dev} (h : d.quiet = false) : d.quietLong = false := by
  rw [Dev.quietLong, h, Bool.false_and]

/-- A wake in the Always-on state raises PWR_REQ, and the device restarts where PWR_OK is high (16 R692). -/
theorem exec_aoWake_waiting {req : Option Req} {d : Dev} (m : Memory) (q : List Instr) (hst : d.pwr.state = 3) (hreq : d.jad.pwrReq = false)
    (hlatched : d.jad.latched = false) :
    exec (.aoWake req) ⟨d, m, q⟩ = .next ⟨(if d.jad.pwrOk then (d.aoWake req).restart else d.aoWake req).settle, m, q⟩ := by
  show execAoWake req _ = _
  exact State.run_next (if_pos (by simp [hst, hreq, hlatched]))

/-- Settles O23, command by command: the hypotheses of each clause select one branch of the command's meaning. -/
theorem thermalAndPowerCommands : Obligations.ThermalAndPowerCommands := by
  unfold Obligations.ThermalAndPowerCommands
  refine ⟨?round, ?limit, ?trip, ?tripReleased, ?lastStep, ?step, ?noStep, ?idle, ?notQuiet, ?wake, ?wakeAwake, ?aoWakePowered, ?aoWake, ?aoWakeLatched,
    ?coldWarm⟩
  case round =>
    intro temps power d m q
    show execThermalRound temps power _ = _
    exact State.run_next rfl
  case limit =>
    intro n temp d m q hn
    show execLimitComparator n temp _ = _
    exact State.runIf_next (decide_eq_true hn) rfl
  case trip =>
    intro n temp d m q hn htrip
    show execTripComparator n temp _ = _
    exact State.runIf_next (decide_eq_true hn) (if_pos htrip)
  case tripReleased =>
    intro n temp d m q hn hbelow
    show execTripComparator n temp _ = _
    exact State.runIf_next (decide_eq_true hn) (if_neg (Int.not_le.mpr hbelow))
  case lastStep =>
    intro d m q n v hseq hdue
    show execDomainStepDone _ = _
    refine State.run_next ?_
    simp only [hseq]
    exact if_pos hdue
  case step =>
    intro d m q n v x r hseq hdue
    show execDomainStepDone _ = _
    refine State.run_next ?_
    simp only [hseq]
    exact if_pos hdue
  case noStep =>
    intro d m q hseq
    show execDomainStepDone _ = _
    exact State.run_next (by simp only [hseq])
  case idle =>
    intro d m q hup hst hbusy hcfg _ hquiet
    show execIdleEntry _ = _
    exact State.run_next (if_pos (by rw [hup, hst, hbusy, hcfg, hquiet]; rfl))
  case notQuiet =>
    intro d m q hquiet
    show execIdleEntry _ = _
    exact State.run_next (if_neg (by rw [Dev.quietLong_of_not_quiet hquiet, Bool.and_false]; exact Bool.false_ne_true))
  case wake =>
    intro d m q hst
    show execIdleWake _ = _
    exact State.run_next (if_pos hst)
  case wakeAwake =>
    intro d m q hst
    show execIdleWake _ = _
    exact State.run_next (if_neg hst)
  case aoWakePowered =>
    intro req d m q hst hreq hlatched hok
    rw [exec_aoWake_waiting m q hst hreq hlatched, if_pos hok]
  case aoWake =>
    intro req d m q hst hreq hlatched hok
    rw [exec_aoWake_waiting m q hst hreq hlatched, if_neg (Bool.eq_false_iff.mp hok)]
  case aoWakeLatched =>
    intro req d m q hlatched hentering
    show execAoWake req _ = _
    exact State.run_next ((if_neg (by simp [hlatched])).trans (if_neg (Bool.eq_false_iff.mp hentering)))
  case coldWarm =>
    intro b d m q hb hwarming hwarmed
    show execColdWarmTimeout b _ = _
    exact State.runIf_next (decide_eq_true hb) (if_pos (by rw [hwarming, hwarmed]; rfl))

/-- A shadow region of a tenant. -/
theorem Unit.tenantRegion {t r : Nat} (ht : t < 16) (hr : r < 16) : (Unit.tenant t && Unit.shadowRegion r) = true := by
  simp [Unit.tenant, Unit.shadowRegion, ht, hr]

/-- A block of an Onyx die. -/
theorem Unit.dieBlock {die block : Nat} (hd : die < 8) (hb : block < 4096) : (Unit.onyxDie die && Unit.onyxBlock block) = true := by
  simp [Unit.onyxDie, Unit.onyxBlock, hd, hb]

/-- A program of a good block of the Vault, no raw command's (17 R705, R737). -/
theorem exec_vltProgramDone_vault {die block page : Nat} (ok : Bool) {d : Dev} (m : Memory) (q : List Instr) (hdie : die < 8) (hblock : block < 4096)
    (htest : isTest block = false) (hraw : d.rawProgram (4096 * die + block) page = none) (hbad : (d.blk (4096 * die + block)).bad = false) :
    exec (.vltProgramDone die block page ok) ⟨d, m, q⟩ =
      .next ⟨if ok then d.setBlk (4096 * die + block) fun b => b.program page d.now else (d.programFailed (4096 * die + block) page).settle, m, q⟩ := by
  show execVltProgramDone die block page ok _ = _
  refine State.runIf_next (Unit.dieBlock hdie hblock) ?_
  simp only [hraw]
  exact if_neg (by simp [htest, hbad])

/-- Settles O12, command by command: the hypotheses of each clause select one branch of the command's meaning. -/
theorem vaultCaptureCommands : Obligations.VaultCaptureCommands := by
  unfold Obligations.VaultCaptureCommands
  refine ⟨?mounted, ?mountFails, ?captureStart, ?captureDone, ?sealRecord, ?programDone, ?programFails, ?eraseDone, ?pageRead, ?scrub, ?reclaim,
    ?dieLost, ?clear⟩
  case mounted =>
    intro d m q hst hkey
    show execVltMount true _ = _
    refine State.run_next ((if_neg (not_not_intro hst)).trans (if_neg ?_))
    rcases hkey with h | h
    · simp [h]
    · simp [Option.isSome_iff_ne_none.mp h]
  case mountFails =>
    intro d m q hst
    show execVltMount false _ = _
    exact State.run_next ((if_neg (not_not_intro hst)).trans (if_pos rfl))
  case captureStart =>
    intro t region granule d m q k reg n ht hregion hmark hreg hunits hmay hturn
    show execVltCaptureStart t region granule _ = _
    refine State.runIf_next (Unit.tenantRegion ht hregion) ?_
    simp only [hmark, hreg, hunits]
    exact if_pos (by rw [hmay, hturn]; rfl)
  case captureDone =>
    rintro t region granule d m q k _ ht hregion hmark rfl hstored
    show execVltCaptureDone t region granule _ = _
    refine State.runIf_next (Unit.tenantRegion ht hregion) ?_
    simp only [hmark]
    revert hstored
    obtain ⟨e, stored⟩ := (d.programMirror (!d.vlt.lastMirror)).storeVer _
    rintro rfl
    rfl
  case sealRecord =>
    intro t d m q x ht hready
    show execVltSealRecord t _ = _
    exact State.runIf_next (decide_eq_true ht) (by simp only [hready])
  case programDone =>
    intro die block page d m q hdie hblock htest hraw hbad
    rw [exec_vltProgramDone_vault true m q hdie hblock htest hraw hbad, if_pos rfl]
  case programFails =>
    intro die block page d m q hdie hblock htest hraw hbad
    rw [exec_vltProgramDone_vault false m q hdie hblock htest hraw hbad, if_neg Bool.false_ne_true]
  case eraseDone =>
    intro die block ok d m q hdie hblock herasing
    show execVltEraseDone die block ok _ = _
    refine State.runIf_next (Unit.dieBlock hdie hblock) (if_neg ?_)
    rcases herasing with h | h <;> simp [h]
  case pageRead =>
    intro die block page reads d m q n errors ok hdie hblock hgood
    show execVltPageReadDone die block page reads _ = _
    exact State.runIf_next (Unit.dieBlock hdie hblock) (by simp only [hgood])
  case scrub =>
    intro d m q i p hmay hnext hbusier
    show execVltScrubTick _ = _
    refine State.run_next ((if_neg (by simp [hmay, hbusier])).trans ?_)
    simp only [hnext]
  case reclaim =>
    intro die block d m q hdie hblock htest hmay hst hmoved hdue
    show execVltReclaim die block _ = _
    refine State.runIf_next (Unit.dieBlock hdie hblock) ((if_neg (by simp [htest, hmay, hst, hdue])).trans ?_)
    revert hmoved
    obtain ⟨e, moved⟩ := d.moveLive (4096 * die + block)
    rintro rfl
    rfl
  case dieLost =>
    intro die d m q hdie hin
    show execVltDieLost die _ = _
    exact State.runIf_next (decide_eq_true hdie) (if_neg (Bool.eq_false_iff.mp hin))
  case clear =>
    intro d m q hl hm
    show execVltCntClr _ = _
    exact State.run_mmio_served _ hl hm

/-- A restore of which nothing is left open, and none of whose writes failed, ends as the last of them did (17 R730, R731). -/
theorem exec_vltRestoreDone_ends {t e : Nat} (ok : Bool) {d : Dev} (m : Memory) (q : List Instr) (ht : t < 16)
    (hrestoring : (d.vten t).restoring = some e) (hbad : (d.vten t).restoreBad = none) (hopen : ok = true → d.restoreOpen t = false) {x : Dev}
    (hx : { d.setVten t (fun v => { v with restoring := none, restoreBad := none }) with
      vlt.vrest := d.vlt.vrest.filter fun k => decide (k.1 ≠ t) } = x) :
    exec (.vltRestoreDone t ok) ⟨d, m, q⟩ = .next ⟨(if ok then x.restored t e else x.endVault t 0x0703 .mediumError []).settle, m, q⟩ := by
  subst hx
  show execVltRestoreDone t ok _ = _
  refine State.runIf_next (decide_eq_true ht) ?_
  simp only [hrestoring, hbad]
  exact if_neg (by simpa using hopen)

/-- Settles O13, command by command: the hypotheses of each clause select one branch of the command's meaning. -/
theorem vaultTwinCommands : Obligations.VaultTwinCommands := by
  unfold Obligations.VaultTwinCommands
  refine ⟨?restored, ?restoreFails, ?resync, ?heal, ?piece, ?lastPiece, ?stored, ?notStored, ?sealTaken, ?sealAcked, ?drop, ?dropAll, ?read, ?lastData,
    ?data⟩
  case restored =>
    intro t d m q e ht hrestoring hbad hopen
    rw [exec_vltRestoreDone_ends true m q ht hrestoring hbad (fun _ => hopen) rfl, if_pos rfl]
  case restoreFails =>
    intro t d m q e ht hrestoring hbad
    rw [exec_vltRestoreDone_ends false m q ht hrestoring hbad nofun rfl, if_neg Bool.false_ne_true]
  case resync =>
    intro t d m q ht hmirroring hst
    have hready : (d.setVten t fun v => { v with mirrorOff := false }).vlt.st = .ready := hst
    show execVltResync t _ = _
    exact State.runIf_next (decide_eq_true ht) (if_pos (by rw [hmirroring, hready]; rfl))
  case heal =>
    intro t d m q ht
    show execVltHeal t _ = _
    exact State.runIf_next (decide_eq_true ht) rfl
  case piece =>
    intro t region granule piece epoch data d m q ht hfew
    show execTwnVput t region granule piece epoch data _ = _
    exact State.runIf_next (decide_eq_true ht) (if_pos hfew)
  case lastPiece =>
    intro t region granule piece epoch data d m q ht hwhole hserves
    show execTwnVput t region granule piece epoch data _ = _
    exact State.runIf_next (decide_eq_true ht) ((if_neg (Nat.not_lt.mpr hwhole)).trans (congrArg Dev.settle (if_pos hserves)))
  case stored =>
    intro t region granule epoch d m q ht hmarks
    show execTwnVack t region granule epoch true _ = _
    refine State.runIf_next (decide_eq_true ht) ((if_pos rfl).trans ?_)
    have hnone : ∀ vers : List Ver, (({ d with onyx.vers := vers } : Dev).vten t).marks = [] := fun _ => hmarks
    simp only [hnone, List.find?_nil]
  case notStored =>
    intro t region granule epoch d m q ht
    show execTwnVack t region granule epoch false _ = _
    exact State.runIf_next (decide_eq_true ht) (if_neg Bool.false_ne_true)
  case sealTaken =>
    intro t epoch x d m q ht hserves
    show execTwnVseal t epoch x _ = _
    exact State.runIf_next (decide_eq_true ht) (if_neg (by simp [hserves]))
  case sealAcked =>
    intro t epoch d m q ht hsealing
    show execTwnVsealack t epoch true _ = _
    exact State.runIf_next (decide_eq_true ht) (by simp only [hsealing, if_true, Bool.false_eq_true, if_false])
  case drop =>
    intro t epoch d m q ht hone
    show execTwnVdrop t epoch _ = _
    exact State.runIf_next (decide_eq_true ht) (if_neg hone)
  case dropAll =>
    intro t d m q ht
    show execTwnVdrop t _ _ = _
    exact State.runIf_next (decide_eq_true ht) (if_pos rfl)
  case read =>
    intro t region granule epoch d m q v ht hv
    show execTwnVread t region granule epoch _ = _
    exact State.runIf_next (decide_eq_true ht) (by simp only [hv])
  case lastData =>
    intro t region granule piece epoch data d m q ht hasked hwhole
    show execTwnVdata t region granule piece epoch data _ = _
    exact State.runIf_next (decide_eq_true ht) ((if_neg (by rw [hasked]; exact Bool.false_ne_true)).trans (if_neg (Nat.not_lt.mpr hwhole)))
  case data =>
    intro t region granule piece epoch data d m q ht hasked hfew
    show execTwnVdata t region granule piece epoch data _ = _
    exact State.runIf_next (decide_eq_true ht) ((if_neg (by rw [hasked]; exact Bool.false_ne_true)).trans (if_pos hfew))

end Sys2Proof.Machine

namespace Sys2Proof.Machine

/-! ## The Twin pair (18 R754 to R779) -/

/-- A PAIR that a pairing device takes (18 R756, R757). -/
theorem exec_twnPair_pairing {x : PairMsg} {d : Dev} (m : Memory) (q : List Instr) (hst : d.twn.st = .pairing ∨ d.twn.st = .solo) :
    exec (.twnPair x) ⟨d, m, q⟩ = .next ⟨if d.samePkg x && (d.postIf (!d.samePkg x) Src.fabPkgMismatch 0).pairOk x then
        ((d.postIf (!d.samePkg x) Src.fabPkgMismatch 0).pairAccept x).settle
      else ((d.postIf (!d.samePkg x) Src.fabPkgMismatch 0).pairRefuse x).settle, m, q⟩ := by
  show execTwnPair x _ = _
  exact State.run_next (if_neg (by rcases hst with h | h <;> simp [h]))

/-- A piece of a snapshot, where the pair syncs or is paired (18 R758). -/
theorem exec_twnSnap_taken {t off : Nat} (last : Bool) {a : Snap} {d : Dev} (m : Memory) (q : List Instr) (ht : t < 16)
    (hst : d.twn.st = .syncing ∨ d.twn.st = .paired) :
    exec (.twnSnap t off last a) ⟨d, m, q⟩ =
      .next ⟨if last then ((d.takeSnap t off last a).jack (d.twn.japplied + 1)).settle else d.takeSnap t off last a, m, q⟩ := by
  show execTwnSnap t off last a _ = _
  exact State.runIf_next (decide_eq_true ht) (if_neg (by rcases hst with h | h <;> simp [h]))

/-- The failure timer of an enabled pair whose partner is silent on the wire and on the port (18 R766, R767). -/
theorem exec_twnFailureTimer_silent {d : Dev} (m : Memory) (q : List Instr) (halive : d.twn.aliveIn = false) (hport : (d.lport 64).st ≠ .active)
    (hon : d.twn.enabled = true) (hlate : max d.twn.aliveLost (d.lport 64).leftAt + 20000 ≤ d.now) :
    exec .twnFailureTimer ⟨d, m, q⟩ =
      .next ⟨if (decide (d.twn.st = .syncing) || decide (d.twn.st = .paired)) && d.partnerHellos.any fun a => decide (d.now < a + 3000000) then
        { d with twn.holdAt := some d.now } else d.partnerFailed.settle, m, q⟩ := by
  show execTwnFailureTimer _ = _
  exact State.run_next (if_neg (by simp [Dev.partnerSilent, halive, hport, hon, hlate]))

/-- Settles O30, command by command: the hypotheses of each clause select one branch of the command's meaning. -/
theorem twinCommands : Obligations.TwinCommands := by
  unfold Obligations.TwinCommands
  refine ⟨?pairAccepted, ?pairRefused, ?pairOtherPkg, ?pairOff, ?lastSnap, ?snap, ?journal, ?journalGap, ?jack, ?jackOld, ?beat, ?beatSend, ?down,
    ?timerHellos, ?timerFails, ?timerAlive, ?holdHello, ?holdFails, ?portLost, ?portDown, ?activePairs, ?activeCleave, ?timeout, ?timeoutNone, ?clear⟩
  case pairAccepted =>
    intro x d m q hst hpkg hok
    rw [exec_twnPair_pairing m q hst]
    simp only [hpkg, Dev.postIf, hok, Bool.not_true, Bool.and_self, Bool.false_eq_true, if_false, if_true]
  case pairRefused =>
    intro x d m q hst hpkg hok
    rw [exec_twnPair_pairing m q hst]
    simp only [hpkg, Dev.postIf, hok, Bool.not_true, Bool.and_false, Bool.false_eq_true, if_false]
  case pairOtherPkg =>
    intro x d m q hst hpkg
    rw [exec_twnPair_pairing m q hst]
    simp only [hpkg, Dev.postIf, Bool.not_false, Bool.false_and, Bool.false_eq_true, if_false, if_true]
  case pairOff =>
    intro x d m q hst
    show execTwnPair x _ = _
    exact State.run_next (if_pos (by simp [hst]))
  case lastSnap =>
    intro t off a d m q ht hst
    rw [exec_twnSnap_taken true m q ht hst, if_pos rfl]
  case snap =>
    intro t off a d m q ht hst
    rw [exec_twnSnap_taken false m q ht hst, if_neg Bool.false_ne_true]
  case journal =>
    intro jseq entries d m q hst hnext
    show execTwnJrnl jseq entries _ = _
    exact State.run_next (if_neg (by rcases hst with h | h <;> simp [h, hnext]))
  case journalGap =>
    intro jseq entries d m q hgap
    show execTwnJrnl jseq entries _ = _
    exact State.run_next (if_pos (by simp [hgap]))
  case jack =>
    intro jseq d m q hnew hsent
    show execTwnJack jseq _ = _
    exact State.run_next (if_pos (by simp [hnew, hsent]))
  case jackOld =>
    intro jseq d m q hold
    show execTwnJack jseq _ = _
    have hstale : ¬ (d.twn.jacked < jseq ∧ jseq < d.twn.jnext) := by omega
    exact State.run_next (if_neg (by simpa using hstale))
  case beat =>
    intro tstate jseq d m q
    show execTwnBeat tstate jseq _ = _
    exact State.run_next rfl
  case beatSend =>
    intro d m q hon hport
    show execTwnBeatSend _ = _
    exact State.run_next (if_pos (by simp [hon, hport]))
  case down =>
    intro cause d m q
    show execTwnDown cause _ = _
    exact State.run_next rfl
  case timerHellos =>
    intro d m q halive hport hon hst hhellos hlate
    rw [exec_twnFailureTimer_silent m q halive hport hon hlate, if_pos (by rw [hhellos, hst]; rfl)]
  case timerFails =>
    intro d m q halive hport hon hhellos hlate
    rw [exec_twnFailureTimer_silent m q halive hport hon hlate, if_neg (by rw [hhellos, Bool.and_false]; exact Bool.false_ne_true)]
  case timerAlive =>
    intro d m q halive
    show execTwnFailureTimer _ = _
    exact State.run_next (if_pos (by simp [Dev.partnerSilent, halive]))
  case holdHello =>
    intro d m q a hhold hhello
    show execTwnHelloHold _ = _
    exact State.run_next (by simp only [hhold, if_pos hhello])
  case holdFails =>
    intro d m q a hhold hhello hsilent
    show execTwnHelloHold _ = _
    exact State.run_next (by simp only [hhold, if_neg (Bool.eq_false_iff.mp hhello), if_pos hsilent])
  case portLost =>
    intro d m q hport halive hst
    show execTwnPortLost _ = _
    refine State.run_next ?_
    rw [if_neg hport]
    exact if_pos (by rcases hst with h | h <;> simp [halive, h])
  case portDown =>
    intro d m q hport halive
    show execTwnPortLost _ = _
    refine State.run_next ?_
    rw [if_pos hport]
    exact if_neg (by simp [halive])
  case activePairs =>
    intro d m q hport hst
    show execTwnPortActive _ = _
    refine State.run_next ((if_neg (not_not_intro hport)).trans ?_)
    rcases hst with h | h <;> simp only [h]
  case activeCleave =>
    intro d m q hport hst hcfg
    show execTwnPortActive _ = _
    refine State.run_next ((if_neg (not_not_intro hport)).trans ?_)
    simp only [hst]
    exact if_pos hcfg
  case timeout =>
    intro d m q hst
    show execTwnPairingTimeout _ = _
    exact State.run_next (if_pos hst)
  case timeoutNone =>
    intro d m q hst
    show execTwnPairingTimeout _ = _
    exact State.run_next (if_neg hst)
  case clear =>
    intro d m q hl hm
    show execTwnCntClr _ = _
    exact State.run_mmio_served _ hl hm

end Sys2Proof.Machine

namespace Sys2Proof.Machine

/-! ## Keys of a port and of the module, and the module itself (19) -/

/-- A VERIFY in the exchange of a keying port: its signature decides (19 R798). -/
theorem exec_keymsgVerify_keying {p : Nat} {sig : BitVec 768} {d : Dev} (m : Memory) (q : List Instr) (hp : p < 65) (hkeying : d.keying p = true) :
    exec (.keymsgVerify p sig) ⟨d, m, q⟩ =
      .next ⟨if (d.keyxOf p).verifies sig then d.setKeyx p fun x => { x with verifyOk := true } else (d.keyFail p 2).settle, m, q⟩ := by
  show execKeymsgVerify p sig _ = _
  exact State.runIf_next (decide_eq_true hp) (if_neg (by simp [hkeying]))

/-- A FINISH whose value is the one expected, after a VERIFY that held (19 R798, R799, R803). -/
theorem exec_keymsgFinish_good {p : Nat} {mac : BitVec 384} {d x : Dev} (m : Memory) (q : List Instr) (hp : p < 65) (hkeying : d.keying p = true)
    (hverify : (d.keyxOf p).verifyOk = true) (hmac : mac = finishMac (d.keyxOf p).kdkRx (d.keyxOf p).thRx (d.keyxOf p).there)
    (hx : (d.setKeyx p fun x => { x with finishOk := true }) = x) :
    exec (.keymsgFinish p mac) ⟨d, m, q⟩ = .next ⟨if p = 64 then x.linkItem p (.keymsg p 7 0 1 x.pvkData) else x.installKeys p, m, q⟩ := by
  subst hx
  show execKeymsgFinish p mac _ = _
  refine State.runIf_next (decide_eq_true hp) ((if_neg (by simp [hkeying])).trans (if_pos ?_))
  rw [hverify, decide_eq_true hmac]
  rfl

/-- A PVK on the Twin port whose FINISH held and whose keys are not installed yet (19 R803, R804). -/
theorem exec_keymsgPvk_expected {state : Nat} {wrapped : BitVec 320} {d : Dev} (m : Memory) (q : List Instr) (hkeying : d.keying 64 = true)
    (hfinish : (d.keyxOf 64).finishOk = true) (hnew : (d.keyxOf 64).installed = false) :
    exec (.keymsgPvk state wrapped) ⟨d, m, q⟩ =
      .next ⟨if state = 0 then d.installKeys 64
        else match d.pvkFar wrapped with
          | none => (d.keyFail 64 6).settle
          | some far =>
            if d.secNv.pvk = some far then d.installKeys 64
            else if decide (d.pvkState = 2) && decide (state = 2) then ((d.keyFail 64 6).post Src.secPvkConflict 0).settle
            else (if d.pvkAdopts state then { d with secNv.pvk := some far } else d).installKeys 64, m, q⟩ := by
  show execKeymsgPvk state wrapped _ = _
  exact State.run_next (if_neg (by simp only [hkeying, hfinish, hnew, Bool.not_true, Bool.or_self, Bool.false_eq_true, not_false_eq_true]))

/-- Settles O17, command by command: the hypotheses of each clause select one branch of the command's meaning. -/
theorem keyExchangeCommands : Obligations.KeyExchangeCommands := by
  unfold Obligations.KeyExchangeCommands
  refine ⟨?hello, ?helloMode, ?cert, ?certBad, ?verify, ?finish, ?finishTwin, ?rekey, ?rekeyAck, ?pvkNone, ?pvk, ?abort⟩
  case hello =>
    intro p h d m q hp hkeying hmode hfs
    show execKeymsgHello p h _ = _
    refine State.runIf_next (decide_eq_true hp) ((if_neg (by simp [hkeying])).trans ?_)
    rw [if_neg (not_not_intro hmode), if_neg (not_not_intro hfs)]
  case helloMode =>
    intro p h d m q hp hkeying hmode
    show execKeymsgHello p h _ = _
    exact State.runIf_next (decide_eq_true hp) ((if_neg (by simp [hkeying])).trans (if_pos hmode))
  case cert =>
    intro p frag nfrag data d m q hp hkeying hsent hgood
    show execKeymsgCert p frag nfrag data _ = _
    exact State.runIf_next (decide_eq_true hp) ((if_neg (by simp [hkeying, hsent])).trans (if_neg (Bool.eq_false_iff.mp hgood)))
  case certBad =>
    intro p frag nfrag data d m q hp hkeying hsent hbad
    show execKeymsgCert p frag nfrag data _ = _
    exact State.runIf_next (decide_eq_true hp) ((if_neg (by simp [hkeying, hsent])).trans (if_pos hbad))
  case verify =>
    intro p sig d m q hp hkeying
    exact exec_keymsgVerify_keying m q hp hkeying
  case finish =>
    intro p mac d m q hp hkeying hverify hmac
    have hport : p < 65 := by omega
    rw [exec_keymsgFinish_good m q hport hkeying hverify hmac rfl, if_neg hp.ne]
  case finishTwin =>
    intro mac d m q hkeying hverify hmac
    rw [exec_keymsgFinish_good m q (by decide) hkeying hverify hmac rfl, if_pos rfl]
  case rekey =>
    intro p nonce eph d m q x n y k hp hactive hinstalled hservice hn hk
    show execKeymsgRekey p nonce eph _ = _
    refine State.runIf_next (decide_eq_true hp) ((if_pos (by simp [hactive, hinstalled, hservice])).trans ?_)
    simp only [hn, hk]
  case rekeyAck =>
    intro p nonce eph d m q r hp hrekey hactive hservice
    show execKeymsgRekeyAck p nonce eph _ = _
    refine State.runIf_next (decide_eq_true hp) ?_
    simp only [hrekey]
    exact if_pos (by rw [hactive, hservice]; rfl)
  case pvkNone =>
    intro wrapped d m q hkeying hfinish hnew
    rw [exec_keymsgPvk_expected m q hkeying hfinish hnew, if_pos rfl]
  case pvk =>
    intro state wrapped d m q far hkeying hfinish hnew hstate hfar hagree
    rw [exec_keymsgPvk_expected m q hkeying hfinish hnew, if_neg hstate, hfar]
    rcases hagree with hsame | ⟨hother, hfree⟩
    · simp only [hsame, ne_eq, not_true, false_and, if_false, if_true]
    · simp [hother, hfree]
  case abort =>
    intro p reason d m q hp hst habort
    show execKeymsgAbort p reason _ = _
    exact State.runIf_next (decide_eq_true hp) (if_pos (by simp [hst, habort]))

/-- A key-management request that no check refuses takes its effect and is answered OK (19 R814). -/
theorem Dev.vop_served {d : Dev} {n : Nat} {v : VopReq} {check : Option Status} (f : Dev → Dev) (hup : d.up = true) (hco : d.coSession v = true)
    (hmode : d.sec.mode ≠ .error) (hcheck : check = none) : d.vop n v check f = (f d).vopAnswer n .ok := by
  simp only [Dev.vop, hup, hco, hmode, hcheck, Bool.not_true, Bool.false_eq_true, if_false]

/-- A request outside a session of the CO is refused before anything else is looked at (19 R814). -/
theorem Dev.vop_denied {d : Dev} {n : Nat} {v : VopReq} {check : Option Status} (f : Dev → Dev) (hup : d.up = true) (hco : d.coSession v = false) :
    d.vop n v check f = d.vopAnswer n .accessDenied := by
  simp only [Dev.vop, hup, hco, Bool.not_true, Bool.not_false, Bool.false_eq_true, if_false, if_true]

/-- There are four slots for roots, 1 to 4 (19 R814). -/
theorem rootCheck_none {v : VopReq} (hlow : 1 ≤ v.idx) (hhigh : v.idx ≤ 4) : rootCheck v = none := by
  have hplace : ¬ (v.idx = 0 ∨ 4 < v.idx) := by omega
  exact if_neg (by simpa using hplace)

/-- Settles O18: `Dev.vop_served` and `Dev.vop_denied` are what each request of key management is answered. -/
theorem keyManagementCommands : Obligations.KeyManagementCommands := by
  unfold Obligations.KeyManagementCommands
  refine ⟨?spdm, ?keyLoad, ?keyLoadDenied, ?keyClear, ?fsLoad, ?rootAdd, ?rootClear, ?coKey⟩
  case spdm =>
    intro transport session x d m q
    show execSpdmRequest transport session x _ = _
    exact State.run_next rfl
  case keyLoad =>
    intro v key1 key2 d m q hup hco hmode hcheck
    show execKeyLoad v key1 key2 _ = _
    exact State.run_next (Dev.vop_served _ hup hco hmode hcheck)
  case keyLoadDenied =>
    intro v key1 key2 d m q hup hco
    show execKeyLoad v key1 key2 _ = _
    exact State.run_next (Dev.vop_denied _ hup hco)
  case keyClear =>
    intro v d m q hup hco hmode hsel htenant
    show execKeyClear v _ = _
    have hnames : ¬ (63 < v.sel ∨ 15 < v.tenant) := by omega
    exact State.run_next (Dev.vop_served _ hup hco hmode (if_neg (by simpa using hnames)))
  case fsLoad =>
    intro v fs d m q hup hco hmode
    show execFsLoad v fs _ = _
    exact State.run_next (Dev.vop_served _ hup hco hmode rfl)
  case rootAdd =>
    intro v hash d m q hup hco hmode hlow hhigh
    show execRootAdd v hash _ = _
    exact State.run_next (Dev.vop_served _ hup hco hmode (rootCheck_none hlow hhigh))
  case rootClear =>
    intro v d m q hup hco hmode hlow hhigh
    show execRootClear v _ = _
    exact State.run_next (Dev.vop_served _ hup hco hmode (rootCheck_none hlow hhigh))
  case coKey =>
    intro v key d m q hup hco hmode
    show execCokeySet v key _ = _
    exact State.run_next (Dev.vop_served _ hup hco hmode rfl)

/-- A reseed that is due: health decides (19 R787). -/
theorem exec_drbgReseed_due (ok : Bool) {d : Dev} (m : Memory) (q : List Instr) (hup : d.sec.up = true)
    (hdue : 2 ^ 20 ≤ d.sec.gens ∨ d.sec.reseedAt + 1000000000 ≤ d.now) :
    exec (.drbgReseed ok) ⟨d, m, q⟩ =
      .next ⟨if ok then { d with sec.reseedAt := d.now, sec.gens := 0 } else (({ d with sec.mode := .error }).post Src.secCast 0).settle, m, q⟩ := by
  have hreseed : d.reseedDue = true := by simpa [Dev.reseedDue] using hdue
  show execDrbgReseed ok _ = _
  exact State.run_next (if_neg (by simp [hreseed, hup]))

/-- Settles O19, command by command: the hypotheses of each clause select one branch of the command's meaning. -/
theorem securityModuleCommands : Obligations.SecurityModuleCommands := by
  unfold Obligations.SecurityModuleCommands
  refine ⟨?preop, ?selftest, ?reseed, ?reseedFails, ?entropy, ?nonce, ?lockout, ?breach, ?noBreach, ?fault, ?clear⟩
  case preop =>
    intro passed d m q hst
    show execSelftestPreop passed _ = _
    exact State.run_next (if_pos hst)
  case selftest =>
    intro d m q hrunning
    show execSelftestDone _ _ = _
    exact State.run_next (if_pos hrunning)
  case reseed =>
    intro d m q hup hdue
    rw [exec_drbgReseed_due true m q hup hdue, if_pos rfl]
  case reseedFails =>
    intro d m q hup hdue
    rw [exec_drbgReseed_due false m q hup hdue, if_neg Bool.false_ne_true]
  case entropy =>
    intro d m q
    show execEntropySampleFail _ = _
    exact State.run_next rfl
  case nonce =>
    intro path d m q x hnonce hover
    show execAuthNonceExpiry path _ = _
    refine State.run_next (if_pos ?_)
    rw [hnonce, Option.any_some]
    exact decide_eq_true hover
  case lockout =>
    intro path d m q x hlock hover
    show execAuthLockoutEnd path _ = _
    refine State.run_next (if_pos ?_)
    rw [hlock, Option.any_some]
    exact decide_eq_true hover
  case breach =>
    intro d m q b r hup hfirst
    show execMeshCheck (b :: r) _ = _
    exact State.run_next ((if_neg (by simp [hup])).trans (if_neg (Bool.eq_false_iff.mp hfirst)))
  case noBreach =>
    intro d m q hup
    show execMeshCheck [] _ = _
    exact State.run_next (if_neg (by simp [hup]))
  case fault =>
    intro src unit dom d m q
    show execFaultRaise src unit dom _ = _
    exact State.run_next rfl
  case clear =>
    intro d m q hl hm
    show execSecCntClr _ = _
    exact State.run_mmio_served _ hl hm

end Sys2Proof.Machine

namespace Sys2Proof.Machine

/-! ## Fault registers, telemetry, stops and the test access port (20; 21; 23 R920, R924) -/

/-- Settles O32, command by command: the hypotheses of each clause select one branch of the command's meaning. -/
theorem faultRegisterCommands : Obligations.FaultRegisterCommands := by
  unfold Obligations.FaultRegisterCommands
  refine ⟨?inclusions, ?inclusionsWait, ?ackAll, ?ackTenant, ?severity, ?severityLocked, ?config, ?configLocked, ?clear, ?clearRejected⟩
  case inclusions =>
    intro d m q hon
    show execInclusionDeferredWrite _ = _
    exact State.run_next (if_pos hon)
  case inclusionsWait =>
    intro d m q hoff
    show execInclusionDeferredWrite _ = _
    exact State.run_next (if_neg hoff)
  case ackAll =>
    intro d m q hl hm
    show execFltAckAll _ = _
    exact State.run_mmio_served _ hl hm
  case ackTenant =>
    intro t d m q hl hm ht
    show execTenFstatClr t _ = _
    exact State.runIf_next (decide_eq_true ht) (Dev.mmioTen_served _ hl hm)
  case severity =>
    intro w val d m q hl hm hw hopen
    show execFltSevWrite w val _ = _
    exact State.runIf_mmio_served (decide_eq_true hw) hl hm (if_neg (Bool.eq_false_iff.mp hopen))
  case severityLocked =>
    intro w val d m q hl hm hw hlock
    show execFltSevWrite w val _ = _
    exact State.runIf_mmio_served (decide_eq_true hw) hl hm (if_pos hlock)
  case config =>
    intro val d m q hl hm hopen
    show execFltCfgWrite val _ = _
    exact State.run_next ((Dev.mmio_served _ hl hm).trans (if_neg (Bool.eq_false_iff.mp hopen)))
  case configLocked =>
    intro val d m q hl hm hlock
    show execFltCfgWrite val _ = _
    exact State.run_next ((Dev.mmio_served _ hl hm).trans (if_pos hlock))
  case clear =>
    intro d m q hl hm
    show execFltInclclr _ = _
    exact State.run_mmio_served _ hl hm
  case clearRejected =>
    intro d m q hl hm
    show execFltStatSevRejClr _ = _
    exact State.run_mmio_served _ hl hm

/-- A TAP instruction of the EXTEST class is held (23 R920, R924). -/
theorem exec_tapInstructionLoad_extest {instr : Nat} {d x : Dev} (m : Memory) (q : List Instr) (hlow : 3 ≤ instr) (hhigh : instr ≤ 7)
    (hx : { d with jad.tap := instr } = x) :
    exec (.tapInstructionLoad instr) ⟨d, m, q⟩ =
      .next ⟨Dev.settle { (if 4 ≤ x.boot.stage.code && !x.jad.latched then { x.devReset .tap with jad.bscanDr := true } else x) with jad.bscanHold := true },
        m, q⟩ := by
  subst hx
  show execTapInstructionLoad instr _ = _
  refine State.run_next ?_
  simp only [if_pos hhigh]
  exact if_pos (by simp [extestClass, hlow, hhigh])

/-- Settles O31, command by command: the hypotheses of each clause select one branch of the command's meaning. -/
theorem debugCommands : Obligations.DebugCommands := by
  unfold Obligations.DebugCommands
  refine ⟨?frame, ?frameNone, ?timestampOff, ?timestamp, ?dumpTimeout, ?dumpDone, ?cut, ?cutWaits, ?record, ?stopLimit, ?clearTrace, ?clearTelemetry,
    ?readCycle, ?readTime, ?extest, ?tapOther, ?tapUnknown, ?trst⟩
  case frame =>
    intro d m q dest period n htlm hs hdue
    show execTlmFrame _ = _
    refine State.run_next ?_
    simp only [htlm]
    exact if_neg (by simp [Dev.not_stopped_of_ne hs, hdue])
  case frameNone =>
    intro d m q htlm
    show execTlmFrame _ = _
    exact State.run_next (by simp only [htlm])
  case timestampOff =>
    intro d m q hperiod
    show execTsSend _ = _
    exact State.run_next (if_pos (by rw [decide_eq_true hperiod, Bool.true_or]))
  case timestamp =>
    intro d m q hperiod hdue
    show execTsSend _ = _
    exact State.run_next (if_neg (by rw [decide_eq_false hperiod, decide_eq_false (Nat.not_lt.mpr hdue)]; exact Bool.false_ne_true))
  case dumpTimeout =>
    intro t d m q x ht hdump hfiring hs hlate
    show execDumpTimeout t _ = _
    refine State.runIf_next (decide_eq_true ht) ?_
    simp only [hdump]
    exact if_pos (by simp [hfiring, Dev.not_stopped_of_ne hs, hlate])
  case dumpDone =>
    intro t d m q x gq idx st ht hdump hfiring hstatus hwritten
    show execDumpDone t _ = _
    exact State.runIf_next (decide_eq_true ht) (by simp only [hdump, hfiring, hstatus, if_pos hwritten])
  case cut =>
    intro d m q hst hnow
    show execStopCut _ = _
    exact State.run_next (if_pos (by simpa [hst] using hnow))
  case cutWaits =>
    intro d m q hst hcause hlater
    show execStopCut _ = _
    exact State.run_next (if_neg (by simp [hst, hcause, hlater]))
  case record =>
    intro d m q hst hrecord
    show execStopRecordDone _ = _
    exact State.run_next (if_pos (by simp [Dev.stopped, hst, hrecord]))
  case stopLimit =>
    intro d m q hlimit hover
    show execMaxstopExpiry _ = _
    exact State.run_next (if_neg (by rw [decide_eq_false hlimit, decide_eq_false (Nat.not_lt.mpr hover)]; exact Bool.false_ne_true))
  case clearTrace =>
    intro d m q hl hm
    show execDbgTrstatClr _ = _
    exact State.run_mmio_served _ hl hm
  case clearTelemetry =>
    intro d m q hl hm
    show execDbgTlmstatClr _ = _
    exact State.run_mmio_served _ hl hm
  case readCycle =>
    intro d m q hl hm
    show execDbgStopvalLoRead true _ = _
    exact State.run_next ((Dev.mmio_served _ hl hm).trans (if_pos rfl))
  case readTime =>
    intro d m q hl hm
    show execDbgStopvalLoRead false _ = _
    exact State.run_next ((Dev.mmio_served _ hl hm).trans (if_neg Bool.false_ne_true))
  case extest =>
    intro instr d m q hlow hhigh hstage hlatched
    have hreset : (decide (4 ≤ d.boot.stage.code) && !d.jad.latched) = true := by simp [hstage, hlatched]
    rw [exec_tapInstructionLoad_extest m q hlow hhigh rfl, if_pos hreset]
  case tapOther =>
    intro instr d m q hlow
    show execTapInstructionLoad instr _ = _
    refine State.run_next ?_
    simp only [if_pos (hlow.trans (by decide : 2 ≤ 7))]
    exact if_neg (by simp [extestClass, Nat.not_le.mpr (Nat.lt_succ_of_le hlow)])
  case tapUnknown =>
    intro instr d m q hhigh
    show execTapInstructionLoad instr _ = _
    refine State.run_next ?_
    simp only [if_neg (Nat.not_le.mpr hhigh)]
    exact if_neg (by decide)
  case trst =>
    intro d m q
    show execTrstAssert _ = _
    exact State.run_next rfl

end Sys2Proof.Machine
